-- ==== Sys2Proof/Word.lean ====
section
/-! DEFINITION. The words of the machine (spec/00 R7, R8) and the finite maps that hold its arrays. -/

namespace Sys2Proof

/-- A 32-bit register or instruction word. -/
abbrev Word := BitVec 32

/-- A byte of memory. -/
abbrev Byte := BitVec 8

/-- A set of lanes of a warp: lane `l` is bit `l` (spec/00 R5). -/
abbrev Lanes := BitVec 32

/-- A sparse array: pairs of index and element, indices strictly rising, no element equal to the default listed. -/
abbrev Map (α : Type) := List (Nat × α)

end Sys2Proof
end

