-- ==== Sys2Proof/Machine/Cipher.lean ====
section
/-! DEFINITION. The cipher of an encrypted memory line (spec/02 R56): AES-256 in XTS mode, with the 128-byte line as its data unit. The
spec names the cipher and its tweak; the algorithms and the byte orders of key and tweak are those of the two standards (PRESUMED, log 84). -/

namespace Sys2Proof.Machine

/-! ### The field of AES -/

/-- Multiplication by x. -/
def aesDouble (a : Byte) : Byte := (a <<< 1) ^^^ (if a.getLsbD 7 then 0x1B else 0)

/-- Multiplication: the sum of the doubles of `a` that the bits of `b` select. -/
def aesMulBits (a b : Byte) : Nat → Byte
  | 0 => 0
  | n + 1 => (if b.getLsbD 0 then a else 0) ^^^ aesMulBits (aesDouble a) (b >>> 1) n
def aesMul (a b : Byte) : Byte := aesMulBits a b 8

/-- The inverse, a^254; that of 0 is 0. -/
def aesInverse (a : Byte) : Byte :=
  let sq := fun (x : Byte) => aesMul x x
  let a2 := sq a
  let a4 := sq a2
  let a8 := sq a4
  let a16 := sq a8
  let a32 := sq a16
  let a64 := sq a32
  [a4, a8, a16, a32, a64, sq a64].foldl aesMul a2

/-- The S-box and its inverse. -/
def aesSub (a : Byte) : Byte :=
  let b := aesInverse a
  b ^^^ b.rotateLeft 1 ^^^ b.rotateLeft 2 ^^^ b.rotateLeft 3 ^^^ b.rotateLeft 4 ^^^ 0x63
def aesSubInv (a : Byte) : Byte := aesInverse (a.rotateLeft 1 ^^^ a.rotateLeft 3 ^^^ a.rotateLeft 6 ^^^ 0x05)

/-! ### AES-256 on a block of 16 bytes, column by column -/

def xorBytes (a b : List Byte) : List Byte := List.zipWith (· ^^^ ·) a b

/-- Word `i` of the key schedule from the words before it, the latest first. -/
def aesNextWord (i : Nat) (ws : List (List Byte)) : List Byte :=
  let prev := ws.getD 0 []
  let back := ws.getD 7 []
  if i % 8 = 0 then
    let t := ((prev.drop 1) ++ (prev.take 1)).map aesSub
    xorBytes back (xorBytes t [(List.range (i / 8 - 1)).foldl (fun r _ => aesDouble r) 1, 0, 0, 0])
  else if i % 8 = 4 then xorBytes back (prev.map aesSub)
  else xorBytes back prev

/-- The words of the schedule from word `i` on. -/
def aesSchedule : Nat → Nat → List (List Byte) → List (List Byte)
  | 0, _, ws => ws
  | n + 1, i, ws => aesSchedule n (i + 1) (aesNextWord i ws :: ws)

/-- The fifteen round keys of a key of 32 bytes. -/
def aesRoundKeys (key : List Byte) : List (List Byte) :=
  let first := (List.range 8).map (fun i => (key.drop (4 * i)).take 4)
  let ws := (aesSchedule 52 8 first.reverse).reverse
  (List.range 15).map (fun r => ((ws.drop (4 * r)).take 4).flatten)

/-- Row `r` moves `r` columns, one way or the other. -/
def aesShift (inverse : Bool) (b : List Byte) : List Byte :=
  (List.range 16).map (fun i =>
    let r := i % 4
    let c := i / 4
    b.getD (4 * ((if inverse then c + 4 - r else c + r) % 4) + r) 0)

/-- Each column multiplied by the circulant matrix of `m`. -/
def aesMix (m : List Byte) (b : List Byte) : List Byte :=
  (List.range 16).map (fun i =>
    ((List.range 4).map (fun j => aesMul (m.getD ((j + 4 - i % 4) % 4) 0) (b.getD (i / 4 * 4 + j) 0))).foldl (· ^^^ ·) 0)

def aesMixForward : List Byte := [2, 3, 1, 1]
def aesMixBack : List Byte := [14, 11, 13, 9]

def aesEncrypt (ks : List (List Byte)) (b : List Byte) : List Byte :=
  let b := (List.range 13).foldl (fun b i =>
    xorBytes (aesMix aesMixForward (aesShift false (b.map aesSub))) (ks.getD (i + 1) [])) (xorBytes b (ks.getD 0 []))
  xorBytes (aesShift false (b.map aesSub)) (ks.getD 14 [])

def aesDecrypt (ks : List (List Byte)) (b : List Byte) : List Byte :=
  let b := (List.range 13).foldl (fun b i =>
    aesMix aesMixBack (xorBytes ((aesShift true b).map aesSubInv) (ks.getD (13 - i) []))) (xorBytes b (ks.getD 14 []))
  xorBytes ((aesShift true b).map aesSubInv) (ks.getD 0 [])

/-! ### XTS on a line -/

/-- A number as `n` bytes, the lowest first, and back: little-endian (spec/00 R8). -/
def natToBytes : Nat → Nat → List Byte
  | 0, _ => []
  | n + 1, v => BitVec.ofNat 8 v :: natToBytes n (v / 256)
def bytesToNat : List Byte → Nat
  | [] => 0
  | b :: bs => b.toNat + 256 * bytesToNat bs

/-- The tweak of the next block. -/
def xtsNext (t : List Byte) : List Byte :=
  let v := bytesToNat t
  let d := natToBytes 16 (2 * v)
  if 2 ^ 127 ≤ v then (d.take 1).map (· ^^^ 0x87) ++ d.drop 1 else d

/-- The blocks of a line, each between two additions of its tweak. -/
def xtsBlocks (f : List Byte → List Byte) : Nat → List Byte → List Byte → List Byte
  | 0, _, _ => []
  | n + 1, t, bs => xorBytes (f (xorBytes (bs.take 16) t)) t ++ xtsBlocks f n (xtsNext t) (bs.drop 16)

/-- A line of 128 bytes encrypted or decrypted: the low half of the key pair encrypts the data, the high half the tweak. -/
def xtsLine (encrypt : Bool) (key : BitVec 512) (tweak : Nat) (bs : List Byte) : List Byte :=
  let data := aesRoundKeys (natToBytes 32 (key.toNat % 2 ^ 256))
  let t := aesEncrypt (aesRoundKeys (natToBytes 32 (key.toNat / 2 ^ 256))) (natToBytes 16 tweak)
  xtsBlocks (if encrypt then aesEncrypt data else aesDecrypt data) 8 t bs

/-- The bytes of a line written under one key, as read under another; `none` is PLAIN. -/
def recode (bs : List Byte) (written reading : Option (BitVec 512)) (tweak : Nat) : List Byte :=
  let stored := match written with | some k => xtsLine true k tweak bs | none => bs
  match reading with | some k => xtsLine false k tweak stored | none => stored

end Sys2Proof.Machine
end

