-- ==== Sys2Proof/Syntax.lean ====
section
/-! DEFINITION. The abstract syntax: ONE inductive `Instr`, one constructor per row of spec/opcode_table.json.
Instruction words of the SIMT cores (spec/11 R253, R264) carry their stall count `st` first and then the fields their
entry uses; a field an entry does not use has no place here (it must be 0, R255). Lake words (spec/16 R367) carry
theirs. The events of the table have no encoding; their operands name the agent concerned and what the outside
world supplies. -/

namespace Sys2Proof

/-- A 7-bit operand code (spec/11 R256). -/
abbrev Code := BitVec 7

/-- The XA extension word of format M (spec/11 R254, spec/14 R328). -/
structure Xa where
  sco : BitVec 3
  ord : BitVec 2
  md : BitVec 1
  prm : BitVec 1
  spl : BitVec 1
  sz : BitVec 4
  sub : BitVec 4
  off : BitVec 16
  deriving DecidableEq, Repr, Inhabited

/-- The board manifest's settings (spec/03 R76): partitions as die sets in ascending order with their launch
processors, the enabled core positions of each die as (die, x, y), peer-fabric ports with their partitions, the device
number in the load-store domain, routes as (device number, port) and the PLCFG default of each partition. -/
structure Manifest where
  parts : List (List Nat)
  launchProcs : List Nat
  cores : List (Nat × Nat × Nat)
  ports : List (Nat × Nat)
  devnum : BitVec 8
  routes : List (Nat × Nat)
  plcfg : List (BitVec 2)
  digest : BitVec 384
  deriving DecidableEq, Repr, Inhabited

/-- What the outside world supplies to a boot (spec/03 R75, R76): whether the image was fetched, its signature verified,
memory trained and the manifest's signature verified; the ISA minor and stage digests of the image, and the M-class slots that its microcode
adds to those of the opcode map (spec/10 R245); the manifest. -/
structure Boot where
  fetchOk : Bool
  imageSigOk : Bool
  memoryOk : Bool
  manifestSigOk : Bool
  minor : BitVec 8
  microcode : BitVec 512
  stageDigests : List (BitVec 384)
  manifest : Manifest
  deriving DecidableEq, Repr, Inhabited

/-- What a die-to-die packet carries beyond the four fields of spec/01 R27: an invalidation of a store's line at the
destination, the acknowledgement of one, or anything else. `op` is the store concerned. -/
inductive Payload where
  | inval (op : Nat)
  | invalAck (op : Nat)
  | other
  deriving DecidableEq, Repr, Inhabited

/-- A packet of spec/01 R27. Destination 4 is the hub. -/
structure Packet where
  src : Nat
  inc : BitVec 8
  dst : Nat
  part : Nat
  payload : Payload
  deriving DecidableEq, Repr, Inhabited

/-- Where a flit arrives: a die, 4 being the hub, and the module and lane of the link that it came over, in their logical order (spec/01 R17). -/
structure FlitEnd where
  die : Nat
  m : Nat
  j : Nat
  deriving DecidableEq, Repr, Inhabited

/-- An access of another device to this device's hashed memory (spec/08 R217): a read of some bytes, a store in one of the modes, an atomic of
a scope on 4 or 8 bytes. -/
inductive DomainAccess where
  | read (n : Nat)
  | store (g : Bool) (bytes : List (BitVec 8))
  | atomic (scope : BitVec 3) (wide : Bool) (sub : BitVec 4) (b c : BitVec 64)
  deriving DecidableEq, Repr, Inhabited

/-- The places of spec/07 R186 Table 5 where an uncorrectable error can be. -/
inductive ErrSite where
  | laneRegister (warp : Nat) (n : Nat) (lane : Nat)
  | predicate (warp : Nat) (n : Nat) (lane : Nat)
  | memoryLine (line : Nat)
  | vatArray (vat : Nat)
  | translation (die : Nat)
  | taskArray (die : Nat) (ctx : Nat)
  | distributor (die : Nat)
  | launchProcessor (part : Nat)
  | mordant (part : Nat)
  | incarnationTable
  deriving DecidableEq, Repr, Inhabited

/-- One constructor per row of spec/opcode_table.json. -/
inductive Instr where
  /-- IADD (R278). -/
  | iadd (st : BitVec 2) (d a b : Code)
  /-- ISUB (R278). -/
  | isub (st : BitVec 2) (d a b : Code)
  /-- IMUL (R278). -/
  | imul (st : BitVec 2) (d a b : Code)
  /-- IMULH (R278). -/
  | imulh (st : BitVec 2) (d a b : Code)
  /-- IMIN (R278). -/
  | imin (st : BitVec 2) (d a b : Code)
  /-- IMAX (R278). -/
  | imax (st : BitVec 2) (d a b : Code)
  /-- IABS (R278). -/
  | iabs (st : BitVec 2) (d a : Code)
  /-- INEG (R278). -/
  | ineg (st : BitVec 2) (d a : Code)
  /-- IMAD (R280). -/
  | imad (st : BitVec 2) (d a b : Code) (sub : BitVec 4) (c : Code)
  /-- IADD64 (R279). -/
  | iadd64 (st : BitVec 2) (d a b : Code)
  /-- ISUB64 (R279). -/
  | isub64 (st : BitVec 2) (d a b : Code)
  /-- BFI (R280). -/
  | bfi (st : BitVec 2) (d a b c : Code) (imm7 : BitVec 7)
  /-- BFX (R280). -/
  | bfx (st : BitVec 2) (d a b : Code) (sub : BitVec 4) (imm7 : BitVec 7)
  /-- SEL (R280). -/
  | sel (st : BitVec 2) (d a b : Code) (ps : BitVec 3) (pn : BitVec 1)
  /-- ICMPP (R280). -/
  | icmpp (st : BitVec 2) (a b : Code) (sub : BitVec 4) (pd ps : BitVec 3) (pn : BitVec 1) (imm7 : BitVec 7)
  /-- AND (R278). -/
  | and (st : BitVec 2) (d a b : Code)
  /-- OR (R278). -/
  | or (st : BitVec 2) (d a b : Code)
  /-- XOR (R278). -/
  | xor (st : BitVec 2) (d a b : Code)
  /-- NOT (R278). -/
  | not (st : BitVec 2) (d a : Code)
  /-- SHL (R278). -/
  | shl (st : BitVec 2) (d a b : Code)
  /-- SHR (R278). -/
  | shr (st : BitVec 2) (d a b : Code)
  /-- SAR (R278). -/
  | sar (st : BitVec 2) (d a b : Code)
  /-- ROL (R278). -/
  | rol (st : BitVec 2) (d a b : Code)
  /-- SHL64 (R279). -/
  | shl64 (st : BitVec 2) (d a b : Code)
  /-- SHR64 (R279). -/
  | shr64 (st : BitVec 2) (d a b : Code)
  /-- POPC (R278). -/
  | popc (st : BitVec 2) (d a : Code)
  /-- CLZ (R278). -/
  | clz (st : BitVec 2) (d a : Code)
  /-- BREV (R278). -/
  | brev (st : BitVec 2) (d a : Code)
  /-- MOV (R278). -/
  | mov (st : BitVec 2) (d a : Code)
  /-- MOVI (R281). -/
  | movi (st : BitVec 2) (d : Code) (imm : BitVec 14)
  /-- LIMM (R281). -/
  | limm (st : BitVec 2) (d : Code) (imm : BitVec 32)
  /-- SETWB (R281). -/
  | setwb (st : BitVec 2) (imm : BitVec 8)
  /-- MOVX_R (R281). -/
  | movxR (st : BitVec 2) (d a : Code) (imm7 : BitVec 7)
  /-- MOVX_W (R281). -/
  | movxW (st : BitVec 2) (a b : Code) (imm7 : BitVec 7)
  /-- FADD (R282). -/
  | fadd (st : BitVec 2) (d a b : Code)
  /-- FSUB (R282). -/
  | fsub (st : BitVec 2) (d a b : Code)
  /-- FMUL (R282). -/
  | fmul (st : BitVec 2) (d a b : Code)
  /-- FMIN (R282). -/
  | fmin (st : BitVec 2) (d a b : Code)
  /-- FMAX (R282). -/
  | fmax (st : BitVec 2) (d a b : Code)
  /-- FNEG (R282). -/
  | fneg (st : BitVec 2) (d a : Code)
  /-- FABS (R282). -/
  | fabs (st : BitVec 2) (d a : Code)
  /-- FCLASS (R282). -/
  | fclass (st : BitVec 2) (d a : Code)
  /-- FADD_RM (R282). -/
  | faddRm (st : BitVec 2) (d a b : Code) (rm : BitVec 2)
  /-- FSUB_RM (R282). -/
  | fsubRm (st : BitVec 2) (d a b : Code) (rm : BitVec 2)
  /-- FMUL_RM (R282). -/
  | fmulRm (st : BitVec 2) (d a b : Code) (rm : BitVec 2)
  /-- FFMA (R283). -/
  | ffma (st : BitVec 2) (d a b : Code) (rm : BitVec 2) (c : Code)
  /-- FCMPP (R284). -/
  | fcmpp (st : BitVec 2) (a b : Code) (sub : BitVec 4) (pd ps : BitVec 3) (pn : BitVec 1) (imm7 : BitVec 7)
  /-- FRINT (R285). -/
  | frint (st : BitVec 2) (d a : Code) (rm : BitVec 2)
  /-- FDP2 (R286). -/
  | fdp2 (st : BitVec 2) (d a b : Code) (rm : BitVec 2) (sub : BitVec 4) (c : Code)
  /-- HADD2 (R287). -/
  | hadd2 (st : BitVec 2) (d a b : Code)
  /-- HMUL2 (R287). -/
  | hmul2 (st : BitVec 2) (d a b : Code)
  /-- HFMA2 (R287). -/
  | hfma2 (st : BitVec 2) (d a b : Code) (rm : BitVec 2) (sub : BitVec 4) (c : Code)
  /-- HADD2_X (R287). -/
  | hadd2X (st : BitVec 2) (d a b : Code) (rm : BitVec 2) (sub : BitVec 4)
  /-- HMUL2_X (R287). -/
  | hmul2X (st : BitVec 2) (d a b : Code) (rm : BitVec 2) (sub : BitVec 4)
  /-- IDP4 (R288). -/
  | idp4 (st : BitVec 2) (d a b : Code) (sub : BitVec 4) (c : Code)
  /-- CVT (R289). -/
  | cvt (st : BitVec 2) (d a : Code) (rm : BitVec 2) (sub : BitVec 4) (imm7 : BitVec 7)
  /-- CVTS_TO (R290). -/
  | cvtsTo (st : BitVec 2) (d a : Code) (rm : BitVec 2) (fs : BitVec 3) (imm7 : BitVec 7)
  /-- CVTS_FROM (R290). -/
  | cvtsFrom (st : BitVec 2) (d a : Code) (fs : BitVec 3) (imm7 : BitVec 7)
  /-- FRCP (R291). -/
  | frcp (st : BitVec 2) (d a : Code)
  /-- FRSQ (R291). -/
  | frsq (st : BitVec 2) (d a : Code)
  /-- FSQRT (R291). -/
  | fsqrt (st : BitVec 2) (d a : Code)
  /-- FEXP2 (R291). -/
  | fexp2 (st : BitVec 2) (d a : Code)
  /-- FLOG2 (R291). -/
  | flog2 (st : BitVec 2) (d a : Code)
  /-- FSIN (R291). -/
  | fsin (st : BitVec 2) (d a : Code)
  /-- FCOS (R291). -/
  | fcos (st : BitVec 2) (d a : Code)
  /-- TINT (R292). -/
  | tint (st : BitVec 2) (d a : Code)
  /-- TINTLD (R292). -/
  | tintld (st : BitVec 2) (a : Code)
  /-- TINTSW (R292). -/
  | tintsw (st : BitVec 2)
  /-- CHLD (R292). -/
  | chld (st : BitVec 2) (d a : Code)
  /-- CHRUN (R292). -/
  | chrun (st : BitVec 2) (d a b : Code) (sub : BitVec 4) (imm7 : BitVec 7)
  /-- KADD (R297). -/
  | kadd (st : BitVec 2) (d a b : Code)
  /-- KSUB (R297). -/
  | ksub (st : BitVec 2) (d a b : Code)
  /-- KMUL (R297). -/
  | kmul (st : BitVec 2) (d a b : Code)
  /-- KAND (R297). -/
  | kand (st : BitVec 2) (d a b : Code)
  /-- KOR (R297). -/
  | kor (st : BitVec 2) (d a b : Code)
  /-- KXOR (R297). -/
  | kxor (st : BitVec 2) (d a b : Code)
  /-- KSHL (R297). -/
  | kshl (st : BitVec 2) (d a b : Code)
  /-- KSHR (R297). -/
  | kshr (st : BitVec 2) (d a b : Code)
  /-- KMOV (R297). -/
  | kmov (st : BitVec 2) (d a : Code)
  /-- KMOVI (R297). -/
  | kmovi (st : BitVec 2) (d : Code) (imm : BitVec 14)
  /-- KCMPP (R297). -/
  | kcmpp (st : BitVec 2) (a b : Code) (sub : BitVec 4) (pd ps : BitVec 3) (pn : BitVec 1) (imm7 : BitVec 7)
  /-- KLANE (R297). -/
  | klane (st : BitVec 2) (d a b : Code)
  /-- KPOPM (R297). -/
  | kpopm (st : BitVec 2) (d a b : Code)
  /-- BRA (R302). -/
  | bra (st : BitVec 2) (off : BitVec 17)
  /-- BRA_PRED (R302). -/
  | braPred (st : BitVec 2) (ps : BitVec 3) (pn : BitVec 1) (off : BitVec 17)
  /-- BRX (R303). -/
  | brx (st : BitVec 2) (a : Code)
  /-- CALL (R304). -/
  | call (st : BitVec 2) (off : BitVec 17)
  /-- RET (R305). -/
  | ret (st : BitVec 2) (a : Code)
  /-- EXIT (R306). -/
  | exit (st : BitVec 2)
  /-- NOP (R266). -/
  | nop (st : BitVec 2)
  /-- SLEEP (R307). -/
  | sleep (st : BitVec 2) (imm : BitVec 14)
  /-- ENROL (R308). -/
  | enrol (st : BitVec 2) (d a : Code)
  /-- JWAIT (R309). -/
  | jwait (st : BitVec 2) (d : Code)
  /-- DRET (R310). -/
  | dret (st : BitVec 2) (a b : Code)
  /-- PARK (R311). -/
  | park (st : BitVec 2)
  /-- YIELD (R311). -/
  | yield (st : BitVec 2)
  /-- BARV (R312). -/
  | barv (st : BitVec 2)
  /-- BARN (R313). -/
  | barn (st : BitVec 2) (d a : Code)
  /-- BLEAVE (R312). -/
  | bleave (st : BitVec 2)
  /-- STGBEG (R315). -/
  | stgbeg (st : BitVec 2) (a b : Code)
  /-- STGNEXT (R315). -/
  | stgnext (st : BitVec 2) (d : Code) (pd : BitVec 3)
  /-- STGADV (R315). -/
  | stgadv (st : BitVec 2) (d a b : Code)
  /-- STGSET (R315). -/
  | stgset (st : BitVec 2) (d a b : Code)
  /-- STGWL (R315). -/
  | stgwl (st : BitVec 2) (d a b : Code)
  /-- STGEND (R315). -/
  | stgend (st : BitVec 2)
  /-- LXCH_AT (R318). -/
  | lxchAt (st : BitVec 2) (d a b : Code) (sub : BitVec 4) (c : Code)
  /-- LXCH_BACK (R318). -/
  | lxchBack (st : BitVec 2) (d a b : Code) (sub : BitVec 4) (c : Code)
  /-- LXCH_FWD (R318). -/
  | lxchFwd (st : BitVec 2) (d a b : Code) (sub : BitVec 4) (c : Code)
  /-- LXCH_FLIP (R318). -/
  | lxchFlip (st : BitVec 2) (d a b : Code) (sub : BitVec 4) (c : Code)
  /-- LTEST (R319). -/
  | ltest (st : BitVec 2) (sub : BitVec 4) (pd ps : BitVec 3) (pn : BitVec 1)
  /-- PMASK (R319). -/
  | pmask (st : BitVec 2) (d a : Code)
  /-- LSAME (R320). -/
  | lsame (st : BitVec 2) (d a b : Code)
  /-- LFOLD (R321). -/
  | lfold (st : BitVec 2) (d a : Code) (sub : BitVec 4)
  /-- SCANX (R322). -/
  | scanx (st : BitVec 2) (d a : Code) (sub : BitVec 4) (imm7 : BitVec 7)
  /-- ISECT (R323). -/
  | isect (st : BitVec 2) (d a b c : Code) (pd : BitVec 3)
  /-- BMPOS (R324). -/
  | bmpos (st : BitVec 2) (d a b c : Code) (pd : BitVec 3)
  /-- LD (R329). -/
  | ld (st : BitVec 2) (d a : Code) (xa : Xa)
  /-- ST (R330). -/
  | st (st : BitVec 2) (a b : Code) (xa : Xa)
  /-- LDS (R329). -/
  | lds (st : BitVec 2) (d a : Code) (xa : Xa)
  /-- STS (R330). -/
  | sts (st : BitVec 2) (a b : Code) (xa : Xa)
  /-- ATOM (R331). -/
  | atom (st : BitVec 2) (d a b : Code) (xa : Xa)
  /-- ATOMS (R331). -/
  | atoms (st : BitVec 2) (d a b : Code) (xa : Xa)
  /-- RED (R331). -/
  | red (st : BitVec 2) (a b : Code) (xa : Xa)
  /-- PREF (R332). -/
  | pref (st : BitVec 2) (a : Code) (sub : BitVec 4) (off : BitVec 16)
  /-- FENCE (R333). -/
  | fence (st : BitVec 2) (a : Code)
  /-- IFENCE (R334). -/
  | ifence (st : BitVec 2)
  /-- LFENCE (R334). -/
  | lfence (st : BitVec 2)
  /-- WAITC (R335). -/
  | waitc (st : BitVec 2) (a b : Code)
  /-- CCTL_IL1 (R332). -/
  | cctlIl1 (st : BitVec 2) (a : Code) (off : BitVec 16)
  /-- CCTL_IRLC (R332). -/
  | cctlIrlc (st : BitVec 2) (a : Code) (off : BitVec 16)
  /-- CCTL_WBL2 (R332). -/
  | cctlWbl2 (st : BitVec 2) (a : Code) (off : BitVec 16)
  /-- COPY (R336). -/
  | copy (st : BitVec 2) (d a b : Code) (sub : BitVec 4)
  /-- DCOPY (R337). -/
  | dcopy (st : BitVec 2) (d a b : Code) (sub : BitVec 4) (c : Code)
  /-- CTABLD (R338). -/
  | ctabld (st : BitVec 2) (d a : Code)
  /-- SECFG (R339). -/
  | secfg (st : BitVec 2) (d a b : Code)
  /-- SEGO (R339). -/
  | sego (st : BitVec 2) (d : Code)
  /-- SESTOP (R339). -/
  | sestop (st : BitVec 2) (d : Code)
  /-- SLTAKE (R340). -/
  | sltake (st : BitVec 2) (d a : Code)
  /-- SLGIVE (R340). -/
  | slgive (st : BitVec 2) (a b : Code)
  /-- SPAWN (R341). -/
  | spawn (st : BitVec 2) (a : Code)
  /-- SPAWN_R (R341). -/
  | spawnR (st : BitVec 2) (a : Code)
  /-- TDONE (R342). -/
  | tdone (st : BitVec 2)
  /-- HISTA (R342). -/
  | hista (st : BitVec 2) (a : Code)
  /-- HISTL (R342). -/
  | histl (st : BitVec 2) (d a : Code)
  /-- LABORT (R343). -/
  | labort (st : BitVec 2)
  /-- ABCHK (R343). -/
  | abchk (st : BitVec 2)
  /-- BKPROG (R345). -/
  | bkprog (st : BitVec 2) (a b c : Code)
  /-- BKLAUNCH (R346). -/
  | bklaunch (st : BitVec 2) (a b : Code) (fs : BitVec 3)
  /-- BKFENCE (R347). -/
  | bkfence (st : BitVec 2)
  /-- TCFG (R351). -/
  | tcfg (st : BitVec 2) (a b : Code)
  /-- MMA (R354). -/
  | mma (st : BitVec 2) (d a b : Code) (fs : BitVec 3) (imm7 : BitVec 7)
  /-- MMAS (R354). -/
  | mmas (st : BitVec 2) (d a b : Code) (sub : BitVec 4) (fs : BitVec 3) (imm7 : BitVec 7)
  /-- MZERO (R358). -/
  | mzero (st : BitVec 2) (d : Code)
  /-- MLD (R358). -/
  | mld (st : BitVec 2) (d a b : Code)
  /-- MST (R358). -/
  | mst (st : BitVec 2) (d a b : Code)
  /-- MFILL (R359). -/
  | mfill (st : BitVec 2) (d a b : Code)
  /-- MDRAIN (R359). -/
  | mdrain (st : BitVec 2) (d a b : Code) (sub : BitVec 4) (imm7 : BitVec 7)
  /-- ACQA (R360). -/
  | acqa (st : BitVec 2) (d a : Code)
  /-- RELA (R360). -/
  | rela (st : BitVec 2)
  /-- MSYNC (R360). -/
  | msync (st : BitVec 2)
  /-- SYSR (R267). -/
  | sysr (st : BitVec 2) (d : Code) (num : BitVec 14)
  /-- SYSW (R267). -/
  | sysw (st : BitVec 2) (d : Code) (num : BitVec 14)
  /-- SYSW_RINGD (R142). -/
  | syswRingd (st : BitVec 2) (d : Code) (num : BitVec 14)
  /-- SYSW_RINGTAG (R143). -/
  | syswRingtag (st : BitVec 2) (d : Code) (num : BitVec 14)
  /-- SYSW_VBSTAT (R132). -/
  | syswVbstat (st : BitVec 2) (d : Code) (num : BitVec 14)
  /-- SYSW_NBSTAT (R313). -/
  | syswNbstat (st : BitVec 2) (d : Code) (num : BitVec 14)
  /-- SYSW_LSTATE (R110). -/
  | syswLstate (st : BitVec 2) (d : Code) (num : BitVec 14)
  /-- SYSW_LPC (R110). -/
  | syswLpc (st : BitVec 2) (d : Code) (num : BitVec 14)
  /-- SYSW_HISTBIN (R103). -/
  | syswHistbin (st : BitVec 2) (d : Code) (num : BitVec 14)
  /-- TRAP (R171). -/
  | trap (st : BitVec 2) (b : Code)
  /-- TRET (R171). -/
  | tret (st : BitVec 2)
  /-- TRET_SKIP (R171). -/
  | tretSkip (st : BitVec 2)
  /-- TRET_ESC (R171). -/
  | tretEsc (st : BitVec 2)
  /-- BKPT (R171). -/
  | bkpt (st : BitVec 2) (b : Code)
  /-- SAVEW (R183). -/
  | savew (st : BitVec 2) (a : Code)
  /-- SAVEW_DONE (R183). -/
  | savewDone (st : BitVec 2)
  /-- RESTW (R183). -/
  | restw (st : BitVec 2) (a : Code)
  /-- REP (R262). -/
  | rep (st : BitVec 2) (count : BitVec 6) (sd sa sb : BitVec 2)
  /-- LAKE_NOP, a Lake word (R367). -/
  | lakeNop
  /-- XLD, a Lake word (R367). -/
  | xld
  /-- ROWRD, a Lake word (R367). -/
  | rowrd (n : BitVec 16)
  /-- MAC8, a Lake word (R367). -/
  | mac8 (sat : BitVec 1)
  /-- MAC4, a Lake word (R367). -/
  | mac4 (sat : BitVec 1)
  /-- MACH, a Lake word (R367). -/
  | mach (sat : BitVec 1)
  /-- ACCZ, a Lake word (R367). -/
  | accz (ea : BitVec 4) (n1 : BitVec 4)
  /-- ACCSC, a Lake word (R367). -/
  | accsc (ea : BitVec 4) (off : BitVec 16)
  /-- ACCADD, a Lake word (R367). -/
  | accadd (ea : BitVec 4) (eb : BitVec 4)
  /-- OUTW, a Lake word (R367). -/
  | outw (ea : BitVec 4) (n1 : BitVec 4)
  /-- RCADD, a Lake word (R367). -/
  | rcadd (set : BitVec 1) (imm : BitVec 16)
  /-- CCADD, a Lake word (R367). -/
  | ccadd (set : BitVec 1) (imm : BitVec 16)
  /-- LOOP, a Lake word (R367). -/
  | loop (l : BitVec 1) (n : BitVec 16)
  /-- LEND, a Lake word (R367). -/
  | lend (l : BitVec 1)
  /-- LAKE_SYNC, a Lake word (R367). -/
  | lakeSync
  /-- FLAGS_C, a Lake word (R367). -/
  | flagsC (mask : BitVec 5)
  /-- FLAGS_R, a Lake word (R367). -/
  | flagsR (ea : BitVec 4)
  /-- TRAPL, a Lake word (R367). -/
  | trapl (n : BitVec 7)
  /-- HALT, a Lake word (R367). -/
  | halt
  /-- DEVICE_RESET (R75): management cores boot with the inputs `boot`. -/
  | deviceReset (boot : Boot)
  /-- FIRMWARE_FETCH_RETRY (R75): the retried fetch, with the inputs `boot`. -/
  | firmwareFetchRetry (boot : Boot)
  /-- GET_VERSION (R77): request on mailbox `mbox` (a function, or 4 for MCTP). -/
  | getVersion (mbox : Nat)
  /-- GET_CAPABILITIES (R77): request on mailbox `mbox`. -/
  | getCapabilities (mbox : Nat)
  /-- NEGOTIATE_ALGORITHMS (R77): request on mailbox `mbox`. -/
  | negotiateAlgorithms (mbox : Nat)
  /-- GET_DIGESTS (R77): request on mailbox `mbox`. -/
  | getDigests (mbox : Nat)
  /-- GET_CERTIFICATE (R77): request on mailbox `mbox`. -/
  | getCertificate (mbox : Nat)
  /-- CHALLENGE (R77): request on mailbox `mbox` with its nonce. -/
  | challenge (mbox : Nat) (nonce : Nat)
  /-- GET_MEASUREMENTS (R77): request on mailbox `mbox`. -/
  | getMeasurements (mbox : Nat)
  /-- KEY_EXCHANGE (R77): a session request on mailbox `mbox`. -/
  | keyExchange (mbox : Nat)
  /-- KEY_SLOT_LOAD (R56): `none` loads PLAIN, `some k` an XTS key pair. -/
  | keySlotLoad (slot : BitVec 10) (key : Option (BitVec 512))
  /-- KEY_SLOT_CLEAR (R56): the slot becomes EMPTY. -/
  | keySlotClear (slot : BitVec 10)
  /-- SQ_DOORBELL (R62): write of SQDESC`q`.WI of context `ctx`. -/
  | sqDoorbell (ctx q : Nat) (wi : BitVec 32)
  /-- SQ_ENABLE (R62): EN of SQDESC`q` of context `ctx` is set. -/
  | sqEnable (ctx q : Nat)
  /-- LOT_ACCEPT (R65): the next record of queue `q` of context `ctx`. -/
  | lotAccept (ctx q : Nat)
  /-- WAIT_SEMAPHORE_READ (R66): the lot re-reads its start semaphore. -/
  | waitSemaphoreRead (lot : Nat)
  /-- LOT_GATE_OPEN (R66): the gates of the lot are met. -/
  | lotGateOpen (lot : Nat)
  /-- VAT_PLACE (R82): the next vat of the lot. -/
  | vatPlace (lot : Nat)
  /-- COHAB_PLACE (R84): all the vats of the lot. -/
  | cohabPlace (lot : Nat)
  /-- WARP_DRAIN_DONE (R181): the evicted warp. -/
  | warpDrainDone (warp : Nat)
  /-- VAT_RESTORE_PLACE (R180): the saved vat. -/
  | vatRestorePlace (vat : Nat)
  /-- VAT_LEAVE (R86): the vat that leaves. -/
  | vatLeave (vat : Nat)
  /-- LOT_COMPLETE (R68): the lot that completes. -/
  | lotComplete (lot : Nat)
  /-- DRIVER_DOORBELL (R70): write of DCDESC.WI of the partition. -/
  | driverDoorbell (part : Nat) (wi : BitVec 32)
  /-- CTXNEW (R70): the next command of the driver ring of the partition. -/
  | ctxnew (part : Nat)
  /-- CTXRESET (R72): the next command of the driver ring of the partition. -/
  | ctxreset (part : Nat)
  /-- TLBINV (R71): the next command of the driver ring of the partition. -/
  | tlbinv (part : Nat)
  /-- TLBINV_COMPLETE (R71): the running command of the driver ring of the partition. -/
  | tlbinvComplete (part : Nat)
  /-- CTXFREE (R70): the next command of the driver ring of the partition. -/
  | ctxfree (part : Nat)
  /-- DRIVER_BAD_OPCODE (R70): the next command of the driver ring of the partition. -/
  | driverBadOpcode (part : Nat)
  /-- FSVC_RESUME (R175): the answer to record `seq`. -/
  | fsvcResume (ctx : Nat) (seq : BitVec 16)
  /-- FSVC_FAILLOT (R175): the answer to record `seq`. -/
  | fsvcFaillot (ctx : Nat) (seq : BitVec 16)
  /-- FSVC_FAILCTX (R175): the answer to record `seq`. -/
  | fsvcFailctx (ctx : Nat) (seq : BitVec 16)
  /-- FEATACC_WRITE (R73): write through function `fn`. -/
  | feataccWrite (fn : Nat) (value : BitVec 128)
  /-- PWRLIM_WRITE (R78): write through function `fn`. -/
  | pwrlimWrite (fn : Nat) (value : BitVec 32)
  /-- PLCFG_WRITE (R40): write through function `fn`. -/
  | plcfgWrite (fn : Nat) (value : BitVec 32)
  /-- REGISTER_WRITE (R59): `some fn`: the host through BAR0 of function `fn`; `none`: the management plane. -/
  | registerWrite (src : Option Nat) (offset : BitVec 26) (value : BitVec 32)
  /-- POWER_GRANT_PERIOD (R78): the end of a 10 µs period. -/
  | powerGrantPeriod
  /-- HEARTBEAT_SEND (R23): an idle die sends a flit. -/
  | heartbeatSend (die : Nat)
  /-- HUB_INTERVAL_TICK (R23): the end of a 1 µs interval. -/
  | hubIntervalTick
  /-- DLTO_EXPIRY (R31): the silent dies declared lost in this step. -/
  | dltoExpiry (dies : BitVec 4)
  /-- DIE_TAKE_DOWN (R31): the die management takes down. -/
  | dieTakeDown (die : Nat)
  /-- DIE_RESET_START (R31): the die whose reset starts. -/
  | dieResetStart (die : Nat)
  /-- DIE_RESET_DONE (R31): the die whose reset is done. -/
  | dieResetDone (die : Nat)
  /-- PACKET_RECEIVE (R29): the packet received. -/
  | packetReceive (pkt : Packet)
  /-- FLIT_CRC_FAIL (R22): the sender of the flit (4 is the hub), and where it arrives. -/
  | flitCrcFail (src : Nat) (dst : FlitEnd)
  /-- NEIGHBOUR_LINK_RETRAIN_FAIL (R22): the link from `die` to its clockwise neighbour. -/
  | neighbourLinkRetrainFail (die : Nat)
  /-- ACKTO_EXPIRY (R205): the operation from which ACKTO ran. -/
  | acktoExpiry (op : Nat)
  /-- G_STORE_ACK (R201): the .G store whose acknowledgements have arrived. -/
  | gStoreAck (op : Nat)
  /-- LOAD_COMPLETE (R261): the load. -/
  | loadComplete (op : Nat)
  /-- STORE_PERFORMED (R201): the store. -/
  | storePerformed (op : Nat)
  /-- ATOMIC_COMPLETE (R331): the atomic. -/
  | atomicComplete (op : Nat)
  /-- MORDANT_LINE_RETURN (R206): the hub-owned line. -/
  | mordantLineReturn (line : Nat)
  /-- PRM_PUSH_REQUEST (R208): core `core` answers the push of `warp`. -/
  | prmPushRequest (core : Nat) (warp : Nat)
  /-- SPLIT_DATA_ARRIVE (R131): the lanes of the split load whose data arrive. -/
  | splitDataArrive (op : Nat) (lanes : BitVec 32)
  /-- COPY_COMPLETE (R336): the copy. -/
  | copyComplete (op : Nat)
  /-- DCOPY_COMPLETE (R155): the decompression copy. -/
  | dcopyComplete (op : Nat)
  /-- TABLE_LOAD_COMPLETE (R294): the table load. -/
  | tableLoadComplete (op : Nat)
  /-- HISTL_COMPLETE (R103): the HISTL. -/
  | histlComplete (op : Nat)
  /-- MATRIX_OPERAND_COMPLETE (R356): the matrix instruction. -/
  | matrixOperandComplete (op : Nat)
  /-- MATRIX_COMPLETE (R356): the matrix instruction. -/
  | matrixComplete (op : Nat)
  /-- STREAM_BOX (R151): the stream engine. -/
  | streamBox (core e : Nat)
  /-- ACQA_GRANT (R157): the core whose allocator re-tests its waiters. -/
  | acqaGrant (core : Nat)
  /-- TASK_ENTER (R91): the oldest waiting record of the context. -/
  | taskEnter (die ctx : Nat)
  /-- TASK_RETIRE (R93): the task. -/
  | taskRetire (die task : Nat)
  /-- BIN_FORM_WARP (R98): the bin. -/
  | binFormWarp (die bin : Nat)
  /-- OVERFLOW_REFILL (R101): the quarter of the context on the die. -/
  | overflowRefill (die ctx : Nat)
  /-- ABORT_FLAG_ARRIVE (R109): the flag of the lot reaches the die. -/
  | abortFlagArrive (lot die : Nat)
  /-- CLAUSE_ISSUE (R249): the warp in turn reads its clause header. -/
  | clauseIssue
  /-- CLAUSE_BOUNDARY (R114): the warp in turn stands at a clause boundary. -/
  | clauseBoundary
  /-- RUNG_SERVICE_TIMEOUT (R164): the rung that the fault of `warp` is held at. -/
  | rungServiceTimeout (warp : Nat)
  /-- BARRIER_TIMEOUT (R132): the waiting warp. -/
  | barrierTimeout (warp : Nat)
  /-- STAGE_PARK_TIMEOUT (R107): the parked warp. -/
  | stageParkTimeout (warp : Nat)
  /-- SLOT_PARK_TIMEOUT (R145): the parked warp. -/
  | slotParkTimeout (warp : Nat)
  /-- PRESENCE_TIMEOUT (R140): the parked warp. -/
  | presenceTimeout (warp : Nat)
  /-- SECFG_PARK_TIMEOUT (R150): the parked warp. -/
  | secfgParkTimeout (warp : Nat)
  /-- ACQA_WAIT_TIMEOUT (R157): the parked warp. -/
  | acqaWaitTimeout (warp : Nat)
  /-- OVF_STALL (R102): the stalled warp. -/
  | ovfStall (warp : Nat)
  /-- VAT_STOP_FORCE (R395): the warp not yet stopped. -/
  | vatStopForce (warp : Nat)
  /-- EVICT_FORCE (R182): the warp in trap mode. -/
  | evictForce (warp : Nat)
  /-- SAVE_RESTORE_TIMEOUT (R181): the warp being saved or restored. -/
  | saveRestoreTimeout (warp : Nat)
  /-- HOST_CXL_MEM_ACCESS (R217): `some bytes` is a write, `none` a read of 8 bytes. -/
  | hostCxlMemAccess (part : Nat) (pa : BitVec 52) (data : Option (List (BitVec 8)))
  /-- LAKE_PROGRAM_LOAD (R345): the BKPROG at the head of the engine. -/
  | lakeProgramLoad (eng : Nat)
  /-- LAKE_COMMAND_START (R366): the command at the head of the engine. -/
  | lakeCommandStart (eng : Nat)
  /-- LAKE_TIMEOUT (R369): the running command of the engine. -/
  | lakeTimeout (eng : Nat)
  /-- LAKE_COMMAND_END (R370): the ended command of the engine. -/
  | lakeCommandEnd (eng : Nat)
  /-- PEER_PORT_LINK_LOSS (R61): the port. -/
  | peerPortLinkLoss (port : Nat)
  /-- DOMAIN_ACCESS_RECEIVE (R217): the device, the partition, the address and the access. -/
  | domainAccessReceive (dev : Nat) (part : Nat) (pa : BitVec 40) (acc : DomainAccess)
  /-- HOST_BAR2_ACCESS (R58): `some bytes` is a write, `none` a read of 8 bytes. -/
  | hostBar2Access (fn : Nat) (pa : BitVec 52) (data : Option (List (BitVec 8)))
  /-- HUB_DIE_LOSS (R37): the hub die or its master incarnation table is lost. -/
  | hubDieLoss
  /-- UNCORRECTABLE_ERROR (R186): the place of the error. -/
  | uncorrectableError (site : ErrSite)
  deriving DecidableEq, Repr

end Sys2Proof
end

