-- ==== Sys2Proof/WellFormed.lean ====
section
/-! DEFINITION. Well-formedness of an instruction: the reserved codes and immediate limits of its entry (spec/11 R255),
which an encoding can hold and the hardware refuses with ILLEGAL_OPERAND. Register banks, alignment of register groups
and everything that depends on the state are checked when the instruction issues, not here. -/

namespace Sys2Proof

/-- SYSW numbers that have a row of their own in spec/opcode_table.json: LPC, LSTATE, VBSTAT, RINGD, RINGTAG, NBSTAT
and HISTBIN (spec/11 R268 Table 6). -/
def sysSpecial (num : BitVec 14) : Bool :=
  num == 0x38 || num == 0x3B || num == 0x70 || (0x80 ≤ num && num ≤ 0xAF) || (0x140 ≤ num && num ≤ 0x14F)
    || (0x200 ≤ num && num ≤ 0x2FF)

/-- XA of LD (`gather`: .SPLIT is possible) and LDS (spec/14 R328 Table 2). -/
def Xa.wfLoad (x : Xa) (gather : Bool) : Bool :=
  x.sco ≤ 5 && (x.ord == 1 || (x.ord == 0 && x.sco == 0)) && x.md == 0
    && (x.prm == 0 || (x.ord == 1 && 3 ≤ x.sco))
    && (x.spl == 0 || (gather && x.ord == 0)) && x.sz ≤ 6 && x.sub ≤ 1

/-- XA of ST and STS (`window`: the mode must be 0) (spec/14 R328 Table 2, R330). -/
def Xa.wfStore (x : Xa) (window : Bool) : Bool :=
  x.sco ≤ 5 && (x.ord == 2 || (x.ord == 0 && x.sco == 0)) && (x.md == 0 || !window)
    && x.prm == 0 && x.spl == 0 && (x.sz == 1 || (3 ≤ x.sz && x.sz ≤ 6)) && x.sub ≤ 1

/-- XA of ATOM, ATOMS and RED (spec/14 R328 Table 2, R331 Table 4). -/
def Xa.wfAtom (x : Xa) (red : Bool) : Bool :=
  x.sco ≤ 5 && (!red || x.ord == 0 || x.ord == 2) && x.md == 0 && x.prm == 0 && x.spl == 0
    && (x.sz == 4 || (x.sz == 5 && x.sub ≤ 9)) && x.sub ≤ 12 && !(red && x.sub == 9)

/-- The reserved codes and immediate limits of each entry. Events have no encoding and no limits. -/
def Instr.wf : Instr → Bool
  | .imad _ _ _ _ sub _ => sub ≤ 2
  | .bfi _ _ _ _ _ imm7 => 1 ≤ imm7 && imm7 ≤ 32
  | .bfx _ _ _ _ sub imm7 => sub ≤ 1 && 1 ≤ imm7 && imm7 ≤ 32
  | .icmpp _ _ _ sub _ ps pn imm7 => sub ≤ 9 && imm7 ≤ 1 && (imm7 == 1 || (ps == 0 && pn == 0))
  | .setwb _ imm => imm.toNat % 32 == 0 && imm ≤ 224
  | .fcmpp _ _ _ sub _ ps pn imm7 => sub ≤ 7 && imm7 ≤ 1 && (imm7 == 1 || (ps == 0 && pn == 0))
  | .fdp2 _ _ _ _ _ sub _ => sub ≤ 1
  | .hfma2 _ _ _ _ _ sub _ => sub ≤ 1
  | .hadd2X _ _ _ _ _ sub => sub ≤ 1
  | .hmul2X _ _ _ _ _ sub => sub ≤ 1
  | .idp4 _ _ _ _ sub _ => sub ≤ 3
  | .cvt _ _ _ _ sub imm7 => sub ≤ 11 && sub != 3 && imm7 ≤ 11 && imm7 != 3
  | .cvtsTo _ _ _ _ _ imm7 => imm7 ≤ 7
  | .cvtsFrom _ _ _ _ imm7 => imm7 ≤ 7
  | .chld _ d _ => d ≤ 7
  | .chrun _ _ _ _ sub imm7 => sub ≤ 7 && 1 ≤ imm7 && imm7 ≤ 16
  | .kcmpp _ _ _ sub _ ps pn imm7 => sub ≤ 9 && imm7 ≤ 1 && (imm7 == 1 || (ps == 0 && pn == 0))
  | .klane _ _ _ b => b ≤ 32
  | .kpopm _ _ _ b => b ≤ 2
  | .enrol _ d _ => d ≤ 7
  | .jwait _ d => d ≤ 7
  | .barn _ d _ => d ≤ 15
  | .stgadv _ d a b => (d == 1 && a == 0) || (d == 0 && b == 0)
  | .stgset _ d a b => (d == 1 && a == 0) || (d == 0 && b == 0)
  | .stgwl _ d a b => (d == 1 && a == 0) || (d == 0 && b == 0)
  | .lxchAt _ _ _ _ sub c => sub ≤ 1 && (sub == 0 || c == 0)
  | .lxchBack _ _ _ _ sub c => sub ≤ 1 && (sub == 0 || c == 0)
  | .lxchFwd _ _ _ _ sub c => sub ≤ 1 && (sub == 0 || c == 0)
  | .lxchFlip _ _ _ _ sub c => sub ≤ 1 && (sub == 0 || c == 0)
  | .ltest _ sub _ _ _ => sub ≤ 2
  | .pmask _ _ a => a ≤ 15
  | .lsame _ _ _ b => b ≤ 1
  | .lfold _ _ _ sub => sub ≤ 10
  | .scanx _ _ _ sub imm7 => sub ≤ 10 && imm7 ≤ 1
  | .ld _ _ _ xa => xa.wfLoad true
  | .st _ _ _ xa => xa.wfStore false
  | .lds _ _ _ xa => xa.wfLoad false
  | .sts _ _ _ xa => xa.wfStore true
  | .atom _ _ _ _ xa => xa.wfAtom false
  | .atoms _ _ _ _ xa => xa.wfAtom false
  | .red _ _ _ xa => xa.wfAtom true
  | .pref _ _ sub _ => sub ≤ 1
  | .fence _ a => (a &&& 7) ≤ 5 && a ≤ 15 && (a ≤ 7 || 3 ≤ (a &&& 7))
  | .waitc _ a b => 1 ≤ a && a ≤ 6 && b ≤ 63
  | .copy _ _ _ _ sub => sub ≤ 1
  | .dcopy _ _ _ _ sub _ => sub ≤ 7
  | .ctabld _ d _ => d ≤ 7
  | .secfg _ d _ _ => d ≤ 1
  | .sego _ d => d ≤ 1
  | .sestop _ d => d ≤ 1
  | .sltake _ _ a => a ≤ 7
  | .slgive _ a _ => a ≤ 7
  | .spawnR _ a => a.toNat % 16 == 0 && a ≤ 80
  | .histl _ d _ => d ≤ 15
  | .tcfg _ a _ => a ≤ 63
  | .mma _ d _ _ _ imm7 => d ≤ 15 && imm7 ≤ 31
  | .mmas _ d _ _ sub _ imm7 => d ≤ 15 && sub ≤ 1 && imm7 ≤ 31
  | .mzero _ d => d ≤ 15
  | .mld _ d _ _ => d ≤ 15
  | .mst _ d _ _ => d ≤ 15
  | .mfill _ d _ _ => d ≤ 15
  | .mdrain _ _ a _ sub imm7 => a ≤ 15 && sub ≤ 1 && 1 ≤ imm7 && imm7 ≤ 8
  | .sysw _ _ num => !sysSpecial num
  | .syswRingd _ _ num => 0x80 ≤ num && num ≤ 0x8F
  | .syswRingtag _ _ num => 0x90 ≤ num && num ≤ 0xAF
  | .syswVbstat _ _ num => num == 0x70
  | .syswNbstat _ _ num => 0x140 ≤ num && num ≤ 0x14F
  | .syswLstate _ _ num => num == 0x3B
  | .syswLpc _ _ num => num == 0x38
  | .syswHistbin _ _ num => 0x200 ≤ num && num ≤ 0x2FF
  | .trap _ b => b ≤ 126
  | .rep _ _ sd sa sb => sd ≤ 2 && sa ≤ 2 && sb ≤ 2
  | .rowrd n => 1 ≤ n && n ≤ 192
  | .accz ea n1 => ea.toNat + n1.toNat + 1 ≤ 16
  | .accsc _ off => off.toNat % 4 == 0 && off ≤ 4032
  | .outw ea n1 => ea.toNat + n1.toNat + 1 ≤ 16
  | .iadd _ _ _ _ => true
  | .isub _ _ _ _ => true
  | .imul _ _ _ _ => true
  | .imulh _ _ _ _ => true
  | .imin _ _ _ _ => true
  | .imax _ _ _ _ => true
  | .iabs _ _ _ => true
  | .ineg _ _ _ => true
  | .iadd64 _ _ _ _ => true
  | .isub64 _ _ _ _ => true
  | .sel _ _ _ _ _ _ => true
  | .and _ _ _ _ => true
  | .or _ _ _ _ => true
  | .xor _ _ _ _ => true
  | .not _ _ _ => true
  | .shl _ _ _ _ => true
  | .shr _ _ _ _ => true
  | .sar _ _ _ _ => true
  | .rol _ _ _ _ => true
  | .shl64 _ _ _ _ => true
  | .shr64 _ _ _ _ => true
  | .popc _ _ _ => true
  | .clz _ _ _ => true
  | .brev _ _ _ => true
  | .mov _ _ _ => true
  | .movi _ _ _ => true
  | .limm _ _ _ => true
  | .movxR _ _ _ _ => true
  | .movxW _ _ _ _ => true
  | .fadd _ _ _ _ => true
  | .fsub _ _ _ _ => true
  | .fmul _ _ _ _ => true
  | .fmin _ _ _ _ => true
  | .fmax _ _ _ _ => true
  | .fneg _ _ _ => true
  | .fabs _ _ _ => true
  | .fclass _ _ _ => true
  | .faddRm _ _ _ _ _ => true
  | .fsubRm _ _ _ _ _ => true
  | .fmulRm _ _ _ _ _ => true
  | .ffma _ _ _ _ _ _ => true
  | .frint _ _ _ _ => true
  | .hadd2 _ _ _ _ => true
  | .hmul2 _ _ _ _ => true
  | .frcp _ _ _ => true
  | .frsq _ _ _ => true
  | .fsqrt _ _ _ => true
  | .fexp2 _ _ _ => true
  | .flog2 _ _ _ => true
  | .fsin _ _ _ => true
  | .fcos _ _ _ => true
  | .tint _ _ _ => true
  | .tintld _ _ => true
  | .tintsw _ => true
  | .kadd _ _ _ _ => true
  | .ksub _ _ _ _ => true
  | .kmul _ _ _ _ => true
  | .kand _ _ _ _ => true
  | .kor _ _ _ _ => true
  | .kxor _ _ _ _ => true
  | .kshl _ _ _ _ => true
  | .kshr _ _ _ _ => true
  | .kmov _ _ _ => true
  | .kmovi _ _ _ => true
  | .bra _ _ => true
  | .braPred _ _ _ _ => true
  | .brx _ _ => true
  | .call _ _ => true
  | .ret _ _ => true
  | .exit _ => true
  | .nop _ => true
  | .sleep _ _ => true
  | .dret _ _ _ => true
  | .park _ => true
  | .yield _ => true
  | .barv _ => true
  | .bleave _ => true
  | .stgbeg _ _ _ => true
  | .stgnext _ _ _ => true
  | .stgend _ => true
  | .isect _ _ _ _ _ _ => true
  | .bmpos _ _ _ _ _ _ => true
  | .ifence _ => true
  | .lfence _ => true
  | .cctlIl1 _ _ _ => true
  | .cctlIrlc _ _ _ => true
  | .cctlWbl2 _ _ _ => true
  | .spawn _ _ => true
  | .tdone _ => true
  | .hista _ _ => true
  | .labort _ => true
  | .abchk _ => true
  | .bkprog _ _ _ _ => true
  | .bklaunch _ _ _ _ => true
  | .bkfence _ => true
  | .acqa _ _ _ => true
  | .rela _ => true
  | .msync _ => true
  | .sysr _ _ _ => true
  | .tret _ => true
  | .tretSkip _ => true
  | .tretEsc _ => true
  | .bkpt _ _ => true
  | .savew _ _ => true
  | .savewDone _ => true
  | .restw _ _ => true
  | .lakeNop => true
  | .xld => true
  | .mac8 _ => true
  | .mac4 _ => true
  | .mach _ => true
  | .accadd _ _ => true
  | .rcadd _ _ => true
  | .ccadd _ _ => true
  | .loop _ _ => true
  | .lend _ => true
  | .lakeSync => true
  | .flagsC _ => true
  | .flagsR _ => true
  | .trapl _ => true
  | .halt => true
  | .deviceReset _ => true
  | .firmwareFetchRetry _ => true
  | .getVersion _ => true
  | .getCapabilities _ => true
  | .negotiateAlgorithms _ => true
  | .getDigests _ => true
  | .getCertificate _ => true
  | .challenge _ _ => true
  | .getMeasurements _ => true
  | .keyExchange _ => true
  | .keySlotLoad _ _ => true
  | .keySlotClear _ => true
  | .sqDoorbell _ _ _ => true
  | .sqEnable _ _ => true
  | .lotAccept _ _ => true
  | .waitSemaphoreRead _ => true
  | .lotGateOpen _ => true
  | .vatPlace _ => true
  | .cohabPlace _ => true
  | .warpDrainDone _ => true
  | .vatRestorePlace _ => true
  | .vatLeave _ => true
  | .lotComplete _ => true
  | .driverDoorbell _ _ => true
  | .ctxnew _ => true
  | .ctxreset _ => true
  | .tlbinv _ => true
  | .tlbinvComplete _ => true
  | .ctxfree _ => true
  | .driverBadOpcode _ => true
  | .fsvcResume _ _ => true
  | .fsvcFaillot _ _ => true
  | .fsvcFailctx _ _ => true
  | .feataccWrite _ _ => true
  | .pwrlimWrite _ _ => true
  | .plcfgWrite _ _ => true
  | .registerWrite _ _ _ => true
  | .powerGrantPeriod => true
  | .heartbeatSend _ => true
  | .hubIntervalTick => true
  | .dltoExpiry _ => true
  | .dieTakeDown _ => true
  | .dieResetStart _ => true
  | .dieResetDone _ => true
  | .packetReceive _ => true
  | .flitCrcFail _ _ => true
  | .neighbourLinkRetrainFail _ => true
  | .acktoExpiry _ => true
  | .gStoreAck _ => true
  | .loadComplete _ => true
  | .storePerformed _ => true
  | .atomicComplete _ => true
  | .mordantLineReturn _ => true
  | .prmPushRequest _ _ => true
  | .splitDataArrive _ _ => true
  | .copyComplete _ => true
  | .dcopyComplete _ => true
  | .tableLoadComplete _ => true
  | .histlComplete _ => true
  | .matrixOperandComplete _ => true
  | .matrixComplete _ => true
  | .streamBox _ _ => true
  | .acqaGrant _ => true
  | .taskEnter _ _ => true
  | .taskRetire _ _ => true
  | .binFormWarp _ _ => true
  | .overflowRefill _ _ => true
  | .abortFlagArrive _ _ => true
  | .clauseIssue => true
  | .clauseBoundary => true
  | .rungServiceTimeout _ => true
  | .barrierTimeout _ => true
  | .stageParkTimeout _ => true
  | .slotParkTimeout _ => true
  | .presenceTimeout _ => true
  | .secfgParkTimeout _ => true
  | .acqaWaitTimeout _ => true
  | .ovfStall _ => true
  | .vatStopForce _ => true
  | .evictForce _ => true
  | .saveRestoreTimeout _ => true
  | .hostCxlMemAccess _ _ _ => true
  | .lakeProgramLoad _ => true
  | .lakeCommandStart _ => true
  | .lakeTimeout _ => true
  | .lakeCommandEnd _ => true
  | .peerPortLinkLoss _ => true
  | .domainAccessReceive _ _ _ _ => true
  | .hostBar2Access _ _ _ => true
  | .hubDieLoss => true
  | .uncorrectableError _ => true

end Sys2Proof
end

