-- ==== Sys2Proof/Decode.lean ====
section
/-! DEFINITION. The decoder, total on any bytes, and after it the encoder. `decodeWord` reads one instruction word of
the SIMT cores and its extension word (spec/11 R253, R254, R264); `decodeLake` reads one word of a Lake engine
(spec/16 R367). Words are little-endian (spec/00 R8). -/

namespace Sys2Proof

/-! ### The fields of an instruction word (spec/11 R253 Table 2) -/

def fS (w : Word) : BitVec 2 := w.extractLsb' 30 2
def fOp (w : Word) : BitVec 6 := w.extractLsb' 24 6
def fF (w : Word) : BitVec 3 := w.extractLsb' 21 3
def fD (w : Word) : Code := w.extractLsb' 14 7
def fA (w : Word) : Code := w.extractLsb' 7 7
def fB (w : Word) : Code := w.extractLsb' 0 7
def fImm (w : Word) : BitVec 14 := w.extractLsb' 0 14
def fImm8 (w : Word) : BitVec 8 := w.extractLsb' 0 8
def fImmHi (w : Word) : BitVec 6 := w.extractLsb' 8 6
def fPs (w : Word) : BitVec 3 := w.extractLsb' 18 3
def fPn (w : Word) : BitVec 1 := w.extractLsb' 17 1
def fOff (w : Word) : BitVec 17 := w.extractLsb' 0 17
/-- The fields of REP's immediate (spec/11 R262). -/
def fCount (w : Word) : BitVec 6 := w.extractLsb' 8 6
def fSd (w : Word) : BitVec 2 := w.extractLsb' 6 2
def fSa (w : Word) : BitVec 2 := w.extractLsb' 4 2
def fSb (w : Word) : BitVec 2 := w.extractLsb' 2 2
def fImm2 (w : Word) : BitVec 2 := w.extractLsb' 0 2

/-! ### The fields of an XM extension word (spec/11 R254 Table 3) -/

def xRm (x : Word) : BitVec 2 := x.extractLsb' 30 2
def xSub (x : Word) : BitVec 4 := x.extractLsb' 26 4
def xPd (x : Word) : BitVec 3 := x.extractLsb' 23 3
def xPs (x : Word) : BitVec 3 := x.extractLsb' 20 3
def xPn (x : Word) : BitVec 1 := x.extractLsb' 19 1
def xFs (x : Word) : BitVec 3 := x.extractLsb' 16 3
def xRes (x : Word) : BitVec 2 := x.extractLsb' 14 2
def xC (x : Word) : Code := x.extractLsb' 7 7
def xImm7 (x : Word) : BitVec 7 := x.extractLsb' 0 7

/-- The XA extension word. -/
def xaOf (x : Word) : Xa :=
  ⟨x.extractLsb' 29 3, x.extractLsb' 27 2, x.extractLsb' 26 1, x.extractLsb' 25 1, x.extractLsb' 24 1,
    x.extractLsb' 20 4, x.extractLsb' 16 4, x.extractLsb' 0 16⟩

/-- SCO, ORD, MD, PRM, SPL and SZ are 0, as PREF and CCTL need (spec/14 R328 Table 2). -/
def xaZero (x : Word) : Bool := x.extractLsb' 20 12 == 0

/-! ### The opcode map -/

/-- Why a word is no instruction: its slot is unassigned (spec/11 R264), or a reserved field or code of its slot is set
(R255). -/
inductive Reject where
  | unassigned
  | operand (op f : Nat)
  | truncated
  deriving DecidableEq, Repr

/-- A row of the opcode map (spec/11 R264 Table 5): the slot, whether an extension word follows, and the instruction
that the two words stand for, if every field the entry does not use is 0. -/
structure Row where
  op : Nat
  f : Nat
  long : Bool
  build : Word → Word → Option Instr

def rowsInt : List Row :=
  [
   ⟨0x00, 0, false, fun w _ => some (.iadd (fS w) (fD w) (fA w) (fB w))⟩,
   ⟨0x00, 1, false, fun w _ => some (.isub (fS w) (fD w) (fA w) (fB w))⟩,
   ⟨0x00, 2, false, fun w _ => some (.imul (fS w) (fD w) (fA w) (fB w))⟩,
   ⟨0x00, 3, false, fun w _ => some (.imulh (fS w) (fD w) (fA w) (fB w))⟩,
   ⟨0x00, 4, false, fun w _ => some (.imin (fS w) (fD w) (fA w) (fB w))⟩,
   ⟨0x00, 5, false, fun w _ => some (.imax (fS w) (fD w) (fA w) (fB w))⟩,
   ⟨0x00, 6, false, fun w _ => if fB w = 0 then some (.iabs (fS w) (fD w) (fA w)) else none⟩,
   ⟨0x00, 7, false, fun w _ => if fB w = 0 then some (.ineg (fS w) (fD w) (fA w)) else none⟩,
   ⟨0x01, 0, true, fun w x => if xRm x = 0 ∧ xPd x = 0 ∧ xPs x = 0 ∧ xPn x = 0 ∧ xFs x = 0 ∧ xImm7 x = 0 ∧ xRes x = 0 then some (.imad (fS w) (fD w) (fA w) (fB w) (xSub x) (xC x)) else none⟩,
   ⟨0x01, 1, false, fun w _ => some (.iadd64 (fS w) (fD w) (fA w) (fB w))⟩,
   ⟨0x01, 2, false, fun w _ => some (.isub64 (fS w) (fD w) (fA w) (fB w))⟩,
   ⟨0x01, 3, true, fun w x => if xRm x = 0 ∧ xSub x = 0 ∧ xPd x = 0 ∧ xPs x = 0 ∧ xPn x = 0 ∧ xFs x = 0 ∧ xRes x = 0 then some (.bfi (fS w) (fD w) (fA w) (fB w) (xC x) (xImm7 x)) else none⟩,
   ⟨0x01, 4, true, fun w x => if xRm x = 0 ∧ xPd x = 0 ∧ xPs x = 0 ∧ xPn x = 0 ∧ xFs x = 0 ∧ xC x = 0 ∧ xRes x = 0 then some (.bfx (fS w) (fD w) (fA w) (fB w) (xSub x) (xImm7 x)) else none⟩,
   ⟨0x01, 5, true, fun w x => if xRm x = 0 ∧ xSub x = 0 ∧ xPd x = 0 ∧ xFs x = 0 ∧ xC x = 0 ∧ xImm7 x = 0 ∧ xRes x = 0 then some (.sel (fS w) (fD w) (fA w) (fB w) (xPs x) (xPn x)) else none⟩,
   ⟨0x01, 6, true, fun w x => if fD w = 0 ∧ xRm x = 0 ∧ xFs x = 0 ∧ xC x = 0 ∧ xRes x = 0 then some (.icmpp (fS w) (fA w) (fB w) (xSub x) (xPd x) (xPs x) (xPn x) (xImm7 x)) else none⟩,
   ⟨0x02, 0, false, fun w _ => some (.and (fS w) (fD w) (fA w) (fB w))⟩,
   ⟨0x02, 1, false, fun w _ => some (.or (fS w) (fD w) (fA w) (fB w))⟩,
   ⟨0x02, 2, false, fun w _ => some (.xor (fS w) (fD w) (fA w) (fB w))⟩,
   ⟨0x02, 3, false, fun w _ => if fB w = 0 then some (.not (fS w) (fD w) (fA w)) else none⟩,
   ⟨0x02, 4, false, fun w _ => some (.shl (fS w) (fD w) (fA w) (fB w))⟩,
   ⟨0x02, 5, false, fun w _ => some (.shr (fS w) (fD w) (fA w) (fB w))⟩,
   ⟨0x02, 6, false, fun w _ => some (.sar (fS w) (fD w) (fA w) (fB w))⟩,
   ⟨0x02, 7, false, fun w _ => some (.rol (fS w) (fD w) (fA w) (fB w))⟩,
   ⟨0x03, 0, false, fun w _ => some (.shl64 (fS w) (fD w) (fA w) (fB w))⟩,
   ⟨0x03, 1, false, fun w _ => some (.shr64 (fS w) (fD w) (fA w) (fB w))⟩,
   ⟨0x03, 2, false, fun w _ => if fB w = 0 then some (.popc (fS w) (fD w) (fA w)) else none⟩,
   ⟨0x03, 3, false, fun w _ => if fB w = 0 then some (.clz (fS w) (fD w) (fA w)) else none⟩,
   ⟨0x03, 4, false, fun w _ => if fB w = 0 then some (.brev (fS w) (fD w) (fA w)) else none⟩,
   ⟨0x03, 5, false, fun w _ => if fB w = 0 then some (.mov (fS w) (fD w) (fA w)) else none⟩,
   ⟨0x04, 0, false, fun w _ => some (.movi (fS w) (fD w) (fImm w))⟩,
   ⟨0x04, 1, true, fun w x => if fA w = 0 ∧ fB w = 0 then some (.limm (fS w) (fD w) x) else none⟩,
   ⟨0x04, 2, false, fun w _ => if fD w = 0 ∧ fImmHi w = 0 then some (.setwb (fS w) (fImm8 w)) else none⟩,
   ⟨0x04, 3, true, fun w x => if fB w = 0 ∧ xRm x = 0 ∧ xSub x = 0 ∧ xPd x = 0 ∧ xPs x = 0 ∧ xPn x = 0 ∧ xFs x = 0 ∧ xC x = 0 ∧ xRes x = 0 then some (.movxR (fS w) (fD w) (fA w) (xImm7 x)) else none⟩,
   ⟨0x04, 4, true, fun w x => if fD w = 0 ∧ xRm x = 0 ∧ xSub x = 0 ∧ xPd x = 0 ∧ xPs x = 0 ∧ xPn x = 0 ∧ xFs x = 0 ∧ xC x = 0 ∧ xRes x = 0 then some (.movxW (fS w) (fA w) (fB w) (xImm7 x)) else none⟩
  ]

def rowsFloat : List Row :=
  [
   ⟨0x10, 0, false, fun w _ => some (.fadd (fS w) (fD w) (fA w) (fB w))⟩,
   ⟨0x10, 1, false, fun w _ => some (.fsub (fS w) (fD w) (fA w) (fB w))⟩,
   ⟨0x10, 2, false, fun w _ => some (.fmul (fS w) (fD w) (fA w) (fB w))⟩,
   ⟨0x10, 3, false, fun w _ => some (.fmin (fS w) (fD w) (fA w) (fB w))⟩,
   ⟨0x10, 4, false, fun w _ => some (.fmax (fS w) (fD w) (fA w) (fB w))⟩,
   ⟨0x10, 5, false, fun w _ => if fB w = 0 then some (.fneg (fS w) (fD w) (fA w)) else none⟩,
   ⟨0x10, 6, false, fun w _ => if fB w = 0 then some (.fabs (fS w) (fD w) (fA w)) else none⟩,
   ⟨0x10, 7, false, fun w _ => if fB w = 0 then some (.fclass (fS w) (fD w) (fA w)) else none⟩,
   ⟨0x11, 0, true, fun w x => if xSub x = 0 ∧ xPd x = 0 ∧ xPs x = 0 ∧ xPn x = 0 ∧ xFs x = 0 ∧ xC x = 0 ∧ xImm7 x = 0 ∧ xRes x = 0 then some (.faddRm (fS w) (fD w) (fA w) (fB w) (xRm x)) else none⟩,
   ⟨0x11, 1, true, fun w x => if xSub x = 0 ∧ xPd x = 0 ∧ xPs x = 0 ∧ xPn x = 0 ∧ xFs x = 0 ∧ xC x = 0 ∧ xImm7 x = 0 ∧ xRes x = 0 then some (.fsubRm (fS w) (fD w) (fA w) (fB w) (xRm x)) else none⟩,
   ⟨0x11, 2, true, fun w x => if xSub x = 0 ∧ xPd x = 0 ∧ xPs x = 0 ∧ xPn x = 0 ∧ xFs x = 0 ∧ xC x = 0 ∧ xImm7 x = 0 ∧ xRes x = 0 then some (.fmulRm (fS w) (fD w) (fA w) (fB w) (xRm x)) else none⟩,
   ⟨0x11, 3, true, fun w x => if xSub x = 0 ∧ xPd x = 0 ∧ xPs x = 0 ∧ xPn x = 0 ∧ xFs x = 0 ∧ xImm7 x = 0 ∧ xRes x = 0 then some (.ffma (fS w) (fD w) (fA w) (fB w) (xRm x) (xC x)) else none⟩,
   ⟨0x11, 4, true, fun w x => if fD w = 0 ∧ xRm x = 0 ∧ xFs x = 0 ∧ xC x = 0 ∧ xRes x = 0 then some (.fcmpp (fS w) (fA w) (fB w) (xSub x) (xPd x) (xPs x) (xPn x) (xImm7 x)) else none⟩,
   ⟨0x11, 5, true, fun w x => if fB w = 0 ∧ xSub x = 0 ∧ xPd x = 0 ∧ xPs x = 0 ∧ xPn x = 0 ∧ xFs x = 0 ∧ xC x = 0 ∧ xImm7 x = 0 ∧ xRes x = 0 then some (.frint (fS w) (fD w) (fA w) (xRm x)) else none⟩,
   ⟨0x11, 6, true, fun w x => if xPd x = 0 ∧ xPs x = 0 ∧ xPn x = 0 ∧ xFs x = 0 ∧ xImm7 x = 0 ∧ xRes x = 0 then some (.fdp2 (fS w) (fD w) (fA w) (fB w) (xRm x) (xSub x) (xC x)) else none⟩,
   ⟨0x12, 0, false, fun w _ => some (.hadd2 (fS w) (fD w) (fA w) (fB w))⟩,
   ⟨0x12, 1, false, fun w _ => some (.hmul2 (fS w) (fD w) (fA w) (fB w))⟩,
   ⟨0x12, 2, true, fun w x => if xPd x = 0 ∧ xPs x = 0 ∧ xPn x = 0 ∧ xFs x = 0 ∧ xImm7 x = 0 ∧ xRes x = 0 then some (.hfma2 (fS w) (fD w) (fA w) (fB w) (xRm x) (xSub x) (xC x)) else none⟩,
   ⟨0x12, 3, true, fun w x => if xPd x = 0 ∧ xPs x = 0 ∧ xPn x = 0 ∧ xFs x = 0 ∧ xC x = 0 ∧ xImm7 x = 0 ∧ xRes x = 0 then some (.hadd2X (fS w) (fD w) (fA w) (fB w) (xRm x) (xSub x)) else none⟩,
   ⟨0x12, 4, true, fun w x => if xPd x = 0 ∧ xPs x = 0 ∧ xPn x = 0 ∧ xFs x = 0 ∧ xC x = 0 ∧ xImm7 x = 0 ∧ xRes x = 0 then some (.hmul2X (fS w) (fD w) (fA w) (fB w) (xRm x) (xSub x)) else none⟩,
   ⟨0x12, 5, true, fun w x => if xRm x = 0 ∧ xPd x = 0 ∧ xPs x = 0 ∧ xPn x = 0 ∧ xFs x = 0 ∧ xImm7 x = 0 ∧ xRes x = 0 then some (.idp4 (fS w) (fD w) (fA w) (fB w) (xSub x) (xC x)) else none⟩,
   ⟨0x13, 0, true, fun w x => if fB w = 0 ∧ xPd x = 0 ∧ xPs x = 0 ∧ xPn x = 0 ∧ xFs x = 0 ∧ xC x = 0 ∧ xRes x = 0 then some (.cvt (fS w) (fD w) (fA w) (xRm x) (xSub x) (xImm7 x)) else none⟩,
   ⟨0x13, 1, true, fun w x => if fB w = 0 ∧ xSub x = 0 ∧ xPd x = 0 ∧ xPs x = 0 ∧ xPn x = 0 ∧ xC x = 0 ∧ xRes x = 0 then some (.cvtsTo (fS w) (fD w) (fA w) (xRm x) (xFs x) (xImm7 x)) else none⟩,
   ⟨0x13, 2, true, fun w x => if fB w = 0 ∧ xRm x = 0 ∧ xSub x = 0 ∧ xPd x = 0 ∧ xPs x = 0 ∧ xPn x = 0 ∧ xC x = 0 ∧ xRes x = 0 then some (.cvtsFrom (fS w) (fD w) (fA w) (xFs x) (xImm7 x)) else none⟩
  ]

def rowsFunc : List Row :=
  [
   ⟨0x1C, 0, false, fun w _ => if fB w = 0 then some (.frcp (fS w) (fD w) (fA w)) else none⟩,
   ⟨0x1C, 1, false, fun w _ => if fB w = 0 then some (.frsq (fS w) (fD w) (fA w)) else none⟩,
   ⟨0x1C, 2, false, fun w _ => if fB w = 0 then some (.fsqrt (fS w) (fD w) (fA w)) else none⟩,
   ⟨0x1C, 3, false, fun w _ => if fB w = 0 then some (.fexp2 (fS w) (fD w) (fA w)) else none⟩,
   ⟨0x1C, 4, false, fun w _ => if fB w = 0 then some (.flog2 (fS w) (fD w) (fA w)) else none⟩,
   ⟨0x1C, 5, false, fun w _ => if fB w = 0 then some (.fsin (fS w) (fD w) (fA w)) else none⟩,
   ⟨0x1C, 6, false, fun w _ => if fB w = 0 then some (.fcos (fS w) (fD w) (fA w)) else none⟩,
   ⟨0x1D, 0, false, fun w _ => if fB w = 0 then some (.tint (fS w) (fD w) (fA w)) else none⟩,
   ⟨0x1D, 1, false, fun w _ => if fD w = 0 ∧ fB w = 0 then some (.tintld (fS w) (fA w)) else none⟩,
   ⟨0x1D, 2, false, fun w _ => if fD w = 0 ∧ fA w = 0 ∧ fB w = 0 then some (.tintsw (fS w)) else none⟩,
   ⟨0x1D, 3, false, fun w _ => if fB w = 0 then some (.chld (fS w) (fD w) (fA w)) else none⟩,
   ⟨0x1D, 4, true, fun w x => if xRm x = 0 ∧ xPd x = 0 ∧ xPs x = 0 ∧ xPn x = 0 ∧ xFs x = 0 ∧ xC x = 0 ∧ xRes x = 0 then some (.chrun (fS w) (fD w) (fA w) (fB w) (xSub x) (xImm7 x)) else none⟩
  ]

def rowsUniform : List Row :=
  [
   ⟨0x20, 0, false, fun w _ => some (.kadd (fS w) (fD w) (fA w) (fB w))⟩,
   ⟨0x20, 1, false, fun w _ => some (.ksub (fS w) (fD w) (fA w) (fB w))⟩,
   ⟨0x20, 2, false, fun w _ => some (.kmul (fS w) (fD w) (fA w) (fB w))⟩,
   ⟨0x20, 3, false, fun w _ => some (.kand (fS w) (fD w) (fA w) (fB w))⟩,
   ⟨0x20, 4, false, fun w _ => some (.kor (fS w) (fD w) (fA w) (fB w))⟩,
   ⟨0x20, 5, false, fun w _ => some (.kxor (fS w) (fD w) (fA w) (fB w))⟩,
   ⟨0x20, 6, false, fun w _ => some (.kshl (fS w) (fD w) (fA w) (fB w))⟩,
   ⟨0x20, 7, false, fun w _ => some (.kshr (fS w) (fD w) (fA w) (fB w))⟩,
   ⟨0x21, 0, false, fun w _ => if fB w = 0 then some (.kmov (fS w) (fD w) (fA w)) else none⟩,
   ⟨0x21, 1, false, fun w _ => some (.kmovi (fS w) (fD w) (fImm w))⟩,
   ⟨0x21, 2, true, fun w x => if fD w = 0 ∧ xRm x = 0 ∧ xFs x = 0 ∧ xC x = 0 ∧ xRes x = 0 then some (.kcmpp (fS w) (fA w) (fB w) (xSub x) (xPd x) (xPs x) (xPn x) (xImm7 x)) else none⟩,
   ⟨0x21, 3, false, fun w _ => some (.klane (fS w) (fD w) (fA w) (fB w))⟩,
   ⟨0x21, 4, false, fun w _ => some (.kpopm (fS w) (fD w) (fA w) (fB w))⟩
  ]

def rowsControl : List Row :=
  [
   ⟨0x28, 0, false, fun w _ => if fPs w = 0 ∧ fPn w = 0 then some (.bra (fS w) (fOff w)) else none⟩,
   ⟨0x28, 1, false, fun w _ => some (.braPred (fS w) (fPs w) (fPn w) (fOff w))⟩,
   ⟨0x28, 2, false, fun w _ => if fD w = 0 ∧ fB w = 0 then some (.brx (fS w) (fA w)) else none⟩,
   ⟨0x28, 3, false, fun w _ => if fPs w = 0 ∧ fPn w = 0 then some (.call (fS w) (fOff w)) else none⟩,
   ⟨0x28, 4, false, fun w _ => if fD w = 0 ∧ fB w = 0 then some (.ret (fS w) (fA w)) else none⟩,
   ⟨0x28, 5, false, fun w _ => if fD w = 0 ∧ fA w = 0 ∧ fB w = 0 then some (.exit (fS w)) else none⟩,
   ⟨0x28, 6, false, fun w _ => if fD w = 0 ∧ fA w = 0 ∧ fB w = 0 then some (.nop (fS w)) else none⟩,
   ⟨0x28, 7, false, fun w _ => if fD w = 0 then some (.sleep (fS w) (fImm w)) else none⟩,
   ⟨0x29, 0, false, fun w _ => if fB w = 0 then some (.enrol (fS w) (fD w) (fA w)) else none⟩,
   ⟨0x29, 1, false, fun w _ => if fA w = 0 ∧ fB w = 0 then some (.jwait (fS w) (fD w)) else none⟩,
   ⟨0x29, 2, false, fun w _ => if fD w = 0 then some (.dret (fS w) (fA w) (fB w)) else none⟩,
   ⟨0x29, 3, false, fun w _ => if fD w = 0 ∧ fA w = 0 ∧ fB w = 0 then some (.park (fS w)) else none⟩,
   ⟨0x29, 4, false, fun w _ => if fD w = 0 ∧ fA w = 0 ∧ fB w = 0 then some (.yield (fS w)) else none⟩,
   ⟨0x2A, 0, false, fun w _ => if fD w = 0 ∧ fA w = 0 ∧ fB w = 0 then some (.barv (fS w)) else none⟩,
   ⟨0x2A, 1, false, fun w _ => if fB w = 0 then some (.barn (fS w) (fD w) (fA w)) else none⟩,
   ⟨0x2A, 2, false, fun w _ => if fD w = 0 ∧ fA w = 0 ∧ fB w = 0 then some (.bleave (fS w)) else none⟩,
   ⟨0x2B, 0, false, fun w _ => if fD w = 0 then some (.stgbeg (fS w) (fA w) (fB w)) else none⟩,
   ⟨0x2B, 1, true, fun w x => if fA w = 0 ∧ fB w = 0 ∧ xRm x = 0 ∧ xSub x = 0 ∧ xPs x = 0 ∧ xPn x = 0 ∧ xFs x = 0 ∧ xC x = 0 ∧ xImm7 x = 0 ∧ xRes x = 0 then some (.stgnext (fS w) (fD w) (xPd x)) else none⟩,
   ⟨0x2B, 2, false, fun w _ => some (.stgadv (fS w) (fD w) (fA w) (fB w))⟩,
   ⟨0x2B, 3, false, fun w _ => some (.stgset (fS w) (fD w) (fA w) (fB w))⟩,
   ⟨0x2B, 4, false, fun w _ => some (.stgwl (fS w) (fD w) (fA w) (fB w))⟩,
   ⟨0x2B, 5, false, fun w _ => if fD w = 0 ∧ fA w = 0 ∧ fB w = 0 then some (.stgend (fS w)) else none⟩
  ]

def rowsLanes : List Row :=
  [
   ⟨0x30, 0, true, fun w x => if xRm x = 0 ∧ xPd x = 0 ∧ xPs x = 0 ∧ xPn x = 0 ∧ xFs x = 0 ∧ xImm7 x = 0 ∧ xRes x = 0 then some (.lxchAt (fS w) (fD w) (fA w) (fB w) (xSub x) (xC x)) else none⟩,
   ⟨0x30, 1, true, fun w x => if xRm x = 0 ∧ xPd x = 0 ∧ xPs x = 0 ∧ xPn x = 0 ∧ xFs x = 0 ∧ xImm7 x = 0 ∧ xRes x = 0 then some (.lxchBack (fS w) (fD w) (fA w) (fB w) (xSub x) (xC x)) else none⟩,
   ⟨0x30, 2, true, fun w x => if xRm x = 0 ∧ xPd x = 0 ∧ xPs x = 0 ∧ xPn x = 0 ∧ xFs x = 0 ∧ xImm7 x = 0 ∧ xRes x = 0 then some (.lxchFwd (fS w) (fD w) (fA w) (fB w) (xSub x) (xC x)) else none⟩,
   ⟨0x30, 3, true, fun w x => if xRm x = 0 ∧ xPd x = 0 ∧ xPs x = 0 ∧ xPn x = 0 ∧ xFs x = 0 ∧ xImm7 x = 0 ∧ xRes x = 0 then some (.lxchFlip (fS w) (fD w) (fA w) (fB w) (xSub x) (xC x)) else none⟩,
   ⟨0x30, 4, true, fun w x => if fD w = 0 ∧ fA w = 0 ∧ fB w = 0 ∧ xRm x = 0 ∧ xFs x = 0 ∧ xC x = 0 ∧ xImm7 x = 0 ∧ xRes x = 0 then some (.ltest (fS w) (xSub x) (xPd x) (xPs x) (xPn x)) else none⟩,
   ⟨0x30, 5, false, fun w _ => if fB w = 0 then some (.pmask (fS w) (fD w) (fA w)) else none⟩,
   ⟨0x30, 6, false, fun w _ => some (.lsame (fS w) (fD w) (fA w) (fB w))⟩,
   ⟨0x31, 0, true, fun w x => if fB w = 0 ∧ xRm x = 0 ∧ xPd x = 0 ∧ xPs x = 0 ∧ xPn x = 0 ∧ xFs x = 0 ∧ xC x = 0 ∧ xImm7 x = 0 ∧ xRes x = 0 then some (.lfold (fS w) (fD w) (fA w) (xSub x)) else none⟩,
   ⟨0x31, 1, true, fun w x => if fB w = 0 ∧ xRm x = 0 ∧ xPd x = 0 ∧ xPs x = 0 ∧ xPn x = 0 ∧ xFs x = 0 ∧ xC x = 0 ∧ xRes x = 0 then some (.scanx (fS w) (fD w) (fA w) (xSub x) (xImm7 x)) else none⟩,
   ⟨0x31, 2, true, fun w x => if xRm x = 0 ∧ xSub x = 0 ∧ xPs x = 0 ∧ xPn x = 0 ∧ xFs x = 0 ∧ xImm7 x = 0 ∧ xRes x = 0 then some (.isect (fS w) (fD w) (fA w) (fB w) (xC x) (xPd x)) else none⟩,
   ⟨0x31, 3, true, fun w x => if xRm x = 0 ∧ xSub x = 0 ∧ xPs x = 0 ∧ xPn x = 0 ∧ xFs x = 0 ∧ xImm7 x = 0 ∧ xRes x = 0 then some (.bmpos (fS w) (fD w) (fA w) (fB w) (xC x) (xPd x)) else none⟩
  ]

def rowsMemory : List Row :=
  [
   ⟨0x34, 0, true, fun w x => if fB w = 0 then some (.ld (fS w) (fD w) (fA w) (xaOf x)) else none⟩,
   ⟨0x34, 1, true, fun w x => if fD w = 0 then some (.st (fS w) (fA w) (fB w) (xaOf x)) else none⟩,
   ⟨0x34, 2, true, fun w x => if fB w = 0 then some (.lds (fS w) (fD w) (fA w) (xaOf x)) else none⟩,
   ⟨0x34, 3, true, fun w x => if fD w = 0 then some (.sts (fS w) (fA w) (fB w) (xaOf x)) else none⟩,
   ⟨0x34, 4, true, fun w x => some (.atom (fS w) (fD w) (fA w) (fB w) (xaOf x))⟩,
   ⟨0x34, 5, true, fun w x => some (.atoms (fS w) (fD w) (fA w) (fB w) (xaOf x))⟩,
   ⟨0x34, 6, true, fun w x => if fD w = 0 then some (.red (fS w) (fA w) (fB w) (xaOf x)) else none⟩,
   ⟨0x34, 7, true, fun w x => if fD w = 0 ∧ fB w = 0 ∧ xaZero x = true then some (.pref (fS w) (fA w) (xaOf x).sub (xaOf x).off) else none⟩,
   ⟨0x35, 0, false, fun w _ => if fD w = 0 ∧ fB w = 0 then some (.fence (fS w) (fA w)) else none⟩,
   ⟨0x35, 1, false, fun w _ => if fD w = 0 ∧ fA w = 0 ∧ fB w = 0 then some (.ifence (fS w)) else none⟩,
   ⟨0x35, 2, false, fun w _ => if fD w = 0 ∧ fA w = 0 ∧ fB w = 0 then some (.lfence (fS w)) else none⟩,
   ⟨0x35, 3, false, fun w _ => if fD w = 0 then some (.waitc (fS w) (fA w) (fB w)) else none⟩,
   ⟨0x35, 4, true, fun w x => if fD w = 0 ∧ fB w = 0 ∧ xaZero x = true ∧ (xaOf x).sub = 0 then some (.cctlIl1 (fS w) (fA w) (xaOf x).off) else if fD w = 0 ∧ fB w = 0 ∧ xaZero x = true ∧ (xaOf x).sub = 1 then some (.cctlIrlc (fS w) (fA w) (xaOf x).off) else if fD w = 0 ∧ fB w = 0 ∧ xaZero x = true ∧ (xaOf x).sub = 2 then some (.cctlWbl2 (fS w) (fA w) (xaOf x).off) else none⟩
  ]

def rowsAsync : List Row :=
  [
   ⟨0x36, 0, true, fun w x => if xRm x = 0 ∧ xPd x = 0 ∧ xPs x = 0 ∧ xPn x = 0 ∧ xFs x = 0 ∧ xC x = 0 ∧ xImm7 x = 0 ∧ xRes x = 0 then some (.copy (fS w) (fD w) (fA w) (fB w) (xSub x)) else none⟩,
   ⟨0x36, 1, true, fun w x => if xRm x = 0 ∧ xPd x = 0 ∧ xPs x = 0 ∧ xPn x = 0 ∧ xFs x = 0 ∧ xImm7 x = 0 ∧ xRes x = 0 then some (.dcopy (fS w) (fD w) (fA w) (fB w) (xSub x) (xC x)) else none⟩,
   ⟨0x36, 2, false, fun w _ => if fB w = 0 then some (.ctabld (fS w) (fD w) (fA w)) else none⟩,
   ⟨0x36, 3, false, fun w _ => some (.secfg (fS w) (fD w) (fA w) (fB w))⟩,
   ⟨0x36, 4, false, fun w _ => if fA w = 0 ∧ fB w = 0 then some (.sego (fS w) (fD w)) else none⟩,
   ⟨0x36, 5, false, fun w _ => if fA w = 0 ∧ fB w = 0 then some (.sestop (fS w) (fD w)) else none⟩,
   ⟨0x36, 6, false, fun w _ => if fB w = 0 then some (.sltake (fS w) (fD w) (fA w)) else none⟩,
   ⟨0x36, 7, false, fun w _ => if fD w = 0 then some (.slgive (fS w) (fA w) (fB w)) else none⟩,
   ⟨0x37, 0, false, fun w _ => if fD w = 0 ∧ fB w = 0 then some (.spawn (fS w) (fA w)) else if fD w = 0 ∧ fB w = 1 then some (.spawnR (fS w) (fA w)) else none⟩,
   ⟨0x37, 1, false, fun w _ => if fD w = 0 ∧ fA w = 0 ∧ fB w = 0 then some (.tdone (fS w)) else none⟩,
   ⟨0x37, 2, false, fun w _ => if fD w = 0 ∧ fB w = 0 then some (.hista (fS w) (fA w)) else none⟩,
   ⟨0x37, 3, false, fun w _ => if fB w = 0 then some (.histl (fS w) (fD w) (fA w)) else none⟩,
   ⟨0x37, 4, false, fun w _ => if fD w = 0 ∧ fA w = 0 ∧ fB w = 0 then some (.labort (fS w)) else none⟩,
   ⟨0x37, 5, false, fun w _ => if fD w = 0 ∧ fA w = 0 ∧ fB w = 0 then some (.abchk (fS w)) else none⟩,
   ⟨0x38, 0, true, fun w x => if fD w = 0 ∧ xRm x = 0 ∧ xSub x = 0 ∧ xPd x = 0 ∧ xPs x = 0 ∧ xPn x = 0 ∧ xFs x = 0 ∧ xImm7 x = 0 ∧ xRes x = 0 then some (.bkprog (fS w) (fA w) (fB w) (xC x)) else none⟩,
   ⟨0x38, 1, true, fun w x => if fD w = 0 ∧ xRm x = 0 ∧ xSub x = 0 ∧ xPd x = 0 ∧ xPs x = 0 ∧ xPn x = 0 ∧ xC x = 0 ∧ xImm7 x = 0 ∧ xRes x = 0 then some (.bklaunch (fS w) (fA w) (fB w) (xFs x)) else none⟩,
   ⟨0x38, 2, false, fun w _ => if fD w = 0 ∧ fA w = 0 ∧ fB w = 0 then some (.bkfence (fS w)) else none⟩
  ]

def rowsMatrix : List Row :=
  [
   ⟨0x3C, 0, false, fun w _ => if fD w = 0 then some (.tcfg (fS w) (fA w) (fB w)) else none⟩,
   ⟨0x3C, 1, true, fun w x => if xRm x = 0 ∧ xSub x = 0 ∧ xPd x = 0 ∧ xPs x = 0 ∧ xPn x = 0 ∧ xC x = 0 ∧ xRes x = 0 then some (.mma (fS w) (fD w) (fA w) (fB w) (xFs x) (xImm7 x)) else none⟩,
   ⟨0x3C, 2, true, fun w x => if xRm x = 0 ∧ xPd x = 0 ∧ xPs x = 0 ∧ xPn x = 0 ∧ xC x = 0 ∧ xRes x = 0 then some (.mmas (fS w) (fD w) (fA w) (fB w) (xSub x) (xFs x) (xImm7 x)) else none⟩,
   ⟨0x3C, 3, false, fun w _ => if fA w = 0 ∧ fB w = 0 then some (.mzero (fS w) (fD w)) else none⟩,
   ⟨0x3C, 4, true, fun w x => if xRm x = 0 ∧ xSub x = 0 ∧ xPd x = 0 ∧ xPs x = 0 ∧ xPn x = 0 ∧ xFs x = 0 ∧ xC x = 0 ∧ xImm7 x = 0 ∧ xRes x = 0 then some (.mld (fS w) (fD w) (fA w) (fB w)) else none⟩,
   ⟨0x3C, 5, true, fun w x => if xRm x = 0 ∧ xSub x = 0 ∧ xPd x = 0 ∧ xPs x = 0 ∧ xPn x = 0 ∧ xFs x = 0 ∧ xC x = 0 ∧ xImm7 x = 0 ∧ xRes x = 0 then some (.mst (fS w) (fD w) (fA w) (fB w)) else none⟩,
   ⟨0x3C, 6, false, fun w _ => some (.mfill (fS w) (fD w) (fA w) (fB w))⟩,
   ⟨0x3C, 7, true, fun w x => if xRm x = 0 ∧ xPd x = 0 ∧ xPs x = 0 ∧ xPn x = 0 ∧ xFs x = 0 ∧ xC x = 0 ∧ xRes x = 0 then some (.mdrain (fS w) (fD w) (fA w) (fB w) (xSub x) (xImm7 x)) else none⟩,
   ⟨0x3D, 0, false, fun w _ => if fB w = 0 then some (.acqa (fS w) (fD w) (fA w)) else none⟩,
   ⟨0x3D, 1, false, fun w _ => if fD w = 0 ∧ fA w = 0 ∧ fB w = 0 then some (.rela (fS w)) else none⟩,
   ⟨0x3D, 2, false, fun w _ => if fD w = 0 ∧ fA w = 0 ∧ fB w = 0 then some (.msync (fS w)) else none⟩
  ]

def rowsSystem : List Row :=
  [
   ⟨0x3E, 0, false, fun w _ => some (.sysr (fS w) (fD w) (fImm w))⟩,
   ⟨0x3E, 1, false, fun w _ => if sysSpecial (fImm w) = false then some (.sysw (fS w) (fD w) (fImm w)) else if (0x80 ≤ fImm w && fImm w ≤ 0x8F) = true then some (.syswRingd (fS w) (fD w) (fImm w)) else if (0x90 ≤ fImm w && fImm w ≤ 0xAF) = true then some (.syswRingtag (fS w) (fD w) (fImm w)) else if fImm w = 0x70 then some (.syswVbstat (fS w) (fD w) (fImm w)) else if (0x140 ≤ fImm w && fImm w ≤ 0x14F) = true then some (.syswNbstat (fS w) (fD w) (fImm w)) else if fImm w = 0x3B then some (.syswLstate (fS w) (fD w) (fImm w)) else if fImm w = 0x38 then some (.syswLpc (fS w) (fD w) (fImm w)) else if (0x200 ≤ fImm w && fImm w ≤ 0x2FF) = true then some (.syswHistbin (fS w) (fD w) (fImm w)) else none⟩,
   ⟨0x3E, 2, false, fun w _ => if fD w = 0 ∧ fA w = 0 then some (.trap (fS w) (fB w)) else none⟩,
   ⟨0x3E, 3, false, fun w _ => if fD w = 0 ∧ fA w = 0 ∧ fB w = 0 then some (.tret (fS w)) else if fD w = 0 ∧ fA w = 0 ∧ fB w = 1 then some (.tretSkip (fS w)) else if fD w = 0 ∧ fA w = 0 ∧ fB w = 2 then some (.tretEsc (fS w)) else none⟩,
   ⟨0x3E, 4, false, fun w _ => if fD w = 0 ∧ fA w = 0 then some (.bkpt (fS w) (fB w)) else none⟩,
   ⟨0x3E, 5, false, fun w _ => if fD w = 0 ∧ fB w = 0 then some (.savew (fS w) (fA w)) else if fD w = 0 ∧ fA w = 0 ∧ fB w = 1 then some (.savewDone (fS w)) else none⟩,
   ⟨0x3E, 6, false, fun w _ => if fD w = 0 ∧ fB w = 0 then some (.restw (fS w) (fA w)) else none⟩,
   ⟨0x3F, 0, false, fun w _ => if fD w = 0 ∧ fImm2 w = 0 then some (.rep (fS w) (fCount w) (fSd w) (fSa w) (fSb w)) else none⟩
  ]

/-- The whole map, in the order of its rows. -/
def rows : List Row :=
  rowsInt ++ rowsFloat ++ rowsFunc ++ rowsUniform ++ rowsControl ++ rowsLanes ++ rowsMemory ++ rowsAsync ++ rowsMatrix ++ rowsSystem

/-- The row of a slot. -/
def findRow : List Row → Nat → Nat → Option Row
  | [], _, _ => none
  | r :: rs, op, f => if r.op = op ∧ r.f = f then some r else findRow rs op f

/-- What a word, with the word after it as extension word, stands for; with the instruction, whether it takes both. -/
def decodeWord (w x : Word) : Except Reject (Instr × Bool) :=
  match findRow rows (fOp w).toNat (fF w).toNat with
  | none => .error .unassigned
  | some r =>
    match r.build w x with
    | none => .error (.operand r.op r.f)
    | some i => if i.wf then .ok (i, r.long) else .error (.operand r.op r.f)

/-- Four bytes, the lowest address first, as a word (spec/00 R8). -/
def wordOfBytes (b0 b1 b2 b3 : Byte) : Word := b3 ++ b2 ++ b1 ++ b0

/-- The first instruction of a byte sequence, and the bytes after it. A two-word instruction of which only one word is
there is refused; the extension word of a one-word instruction is not looked at. -/
def decode : List Byte → Except Reject (Instr × List Byte)
  | b0 :: b1 :: b2 :: b3 :: rest =>
    match rest with
    | c0 :: c1 :: c2 :: c3 :: rest' =>
      match decodeWord (wordOfBytes b0 b1 b2 b3) (wordOfBytes c0 c1 c2 c3) with
      | .ok (i, long) => .ok (i, if long then rest' else rest)
      | .error e => .error e
    | _ =>
      match decodeWord (wordOfBytes b0 b1 b2 b3) 0 with
      | .ok (i, long) => if long then .error .truncated else .ok (i, rest)
      | .error e => .error e
  | _ => .error .truncated

/-! ### Lake words (spec/16 R367) -/

def lOp (w : Word) : BitVec 6 := w.extractLsb' 26 6
def lA (w : Word) : BitVec 4 := w.extractLsb' 22 4
def lB (w : Word) : BitVec 4 := w.extractLsb' 18 4
def lRes (w : Word) : BitVec 2 := w.extractLsb' 16 2
def lImm (w : Word) : BitVec 16 := w.extractLsb' 0 16
/-- B's low bit and its upper bits, for the entries that use [0] of it alone. -/
def lBit (w : Word) : BitVec 1 := w.extractLsb' 18 1
def lBHi (w : Word) : BitVec 3 := w.extractLsb' 19 3
def lMask (w : Word) : BitVec 5 := w.extractLsb' 0 5
def lN7 (w : Word) : BitVec 7 := w.extractLsb' 0 7

/-- The Lake instructions by OP (Table 3). -/
def lakeRows : List (Nat × (Word → Option Instr)) :=
  [
   (0x00, fun w => if lRes w = 0 ∧ lA w = 0 ∧ lB w = 0 ∧ lImm w = 0 then some (.lakeNop) else none),
   (0x01, fun w => if lRes w = 0 ∧ lA w = 0 ∧ lB w = 0 ∧ lImm w = 0 then some (.xld) else none),
   (0x02, fun w => if lRes w = 0 ∧ lA w = 0 ∧ lB w = 0 then some (.rowrd (lImm w)) else none),
   (0x03, fun w => if lRes w = 0 ∧ lA w = 0 ∧ lBHi w = 0 ∧ lImm w = 0 then some (.mac8 (lBit w)) else none),
   (0x04, fun w => if lRes w = 0 ∧ lA w = 0 ∧ lBHi w = 0 ∧ lImm w = 0 then some (.mac4 (lBit w)) else none),
   (0x05, fun w => if lRes w = 0 ∧ lA w = 0 ∧ lBHi w = 0 ∧ lImm w = 0 then some (.mach (lBit w)) else none),
   (0x06, fun w => if lRes w = 0 ∧ lImm w = 0 then some (.accz (lA w) (lB w)) else none),
   (0x07, fun w => if lRes w = 0 ∧ lB w = 0 then some (.accsc (lA w) (lImm w)) else none),
   (0x08, fun w => if lRes w = 0 ∧ lImm w = 0 then some (.accadd (lA w) (lB w)) else none),
   (0x09, fun w => if lRes w = 0 ∧ lImm w = 0 then some (.outw (lA w) (lB w)) else none),
   (0x0A, fun w => if lRes w = 0 ∧ lA w = 0 ∧ lBHi w = 0 then some (.rcadd (lBit w) (lImm w)) else none),
   (0x0B, fun w => if lRes w = 0 ∧ lA w = 0 ∧ lBHi w = 0 then some (.ccadd (lBit w) (lImm w)) else none),
   (0x0C, fun w => if lRes w = 0 ∧ lA w = 0 ∧ lBHi w = 0 then some (.loop (lBit w) (lImm w)) else none),
   (0x0D, fun w => if lRes w = 0 ∧ lA w = 0 ∧ lBHi w = 0 ∧ lImm w = 0 then some (.lend (lBit w)) else none),
   (0x0E, fun w => if lRes w = 0 ∧ lA w = 0 ∧ lB w = 0 ∧ lImm w = 0 then some (.lakeSync) else none),
   (0x0F, fun w => if lRes w = 0 ∧ lA w = 0 ∧ lB w = 0 ∧ w.extractLsb' 5 11 = 0 then some (.flagsC (lMask w)) else if lRes w = 0 ∧ lB w = 1 ∧ lImm w = 0 then some (.flagsR (lA w)) else none),
   (0x10, fun w => if lRes w = 0 ∧ lA w = 0 ∧ lB w = 0 ∧ w.extractLsb' 7 9 = 0 then some (.trapl (lN7 w)) else none),
   (0x11, fun w => if lRes w = 0 ∧ lA w = 0 ∧ lB w = 0 ∧ lImm w = 0 then some (.halt) else none)
  ]

/-- The builder of a Lake OP. -/
def findLake : List (Nat × (Word → Option Instr)) → Nat → Option (Word → Option Instr)
  | [], _ => none
  | r :: rs, op => if r.1 = op then some r.2 else findLake rs op

/-- The Lake instruction of a word; none where the word ends the command with PROGRAM. -/
def decodeLake (w : Word) : Option Instr :=
  match findLake lakeRows (lOp w).toNat with
  | none => none
  | some build =>
    match build w with
    | none => none
    | some i => if i.wf then some i else none

/-! ### Packing the fields -/

def packR (st : BitVec 2) (op : BitVec 6) (f : BitVec 3) (d a b : Code) : Word := st ++ op ++ f ++ d ++ a ++ b
def packI (st : BitVec 2) (op : BitVec 6) (f : BitVec 3) (d : Code) (imm : BitVec 14) : Word := st ++ op ++ f ++ d ++ imm
def packC (st : BitVec 2) (op : BitVec 6) (f : BitVec 3) (ps : BitVec 3) (pn : BitVec 1) (off : BitVec 17) : Word :=
  st ++ op ++ f ++ ps ++ pn ++ off
def packRep (count : BitVec 6) (sd sa sb : BitVec 2) : BitVec 14 := count ++ sd ++ sa ++ sb ++ (0 : BitVec 2)
def packXm (rm : BitVec 2) (sub : BitVec 4) (pd ps : BitVec 3) (pn : BitVec 1) (fs : BitVec 3) (c imm7 : Code) : Word :=
  rm ++ sub ++ pd ++ ps ++ pn ++ fs ++ (0 : BitVec 2) ++ c ++ imm7
def packXa (x : Xa) : Word := x.sco ++ x.ord ++ x.md ++ x.prm ++ x.spl ++ x.sz ++ x.sub ++ x.off
def packLake (op : BitVec 6) (a b : BitVec 4) (imm : BitVec 16) : Word := op ++ a ++ b ++ (0 : BitVec 2) ++ imm

/-! ### The encoder -/

/-- The words of an instruction, the first word first; none for an event, which has no encoding. -/
def encode : Instr → List Word
  | .iadd st d a b => [packR st 0 0 d a b]
  | .isub st d a b => [packR st 0 1 d a b]
  | .imul st d a b => [packR st 0 2 d a b]
  | .imulh st d a b => [packR st 0 3 d a b]
  | .imin st d a b => [packR st 0 4 d a b]
  | .imax st d a b => [packR st 0 5 d a b]
  | .iabs st d a => [packR st 0 6 d a 0]
  | .ineg st d a => [packR st 0 7 d a 0]
  | .imad st d a b sub c => [packR st 1 0 d a b, packXm 0 sub 0 0 0 0 c 0]
  | .iadd64 st d a b => [packR st 1 1 d a b]
  | .isub64 st d a b => [packR st 1 2 d a b]
  | .bfi st d a b c imm7 => [packR st 1 3 d a b, packXm 0 0 0 0 0 0 c imm7]
  | .bfx st d a b sub imm7 => [packR st 1 4 d a b, packXm 0 sub 0 0 0 0 0 imm7]
  | .sel st d a b ps pn => [packR st 1 5 d a b, packXm 0 0 0 ps pn 0 0 0]
  | .icmpp st a b sub pd ps pn imm7 => [packR st 1 6 0 a b, packXm 0 sub pd ps pn 0 0 imm7]
  | .and st d a b => [packR st 2 0 d a b]
  | .or st d a b => [packR st 2 1 d a b]
  | .xor st d a b => [packR st 2 2 d a b]
  | .not st d a => [packR st 2 3 d a 0]
  | .shl st d a b => [packR st 2 4 d a b]
  | .shr st d a b => [packR st 2 5 d a b]
  | .sar st d a b => [packR st 2 6 d a b]
  | .rol st d a b => [packR st 2 7 d a b]
  | .shl64 st d a b => [packR st 3 0 d a b]
  | .shr64 st d a b => [packR st 3 1 d a b]
  | .popc st d a => [packR st 3 2 d a 0]
  | .clz st d a => [packR st 3 3 d a 0]
  | .brev st d a => [packR st 3 4 d a 0]
  | .mov st d a => [packR st 3 5 d a 0]
  | .movi st d imm => [packI st 4 0 d imm]
  | .limm st d imm => [packR st 4 1 d 0 0, imm]
  | .setwb st imm => [packI st 4 2 0 ((0 : BitVec 6) ++ imm)]
  | .movxR st d a imm7 => [packR st 4 3 d a 0, packXm 0 0 0 0 0 0 0 imm7]
  | .movxW st a b imm7 => [packR st 4 4 0 a b, packXm 0 0 0 0 0 0 0 imm7]
  | .fadd st d a b => [packR st 16 0 d a b]
  | .fsub st d a b => [packR st 16 1 d a b]
  | .fmul st d a b => [packR st 16 2 d a b]
  | .fmin st d a b => [packR st 16 3 d a b]
  | .fmax st d a b => [packR st 16 4 d a b]
  | .fneg st d a => [packR st 16 5 d a 0]
  | .fabs st d a => [packR st 16 6 d a 0]
  | .fclass st d a => [packR st 16 7 d a 0]
  | .faddRm st d a b rm => [packR st 17 0 d a b, packXm rm 0 0 0 0 0 0 0]
  | .fsubRm st d a b rm => [packR st 17 1 d a b, packXm rm 0 0 0 0 0 0 0]
  | .fmulRm st d a b rm => [packR st 17 2 d a b, packXm rm 0 0 0 0 0 0 0]
  | .ffma st d a b rm c => [packR st 17 3 d a b, packXm rm 0 0 0 0 0 c 0]
  | .fcmpp st a b sub pd ps pn imm7 => [packR st 17 4 0 a b, packXm 0 sub pd ps pn 0 0 imm7]
  | .frint st d a rm => [packR st 17 5 d a 0, packXm rm 0 0 0 0 0 0 0]
  | .fdp2 st d a b rm sub c => [packR st 17 6 d a b, packXm rm sub 0 0 0 0 c 0]
  | .hadd2 st d a b => [packR st 18 0 d a b]
  | .hmul2 st d a b => [packR st 18 1 d a b]
  | .hfma2 st d a b rm sub c => [packR st 18 2 d a b, packXm rm sub 0 0 0 0 c 0]
  | .hadd2X st d a b rm sub => [packR st 18 3 d a b, packXm rm sub 0 0 0 0 0 0]
  | .hmul2X st d a b rm sub => [packR st 18 4 d a b, packXm rm sub 0 0 0 0 0 0]
  | .idp4 st d a b sub c => [packR st 18 5 d a b, packXm 0 sub 0 0 0 0 c 0]
  | .cvt st d a rm sub imm7 => [packR st 19 0 d a 0, packXm rm sub 0 0 0 0 0 imm7]
  | .cvtsTo st d a rm fs imm7 => [packR st 19 1 d a 0, packXm rm 0 0 0 0 fs 0 imm7]
  | .cvtsFrom st d a fs imm7 => [packR st 19 2 d a 0, packXm 0 0 0 0 0 fs 0 imm7]
  | .frcp st d a => [packR st 28 0 d a 0]
  | .frsq st d a => [packR st 28 1 d a 0]
  | .fsqrt st d a => [packR st 28 2 d a 0]
  | .fexp2 st d a => [packR st 28 3 d a 0]
  | .flog2 st d a => [packR st 28 4 d a 0]
  | .fsin st d a => [packR st 28 5 d a 0]
  | .fcos st d a => [packR st 28 6 d a 0]
  | .tint st d a => [packR st 29 0 d a 0]
  | .tintld st a => [packR st 29 1 0 a 0]
  | .tintsw st => [packR st 29 2 0 0 0]
  | .chld st d a => [packR st 29 3 d a 0]
  | .chrun st d a b sub imm7 => [packR st 29 4 d a b, packXm 0 sub 0 0 0 0 0 imm7]
  | .kadd st d a b => [packR st 32 0 d a b]
  | .ksub st d a b => [packR st 32 1 d a b]
  | .kmul st d a b => [packR st 32 2 d a b]
  | .kand st d a b => [packR st 32 3 d a b]
  | .kor st d a b => [packR st 32 4 d a b]
  | .kxor st d a b => [packR st 32 5 d a b]
  | .kshl st d a b => [packR st 32 6 d a b]
  | .kshr st d a b => [packR st 32 7 d a b]
  | .kmov st d a => [packR st 33 0 d a 0]
  | .kmovi st d imm => [packI st 33 1 d imm]
  | .kcmpp st a b sub pd ps pn imm7 => [packR st 33 2 0 a b, packXm 0 sub pd ps pn 0 0 imm7]
  | .klane st d a b => [packR st 33 3 d a b]
  | .kpopm st d a b => [packR st 33 4 d a b]
  | .bra st off => [packC st 40 0 0 0 off]
  | .braPred st ps pn off => [packC st 40 1 ps pn off]
  | .brx st a => [packR st 40 2 0 a 0]
  | .call st off => [packC st 40 3 0 0 off]
  | .ret st a => [packR st 40 4 0 a 0]
  | .exit st => [packR st 40 5 0 0 0]
  | .nop st => [packR st 40 6 0 0 0]
  | .sleep st imm => [packI st 40 7 0 imm]
  | .enrol st d a => [packR st 41 0 d a 0]
  | .jwait st d => [packR st 41 1 d 0 0]
  | .dret st a b => [packR st 41 2 0 a b]
  | .park st => [packR st 41 3 0 0 0]
  | .yield st => [packR st 41 4 0 0 0]
  | .barv st => [packR st 42 0 0 0 0]
  | .barn st d a => [packR st 42 1 d a 0]
  | .bleave st => [packR st 42 2 0 0 0]
  | .stgbeg st a b => [packR st 43 0 0 a b]
  | .stgnext st d pd => [packR st 43 1 d 0 0, packXm 0 0 pd 0 0 0 0 0]
  | .stgadv st d a b => [packR st 43 2 d a b]
  | .stgset st d a b => [packR st 43 3 d a b]
  | .stgwl st d a b => [packR st 43 4 d a b]
  | .stgend st => [packR st 43 5 0 0 0]
  | .lxchAt st d a b sub c => [packR st 48 0 d a b, packXm 0 sub 0 0 0 0 c 0]
  | .lxchBack st d a b sub c => [packR st 48 1 d a b, packXm 0 sub 0 0 0 0 c 0]
  | .lxchFwd st d a b sub c => [packR st 48 2 d a b, packXm 0 sub 0 0 0 0 c 0]
  | .lxchFlip st d a b sub c => [packR st 48 3 d a b, packXm 0 sub 0 0 0 0 c 0]
  | .ltest st sub pd ps pn => [packR st 48 4 0 0 0, packXm 0 sub pd ps pn 0 0 0]
  | .pmask st d a => [packR st 48 5 d a 0]
  | .lsame st d a b => [packR st 48 6 d a b]
  | .lfold st d a sub => [packR st 49 0 d a 0, packXm 0 sub 0 0 0 0 0 0]
  | .scanx st d a sub imm7 => [packR st 49 1 d a 0, packXm 0 sub 0 0 0 0 0 imm7]
  | .isect st d a b c pd => [packR st 49 2 d a b, packXm 0 0 pd 0 0 0 c 0]
  | .bmpos st d a b c pd => [packR st 49 3 d a b, packXm 0 0 pd 0 0 0 c 0]
  | .ld st d a xa => [packR st 52 0 d a 0, packXa xa]
  | .st st a b xa => [packR st 52 1 0 a b, packXa xa]
  | .lds st d a xa => [packR st 52 2 d a 0, packXa xa]
  | .sts st a b xa => [packR st 52 3 0 a b, packXa xa]
  | .atom st d a b xa => [packR st 52 4 d a b, packXa xa]
  | .atoms st d a b xa => [packR st 52 5 d a b, packXa xa]
  | .red st a b xa => [packR st 52 6 0 a b, packXa xa]
  | .pref st a sub off => [packR st 52 7 0 a 0, packXa ⟨0, 0, 0, 0, 0, 0, sub, off⟩]
  | .fence st a => [packR st 53 0 0 a 0]
  | .ifence st => [packR st 53 1 0 0 0]
  | .lfence st => [packR st 53 2 0 0 0]
  | .waitc st a b => [packR st 53 3 0 a b]
  | .cctlIl1 st a off => [packR st 53 4 0 a 0, packXa ⟨0, 0, 0, 0, 0, 0, 0, off⟩]
  | .cctlIrlc st a off => [packR st 53 4 0 a 0, packXa ⟨0, 0, 0, 0, 0, 0, 1, off⟩]
  | .cctlWbl2 st a off => [packR st 53 4 0 a 0, packXa ⟨0, 0, 0, 0, 0, 0, 2, off⟩]
  | .copy st d a b sub => [packR st 54 0 d a b, packXm 0 sub 0 0 0 0 0 0]
  | .dcopy st d a b sub c => [packR st 54 1 d a b, packXm 0 sub 0 0 0 0 c 0]
  | .ctabld st d a => [packR st 54 2 d a 0]
  | .secfg st d a b => [packR st 54 3 d a b]
  | .sego st d => [packR st 54 4 d 0 0]
  | .sestop st d => [packR st 54 5 d 0 0]
  | .sltake st d a => [packR st 54 6 d a 0]
  | .slgive st a b => [packR st 54 7 0 a b]
  | .spawn st a => [packR st 55 0 0 a 0]
  | .spawnR st a => [packR st 55 0 0 a 1]
  | .tdone st => [packR st 55 1 0 0 0]
  | .hista st a => [packR st 55 2 0 a 0]
  | .histl st d a => [packR st 55 3 d a 0]
  | .labort st => [packR st 55 4 0 0 0]
  | .abchk st => [packR st 55 5 0 0 0]
  | .bkprog st a b c => [packR st 56 0 0 a b, packXm 0 0 0 0 0 0 c 0]
  | .bklaunch st a b fs => [packR st 56 1 0 a b, packXm 0 0 0 0 0 fs 0 0]
  | .bkfence st => [packR st 56 2 0 0 0]
  | .tcfg st a b => [packR st 60 0 0 a b]
  | .mma st d a b fs imm7 => [packR st 60 1 d a b, packXm 0 0 0 0 0 fs 0 imm7]
  | .mmas st d a b sub fs imm7 => [packR st 60 2 d a b, packXm 0 sub 0 0 0 fs 0 imm7]
  | .mzero st d => [packR st 60 3 d 0 0]
  | .mld st d a b => [packR st 60 4 d a b, packXm 0 0 0 0 0 0 0 0]
  | .mst st d a b => [packR st 60 5 d a b, packXm 0 0 0 0 0 0 0 0]
  | .mfill st d a b => [packR st 60 6 d a b]
  | .mdrain st d a b sub imm7 => [packR st 60 7 d a b, packXm 0 sub 0 0 0 0 0 imm7]
  | .acqa st d a => [packR st 61 0 d a 0]
  | .rela st => [packR st 61 1 0 0 0]
  | .msync st => [packR st 61 2 0 0 0]
  | .sysr st d num => [packI st 62 0 d num]
  | .sysw st d num => [packI st 62 1 d num]
  | .syswRingd st d num => [packI st 62 1 d num]
  | .syswRingtag st d num => [packI st 62 1 d num]
  | .syswVbstat st d num => [packI st 62 1 d num]
  | .syswNbstat st d num => [packI st 62 1 d num]
  | .syswLstate st d num => [packI st 62 1 d num]
  | .syswLpc st d num => [packI st 62 1 d num]
  | .syswHistbin st d num => [packI st 62 1 d num]
  | .trap st b => [packR st 62 2 0 0 b]
  | .tret st => [packR st 62 3 0 0 0]
  | .tretSkip st => [packR st 62 3 0 0 1]
  | .tretEsc st => [packR st 62 3 0 0 2]
  | .bkpt st b => [packR st 62 4 0 0 b]
  | .savew st a => [packR st 62 5 0 a 0]
  | .savewDone st => [packR st 62 5 0 0 1]
  | .restw st a => [packR st 62 6 0 a 0]
  | .rep st count sd sa sb => [packI st 63 0 0 (packRep count sd sa sb)]
  | .lakeNop => [packLake 0 0 0 0]
  | .xld => [packLake 1 0 0 0]
  | .rowrd n => [packLake 2 0 0 n]
  | .mac8 sat => [packLake 3 0 ((0 : BitVec 3) ++ sat) 0]
  | .mac4 sat => [packLake 4 0 ((0 : BitVec 3) ++ sat) 0]
  | .mach sat => [packLake 5 0 ((0 : BitVec 3) ++ sat) 0]
  | .accz ea n1 => [packLake 6 ea n1 0]
  | .accsc ea off => [packLake 7 ea 0 off]
  | .accadd ea eb => [packLake 8 ea eb 0]
  | .outw ea n1 => [packLake 9 ea n1 0]
  | .rcadd set imm => [packLake 10 0 ((0 : BitVec 3) ++ set) imm]
  | .ccadd set imm => [packLake 11 0 ((0 : BitVec 3) ++ set) imm]
  | .loop l n => [packLake 12 0 ((0 : BitVec 3) ++ l) n]
  | .lend l => [packLake 13 0 ((0 : BitVec 3) ++ l) 0]
  | .lakeSync => [packLake 14 0 0 0]
  | .flagsC mask => [packLake 15 0 0 ((0 : BitVec 11) ++ mask)]
  | .flagsR ea => [packLake 15 ea 1 0]
  | .trapl n => [packLake 16 0 0 ((0 : BitVec 9) ++ n)]
  | .halt => [packLake 17 0 0 0]
  | .deviceReset _ => []
  | .firmwareFetchRetry _ => []
  | .getVersion _ => []
  | .getCapabilities _ => []
  | .negotiateAlgorithms _ => []
  | .getDigests _ => []
  | .getCertificate _ => []
  | .challenge _ _ => []
  | .getMeasurements _ => []
  | .keyExchange _ => []
  | .keySlotLoad _ _ => []
  | .keySlotClear _ => []
  | .sqDoorbell _ _ _ => []
  | .sqEnable _ _ => []
  | .lotAccept _ _ => []
  | .waitSemaphoreRead _ => []
  | .lotGateOpen _ => []
  | .vatPlace _ => []
  | .cohabPlace _ => []
  | .warpDrainDone _ => []
  | .vatRestorePlace _ => []
  | .vatLeave _ => []
  | .lotComplete _ => []
  | .driverDoorbell _ _ => []
  | .ctxnew _ => []
  | .ctxreset _ => []
  | .tlbinv _ => []
  | .tlbinvComplete _ => []
  | .ctxfree _ => []
  | .driverBadOpcode _ => []
  | .fsvcResume _ _ => []
  | .fsvcFaillot _ _ => []
  | .fsvcFailctx _ _ => []
  | .feataccWrite _ _ => []
  | .pwrlimWrite _ _ => []
  | .plcfgWrite _ _ => []
  | .registerWrite _ _ _ => []
  | .powerGrantPeriod => []
  | .heartbeatSend _ => []
  | .hubIntervalTick => []
  | .dltoExpiry _ => []
  | .dieTakeDown _ => []
  | .dieResetStart _ => []
  | .dieResetDone _ => []
  | .packetReceive _ => []
  | .flitCrcFail _ _ => []
  | .neighbourLinkRetrainFail _ => []
  | .acktoExpiry _ => []
  | .gStoreAck _ => []
  | .loadComplete _ => []
  | .storePerformed _ => []
  | .atomicComplete _ => []
  | .mordantLineReturn _ => []
  | .prmPushRequest _ _ => []
  | .splitDataArrive _ _ => []
  | .copyComplete _ => []
  | .dcopyComplete _ => []
  | .tableLoadComplete _ => []
  | .histlComplete _ => []
  | .matrixOperandComplete _ => []
  | .matrixComplete _ => []
  | .streamBox _ _ => []
  | .acqaGrant _ => []
  | .taskEnter _ _ => []
  | .taskRetire _ _ => []
  | .binFormWarp _ _ => []
  | .overflowRefill _ _ => []
  | .abortFlagArrive _ _ => []
  | .clauseIssue => []
  | .clauseBoundary => []
  | .rungServiceTimeout _ => []
  | .barrierTimeout _ => []
  | .stageParkTimeout _ => []
  | .slotParkTimeout _ => []
  | .presenceTimeout _ => []
  | .secfgParkTimeout _ => []
  | .acqaWaitTimeout _ => []
  | .ovfStall _ => []
  | .vatStopForce _ => []
  | .evictForce _ => []
  | .saveRestoreTimeout _ => []
  | .hostCxlMemAccess _ _ _ => []
  | .lakeProgramLoad _ => []
  | .lakeCommandStart _ => []
  | .lakeTimeout _ => []
  | .lakeCommandEnd _ => []
  | .peerPortLinkLoss _ => []
  | .domainAccessReceive _ _ _ _ => []
  | .hostBar2Access _ _ _ => []
  | .hubDieLoss => []
  | .uncorrectableError _ => []

/-- The bytes of a word, lowest address first. -/
def bytesOfWord (w : Word) : List Byte :=
  [w.extractLsb' 0 8, w.extractLsb' 8 8, w.extractLsb' 16 8, w.extractLsb' 24 8]

/-- The SIMT cores' reading of a word of the table. -/
def decodeSimt (w : Nat) : Except Reject (Instr × List Byte) :=
  decode (bytesOfWord (BitVec.ofNat 32 w) ++ bytesOfWord (BitVec.ofNat 32 (w / 4294967296)))

/-- The two instruction sets share the 32-bit words, and only the memory a word lies in tells them apart. Where a word of the
table has both readings it is taken as Lake's only if the SIMT reading has a stall count or a second word. -/
def lakeReading (w : Nat) : Option Instr :=
  match decodeSimt w with
  | .ok (_, rest) => if w / 1073741824 % 4 = 0 && rest.length = 4 then none else decodeLake (BitVec.ofNat 32 w)
  | .error _ => decodeLake (BitVec.ofNat 32 w)

/-- The instruction whose table bits are `w` (bit 0 is bit 0 of the first word, an extension word follows from bit 32). -/
def decodeTableWord (_nbits w : Nat) : Option Instr :=
  match lakeReading w with
  | some i => some i
  | none => match decodeSimt w with
    | .ok (i, _) => some i
    | .error _ => none

end Sys2Proof
end

