-- ==== Sys2Proof/Machine/Maps.lean ====
section
/-! DEFINITION. Reading and writing the sparse arrays of the state, keeping their one canonical form. -/

namespace Sys2Proof

variable {α : Type}

/-- The element at an index: the default where none is listed. -/
def Map.get [Inhabited α] : Map α → Nat → α
  | [], _ => default
  | (j, v) :: rest, k => if j = k then v else Map.get rest k

/-- An element listed in its place. -/
def Map.insert : Map α → Nat → α → Map α
  | [], k, v => [(k, v)]
  | (j, w) :: rest, k, v => if j < k then (j, w) :: Map.insert rest k v else (k, v) :: (j, w) :: rest

/-- The array without an index. -/
def Map.erase : Map α → Nat → Map α
  | [], _ => []
  | (j, w) :: rest, k => if j = k then Map.erase rest k else (j, w) :: Map.erase rest k

/-- The array with one element changed. An element equal to the default is not listed. -/
def Map.set [Inhabited α] [DecidableEq α] (m : Map α) (k : Nat) (v : α) : Map α :=
  if v = default then m.erase k else (m.erase k).insert k v

/-- One element changed by a function. -/
def Map.modify [Inhabited α] [DecidableEq α] (m : Map α) (k : Nat) (f : α → α) : Map α := m.set k (f (m.get k))

/-- Several elements written, the last write of an index standing. -/
def Map.setAll [Inhabited α] [DecidableEq α] (m : Map α) : List (Nat × α) → Map α
  | [] => m
  | e :: es => (m.set e.1 e.2).setAll es

/-- Consecutive elements written from index `k` on. -/
def Map.setFrom [Inhabited α] [DecidableEq α] (m : Map α) : Nat → List α → Map α
  | _, [] => m
  | k, v :: vs => (m.set k v).setFrom (k + 1) vs

/-- `n` consecutive elements from index `k` on. -/
def Map.getFrom [Inhabited α] (m : Map α) : Nat → Nat → List α
  | _, 0 => []
  | k, n + 1 => m.get k :: m.getFrom (k + 1) n

/-- The canonical form: indices strictly rising, no element equal to the default. -/
def Map.wfFrom [Inhabited α] [DecidableEq α] : Map α → Nat → Bool
  | [], _ => true
  | (j, v) :: rest, lo => decide (lo ≤ j) && decide (v ≠ default) && Map.wfFrom rest (j + 1)

def Map.wf [Inhabited α] [DecidableEq α] (m : Map α) : Bool := m.wfFrom 0

/-- The first index, in rising order, whose element satisfies a test. -/
def Map.firstKey (m : Map α) (p : Nat → α → Bool) : Option Nat :=
  (m.find? (fun e => p e.1 e.2)).map (·.1)

/-- Every listed element changed by a function that keeps it listed. -/
def Map.mapVals [Inhabited α] [DecidableEq α] (m : Map α) (f : Nat → α → α) : Map α :=
  m.filterMap (fun e => let v := f e.1 e.2; if v = default then none else some (e.1, v))

/-- Only the listed elements that satisfy a test are kept. -/
def Map.keep (m : Map α) (p : Nat → α → Bool) : Map α := m.filter (fun e => p e.1 e.2)

end Sys2Proof
end

