-- ==== Sys2Proof/Config.lean ====
section
/-! DEFINITION. What the spec leaves open. Every constant here is OPAQUE: it has no body that a proof can see, so a
claim about the machine holds for every value of it. The first argument of a `free…` constant is the counter
`State.fresh`, which every step advances, so that each use has a value of its own; the second tells the uses of one
step apart. -/

namespace Sys2Proof.Config

/-- A choice the spec leaves open between two stated outcomes (old or new, cached or fresh). -/
opaque freeChoice : Nat → Nat → Bool

/-- A word whose value the spec leaves open. -/
opaque freeWord : Nat → Nat → Word

/-- A byte whose value the spec leaves open. -/
opaque freeByte : Nat → Nat → Byte

/-- A natural number whose value the spec leaves open. -/
opaque freeNat : Nat → Nat → Nat

/-- The silicon stepping of ISAVER.STEP (spec/10 R241), fixed for the part. -/
opaque stepping : BitVec 8

/-- The GiB of hashed memory that another device of the load-store domain backs (spec/02 R41). -/
opaque domainGiB : Nat → Nat

/-- What a repeated fetch of the firmware image brings (spec/03 R75), by `State.fresh`. -/
opaque fetchedImage : Nat → Boot

/-- The body of an SPDM reply whose content the spec does not give (spec/03 R77): the request's code and nonce. -/
opaque spdmBody : Nat → Nat → BitVec 384

/-- The clock step the power arbiter grants a die (spec/03 R78): the steps of 25 MHz above 600 MHz for a module limit
in watts, a die and a period. -/
opaque grantStep : Nat → Nat → Nat → Fin 41

/-- Whether a die's grant covers its Lake engines at 600 MHz (spec/03 R78). -/
opaque grantLake : Nat → Nat → Nat → Bool

end Sys2Proof.Config
end

