-- ==== Sys2Proof/Machine/State.lean ====
section
/-! DEFINITION. The state of the device: plain data, holding every piece of state the spec names. Arrays are `Map`s
(an index that is not listed holds the default of its element type, which is 0, false, none or the empty list).

Keys. A vat is named by its launch sequence number LSEQ (spec/06 R157), a warp by 32 × LSEQ + its number in the vat, a
lot by its place in the order of acceptance (spec/04 R83), a context and a queue by their numbers, a core by its
device-wide number (spec/00 R5), a Lake engine by 96 × die + channel (R6), a counted operation by its place in the
device's order of issue. A byte of memory is at 2^52 × partition + PA: hashed addresses name bytes of the partition's
own dies (spec/02 R42). -/

namespace Sys2Proof.Machine

/-- Where the machine stops with a fault. -/
inductive Fault where
  /-- Raised by `step` alone: the agenda is empty and no agent of the device can act, so the device waits for the
  outside world for ever. Safe: nothing is claimed of such a device. -/
  | idle
  deriving DecidableEq, Repr

/-- Where the model gives no meaning. -/
inductive Refusal where
  /-- Raised by `exec` for an instruction whose meaning is not written. Safe. -/
  | notModelled (mnemonic : String)
  /-- Raised by `State.rejectWord` for a word in a slot that the opcode map leaves unassigned and the firmware's microcode provides (spec/10
  R243, R245): what it does is the firmware's, and the spec does not give it. Safe. -/
  | microcode (slot : Nat)
  deriving DecidableEq, Repr

/-! ### A warp -/

/-- The six counter classes (spec/08 R209 Table 3). -/
inductive OpClass where
  | ld | st | cp | mx | bk | at
  deriving DecidableEq, Repr, Inhabited

/-- Why a warp is parked in the scheduler (spec/04 R88, spec/07 R397). The number is the ring or engine concerned; for SLEEP, the GTIME
at which it ends. -/
inductive Park where
  | presence
  | stgnext
  | stgwl
  | slot (ring : Nat)
  | secfg (e : Nat)
  | acqa (kib : Nat)
  | msync
  | rela
  | spawn
  | sleep (wake : Nat)
  deriving DecidableEq, Repr, Inhabited

/-- Whether the warp's next issue is held back. A warp that is stalled rather than parked runs on under an abort
(spec/04 R109). -/
inductive Hold where
  | free
  | parked (p : Park)
  | stalled
  deriving DecidableEq, Repr, Inhabited

/-- Where the warp stands: at a clause boundary whose events are to be taken, before the header of its next clause, or
before a word of the clause in progress. -/
inductive Phase where
  | boundary
  | header
  | word
  deriving DecidableEq, Repr, Inhabited

/-- The states of spec/07 R181 Table 4. -/
inductive Evict where
  | running
  | requested
  | drain
  | save
  | saved
  | restore
  deriving DecidableEq, Repr, Inhabited

/-- A fixed-latency result not yet visible (spec/11 R258): the register cell it will write (the numbering of
`Machine.Cell` in Machine/Operands.lean), the value, and the value of the warp's distance counter at which it is
visible and at which its instruction issued. -/
structure Pending where
  cell : Nat
  value : Word
  due : Nat
  born : Nat
  deriving DecidableEq, Repr, Inhabited

/-- What a synchronisation carries (spec/08 R193, R194): the warp that made the release or FENCE, the die it was on then, the scope, and the
stores that happened before it, by their operations' numbers, of those not acknowledged yet. -/
structure Carry where
  warp : Nat
  die : Nat
  scope : Nat
  ops : List Nat
  deriving DecidableEq, Repr, Inhabited

/-- One bank of event registers EVREC, EVPC, EVT, EVF, EVTK, EVM (spec/05 R110), 32 bits each, reset 0. -/
structure EventBank where
  evrec : Word
  evpc : Word
  evt : Word
  evf : Word
  evtk : Word
  evm : Word
  deriving DecidableEq, Repr, Inhabited

/-- The fault record of spec/07 R168. -/
structure FaultRecord where
  code : BitVec 8
  cause : BitVec 4
  rung : BitVec 3
  replay : Bool
  code2 : BitVec 8
  dies : BitVec 4
  flm : Lanes
  fpc : Word
  warp : BitVec 6
  hdep : BitVec 2
  sgq : Bool
  fva : BitVec 64
  vatnum : Word
  info : Word
  gtime : BitVec 64
  lottag : Word
  seq : BitVec 16
  /-- Beside the record's words: the code of the original fault where CODE is SERVICE_TIMEOUT in its place (R164), or 0; of a faulted COPY or
  DCOPY, its operation's number and 1 (spec/14 R336). -/
  origin : BitVec 8 := 0
  claim : Nat := 0
  /-- The lanes that another code has left uncommitted (R167). -/
  rest : Lanes := 0
  deriving DecidableEq, Repr, Inhabited

/-- Repeats of a REP still to run (spec/11 R262): REPC counts the current one; `j` is its number; the steps of D, A, B. -/
structure Repeat where
  repc : BitVec 7
  j : Nat
  sd : BitVec 2
  sa : BitVec 2
  sb : BitVec 2
  deriving DecidableEq, Repr, Inhabited

/-- The lines that a faulted copy leaves absent: its code offset, and its operation's number and 1. -/
structure Claim where
  pc : Word
  id : Nat
  lines : List Nat
  deriving DecidableEq, Repr, Inhabited

/-- The clause in progress: the code offset of its header, the header word, the number of the next word (from 1), the
issue set before the clause predicate, the enabled lanes (spec/11 R252, CEN of R179) and the REP in progress. -/
structure Clause where
  hdr : Word
  word : Word
  idx : Nat
  issue : Lanes
  enabled : Lanes
  rep : Option Repeat
  deriving DecidableEq, Repr, Inhabited

/-- The lane masks of spec/05 R110, 32 bits each. -/
structure Masks where
  amask : Lanes
  lmask : Lanes
  ham1 : Lanes
  ham2 : Lanes
  wset : Lanes
  arrl : Lanes
  sggrp : Lanes
  blmask : Lanes
  jm : Map Lanes
  ja : Map Lanes
  deriving DecidableEq, Repr, Inhabited

/-- How a warp goes on after a trap: after the faulting word, at the word again (spec/07 R396), or at the clause boundary
where the fault of an engine, of a barrier or of a clause was raised. -/
inductive Resume where
  | after
  | again
  | boundary
  deriving DecidableEq, Repr, Inhabited

/-- The trap registers of a warp (spec/07 R165, R171): TVMASK, TRSTAT's four bits, TRPC, TRMASK, FREC; beside them the
lanes whose LPC the trap handler has written (R173), the interrupted clause, the lanes that issue the vector, and when
the fault was offered to the rung the warp holds (R164). -/
structure Trap where
  tvmask : Word
  tmode : Bool
  tmsk : Bool
  smode : Bool
  rmode : Bool
  trpc : Word
  trmask : Lanes
  frec : FaultRecord
  lpcWritten : Lanes
  clause : Clause
  resume : Resume
  issue : Lanes
  offeredAt : Nat
  deriving DecidableEq, Repr, Inhabited

/-- Where a warp stood when its eviction began (spec/07 R397): its clause, whether it stood inside it, the replay in
progress, and the lanes whose records a stalled SPAWN has had accepted (spec/04 R102). -/
structure Outside where
  clause : Clause
  mid : Bool
  replay : Option (Clause × Resume)
  spawnDone : Lanes
  deriving DecidableEq, Repr, Inhabited

/-- A warp. -/
structure Warp where
  /-- The vat (its LSEQ) and the warp's number in it. -/
  vat : Nat
  num : Nat
  /-- 1 for a MAT warp (spec/04 R81). -/
  mat : Bool
  /-- The core, the sub-partition and the warp slot 0-63 (spec/04 R88); the place in the order of placement. -/
  core : Nat
  slot : Nat
  placed : Nat
  /-- The issue slots of its sub-partition counted when it last issued or became ready, whichever is later (R88), and whether it was
  ready when the present step began. -/
  since : Nat
  wasReady : Bool
  resident : Bool
  masks : Masks
  /-- LPC, HPC1, HPC2, TLPC and the save- and restore-mode program counters, 32 bits per lane (spec/05 R110, spec/07
  R171, R183). -/
  lpc : Map Word
  hpc1 : Map Word
  hpc2 : Map Word
  tlpc : Map Word
  mpc : Map Word
  /-- LSTATE, 3 bits per lane, and PKAGE, 16 bits per lane (spec/05 R110). -/
  lstate : Map (BitVec 3)
  pkage : Map (BitVec 16)
  /-- BARID, 5 bits per lane (spec/13 R313), and the time a lane began to wait at a barrier (R132). -/
  barid : Map (BitVec 5)
  barSince : Map Nat
  /-- The instruction at which a waiting lane began to wait (spec/07 R396); ARRL holds lanes a barrier made READY. -/
  waitPc : Map Word
  arrBarrier : Bool
  /-- LPC of the group at the activation of the quantum (spec/05 R115 Table 2). -/
  evpcOfQuantum : Word
  /-- Lanes that a barrier made READY while the warp was away (spec/05 R136). -/
  away : Lanes
  /-- HDEP, WPARK, SGACT and SGREM of WSTAT (spec/05 R110). -/
  hdep : BitVec 2
  wpark : Bool
  sgact : Bool
  sgrem : BitVec 16
  /-- DHV, SGCFG, SGCNT (spec/05 R110), 32 bits. -/
  dhv : Word
  sgcfg : Word
  sgcnt : Word
  ev1 : EventBank
  ev2 : EventBank
  /-- The lanes waiting at a DRET of depth 2, and each one's operands (spec/05 R119). -/
  dretWait : Lanes
  dretPc : Map Word
  dretMask : Map Lanes
  /-- FSTAT's sticky flags and the other fields of FSTAT (spec/09 R236), DCSTAT.DCERR (spec/06 R155). -/
  fstat : Word
  dcerr : Bool
  trap : Trap
  /-- VWB (spec/06 R137), 8 bits. -/
  vwb : BitVec 8
  /-- LKSTAT (spec/16 R370) and ROWP (spec/15 R356), 32 bits. -/
  lkstat : Word
  rowp : Word
  /-- Every register of the warp, by its cell number: v, k and p of the normal bank, hv0-hv3, k28-k31 and p6-p7 of the
  depth-1, depth-2, trap and mode banks (spec/05 R117, spec/07 R171, R183). -/
  regs : Map Word
  /-- Fixed-latency results not yet visible, the oldest first, and the distance counted so far (spec/11 R258). -/
  pending : List Pending
  dist : Nat
  phase : Phase
  clause : Clause
  /-- The event that the clause's last instruction, or a completion within it, has caused (spec/05 R114). -/
  cause : Option EventBank
  /-- The word in progress is the replay of a faulted one (spec/07 R169): the clause to go on with after it, and how. -/
  replay : Option (Clause × Resume)
  hold : Hold
  /-- When the hold began, and the first position of the warp in its ring's queue of SLTAKEs. -/
  holdSince : Nat
  /-- Faults found by engines, raised at the warp's next clause boundary (spec/06 R152, spec/14 R336, spec/16 R370). -/
  async : List FaultRecord
  evict : Evict
  outside : Option Outside
  evictWhole : Bool
  evictReason : BitVec 2
  /-- When the warp reached its state SAVE or RESTORE (R181). -/
  modeAt : Nat
  /-- Stopped under R395, stopped by another warp's vat trap (R171), waiting on its core for an answer to a serviceable
  fault (R174), standing at a terminal fault that waits for room in the fault queue (R175). -/
  stopped : Bool
  vatTrapStop : Bool
  serviceWait : Bool
  faultWait : Bool
  /-- The fault that made the context rung swap the vat out, replayed after RESUME (R173, R175). -/
  swapFault : Option FaultRecord
  /-- Word 1 of GTIME and CODEBASE latched by a SYSR of word 0 (spec/11 R267). -/
  latchGtime : Option Word
  latchCode : Option Word
  /-- The task each lane carries, if any: its place in its die's spawn order (spec/04 R93). -/
  tasks : Map (Option Nat)
  /-- Lanes that have retired their task by TDONE (R93). -/
  tdone : Lanes
  /-- Operations ordered by a BKFENCE before the warp's later Lake work and loads (spec/08 R214). -/
  bkfence : List Nat
  /-- A PRM push in progress: the cores that have not answered (spec/08 R208). -/
  prmWait : Option (List Nat)
  /-- Register cells with an uncorrectable error (spec/07 R186); within an instruction, the lanes that read one, and the record's INFO. -/
  poisoned : List Nat
  eccLanes : Lanes
  eccInfo : Word
  /-- Window lines that faulted copies have not completed (spec/06 R140, spec/14 R336). -/
  claims : List Claim
  /-- The matrix instruction in turn, issued, which holds the next issue until its operand-complete point (spec/15 R356);
  what the accumulator allocator has answered to the ACQA in turn (spec/06 R157). -/
  matrixOp : Option Nat
  /-- Lanes whose record the SPAWN in turn has had accepted (spec/04 R102). -/
  spawnDone : Lanes
  acqAnswer : Option Word
  /-- The warp has issued at least one instruction. -/
  started : Bool
  /-- Stores of other warps that have reached the warp through a synchronisation, what the writes that it has read carry until a FENCE
  takes it up, and what its FENCEs give to its later stores (spec/08 R193, R194). -/
  reached : List Nat
  heard : List Carry
  fenced : List Carry
  deriving DecidableEq, Repr, Inhabited

/-! ### Counted operations -/

/-- A register to be written when an operation completes: lane, cell, value. -/
structure Dest where
  lane : Nat
  cell : Nat
  value : Word
  deriving DecidableEq, Repr, Inhabited

/-- A byte to be written: its memory key, its value and the key slot of the page it is written through. -/
structure WByte where
  key : Nat
  val : Byte
  slot : BitVec 10
  deriving DecidableEq, Repr, Inhabited

/-- One lane's access of an atomic: its memory key and slot, size in bytes, operation (spec/14 R331 Table 4), operand,
second operand of CAS, and the cell of its destination, if any. -/
structure AtomAcc where
  lane : Nat
  key : Nat
  slot : BitVec 10
  size : Nat
  sub : BitVec 4
  b : BitVec 64
  c : BitVec 64
  cell : Option Nat
  deriving DecidableEq, Repr, Inhabited

/-- One lane's access of a load from memory: its memory key and slot, the cache attribute of its page, whether it left the die (its die
held no copy), its size code and the cells it writes. -/
structure LoadAcc where
  lane : Nat
  key : Nat
  slot : BitVec 10
  ca : BitVec 2
  far : Bool
  sz : BitVec 4
  cells : List Nat
  deriving DecidableEq, Repr, Inhabited

/-- What a counted operation does when it completes. -/
inductive Work where
  /-- Destinations of a load as read at its issue, and its accesses to memory; for LD.SPLIT the lanes whose data have not
  arrived. -/
  | load (dests : List Dest) (accs : List LoadAcc) (split : Bool) (missing : Lanes)
  /-- A store, in order; `.G` or performed as `.G`. -/
  | store (g : Bool) (bytes : List WByte)
  /-- A store to the scratchpad window, already performed, or CCTL. -/
  | done
  /-- Accesses still to be performed, and results of those performed at once in the scratchpad. -/
  | atomic (accs : List AtomAcc) (dests : List Dest)
  /-- A copy, with the offsets of the pieces it has moved (spec/08 R216). -/
  | copy (dst src : BitVec 64) (n : Nat) (moved : List Nat)
  | dcopy (dst src : BitVec 64) (syms srcLen : Nat) (table : Nat)
  /-- A table image read at issue: 0 Tint, 1 chain, 2 code table; the object's number. -/
  | table (kind n : Nat) (image : List Byte)
  | sego (e : Nat)
  | histl (latch : Nat) (va : BitVec 64)
  /-- A matrix instruction whose operands are still to be read: its F, its tile, its k operands, N of MMAS or 0, the format
  slots and options, the first row (spec/15 R354). -/
  | matrix (f tile : Nat) (kA kB : List Word) (n fs imm first : Nat)
  /-- Writes performed when a matrix instruction completes: to memory, to the scratchpad, to tile elements. -/
  | tileStore (bytes : List WByte) (scratch : List (Nat × Byte)) (tiles : List (Nat × Word))
  /-- MDRAIN's destinations, each with its tile element, as read at its issue, and the elements it zeroes. -/
  | drain (dests : List (Nat × Dest)) (tiles : List (Nat × Word))
  /-- A Lake command, or a program load, of an engine; a command's status word once it has ended, with FVA (spec/16 R370). -/
  | lake (eng : Nat) (command : Bool)
  | lakeEnded (status : Word) (fva : BitVec 64)
  deriving DecidableEq, Repr, Inhabited

/-- A counted operation that has not been reported (spec/08 R209). -/
structure Op where
  warp : Nat
  cls : OpClass
  work : Work
  fpc : Word
  lanes : Lanes
  /-- Scope of an atomic, or of a release (spec/08 R191). -/
  scope : BitVec 3
  release : Bool
  /-- A vat-scope release covers it (spec/08 R194, R208). -/
  released : Bool
  /-- What an agent that reads its write synchronises with (R193). -/
  carries : List Carry
  /-- An acquire (R191). -/
  acquire : Bool
  /-- A load, or an MDRAIN, that may still read its values when it completes: nothing orders it before a later access (R192, R199,
  spec/15 R361). -/
  late : Bool
  /-- Complete, but not yet reported because an earlier one of its class is not. -/
  complete : Bool
  /-- Reported to the counter; kept only for the acknowledgements it is still owed. -/
  reported : Bool
  /-- The write has been performed at its home. -/
  performed : Bool
  /-- Dies whose acknowledgement is missing (spec/08 R201), the home die included for .G. -/
  owed : BitVec 4
  /-- ACKTO has expired over what is owed: no release waits for it any more (spec/08 R205). -/
  ackLost : Bool
  die : Nat
  ctx : Nat
  /-- GTIME and the warp's distance counter at its issue. -/
  issuedAt : Nat
  born : Nat
  va : BitVec 64
  /-- The issue set of the clause, and the address and memory key of each lane of a store or atomic (R205). -/
  issue : Lanes
  sites : List (Nat × BitVec 64 × Nat)
  deriving DecidableEq, Repr, Inhabited

/-! ### A vat -/

/-- The stage table's header (spec/04 R104). -/
structure StageHeader where
  next : Word
  oldest : Word
  n : Word
  xh : Bool
  wm1 : BitVec 6
  state : BitVec 2
  deriving DecidableEq, Repr, Inhabited

/-- Where a vat is. -/
inductive VatPlace where
  | resident
  | saved
  | gone
  deriving DecidableEq, Repr, Inhabited

/-- A fault of a warp that another warp's vat trap has stopped (spec/07 R187): the warp, its record, how it goes on, and the
rung it is offered to once that trap has ended, 0 or 1. -/
structure Deferred where
  warp : Nat
  record : FaultRecord
  resume : Resume
  rung : Nat
  deriving DecidableEq, Repr, Inhabited

/-- A vat (spec/04 R80). -/
structure Vat where
  lot : Nat
  vatnum : Word
  gridX : Word
  gridY : Word
  gridZ : Word
  /-- A one-warp vat of tasks (spec/04 R98). -/
  task : Bool
  place : VatPlace
  core : Nat
  /-- Vat slot 0-15 on the core (SESTAT.VAT). -/
  slot : Nat
  nwarp : Nat
  nvec : Nat
  /-- REGS, SCR and ACC as in the lot record, and the grants of ACQA in KiB, the oldest first (spec/06 R157). -/
  regs : Nat
  scr : Nat
  acc : Nat
  grants : List Nat
  vvmask : Word
  /-- VBSTAT (spec/05 R132) and the lanes live at first placement. -/
  vbstat : Word
  firstLive : Nat
  /-- NBSTAT0-15 (spec/13 R313). -/
  nbstat : Map Word
  stage : StageHeader
  /-- STGSLOT0-63 (spec/04 R104). -/
  stgslot : Map Word
  /-- RINGD0-7 and RINGTAG0-7 (spec/06 R142, R143). -/
  ringd : Map (BitVec 64)
  ringtag : Map (BitVec 128)
  /-- RINGTAG has been written and no tag has changed since: no parked SLTAKE of the ring is tested (R143). -/
  ringQuiet : Map Bool
  /-- MCFG (spec/15 R351). -/
  mcfg : Word
  /-- HISTBIN0-255 (spec/04 R103). -/
  hist : Map Word
  /-- The scratchpad's bytes, and the engine writes outstanding to each 128-byte line that is absent (spec/06 R140). -/
  scratch : Map Byte
  absent : Map Nat
  /-- The accumulator window's 32-bit elements (spec/06 R156). -/
  tiles : Map Word
  /-- Warps (by number) waiting in SLTAKE on a side of a ring, the first first: (ring, producer side, warp) (R145). -/
  slotQueue : List (Nat × Bool × Nat)
  /-- The warp that runs the vat vector (spec/07 R171). -/
  trapWarp : Option Nat
  /-- Faults of stopped warps, offered after the vat rung's TRET (R187), the first first. -/
  deferred : List Deferred
  /-- Stores that a barrier's arrivals, or another hand-over within the vat, pass on (spec/08 R193 case 5, R211). -/
  carried : List Nat
  /-- A stop under R395: when it began; whether CTXRESET discards its engine work. -/
  stop : Option Nat
  discard : Bool
  /-- The image in the save area: its offset and size (R177, R178); whole or partial; FSVC RESUME has arrived. -/
  image : Option (Nat × Nat)
  imageWhole : Bool
  imageReason : BitVec 2
  resumed : Bool
  deriving DecidableEq, Repr, Inhabited

/-! ### Lots and contexts -/

/-- An entry of the function table (spec/10 R240). -/
structure FuncEntry where
  eoff : Nat
  regs : Nat
  scr : Nat
  acc : Nat
  lote : Bool
  taske : Bool
  deriving DecidableEq, Repr, Inhabited

/-- The code object's header as the loader read it (spec/10 R240). -/
structure CodeHeader where
  vmaj : BitVec 8
  vmin : BitVec 8
  step : BitVec 8
  xuse : Bool
  size : Nat
  nfunc : Nat
  ftoff : Nat
  hndoff : Nat
  tvec : Nat
  vvec : Nat
  svec : Nat
  rvec : Nat
  tvm : Word
  vvm : Word
  featreq : BitVec 128
  textoff : Nat
  textlen : Nat
  /-- USED, and the function table. -/
  used : BitVec 512
  funcs : List FuncEntry
  deriving DecidableEq, Repr, Inhabited

/-- The lot record's fields (spec/03 R64). -/
structure LotRecord where
  ver : BitVec 8
  flags : BitVec 16
  lottag : Word
  codeva : BitVec 64
  entry : Nat
  prio : BitVec 2
  nvec : Nat
  nmat : Nat
  regs : Nat
  scr : Nat
  acc : Nat
  gx : Nat
  gy : Nat
  gz : Nat
  cplva : BitVec 64
  semva : BitVec 64
  semval : BitVec 64
  wsemva : BitVec 64
  wsemval : BitVec 64
  irqv : BitVec 11
  fslot : Map Word
  kinit : Map Word
  deriving DecidableEq, Repr, Inhabited

/-- Where a lot is: its gates not yet open, its vats being placed or running, its completion record written. -/
inductive LotPhase where
  | gated
  | running
  | complete
  deriving DecidableEq, Repr, Inhabited

/-- A lot that was accepted (spec/03 R65, R67). -/
structure Lot where
  ctx : Nat
  queue : Nat
  qseq : Word
  record : LotRecord
  code : CodeHeader
  /-- The entry function's first clause header. -/
  entryOff : Word
  phase : LotPhase
  /-- STATUS decided so far (FAULTED, ABORTED, CANCELLED) and DETAIL. -/
  status : BitVec 8
  detail : BitVec 8
  waitMet : Bool
  nextVat : Nat
  lastDie : Option Nat
  vatsDone : Nat
  tacc : Nat
  tstart : Nat
  tend : Nat
  /-- The first fault (spec/03 R67), if any, and the lot's sticky arithmetic flags (R69). -/
  first : Option FaultRecord
  firstPc : BitVec 64
  exc : BitVec 5
  dlost : BitVec 4
  /-- LABORT has issued, and the dies its flag has reached (spec/04 R109). -/
  abort : Bool
  abortDies : BitVec 4
  abortAt : Nat
  deriving DecidableEq, Repr, Inhabited

/-- SQDESC and DCDESC (spec/03 R62, R70). -/
structure Queue where
  wi : Word
  ri : Word
  base : BitVec 40
  log2n : BitVec 4
  err : Bool
  en : Bool
  /-- The records that a doorbell has covered and no launch processor has read yet, by index, as they stood at the doorbell: a change since
  may be read in part (R63). -/
  shots : Map (List Byte) := []
  deriving DecidableEq, Repr, Inhabited

/-- An outstanding serviceable record of a context's fault queue (spec/07 R174): the lot, vat and warp, the record. -/
structure Service where
  seq : BitVec 16
  lot : Nat
  vat : Nat
  warp : Nat
  /-- The die whose overflow refill faulted, with no vat or warp (spec/04 R102). -/
  refill : Option Nat
  record : FaultRecord
  deriving DecidableEq, Repr, Inhabited

/-- A context (spec/03 R70). -/
structure Context where
  part : Nat
  root : BitVec 64
  saveVa : BitVec 64
  ovfVa : BitVec 64
  ovfPages : Nat
  poolVa : BitVec 64
  poolTiles : Nat
  queues : Map Queue
  /-- FSVC's lower word as last written (spec/07 R175). -/
  fsvcLow : Word
  /-- LWDESC0-7 (spec/02 R43), and the values before changes that no TLBINV has covered (R48). -/
  lwdesc : Map (BitVec 256)
  lwOld : Map (Option (BitVec 256))
  tdmask : BitVec 4
  stmask : Word
  /-- Terminally faulted, the sequence number and record of the terminal fault (spec/07 R174), reset in progress. -/
  faulted : Bool
  terminal : Option FaultRecord
  resetting : Bool
  /-- Faults that are not serviceable and wait for room in the fault queue, the first first (R175). -/
  waiting : List FaultRecord
  fqwi : BitVec 16
  services : List Service
  /-- Ranges of the save area in use: offset and bytes (R177). -/
  saveUsed : List (Nat × Nat)
  /-- Histogram latches (spec/04 R103), by (16 × die + latch) × 512 + index: COUNT then PREFIX. -/
  latches : Map Word
  /-- Head and tail of the overflow ring's quarters, by 2 × die, 2 × die + 1 (R101), and a refill stopped by a fault. -/
  ovf : Map Word
  refillStopped : BitVec 4
  deriving DecidableEq, Repr, Inhabited

/-- A driver command that waits for its end (spec/03 R70): its opcode, the physical address of its record, its context,
first page and page count, the number of the next operation at its start, and the layout windows then. -/
structure DriverCommand where
  op : BitVec 8
  pa : Nat
  ctx : Nat
  va : BitVec 64
  pages : Nat
  before : Nat
  lw : Map (BitVec 256)
  deriving DecidableEq, Repr, Inhabited

/-- A partition of the manifest (spec/01 R24, R26). -/
structure Partition where
  ldt : List Nat
  launchProcs : Nat
  dcdesc : Queue
  command : Option DriverCommand
  /-- PLCFG.MODE, and the mode before a change that no TLBINV has covered. -/
  plcfg : BitVec 2
  plOld : Option (BitVec 2)
  /-- ACKCFG.ACKTO (spec/08 R205). -/
  ackto : BitVec 16
  /-- When the partition rung took the fault it has not resolved yet (spec/07 R164), and the dies it has taken down for it (R176). -/
  rungAt : Option Nat
  rungDies : BitVec 4
  deriving DecidableEq, Repr, Inhabited

/-! ### Cores -/

/-- A stream engine (spec/06 R150): its holder (a vat), the TLR's VA and SEPOS, the traversal's TLR bytes, ring, warp
and operation, SESTAT's bits. -/
structure StreamEngine where
  holder : Option Nat
  tlrVa : BitVec 64
  sepos : Word
  tlr : List Byte
  ring : BitVec 3
  busy : Bool
  flt : Bool
  bytes : BitVec 18
  warp : Nat
  op : Nat
  fpc : Word
  lane : Nat
  slot : Option Nat
  stopping : Bool
  deriving DecidableEq, Repr, Inhabited

/-- A code table (spec/06 R153): its owner, symbol width and the counts and symbols of its image. -/
structure CodeTable where
  owner : Option Nat
  wide : Bool
  counts : List Nat
  symbols : List Byte
  deriving DecidableEq, Repr, Inhabited

/-- A chain (spec/06 R159): its owner, constants and operation words. -/
structure Chain where
  owner : Option Nat
  consts : List Word
  ops : List Word
  deriving DecidableEq, Repr, Inhabited

/-- A bank of the Tint table (spec/06 R161). -/
structure TintBank where
  lo : Word
  scale : Word
  entries : Map (Word × Word)
  deriving DecidableEq, Repr, Inhabited

/-- A core's shared engines and tables (spec/06). -/
structure Core where
  engines : Map StreamEngine
  tables : Map CodeTable
  chains : Map Chain
  tintOwner : Option Nat
  tintCurrent : TintBank
  tintShadow : TintBank
  /-- A TINTLD of the owner has completed (R158). -/
  tintLoaded : Bool
  /-- Lines of other devices' memory in L1, by 1024 × line + key slot: their 128 bytes (spec/08 R217). -/
  l1 : Map (List Byte)
  /-- Lines of the instruction cache, by 1024 × line + key slot: their 128 bytes (spec/10 R246). -/
  icache : Map (List Byte)
  /-- TLRs as the TLR cache holds them, by the memory key of their first byte (R149). -/
  tlrCache : Map (List Byte)
  /-- Decoded instruction words, by the tags of spec/10 R246 (`decodedKey`). -/
  decoded : Map (Option Word)
  /-- By sub-partition: the issue slots counted (spec/04 R88), and the model's own clock at the last of them. -/
  slots : Map Nat
  served : Map Nat
  deriving DecidableEq, Repr, Inhabited

/-! ### Dies, the task engine and Lake engines -/

/-- A task (spec/04 R90): its record's sixteen words, the lot and stencil captured by its SPAWN, its tiles and
predecessors (R91), and where it is. -/
inductive TaskPlace where
  | waiting
  | table
  | released
  | bin (n : Nat)
  | running
  | retired
  deriving DecidableEq, Repr, Inhabited

structure Task where
  ctx : Nat
  lot : Nat
  words : List Word
  offs : BitVec 24
  rd : List (BitVec 64)
  wr : List (BitVec 64)
  preds : List Nat
  place : TaskPlace
  /-- A retirement by TDONE or EXIT that waits for the operations listed (R93, R342). -/
  retiring : Option (List Nat)
  /-- P4 and P5 after R97, fixed at release. -/
  p4 : Word
  p5 : Word
  /-- Spilled to the overflow ring (R101). -/
  spilled : Bool
  deriving DecidableEq, Repr, Inhabited

/-- A spawn bin (spec/04 R98): its key, its tasks in entry order, when the first entered. -/
structure Bin where
  ctx : Nat
  lot : Nat
  entry : BitVec 24
  tasks : List Nat
  since : Nat
  deriving DecidableEq, Repr, Inhabited

/-- DIEST.STATE (spec/01 R30). -/
inductive DieState where
  | absent
  | live
  | silent
  | lost
  | resetting
  deriving DecidableEq, Repr, Inhabited

/-- A compute die: DIESTd's fields, the missed intervals, TECFG and the task engine. -/
structure Die where
  state : DieState
  inc : BitVec 8
  stale : BitVec 16
  part : Nat
  missed : Nat
  silentAt : Nat
  /-- A valid flit has arrived from the die in the present interval (R23). -/
  flit : Bool
  /-- Enabled cores (spec/01 R18): physical (x, y), in logical order. -/
  cores : List (Nat × Nat)
  btim : BitVec 8
  tasks : Map Task
  nextSpawn : Nat
  bins : Map (Option Bin)
  /-- Released tasks that no bin has taken yet, in release order (spec/04 R98). -/
  released : List Nat
  /-- The granted clock in 25 MHz steps above 600 MHz, and the arbiter holding Lake engines off (spec/03 R78). -/
  clock : Nat
  lakeHeld : Bool
  deriving DecidableEq, Repr, Inhabited

/-- What waits at a Lake engine, in arrival order (spec/08 R212): a program load or a command record. -/
inductive LakeJob where
  | program (first : Nat) (words : List Word)
  | command (record : List Byte) (slot : Word)
  deriving DecidableEq, Repr, Inhabited

/-- A place in the arrival order: the operation, the issuing warp and context, the enabled lane, the Lake operations a
BKFENCE orders before it (R214). -/
structure LakeEntry where
  job : LakeJob
  op : Nat
  warp : Nat
  ctx : Nat
  after : List Nat
  deriving DecidableEq, Repr, Inhabited

/-- The state of a command (spec/16 R363 Table 1): accumulators (lane j of e i at 16i + j), input buffer, weight latch with
the exponents of its k-groups, cursors, loops, flags, PC. Beside it the memory key and key slot of each 256-byte block of
its ranges, the bytes they held at the start (R371), the writes of OUTW not yet performed, and the status once it has
ended. -/
structure LakeCommand where
  acc : Map Word
  ib : List Byte
  ibb : Word
  wl : List Byte
  wx : List Byte
  lr : Word
  lcol : Word
  rc : Word
  cc : Word
  oc : Word
  lc0 : Word
  lc1 : Word
  ls0 : BitVec 10
  ls1 : BitVec 10
  efl : BitVec 5
  pc : BitVec 11
  startedAt : Nat
  blocks : Map (Option (Nat × BitVec 10))
  before : Map Byte
  outputs : List WByte
  status : Option (BitVec 8)
  statusPc : BitVec 10
  fva : BitVec 64
  deriving DecidableEq, Repr, Inhabited

/-- A Lake engine: program memory (each word with the context that wrote it, R345), arrival order, running command. -/
structure LakeEngine where
  program : Map (Option (Nat × Word))
  queue : List LakeEntry
  run : Option LakeCommand
  deriving DecidableEq, Repr, Inhabited

/-! ### The device -/

/-- DEVST.STATE (spec/03 R60). -/
inductive DevState where
  | booting
  | ready
  | failed
  deriving DecidableEq, Repr, Inhabited

/-- A key slot (spec/02 R56). -/
inductive KeySlot where
  | empty
  | plain
  | xts (key : BitVec 512)
  deriving DecidableEq, Repr, Inhabited

/-- A cached page-table entry (spec/02 R53): its context, the first virtual address and the log2 of the bytes it covers, the entry. -/
structure TlbEntry where
  ctx : Nat
  base : Nat
  shift : Nat
  pte : BitVec 64
  deriving DecidableEq, Repr, Inhabited

/-- What the security block answered (spec/03 R77). -/
inductive SpdmReply where
  | version (major minor : Nat)
  | capabilities (body : BitVec 384)
  | algorithms (p384 sha384 : Bool)
  | digests (body : BitVec 384)
  | certificate (body : BitVec 384)
  | challengeAuth (body : BitVec 384)
  | measurements (stages : List (BitVec 384)) (manifest : BitVec 384)
  | unsupportedRequest
  deriving DecidableEq, Repr, Inhabited

/-- What is logged to the management plane (spec/01 R17, R25, R29, R31). A link error of R29 is found above the link layer, where no physical
module and lane are known (R17). -/
inductive MgmtLog where
  | partitionDrop (p : Packet)
  | absentDrop (p : Packet)
  | linkError (die : Nat)
  /-- A flit from `src` to `dst` has failed CRC, at the physical module and lane of the compute die's side (R17). -/
  | flitError (src dst p q : Nat)
  | probe (die : Nat)
  | reroute (die : Nat)
  | correctable (n : Nat)
  deriving DecidableEq, Repr, Inhabited

/-- Registers and tables of the hub and the management plane. -/
structure Hub where
  devst : DevState
  devCode : BitVec 16
  /-- FEATACC (spec/03 R73), and whether a CTXNEW has frozen it. -/
  featacc : BitVec 128
  featFrozen : Bool
  /-- PWRLIM.WATTS (R78): as written, and as the present grant period uses it. -/
  pwrlim : BitVec 11
  pwrNow : BitVec 11
  periods : Nat
  /-- Intervals of 1 µs that the hub has counted (spec/01 R23). -/
  intervals : Nat
  /-- DLCFG (spec/01 R23). -/
  dlto : BitVec 16
  hbmiss : BitVec 8
  /-- ISAVER.MIN, set by the firmware, and the slots that its microcode adds to the opcode map (spec/10 R241, R245). -/
  isaMin : BitVec 8
  microcode : BitVec 512
  /-- GTIME of the last failed attempt to fetch the firmware (spec/03 R75). -/
  retryAt : Nat
  digests : List (BitVec 384)
  manifestDigest : BitVec 384
  devnum : BitVec 8
  /-- Ports with a link, and the routes (device, port) (spec/03 R61). -/
  ports : List (Nat × Nat)
  routes : List (Nat × Nat)
  /-- Copies of the incarnation table, by 4 × holder + die, holder 4 the hub's own (spec/01 R27). -/
  incCopies : Map (BitVec 8)
  /-- Neighbour links (by their counter-clockwise die) rerouted through the hub (R22). -/
  rerouted : List Nat
  /-- Packets held for a SILENT die (R31). -/
  held : List Packet
  keys : Map KeySlot
  /-- The 64-byte lines that Mordant holds hub-owned, with the time of the last package-scope atomic (spec/08 R206). -/
  hubOwned : Map (Option Nat)
  /-- MSI-X vectors signalled, as (function, vector), the latest last. -/
  irqs : List (Nat × Nat)
  spdm : List SpdmReply
  log : List MgmtLog
  /-- Values read by the host, by other devices and over CXL.mem, the latest last. -/
  reads : List (List Byte)
  /-- Ranges of system memory that the host accepts: first PA and size (spec/02 R41). -/
  hostRanges : List (Nat × Nat)
  deriving DecidableEq, Repr, Inhabited

/-! ### The agenda: what the outside world and the schedulers do next -/

/-- Who acts in a turn. -/
inductive Actor where
  /-- The warp with this key issues. -/
  | warp (key : Nat)
  /-- The Lake engine executes its next word. -/
  | engine (key : Nat)
  /-- An event of the table happens. -/
  | event (i : Instr)
  /-- The host writes its own memory, accepts a range of it, or reads a register through BAR0 of a function. -/
  | hostWrite (pa : Nat) (bytes : List Byte)
  | hostAccept (pa size : Nat)
  | hostRead (fn off : Nat)
  /-- Another device of the load-store domain writes its own memory. -/
  | peerWrite (dev off : Nat) (bytes : List Byte)
  deriving DecidableEq, Repr

/-- A byte of a die's copy of a line that the home no longer holds so, and the key under which the copy was read (spec/02 R56). -/
structure StaleByte where
  val : Byte
  key : KeySlot
  deriving DecidableEq, Repr, Inhabited

/-- A write of firmware, of a launch processor or of the task engine that a SILENT die holds up (spec/01 R31): to a virtual range of a
context, by the agent at a place; or of bytes of memory; or an interrupt that follows such writes of a context; or an access from outside to
hashed memory of a partition. -/
inductive Posted where
  | range (place ctx : Nat) (va : BitVec 64) (bytes : List Byte)
  | bytes (bs : List WByte)
  | irq (ctx part vector : Nat)
  | access (part pa : Nat) (acc : DomainAccess)
  deriving DecidableEq, Repr

/-- A turn: the nanoseconds that pass before it, and the actor. -/
structure Turn where
  dt : Nat
  who : Actor
  deriving DecidableEq, Repr

/-- The home copies of every byte of device, domain and system memory (spec/02 R40), by key. An unlisted byte reads as 0. -/
abbrev Memory := Map Byte

/-- The state of the device. -/
structure State where
  hub : Hub
  /-- GTIME (spec/03 R67): nanoseconds since device reset. -/
  gtime : Nat
  parts : Map Partition
  dies : Map Die
  cores : Map Core
  lake : Map LakeEngine
  ctxs : Map (Option Context)
  lots : Map (Option Lot)
  vats : Map (Option Vat)
  warps : Map Warp
  ops : Map (Option Op)
  mem : Memory
  /-- Dies whose remote line cache may hold a line, by the key of the line's first byte (spec/02 R54). -/
  copies : Map (BitVec 4)
  /-- Bytes that a die's stale copy still holds, by 2^58 × die + memory key (spec/08 R201). -/
  stale : Map (Option StaleByte)
  /-- What the write that a byte of memory holds carries, by key: a release or an atomic of its sequence, or a write behind a FENCE (R193). -/
  sync : Map (List Carry)
  /-- What the FENCEs of all warps have carried, the oldest first (R193 case 3). -/
  fences : List Carry
  /-- Writes held for a SILENT die, the oldest first. -/
  posted : List Posted
  /-- The key each line was last written under, by line (spec/02 R56); `.empty` where nothing was written. -/
  lineKey : Map KeySlot
  /-- The key slot each line was last written through, by line (R56). -/
  lineSlot : Map (BitVec 10)
  /-- Poisoned lines (spec/07 R186): the bytes of the line not overwritten since, by line. -/
  poison : Map (BitVec 128)
  /-- Cached page-table entries (R53): the L1 TLB of a core under its number, the L2 TLB and the upper-level walk cache of a die (4 is the
  hub) under 256 and 512 and the die on. -/
  tlb : Map (List TlbEntry)
  /-- Counters of the model: the next lot, launch sequence number, operation and placement; the free-value counter. -/
  nextLot : Nat
  nextLseq : Nat
  nextOp : Nat
  nextPlace : Nat
  fresh : Nat
  /-- The warp, and the Lake engine, in turn. -/
  cur : Nat
  curEng : Nat
  agenda : List Turn
  deriving DecidableEq, Repr

/-- The hub's registers at device reset: DEVST BOOTING (R60), FEATACC 0 (R73), PWRLIM 1800 (R78), DLCFG.DLTO 100 and
HBMISS 16 (spec/01 R23), key slot 0 PLAIN and the rest EMPTY (spec/02 R56). Nothing else is loaded until the boot. -/
def Hub.reset : Hub :=
  { devst := .booting, devCode := 0, featacc := 0, featFrozen := false, pwrlim := 1800, pwrNow := 1800, periods := 0, intervals := 0,
    dlto := 100, hbmiss := 16, isaMin := 2, microcode := 0, retryAt := 0, digests := [], manifestDigest := 0, devnum := 0, ports := [], routes := [],
    incCopies := [], rerouted := [], held := [], keys := [(0, .plain)], hubOwned := [], irqs := [], spdm := [],
    log := [], reads := [], hostRanges := [] }

/-- The device right after reset: the management cores are about to boot, nothing is resident and memory lists
nothing. -/
def State.reset : State :=
  { hub := Hub.reset, gtime := 0, parts := [], dies := [], cores := [], lake := [], ctxs := [], lots := [], vats := [],
    warps := [], ops := [], mem := [], copies := [], stale := [], sync := [], fences := [], posted := [], lineKey := [], lineSlot := [], poison := [], tlb := [], nextLot := 0,
    nextLseq := 0, nextOp := 0, nextPlace := 0, fresh := 0, cur := 0, curEng := 0, agenda := [] }

end Sys2Proof.Machine
end

