-- ==== Sys2Proof/Machine/Ops.lean ====
section
/-! DEFINITION. The named operations over the parts of the state: reading and changing the warp in turn, a vat, a lot, a
context, an operation, a die, a core; lane masks; the records the spec packs into words. -/

namespace Sys2Proof.Machine

/-- Every step and every meaning ends so. -/
abbrev Out := Host.Outcome State Fault Refusal

/-! ### Lanes -/

/-- Lane `l` is in the mask (spec/00 R5). -/
def inMask (m : Lanes) (l : Nat) : Bool := m.getLsbD l

/-- The 32 lane numbers. -/
def allLanes : List Nat := List.range 32

/-- The lanes of a mask in ascending order (spec/00 R12). -/
def lanesOf (m : Lanes) : List Nat := allLanes.filter (inMask m)

/-- The mask of one lane. -/
def laneBit (l : Nat) : Lanes := (1 : Lanes) <<< l

/-- The mask of the lanes of a list. -/
def maskOf : List Nat → Lanes
  | [] => 0
  | l :: ls => laneBit l ||| maskOf ls

/-- The mask of the lanes that satisfy a test. -/
def maskWhere (p : Nat → Bool) : Lanes := maskOf (allLanes.filter p)

/-- The lowest lane of a mask, if any. -/
def lowest (m : Lanes) : Option Nat := allLanes.find? (inMask m)

/-- The mask of the lowest lane. -/
def lowestMask (m : Lanes) : Lanes := match lowest m with | some l => laneBit l | none => 0

/-- How many lanes a mask holds. -/
def countLanes (m : Lanes) : Nat := (lanesOf m).length

/-! ### Parts of the state -/

def State.warp (s : State) (k : Nat) : Warp := s.warps.get k
def State.setWarp (s : State) (k : Nat) (w : Warp) : State := { s with warps := s.warps.set k w }
def State.modWarp (s : State) (k : Nat) (f : Warp → Warp) : State := s.setWarp k (f (s.warp k))
/-- The warp in turn. -/
def State.w (s : State) : Warp := s.warp s.cur
def State.setW (s : State) (w : Warp) : State := s.setWarp s.cur w
def State.modW (s : State) (f : Warp → Warp) : State := s.setW (f s.w)

def State.vat (s : State) (k : Nat) : Vat := (s.vats.get k).getD default
def State.setVat (s : State) (k : Nat) (v : Vat) : State := { s with vats := s.vats.set k (some v) }
def State.modVat (s : State) (k : Nat) (f : Vat → Vat) : State := s.setVat k (f (s.vat k))
/-- The vat of the warp in turn. -/
def State.v (s : State) : Vat := s.vat s.w.vat
def State.modV (s : State) (f : Vat → Vat) : State := s.modVat s.w.vat f

def State.lot (s : State) (k : Nat) : Lot := (s.lots.get k).getD default
def State.setLot (s : State) (k : Nat) (l : Lot) : State := { s with lots := s.lots.set k (some l) }
def State.modLot (s : State) (k : Nat) (f : Lot → Lot) : State := s.setLot k (f (s.lot k))
/-- The lot of the warp in turn. -/
def State.l (s : State) : Lot := s.lot s.v.lot

def State.ctx (s : State) (k : Nat) : Context := (s.ctxs.get k).getD default
def State.setCtx (s : State) (k : Nat) (c : Context) : State := { s with ctxs := s.ctxs.set k (some c) }
def State.modCtx (s : State) (k : Nat) (f : Context → Context) : State := s.setCtx k (f (s.ctx k))
/-- The context of the warp in turn. -/
def State.c (s : State) : Context := s.ctx s.l.ctx

def State.op (s : State) (k : Nat) : Option Op := s.ops.get k
def State.setOp (s : State) (k : Nat) (o : Op) : State := { s with ops := s.ops.set k (some o) }
def State.dropOp (s : State) (k : Nat) : State := { s with ops := s.ops.set k none }

def State.part (s : State) (k : Nat) : Partition := s.parts.get k
def State.modPart (s : State) (k : Nat) (f : Partition → Partition) : State :=
  { s with parts := s.parts.modify k f }
def State.die (s : State) (k : Nat) : Die := s.dies.get k
def State.modDie (s : State) (k : Nat) (f : Die → Die) : State := { s with dies := s.dies.modify k f }
def State.core (s : State) (k : Nat) : Core := s.cores.get k
def State.modCore (s : State) (k : Nat) (f : Core → Core) : State := { s with cores := s.cores.modify k f }
def State.eng (s : State) (k : Nat) : LakeEngine := s.lake.get k
def State.modEng (s : State) (k : Nat) (f : LakeEngine → LakeEngine) : State :=
  { s with lake := s.lake.modify k f }
def State.modHub (s : State) (f : Hub → Hub) : State := { s with hub := f s.hub }

/-- The die of a core (spec/00 R5), and of the warp in turn. -/
def dieOfCore (core : Nat) : Nat := core / 44
def State.dieOf (s : State) (warp : Nat) : Nat := dieOfCore (s.warp warp).core

/-- The key of warp `n` of a vat, and the keys of all of them. -/
def warpKey (vat n : Nat) : Nat := 32 * vat + n
def warpKeys (vat : Nat) (v : Vat) : List Nat := (List.range v.nwarp).map (warpKey vat)

/-- The context of a warp, and its partition. -/
def State.ctxOf (s : State) (warp : Nat) : Nat := (s.lot (s.vat (s.warp warp).vat).lot).ctx
def State.partOf (s : State) (warp : Nat) : Nat := (s.ctx (s.ctxOf warp)).part

/-- The free value of one use within a step. -/
def State.choice (s : State) (n : Nat) : Bool := Config.freeChoice s.fresh n
def State.tick (s : State) : State := { s with fresh := s.fresh + 1 }

/-! ### Modes -/

/-- Save or restore mode (spec/07 R183). -/
def Warp.saveRestore (w : Warp) : Bool := w.trap.smode || w.trap.rmode

/-- The bank that k28–k31, p6 and p7 name: 0 normal, 1 and 2 the handler depths, 3 trap, 4 save and restore (spec/05
R117, spec/07 R171, R183). -/
def Warp.bank (w : Warp) : Nat :=
  if w.saveRestore then 4 else if w.trap.tmode then 3 else w.hdep.toNat

/-- DHV.EN. -/
def Warp.dhvEn (w : Warp) : Bool := w.dhv.getLsbD 0
/-- DHV.BASE × 512. -/
def Warp.dhvBase (w : Warp) : Word := (w.dhv >>> 9) <<< 9
def Warp.pglim (w : Warp) : Nat := (w.sgcfg >>> 16).toNat
def Warp.squant (w : Warp) : BitVec 16 := w.sgcfg.extractLsb' 0 16

/-- Lane states (spec/05 R110): 0 READY, 1 WAIT_JOIN, 2 WAIT_BAR, 3 PENDING, 4 EXITED. -/
def ready : BitVec 3 := 0
def waitJoin : BitVec 3 := 1
def waitBar : BitVec 3 := 2
def pendingData : BitVec 3 := 3
def exited : BitVec 3 := 4

/-- The live lanes of a mask that are READY. -/
def Warp.readyIn (w : Warp) (m : Lanes) : Lanes :=
  maskWhere (fun l => inMask m l && inMask w.masks.lmask l && w.lstate.get l == ready)

/-- The live lanes in a given state. -/
def Warp.lanesIn (w : Warp) (st : BitVec 3) : Lanes :=
  maskWhere (fun l => inMask w.masks.lmask l && w.lstate.get l == st)

/-- The parked lanes: live, READY and not in AMASK (spec/05, "Lane states"). -/
def Warp.parkedLanes (w : Warp) : Lanes := w.readyIn (w.masks.lmask &&& ~~~ w.masks.amask)

/-! ### Program counters by mode -/

/-- Reads the program counter that a lane has in the warp's mode. -/
def Warp.modePc (w : Warp) (l : Nat) : Word :=
  match w.bank with
  | 0 => w.lpc.get l
  | 1 => w.hpc1.get l
  | 2 => w.hpc2.get l
  | 3 => w.tlpc.get l
  | _ => w.mpc.get l

/-- Writes it. -/
def Warp.setModePc (w : Warp) (l : Nat) (pc : Word) : Warp :=
  match w.bank with
  | 0 => { w with lpc := w.lpc.set l pc }
  | 1 => { w with hpc1 := w.hpc1.set l pc }
  | 2 => { w with hpc2 := w.hpc2.set l pc }
  | 3 => { w with tlpc := w.tlpc.set l pc }
  | _ => { w with mpc := w.mpc.set l pc }

/-- Writes it in every lane of a list. -/
def Warp.setModePcs (w : Warp) (ls : List Nat) (pc : Nat → Word) : Warp :=
  ls.foldl (fun w l => w.setModePc l (pc l)) w

/-- LPC, HPC1 or TLPC written in every lane of a list, whatever the mode. -/
def setPcs (m : Map Word) (ls : List Nat) (pc : Nat → Word) : Map Word := ls.foldl (fun m l => m.set l (pc l)) m

/-! ### The clause header (spec/11 R248 Table 1) -/

def hdrN (h : Word) : Nat := (h.extractLsb' 0 4).toNat
def hdrE (h : Word) : Nat := (h.extractLsb' 4 2).toNat
def hdrPen (h : Word) : Bool := h.getLsbD 6
def hdrPsel (h : Word) : BitVec 3 := h.extractLsb' 7 3
def hdrPneg (h : Word) : Bool := h.getLsbD 10
def hdrWc0 (h : Word) : Nat := (h.extractLsb' 11 3).toNat
def hdrWt0 (h : Word) : Nat := (h.extractLsb' 14 6).toNat
def hdrWc1 (h : Word) : Nat := (h.extractLsb' 20 3).toNat
def hdrWt1 (h : Word) : Nat := (h.extractLsb' 23 6).toNat
def hdrRes (h : Word) : BitVec 3 := h.extractLsb' 29 3

/-- The code offset of the word in turn. -/
def Clause.pc (c : Clause) : Word := c.hdr + BitVec.ofNat 32 (4 * c.idx)
/-- The next clause header (spec/13 R299). -/
def Clause.next (c : Clause) : Word := c.hdr + BitVec.ofNat 32 (4 * (hdrN c.word + 1))

/-! ### Fixed-latency results (spec/11 R258) -/

/-- The latest pending result of a cell, in issue order, that is visible at distance `dist` (R258). -/
def visibleValue : List Pending → Nat → Nat → Option Word
  | [], _, _ => none
  | p :: ps, dist, c =>
    match visibleValue ps dist c with
    | some v => some v
    | none => if p.cell = c ∧ p.due ≤ dist then some p.value else none

/-- A register cell as the next issue of the warp sees it. -/
def Warp.readCell (w : Warp) (c : Nat) : Word :=
  match visibleValue w.pending w.dist c with
  | some v => v
  | none => w.regs.get c

/-- A fixed-latency write: visible at distance `lat` (R258). -/
def Warp.pend (w : Warp) (cell : Nat) (value : Word) (lat : Nat) : Warp :=
  { w with pending := w.pending ++ [⟨cell, value, w.dist + lat, w.dist⟩], poisoned := w.poisoned.filter (· != cell) }

/-- A write performed at once: an interlocked result, a counted completion, SETWB's kind (R259). -/
def Warp.put (w : Warp) (cell : Nat) (value : Word) : Warp :=
  { w with regs := w.regs.set cell value, pending := w.pending.filter (fun p => p.cell != cell),
           poisoned := w.poisoned.filter (· != cell) }

/-- The completion of a counted operation that issued at distance `born` writes its destination; a fixed-latency write of the same
register that issued after it and is still pending is performed later and stands (R261), one that issued before it is overtaken. -/
def Warp.arrive (w : Warp) (born cell : Nat) (value : Word) : Warp :=
  { w with regs := w.regs.set cell value, pending := w.pending.filter (fun p => p.cell != cell || decide (born ≤ p.born)),
           poisoned := w.poisoned.filter (· != cell) }

/-- Takes the visible results into the registers: a result that a later one of its register has overtaken is dropped. -/
def settle : List Pending → Nat → Map Word → List Pending × Map Word
  | [], _, regs => ([], regs)
  | p :: ps, dist, regs =>
    if p.due ≤ dist then settle ps dist (regs.set p.cell p.value)
    else
      let r := settle ps dist regs
      (if (visibleValue ps dist p.cell).isSome then r.1 else p :: r.1, r.2)

def Warp.settle (w : Warp) : Warp :=
  let r := Machine.settle w.pending w.dist w.regs
  { w with pending := r.1, regs := r.2 }

/-- Event entry, DRET, trap entry, TRET, eviction and restore make every pending result visible (R258). -/
def Warp.flush (w : Warp) : Warp :=
  { w with pending := [], regs := w.pending.foldl (fun r p => r.set p.cell p.value) w.regs }

/-! ### What an issue leaves behind -/

/-- The lanes whose park age an issue advances (R123). -/
def Warp.agingLanes (w : Warp) : Lanes :=
  if w.trap.tmode || w.saveRestore then 0
  else if w.sgact then w.readyIn (w.masks.lmask &&& ~~~ w.masks.amask &&& ~~~ w.masks.sggrp)
  else w.parkedLanes

/-- One issue: distance, safeguard quantum and park ages (R123, R125, R258); results that have become visible settle. Ages count as the
instruction leaves them: lanes that it has made READY itself age with it (DESIGN CHOICE, log 105: R123 does not say). -/
def Warp.countIssue (w : Warp) (stall : BitVec 2) : Warp :=
  let normal := !w.trap.tmode && !w.saveRestore
  let age := (lanesOf w.agingLanes).foldl (fun m l => m.modify l (fun a => if a == 0xFFFF then a else a + 1)) w.pkage
  let age := if normal && w.hdep == 0 then (lanesOf w.clause.issue).foldl (fun m l => m.set l 0) age else age
  { w with
    dist := w.dist + stall.toNat + 1, pkage := age, hold := .free, started := true, matrixOp := none, spawnDone := 0, acqAnswer := none,
    sgrem := if normal && w.sgact && w.sgrem != 0 then w.sgrem - 1 else w.sgrem }.settle

/-! ### Taking an exception and returning from it -/

/-- EnterTrap (spec/07 R171): the fault record and its program counter are saved, TRMASK holds the issue set of the
faulting instruction, TMODE and TMSK are set, and the lanes that issue the vector (TRMASK in warp-trap mode, every live
lane in vat-trap mode) stand at it. LSTATE, LPC and AMASK do not change. A replay that faults keeps TRMASK and the
place to go on from (R169). A fault raised at a clause boundary takes its fault lanes for TRMASK. -/
def Warp.enterTrap (w : Warp) (rung : BitVec 3) (fr : FaultRecord) (resume : Resume) (issue : Lanes) (vec : Word)
    (now : Nat) : Warp :=
  let w := w.flush
  let mask := match w.replay with
    | some _ => w.trap.trmask
    | none => if resume == .boundary && fr.flm != 0 then fr.flm else w.clause.issue
  let back := match w.replay with | some b => b | none => (w.clause, resume)
  let lanes := if rung == 0 then mask else issue
  { w with
    trap := { w.trap with
      tmode := true, tmsk := true, trpc := fr.fpc, trmask := mask, frec := { fr with rung := rung }, lpcWritten := 0,
      clause := back.1, resume := back.2, issue := lanes, offeredAt := now },
    tlpc := setPcs w.tlpc (lanesOf lanes) (fun _ => vec),
    phase := .boundary, hold := .free, replay := none }

/-- The lanes with which a warp goes on after a trap (R173): those of TRMASK that are live, READY where the warp returns
to depth 0, and whose LPC the handler has not written. -/
def Warp.resumeSet (w : Warp) : Lanes :=
  maskWhere (fun l => inMask w.trap.trmask l && inMask w.masks.lmask l && !inMask w.trap.lpcWritten l
    && (w.hdep != 0 || w.lstate.get l == ready))

/-- Leaves trap mode, without going on yet. -/
def Warp.leaveTrap (w : Warp) : Warp :=
  { w with trap := { w.trap with tmode := false, tmsk := false } }

/-- The record of the event an empty resumed issue set causes (R173): as after an instruction that emptied its active
set. -/
def emptied (pc succ : Word) (left : Lanes) : EventBank :=
  { evrec := 2, evpc := pc, evt := 0, evf := succ, evtk := 0, evm := left }

/-- The clause goes on behind its current word, of length `len`: at the next word, or at the boundary behind the clause,
where the program counters of its issue set name the next header. -/
def Warp.past (w : Warp) (len : Nat) : Warp :=
  let c := { w.clause with idx := w.clause.idx + len, rep := none }
  if hdrN c.word < c.idx then
    { (w.setModePcs (lanesOf c.issue) (fun _ => c.next)) with clause := c, phase := .boundary }
  else { w with clause := c, phase := .word }

/-- The clause goes on at the next repeat of a REP, or behind its current word. -/
def Warp.advance (w : Warp) (len : Nat) : Warp :=
  match w.clause.rep with
  | some r =>
    if 1 < r.repc.toNat then
      { w with clause := { w.clause with rep := some { r with repc := r.repc - 1, j := r.j + 1 } } }
    else w.past len
  | none => w.past len

/-- Lanes of TRMASK that do not go on leave AMASK (R173). With none READY the warp stays parked; where this empties the
active set the warp continues as after an instruction that emptied it. -/
def Warp.leaveOut (w : Warp) (left : Lanes) (succ : Word) : Warp :=
  if w.hdep != 0 || w.saveRestore then w
  else
    let amask := w.masks.amask &&& ~~~ left
    let empties := w.masks.amask != 0 && amask == 0 && !w.sgact
    let any := w.lanesIn ready != 0
    { w with
      wpark := if any then false else w.wpark || w.masks.lmask != 0,
      masks := { w.masks with
        amask := if w.sgact then w.masks.amask else amask,
        sggrp := w.masks.sggrp &&& ~~~ (w.trap.lpcWritten &&& w.trap.trmask),
        wset := if any || w.wpark then w.masks.wset else 0 },
      cause := if empties && any && w.dhvEn && w.cause.isNone then some (emptied w.trap.trpc succ left) else w.cause }

/-- Goes on from the place a trap was taken at (R173, R170, R396), with the lanes still to issue: `len` is the length of
the faulting word. A clause that had not begun is begun again at its boundary. -/
def Warp.resumeAt (w : Warp) (c : Clause) (how : Resume) (len : Nat) : Warp :=
  let set := w.resumeSet
  let w := w.leaveOut (w.trap.trmask &&& ~~~ set) c.next
  match how with
  | .boundary =>
    -- a lane that waited at a barrier or join and is READY now goes on with the issue set
    let back := if w.trap.frec.code == 0x10 && w.hdep == 0 && !w.sgact then set &&& ~~~ w.masks.arrl else 0
    { w with clause := c, phase := .boundary, replay := none, masks := { w.masks with amask := w.masks.amask ||| back } }
  | _ =>
    let w := { w with clause := { c with issue := c.issue &&& set, enabled := c.enabled &&& set }, replay := none }
    if set == 0 || (how == .again && c.idx == 0) then { w with phase := .boundary }
    else if how == .again then { w with phase := .word }
    else w.advance len

/-- The lanes that the return from a fault issues again: with REPLAY those of FLM, and those that other codes have left uncommitted (R169, R187
Table 6, spec/14 R348 Table 7; DEDUCED, log 38). -/
def FaultRecord.again (fr : FaultRecord) : Lanes := (if fr.replay then fr.flm else 0) ||| fr.rest

/-- TRET and TRET.SKIP in the warp that holds the trap (R173): with a replay the faulting word issues again first, from the
clause `at'` in which FPC lies, for the lanes that go on. A word or header whose fetch failed is not replayed: the
warp stands before it. -/
def Warp.tret (w : Warp) (skip : Bool) (at' : Clause) (len : Nat) : Warp :=
  let w := w.leaveTrap
  let c := w.trap.clause
  let flm := w.trap.frec.again &&& w.resumeSet
  if !skip && w.trap.resume != .again && at'.idx != 0 && flm != 0 then
    { w with
      clause := { at' with issue := flm, enabled := flm }, phase := .word, replay := some (c, w.trap.resume) }
  else if skip && w.trap.resume == .again then w.resumeAt c .after len
  else w.resumeAt c w.trap.resume len

/-! ### Counters (spec/08 R209) -/

/-- The class of a code of spec/11 R248. -/
def classOf : Nat → Option OpClass
  | 1 => some .ld
  | 2 => some .st
  | 3 => some .cp
  | 4 => some .mx
  | 5 => some .bk
  | 6 => some .at
  | _ => none

/-- The unreported operations of a warp, the oldest first, with their numbers. -/
def State.opsOf (s : State) (warp : Nat) : List (Nat × Op) :=
  s.ops.filterMap (fun e => match e.2 with
    | some o => if o.warp = warp ∧ o.reported = false then some (e.1, o) else none
    | none => none)

/-- A counter of a warp. -/
def State.count (s : State) (warp : Nat) (c : OpClass) : Nat :=
  ((s.opsOf warp).filter (fun e => decide (e.2.cls = c))).length

/-- Reports the complete operations of a class that no incomplete one of the class precedes (R209: completions are
reported in issue order). -/
def reportPrefix : List (Nat × Op) → List Nat
  | [] => []
  | e :: es => if e.2.complete then e.1 :: reportPrefix es else []

def State.report (s : State) (warp : Nat) (c : OpClass) : State :=
  let done := reportPrefix ((s.opsOf warp).filter (fun e => decide (e.2.cls = c)))
  done.foldl (fun s k =>
    match s.op k with
    | some o =>
      -- a store whose .E acknowledgements are missing is kept, uncounted, for the releases that wait for them
      if o.owed = 0 then s.dropOp k else s.setOp k { o with reported := true }
    | none => s) s

/-- Starts a counted operation of the warp in turn; its number is the device's next. -/
def State.startOp (s : State) (cls : OpClass) (work : Work) (lanes : Lanes) (va : BitVec 64) : State :=
  { s with
    ops := s.ops.set s.nextOp (some
      { warp := s.cur, cls := cls, work := work, fpc := s.w.clause.pc, lanes := lanes, scope := 0, release := false,
        released := false, carries := [], acquire := false, late := false, complete := false, reported := false, performed := false, owed := 0, ackLost := false, issue := s.w.clause.issue, sites := [], die := dieOfCore s.w.core, ctx := s.l.ctx,
        issuedAt := s.gtime, born := s.w.dist, va := va }),
    nextOp := s.nextOp + 1 }

end Sys2Proof.Machine
end

