-- ==== Sys2Proof/Machine/Operands.lean ====
section
/-! DEFINITION. Operand codes and registers: which register a code names in the warp's mode (spec/11 R256, R257, spec/05
R117), what a read of it returns (R258, R261), and what the opcode map says of a slot: latency,
feature bit, role, modes, length (R259, R263, R265, spec/13 R300). -/

namespace Sys2Proof.Machine

/-! ### Register cells

Cells number the registers of a warp: v n of lane l at 32n + l; k n at 8192 + n; p n of lane l at 8224 + 32n + l; hv i of
depth d at 8480 + 32 (4 (d - 1) + i) + l; k28 + i of bank b at 8736 + 4 (b - 1) + i; p6 + i of bank b at
8752 + 32 (2 (b - 1) + i) + l. -/

def cellV (n l : Nat) : Nat := 32 * n + l
def cellKn (n : Nat) : Nat := 8192 + n
def cellPn (n l : Nat) : Nat := 8224 + 32 * n + l
def cellHv (d i l : Nat) : Nat := 8480 + 32 * (4 * (d - 1) + i) + l
def cellKb (b i : Nat) : Nat := 8736 + 4 * (b - 1) + i
def cellPb (b i l : Nat) : Nat := 8752 + 32 * (2 * (b - 1) + i) + l

/-- Codes 92–95 name hv0–hv3: handler mode, outside trap, save and restore mode. -/
def Warp.hvBanked (w : Warp) : Bool := w.bank == 1 || w.bank == 2

/-- The lane register of code `c < 96`. -/
def Warp.laneCell (w : Warp) (c l : Nat) : Nat :=
  if 92 ≤ c && w.hvBanked then cellHv w.bank (c - 92) l else cellV (w.vwb.toNat + c) l

/-- k register `n`. -/
def Warp.kCell (w : Warp) (n : Nat) : Nat :=
  if 28 ≤ n && w.bank != 0 then cellKb w.bank (n - 28) else cellKn n

/-- The register a code names, as lane `l` sees it. -/
def Warp.cell (w : Warp) (c l : Nat) : Nat := if c < 96 then w.laneCell c l else w.kCell (c - 96)

/-- Predicate `n` of lane `l`. -/
def Warp.predCell (w : Warp) (n l : Nat) : Nat :=
  if 6 ≤ n && w.bank != 0 then cellPb w.bank (n - 6) l else cellPn n l

/-! ### Reading -/

/-- The destinations an unreported operation will write. -/
def Work.dests : Work → List Dest
  | .load ds _ _ _ => ds
  | .atomic _ ds => ds
  | .drain ds _ => ds.map (·.2)
  | _ => []

/-- The value an outstanding counted operation of the warp will write into a cell, if any: the latest's. A load that reads
its value only when it completes has none yet. -/
def State.incoming (s : State) (warp c : Nat) : Option Word :=
  (s.opsOf warp).foldl (fun r e =>
    if e.2.complete || e.2.late then r
    else match e.2.work.dests.find? (fun d => d.cell == c) with
      | some d => some d.value
      | none => r) none

/-- A read of a cell by the warp in turn. A destination of a counted operation that no counter wait covers reads old or
new, decided per register and lane (R261). -/
def State.readCell (s : State) (c : Nat) : Word :=
  match s.incoming s.cur c with
  | none => s.w.readCell c
  | some v => if s.choice c then v else s.w.readCell c

/-- ReadOp (R274): the register of a code as lane `l` sees it. -/
def State.readOp (s : State) (c : Code) (l : Nat) : Word := s.readCell (s.w.cell c.toNat l)

/-- ReadP (R274). -/
def State.readP (s : State) (p : BitVec 3) (l : Nat) : Bool := s.readCell (s.w.predCell p.toNat l) != 0

/-- A k operand, read once. -/
def State.readK (s : State) (c : Code) : Word := s.readOp c 0

/-- The 64-bit value of a register pair, low word in the lower code (R257). -/
def State.readPair (s : State) (c : Code) (l : Nat) : BitVec 64 := s.readOp (c + 1) l ++ s.readOp c l

/-- READ of a predicate with inversion. -/
def State.readPX (s : State) (p : BitVec 3) (n : BitVec 1) (l : Nat) : Bool := xor (s.readP p l) (n == 1)

/-! ### Operand codes -/

def isLane (c : Code) : Bool := c < 96
def isK (c : Code) : Bool := 96 ≤ c
/-- A group of `n` registers starts at a multiple of `n` (R257); 96 is a multiple of 2 and of 4, so all lie in a bank. -/
def aligned (c : Code) (n : Nat) : Bool := c.toNat % n == 0
def kPair (c : Code) : Bool := isK c && aligned c 2
def lanePair (c : Code) : Bool := isLane c && aligned c 2

/-! ### What the opcode map says of a slot

A slot is the number 8 × OP + F. -/

def slot (op f : Nat) : Nat := 8 * op + f

/-- The instruction has an extension word (formats M and X, R253). -/
def slotLong (k : Nat) : Bool := match findRow rows (k / 8) (k % 8) with | some r => r.long | none => false

/-- The engine class of a row (R263). -/
def rowClass (op : Nat) : Nat :=
  if op ≤ 0x33 then 0 else if op ≤ 0x3B then 1 else if op ≤ 0x3D then 2 else 3

/-- NOP, REP and EXTM are accepted in a clause of any class. -/
def slotInClass (k cls : Nat) : Bool :=
  k == slot 0x28 6 || k == slot 0x3F 0 || k == slot 0x3F 7 || rowClass (k / 8) == cls

/-- Instructions that must end their clause (spec/05 R114, spec/13 R299, spec/07 R171, R183). -/
def slotEnds (k : Nat) : Bool :=
  (slot 0x28 0 ≤ k && k ≤ slot 0x28 5) || (slot 0x29 1 ≤ k && k ≤ slot 0x29 4) || k == slot 0x2A 0 || k == slot 0x2A 1
    || (slot 0x3E 2 ≤ k && k ≤ slot 0x3E 6)

/-- The words a REP may not repeat (R262). -/
def slotNoRep (k : Nat) : Bool :=
  (0x28 ≤ k / 8 && k / 8 ≤ 0x2B) || k == slot 4 2 || k / 8 == 0x3F || k / 8 == 0x3E

/-- Feature bit a slot needs (R265). -/
def slotFeature (k : Nat) : Option Nat :=
  if k / 8 == 0x38 then some 0
  else if k / 8 == 0x2B then some 1
  else if k == slot 0x37 0 || k == slot 0x37 1 then some 2
  else if k == slot 0x36 1 || k == slot 0x36 2 then some 3
  else if k / 8 == 0x1D then some 4
  else if k == slot 0x37 2 || k == slot 0x37 3 then some 5
  else if k == slot 0x3C 2 then some 6
  else none

/-- Roles of the class-2 rows (R263, spec/15 R349): MFILL and MDRAIN are VEC only, MST is either's, the rest MAT only. -/
def slotRole (k : Nat) (mat : Bool) : Bool :=
  if k / 8 == 0x3C || k / 8 == 0x3D then
    if k == slot 0x3C 6 || k == slot 0x3C 7 then !mat else mat || k == slot 0x3C 5
  else true

/-- EXIT, JWAIT, PARK, YIELD, BARV, BARN, BLEAVE. -/
def slotLaneControl (k : Nat) : Bool :=
  k == slot 0x28 5 || k == slot 0x29 1 || k == slot 0x29 3 || k == slot 0x29 4 || k / 8 == 0x2A

/-- Whether the mode forbids a slot: ILLEGAL_OPCODE (spec/13 R300 Table 1, spec/05 R117, spec/07 R183). -/
def slotForbidden (k : Nat) (bank : Nat) : Bool :=
  match bank with
  | 0 => k == slot 0x29 2
  | 1 | 2 => slotLaneControl k
  | 3 => slotLaneControl k || k == slot 0x29 0 || k == slot 0x29 2 || k / 8 == 0x2B
  | _ => slotLaneControl k || k == slot 0x29 0 || k == slot 0x29 2 || k / 8 == 0x2B
      || k == slot 0x37 0 || k == slot 0x37 4 || k == slot 0x38 1 || k == slot 0x3E 3

/-- Fixed latencies (R259 Table 4); 0 where the destination is interlocked or counted. -/
def slotLatency (k : Nat) : Nat :=
  let op := k / 8
  if k == slot 1 0 || k == slot 0x11 3 || k == slot 0x12 2 || k == slot 0x11 6 || k == slot 0x12 5 then 5
  else if k == slot 4 3 || k == slot 4 4 then 6
  else if op ≤ 4 || (0x10 ≤ op && op ≤ 0x13) then 4
  else if (op == 0x1C && k % 8 ≤ 4) || k == slot 0x1D 0 then 8
  else if k == slot 0x21 3 then 6
  else if op == 0x20 || op == 0x21 || k == slot 0x30 5 || k == slot 0x3E 0 then 4
  else if op == 0x30 || k == slot 0x31 0 then 6
  else if k == slot 0x31 1 then 8
  else 0

/-- The device's features (spec/03 R73): bits 0–10 of Table 3. -/
def features : BitVec 128 := 0x7FF

/-- Assigned slots of the opcode map (spec/11 R265); the base firmware's microcode provides its M-class ones (spec/10 R243). -/
def slotAssigned (k : Nat) : Bool := (findRow rows (k / 8) (k % 8)).isSome

/-- Slots that execute on the device (SLOTMAP, spec/10 R241): firmware may add M-class ones (R245). -/
def Hub.slotRuns (h : Hub) (k : Nat) : Bool := slotAssigned k || h.microcode.getLsbD k

end Sys2Proof.Machine
end

