-- ==== Sys2Proof/Machine/Memory.lean ====
section
/-! DEFINITION. Memory: the physical map and placement (spec/02 R41–R46), translation (R49–R53, R398), what an agent reads
and how writes are performed (spec/08 R195–R206), the scratchpad window (spec/06 R139), code text (spec/11 R250). -/

namespace Sys2Proof.Machine

/-- The canonical form: addresses strictly rising, and no byte listed that reads as an unlisted one does. -/
abbrev Memory.wf (m : Memory) : Bool := Map.wf m

/-! ### Physical addresses (spec/02 R41–R46) -/

def gib : Nat := 2 ^ 30
def region (pa : Nat) : Nat := pa / 2 ^ 48 % 16

/-- H of R40 out of the 96 GiB of a die (R39), in GiB, and the placed bytes of a bank group, by PLCFG.MODE. -/
def hashedGiB (mode : BitVec 2) : Nat := if mode == 1 then 48 else if mode == 2 then 0 else 96
def placedSize (mode : BitVec 2) : Nat := if mode == 1 then 2 ^ 27 else if mode == 2 then 2 ^ 28 else 0

/-- h of R42. -/
def hashOf (pa : Nat) : Nat :=
  let g := pa / 2 ^ 16
  g ^^^ (g >>> 9) ^^^ (g >>> 18) ^^^ (g >>> 27)

/-- The home die of a hashed address: LDT[h mod L]. -/
def hashedHome (ldt : List Nat) (pa : Nat) : Nat := ldt.getD (hashOf pa % ldt.length) 0

/-- The die-local channel of a hashed address. -/
def hashedChannel (pa : Nat) : Nat :=
  let x := pa / 2 ^ 8 % 2 ^ 40
  (x ^^^ (x >>> 11) ^^^ (x >>> 22)) % 96

/-- Fields of a placed address (R46 Table 4). -/
def placedDie (pa : Nat) : Nat := pa / 2 ^ 37 % 4
def placedStack (pa : Nat) : Nat := pa / 2 ^ 35 % 4
def placedChannel (pa : Nat) : Nat := pa / 2 ^ 30 % 32
def placedPa (d stack ch b off : Nat) : Nat :=
  4 * 2 ^ 48 + d * 2 ^ 37 + stack * 2 ^ 35 + ch * 2 ^ 30 + b * 2 ^ 28 + off

/-- A domain address that names this device's own hashed memory is that hashed address (R41). -/
def State.normal (s : State) (pa : Nat) : Nat :=
  if region pa = 2 ∧ pa / 2 ^ 40 % 256 = s.hub.devnum.toNat then pa % 2 ^ 40 else pa

/-- Whether the host accepts a system address. -/
def State.hostAccepts (s : State) (pa : Nat) : Bool :=
  s.hub.hostRanges.any (fun r => decide (r.1 ≤ pa % 2 ^ 51 ∧ pa % 2 ^ 51 < r.1 + r.2))

/-- Another device's memory is reached over a route whose port serves the partition (spec/01 R25, spec/03 R61). -/
def State.routed (s : State) (p dev : Nat) : Bool := s.hub.routes.any (fun r => r.1 == dev && s.hub.ports.contains (r.2, p))

/-- Whether an address is backed (R41 Table 2), under a placement mode. Another device's memory is backed where that device is reached and
its own hashed memory, whose size the spec leaves to the device, at most 384 GiB, holds the offset. -/
def State.backed (s : State) (p : Nat) (mode : BitVec 2) (pa0 : Nat) : Bool :=
  let pa := s.normal pa0
  let ldt := (s.part p).ldt
  if region pa = 0 then decide (pa < ldt.length * hashedGiB mode * gib)
  else if region pa = 2 then
    let dev := pa / 2 ^ 40 % 256
    s.routed p dev && decide (pa % 2 ^ 40 < min 384 (Config.domainGiB dev) * gib)
  else if region pa = 4 then
    decide (pa / 2 ^ 39 % 2 ^ 9 = 0) && ldt.contains (placedDie pa) && decide (placedStack pa ≤ 2)
      && decide (pa % 2 ^ 28 < placedSize mode)
  else decide (8 ≤ region pa) && s.hostAccepts pa

/-- An address of another device's memory (R41). -/
def State.foreign (s : State) (pa0 : Nat) : Bool := region (s.normal pa0) == 2

/-- The home die, for device memory of this device. -/
def State.homeOf (s : State) (p pa0 : Nat) : Option Nat :=
  let pa := s.normal pa0
  if region pa = 0 then some (hashedHome (s.part p).ldt pa)
  else if region pa = 4 then some (placedDie pa)
  else none

/-- The die-local channel of device memory (R42, R46). -/
def State.channelOf (s : State) (pa0 : Nat) : Nat :=
  let pa := s.normal pa0
  if region pa = 4 then 32 * placedStack pa + placedChannel pa else hashedChannel pa

/-- The key of a byte in `State.mem`: the partition distinguishes device memory only. Windows whose
addresses coincide name the same bytes (R47). -/
def State.memKey (s : State) (p pa0 : Nat) : Nat :=
  let pa := s.normal pa0
  if region pa = 0 ∨ region pa = 4 then 2 ^ 52 * p + pa else pa

def keyPart (key : Nat) : Nat := key / 2 ^ 52
def keyPa (key : Nat) : Nat := key % 2 ^ 52
def lineOf (key : Nat) : Nat := key / 128
/-- A line of Mordant (spec/08 R206). -/
def sectorOf (key : Nat) : Nat := key / 64

/-- The home die of a memory key. -/
def State.homeOfKey (s : State) (key : Nat) : Option Nat := s.homeOf (keyPart key) (keyPa key)

/-- A die whose memory can be used (spec/01 R36). -/
def State.dieGone (s : State) (d : Nat) : Bool :=
  (s.die d).state == .lost || (s.die d).state == .resetting || (s.die d).state == .absent

/-- What goes between a die and a place is held: Packets to a SILENT die wait at the hub and at its neighbours, and none of its own arrive
(spec/01 R31, R394). A place is a die, or none: beyond the hub. -/
def State.pathHeld (s : State) (die : Nat) (home : Option Nat) : Bool :=
  let silent (d : Nat) : Bool := (s.die d).state == .silent
  die ≤ 4 && home != some die && (silent die || (match home with | some h => silent h | none => false))

/-! ### Translation (spec/02 R49–R53) -/

inductive Access where
  | read
  | write
  | exec
  deriving DecidableEq, Repr

/-- What a translation gives: an address with its key slot and cache attribute, a translation cause, a use of a die
that is LOST or RESETTING, or nothing yet: the walk waits for a SILENT die. -/
inductive Xlat where
  | ok (pa : Nat) (slot : BitVec 10) (ca : BitVec 2)
  | fault (code : BitVec 8) (cause : BitVec 4)
  | lost (die : Nat)
  | held
  deriving DecidableEq, Repr, Inhabited

/-- A walk: its result, the dies of the entries it read, the home of the address, the leaf entry, and the entries it read above. -/
structure Walk where
  res : Xlat
  touched : BitVec 4
  home : BitVec 4 := 0
  leaf : Option TlbEntry
  uppers : List TlbEntry := []
  deriving Inhabited

def pageFault : BitVec 8 := 0x08
def permFault : BitVec 8 := 0x09
def eccUncorr : BitVec 8 := 0x0B

/-- PAGE_FAULT or PERM_FAULT with a cause (R51 Table 5). -/
def xfault (cause : BitVec 4) : Xlat := .fault (if cause == 6 || cause == 7 then permFault else pageFault) cause

def dieBit (d : Nat) : BitVec 4 := (1 : BitVec 4) <<< d

/-- `n` bytes of the home copies as a number: a walker reads an entry as it was stored, whatever key slot its line was written through
(DESIGN CHOICE, log 85: the spec gives the walkers no key slot). -/
def State.homeNat (s : State) (key n : Nat) : Nat := bytesToNat ((List.range n).map (fun i => s.mem.get (key + i)))

/-- PTE fields (R50). -/
def pteV (e : BitVec 64) : Bool := e.getLsbD 0
def pteLeaf (e : BitVec 64) : Bool := e.getLsbD 3
def pteCa (e : BitVec 64) : BitVec 2 := e.extractLsb' 4 2
def pteCh (e : BitVec 64) : Bool := e.getLsbD 6
def pteLayout (e : BitVec 64) : Nat := (e.extractLsb' 8 4).toNat
def ptePfn (e : BitVec 64) : Nat := (e.extractLsb' 12 40).toNat
def pteKey (e : BitVec 64) : BitVec 10 := e.extractLsb' 52 10
def pteRsvd (e : BitVec 64) : Bool := e.extractLsb' 62 2 != 0 || e.getLsbD 7

def levelShift (lv : Nat) : Nat := 12 + 9 * (lv - 1)

/-- The checks of an entry that every level makes (R51 Table 5, RSVD; R398). -/
def entryCause (e : BitVec 64) (lv : Nat) : Option (BitVec 4) :=
  if !pteV e then some 0
  else
    let leaf := lv == 1 || (pteLeaf e && lv ≤ 3)
    if pteRsvd e || (4 ≤ lv && pteLeaf e) || (leaf && (pteCa e == 3 || 9 ≤ pteLayout e)) then some 2
    else if leaf && lv != 1 && pteLayout e == 0 && ptePfn e % 2 ^ (9 * (lv - 1)) != 0 then some 3
    else none

/-- The 16 entries of the aligned 64 KiB range of a level-1 table that holds `idx`, and whether they meet R52. -/
def chConsistent (es : List (BitVec 64)) : Bool :=
  match es with
  | [] => true
  | e :: _ =>
    decide (ptePfn e % 16 = 0) && (es.zip (List.range 16)).all (fun p =>
      decide (ptePfn p.1 = ptePfn e + p.2) && (p.1 &&& ~~~(0xFFFFFFFFFF000 : BitVec 64)) == (e &&& ~~~(0xFFFFFFFFFF000 : BitVec 64)))

/-- The free choices of a translation numbered `n`: 64 to each, apart from those of the rest of the step. -/
def xn (n i : Nat) : Nat := 1000000 + 64 * n + i

/-- The entry that translates an address of a level-1 table, and the log2 of the bytes it maps (R52): its own, or, where a range with CH set
does not meet the conditions, one of the 16 that the spec does not name, mapping the whole range. A range that does meet them may be held as
one entry. Where the chosen entry has V = 0 the access's own entry stands, and an entry that maps the range has PFN[3:0] taken as 0 (DESIGN
CHOICE, log 101: the spec says neither). -/
def State.level1Entry (s : State) (tableKey idx n : Nat) : BitVec 64 × Nat :=
  let own := BitVec.ofNat 64 (s.homeNat (tableKey + 8 * idx) 8)
  let es := (List.range 16).map (fun i => BitVec.ofNat 64 (s.homeNat (tableKey + 8 * (idx / 16 * 16 + i)) 8))
  if es.any (fun e => pteV e && pteCh e) then
    if chConsistent es then (if s.choice (xn n 3) then (es.getD 0 own, 16) else (own, 12))
    else
      let e := es.getD (Config.freeNat s.fresh (xn n 2) % 16) own
      let e := if pteV e then e else own
      if pteV e then (e &&& ~~~(0xF000 : BitVec 64), 16) else (e, 12)
  else (own, 12)

/-- The walk from a level downwards (R49, R51): `levels` are the levels still to be read. Bits [11:0] of a root address are taken as they
stand, and a table is tested for backing and home at its first byte (DESIGN CHOICE, log 85: the spec requires no alignment of a root). A
read that goes to a SILENT die waits (spec/01 R31); `die` is the walker's. -/
def State.walkFrom (s : State) (die ctx p : Nat) (mode : BitVec 2) (va n : Nat) : List Nat → Nat → BitVec 4 → List TlbEntry → Walk
  | [], _, t, _ => { res := xfault 0, touched := t, leaf := none }
  | lv :: rest, table, t, ups =>
    let idx := va / 2 ^ levelShift lv % 512
    if !s.backed p mode table then { res := xfault 5, touched := t, leaf := none, uppers := ups }
    else
      let t := match s.homeOf p table with | some d => t ||| dieBit d | none => t
      if (match s.homeOf p table with | some d => s.dieGone d | none => false) then
        { res := .lost ((s.homeOf p table).getD 0), touched := t, leaf := none, uppers := ups }
      else if s.pathHeld die (s.homeOf p table) then { res := .held, touched := t, leaf := none, uppers := ups }
      else
        let key := s.memKey p table
        let e := if lv == 1 then s.level1Entry key idx n else (BitVec.ofNat 64 (s.homeNat (key + 8 * idx) 8), levelShift lv)
        let entry : TlbEntry := { ctx := ctx, base := va / 2 ^ e.2 * 2 ^ e.2, shift := e.2, pte := e.1 }
        match entryCause e.1 lv with
        | some c => { res := xfault c, touched := t, leaf := none, uppers := ups }
        | none =>
          if lv == 1 || pteLeaf e.1 then { res := .ok 0 0 0, touched := t, leaf := some entry, uppers := ups }
          else s.walkFrom die ctx p mode va n rest (ptePfn e.1 * 4096) t (ups ++ [entry])

/-! Layout windows (R43–R45). -/

def lwVbase (w : BitVec 256) : Nat := (w.extractLsb' 0 41).toNat
def lwSize (w : BitVec 256) : Nat := (w.extractLsb' 64 32).toNat
def lwDies (w : BitVec 256) : BitVec 4 := w.extractLsb' 96 4
def lwBgrp (w : BitVec 256) : BitVec 4 := w.extractLsb' 100 4
def lwStripe (w : BitVec 256) : Nat := (w.extractLsb' 104 4).toNat
def lwOffb (w : BitVec 256) : Nat := (w.extractLsb' 108 12).toNat
def lwChan (w : BitVec 256) : BitVec 96 := w.extractLsb' 128 96

def setBits {n : Nat} (v : BitVec n) : List Nat := (List.range n).filter v.getLsbD

/-- A window is invalid (R44). A channel of stack 3 cannot be named by the 96 bits of CHAN. -/
def lwInvalid (w : BitVec 256) (ldt : List Nat) : Bool :=
  lwSize w == 0 || decide (8 < lwStripe w) || lwDies w == 0 || lwBgrp w == 0 || lwChan w == 0
    || (setBits (lwDies w)).any (fun d => !ldt.contains d)

/-- The address of R45. The virtual address is taken modulo 2^57: bits [63:57] repeat bit 56. -/
def lwPlace (w : BitVec 256) (va : Nat) : Nat × Nat :=
  let o := va - lwVbase w * 65536
  let wd := 256 * 2 ^ lwStripe w
  let t := (setBits (lwDies w)).flatMap (fun d => (setBits (lwChan w)).map (fun c => (d, c)))
  let b := setBits (lwBgrp w)
  let st := o / wd
  let dc := t.getD (st % t.length) (0, 0)
  let bg := b.getD (st / t.length % b.length) 0
  let off := lwOffb w * 65536 + st / (t.length * b.length) * wd + o % wd
  (placedPa dc.1 (dc.2 / 32) (dc.2 % 32) bg 0, off)

/-- The setting an access uses: the present one, or the one before a change that no TLBINV has covered (R48). -/
def State.modeUsed (s : State) (p n : Nat) : BitVec 2 :=
  match (s.part p).plOld with
  | none => (s.part p).plcfg
  | some m => if m = (s.part p).plcfg then m else if s.choice n then m else (s.part p).plcfg

def State.windowUsed (s : State) (ctx k n : Nat) : BitVec 256 :=
  let c := s.ctx ctx
  match c.lwOld.get k with
  | none => c.lwdesc.get k
  | some w => if w = c.lwdesc.get k then w else if s.choice n then w else c.lwdesc.get k

/-- KEY names an empty slot, or a slot other than 0 without feature 9 (spec/03 R74); system memory ignores KEY (R56). -/
def State.keyMissing (s : State) (pa : Nat) (slot : BitVec 10) : Bool :=
  region pa < 8 && (s.hub.keys.get slot.toNat == .empty || (slot != 0 && !s.hub.featacc.getLsbD 9))

/-- The checks on a leaf and the physical address (R51: LAYOUT, UNBACKED, WRITE or EXEC, KEY), and behind them the feature that an access to
another device's memory needs (spec/03 R74; DEDUCED, log 86). -/
def State.leafAddr (s : State) (ctx p : Nat) (mode : BitVec 2) (va n : Nat) (acc : Access) (e : TlbEntry) : Xlat :=
  let va57 := va % 2 ^ 57
  let r : Xlat :=
    if pteLayout e.pte = 0 then
      let pa := (ptePfn e.pte * 4096 + va % 2 ^ e.shift) % 2 ^ 52
      if s.backed p mode pa then .ok pa (pteKey e.pte) (pteCa e.pte) else xfault 5
    else
      let w := s.windowUsed ctx (pteLayout e.pte - 1) (xn n 1)
      if lwInvalid w (s.part p).ldt || decide (va57 < lwVbase w * 65536)
          || decide ((lwVbase w + lwSize w) * 65536 ≤ va57) then xfault 4
      else
        let r := lwPlace w va57
        if r.2 < placedSize mode then .ok (r.1 + r.2) (pteKey e.pte) (pteCa e.pte) else xfault 5
  match r with
  | .ok pa slot ca =>
    if acc == .write && !e.pte.getLsbD 1 then xfault 6
    else if acc == .exec && !e.pte.getLsbD 2 then xfault 7
    else if s.keyMissing pa slot then xfault 8
    else if s.foreign pa && !s.hub.featacc.getLsbD 8 then .fault 0x15 0
    else match s.homeOf p pa with
      | some d => if s.dieGone d then .lost d else .ok pa slot ca
      | none => .ok pa slot ca
  | x => x

/-! The translation hardware (R53). A place translates: a core, by its number; an agent of a die that is on no core, 176 and the die on; the
hub's agents, 180. A core looks in its L1 TLB and its die's L2 TLB, the others in the latter. -/

def agentPlace (die : Nat) : Nat := 176 + die
def hubPlace : Nat := 180
def placeDie (pl : Nat) : Nat := if pl < 176 then pl / 44 else pl - 176

/-- Where `State.tlb` keeps the L2 TLB and the upper-level walk cache of a die; an L1 TLB is kept under its core. -/
def l2Key (die : Nat) : Nat := 256 + die
def walkCacheKey (die : Nat) : Nat := 512 + die

/-- A cached entry of a context covers an address. -/
def TlbEntry.covers (e : TlbEntry) (ctx va : Nat) : Bool := e.ctx == ctx && va / 2 ^ e.shift * 2 ^ e.shift == e.base

/-- The cached leaves that cover an address, and the cached upper entries, the lowest level first. -/
def State.cachedLeaves (s : State) (pl ctx va : Nat) : List TlbEntry :=
  ((if pl < 176 then s.tlb.get pl else []) ++ s.tlb.get (l2Key (placeDie pl))).filter (·.covers ctx va)
def State.cachedUppers (s : State) (pl ctx va : Nat) : List TlbEntry :=
  let es := (s.tlb.get (walkCacheKey (placeDie pl))).filter (·.covers ctx va)
  [21, 30, 39, 48].flatMap (fun sh => es.filter (·.shift == sh))

/-- The levels below an upper entry. -/
def levelsBelow (shift : Nat) : List Nat := [5, 4, 3, 2, 1].filter (fun lv => levelShift lv < shift)

/-- NONCANON (R49). -/
def canonical (va : BitVec 64) : Bool := va.extractLsb' 57 7 == if va.getLsbD 56 then 127 else 0

/-- A walk's leaf checked, and the dies of its result. -/
def State.endWalk (s : State) (ctx p : Nat) (mode : BitVec 2) (va n : Nat) (acc : Access) (w : Walk) : Walk :=
  let res := match w.leaf with | some e => s.leafAddr ctx p mode va n acc e | none => w.res
  let home := match res with
    | .ok pa _ _ => s.homeOf p pa
    | .lost d => some d
    | _ => none
  { w with res := res, home := match home with | some d => dieBit d | none => 0, leaf := match res with | .ok _ _ _ => w.leaf | _ => none }

/-- What an access uses of what is cached and what a new walk gives: any of them where they differ (R48), numbered from `i`. -/
def State.pickWalk (s : State) (n : Nat) (new : Walk) : List Walk → Nat → Walk
  | [], _ => new
  | w :: ws, i => if w.res ≠ new.res && s.choice (xn n i) then w else s.pickWalk n new ws (i + 1)

/-- The root table of a context. Its PA is taken modulo 2^52 (DESIGN CHOICE, log 85: the spec says nothing of bits [63:52]). -/
def State.rootOf (s : State) (ctx : Nat) : Nat := (s.ctx ctx).root.toNat % 2 ^ 52

/-- One translation at a place (R49–R53). `n` numbers the access's free choices, `m` those of its walk: lanes of one instruction that
miss on one page make one walk, so they share `m`. The dies used are for spec/01 R33. While a new walk waits for a SILENT die an entry that is
cached serves; `waits` is false for a look that leaves no trace and waits for nothing. -/
def State.translate (s : State) (pl ctx : Nat) (va : BitVec 64) (acc : Access) (n : Nat) (m : Nat := n) (waits : Bool := true) : Walk :=
  if !canonical va then { res := xfault 1, touched := 0, leaf := none }
  else
    let p := (s.ctx ctx).part
    let mode := s.modeUsed p (xn n 0)
    let v := va.toNat
    let die := if waits then placeDie pl else 5
    let new := s.endWalk ctx p mode v n acc (s.walkFrom die ctx p mode v m [5, 4, 3, 2, 1] (s.rootOf ctx) 0 [])
    let hits := (s.cachedLeaves pl ctx v).map (fun e => s.endWalk ctx p mode v n acc { res := .ok 0 0 0, touched := 0, leaf := some e })
      ++ (s.cachedUppers pl ctx v).map (fun e =>
        s.endWalk ctx p mode v n acc (s.walkFrom die ctx p mode v m (levelsBelow e.shift) (ptePfn e.pte * 4096) 0 []))
    let hits := hits.filter (fun w => w.res != .held)
    match new.res, hits with
    | .held, w :: ws => s.pickWalk m w ws 4
    | _, _ => s.pickWalk m new hits 4

/-- Marks dies as touched by a context (spec/01 R32). -/
def State.touch (s : State) (ctx : Nat) (dies : BitVec 4) : State :=
  s.modCtx ctx (fun c => { c with tdmask := c.tdmask ||| dies })

/-- An entry taken into a cache of `size` entries; a full one loses an entry of its own choosing. -/
def State.tlbFill (s : State) (key size : Nat) (e : TlbEntry) : State :=
  let es := s.tlb.get key
  if es.contains e then s
  else { s with tlb := s.tlb.set key (e :: (if es.length < size then es else es.eraseIdx (Config.freeNat s.fresh (xn 0 key) % size))) }

/-- Keeps what a translation leaves behind: the touched dies, the leaf in the TLBs and the upper entries in the walk cache (R53). -/
def State.noteWalk (s : State) (pl ctx : Nat) (w : Walk) : State :=
  let s := s.touch ctx (w.touched ||| w.home)
  let d := placeDie pl
  let s := w.uppers.foldl (fun s e => s.tlbFill (walkCacheKey d) 1024 e) s
  match w.leaf with
  | some e => (if pl < 176 then s.tlbFill pl 256 e else s).tlbFill (l2Key d) 32768 e
  | none => s

/-! ### Reading (spec/08 R190–R204) -/

/-- The bytes an unperformed operation is to write. -/
def Work.pendingBytes : Work → List WByte
  | .store _ bs => bs
  | _ => []

def Work.isG : Work → Bool
  | .store g _ => g
  | _ => true

/-- A pending byte is read by its own warp, and by the whole die it was issued on where it belongs to an .E store that holds back for no
release and is not to system memory (R191, R197, R201). -/
def Op.visibleTo (o : Op) (warp : Option Nat) (die key : Nat) : Bool :=
  !o.performed && (some o.warp == warp || (o.die == die && !o.work.isG && !o.release && region (keyPa key) < 8))

/-- The last byte that some writes list for a key. -/
def lastByte (bs : List WByte) (key : Nat) : Option WByte := bs.foldl (fun r b => if b.key = key then some b else r) none

/-- The operation whose unperformed write of a byte an agent sees, and the byte (spec/05 R135, spec/08 R189): the latest that it sees; but
where the latest write of its own is seen by nobody else yet, that one, for the others may be performed before it (R195, R197). -/
def State.pendingAt (s : State) (warp : Option Nat) (die key : Nat) : Option (Op × WByte) :=
  let last := s.ops.foldl (fun r e => match e.2 with
    | some o => if o.visibleTo warp die key then ((lastByte o.work.pendingBytes key).map (fun b => (o, b))) <|> r else r
    | none => r) none
  let own := s.ops.foldl (fun r e => match e.2 with
    | some o => if some o.warp == warp && !o.performed then ((lastByte o.work.pendingBytes key).map (fun b => (o, b))) <|> r else r
    | none => r) none
  match own with
  | some x => if x.1.visibleTo none x.1.die key then last else own
  | none => last

def staleKey (die key : Nat) : Nat := 2 ^ 58 * die + key

/-- The stored bytes of a line that was last written under a key as another reads them (spec/02 R56), for bytes that are device memory's. -/
def rekeyed (bytes : List Byte) (written reading : KeySlot) (key : Nat) : List Byte :=
  let keyOf : KeySlot → Option (BitVec 512) := fun k => match k with | .xts v => some v | _ => none
  if 8 ≤ region (keyPa key) ∨ written = .empty ∨ written = reading then bytes
  else recode bytes (keyOf written) (keyOf reading) (keyPa key / 128)

/-- What a key slot of this device holds. A line of another device's memory is read and written under the slots of this one, too (DESIGN
CHOICE, log 102: R56 says only that KEY applies to domain memory). -/
def State.keyOf (s : State) (slot : BitVec 10) : KeySlot := s.hub.keys.get slot.toNat

/-- A byte at its home, read under a key slot (spec/02 R56): where its line was last written under another key, the stored bytes are
decrypted with the reading page's. A line that nothing has written reads as 0 under every key (spec/01 R36 of a reset die; DESIGN CHOICE, log 9,
of the first contents). -/
def State.decrypted (s : State) (key : Nat) (slot : BitVec 10) : Byte :=
  let written := s.lineKey.get (lineOf key)
  if 8 ≤ region (keyPa key) ∨ written = .empty ∨ written = s.keyOf slot then s.mem.get key
  else (rekeyed ((List.range 128).map (fun i => s.mem.get (128 * lineOf key + i))) written (s.keyOf slot) key).getD (key % 128) 0

/-- A byte of a pending write, read under a key slot: where the write goes through another key, its line as it will stand, decrypted. -/
def State.pendingByte (s : State) (warp : Option Nat) (die : Nat) (b : WByte) (slot : BitVec 10) : Byte :=
  if s.keyOf b.slot = s.keyOf slot then b.val
  else
    let line := (List.range 128).map (fun i =>
      let k := 128 * lineOf b.key + i
      match s.pendingAt warp die k with | some x => x.2.val | none => s.decrypted k b.slot)
    (rekeyed line (s.keyOf b.slot) (s.keyOf slot) b.key).getD (b.key % 128) 0

/-- The byte of a die's own copy of a line that is older than the home's, as an access through a key slot finds it: one under another key
fills the line anew (spec/02 R56), and a page that bypasses the caches never finds it (R54). -/
def State.staleAt (s : State) (die : Nat) (ca : BitVec 2) (key : Nat) (slot : BitVec 10) : Option Byte :=
  if ca = 2 then none
  else match s.stale.get (staleKey die key) with
    | some x => if x.key = .empty ∨ x.key = s.keyOf slot then some x.val else none
    | none => none

/-- One byte as an agent on a die (4 is the hub) reads it through a page of a cache attribute: a pending store it sees, a stale copy of its
die, or the home copy. -/
def State.readVia (s : State) (warp : Option Nat) (die : Nat) (ca : BitVec 2) (key : Nat) (slot : BitVec 10) : Byte :=
  match s.pendingAt warp die key with
  | some x => s.pendingByte warp die x.2 slot
  | none => (s.staleAt die ca key slot).getD (s.decrypted key slot)

/-- The same through a cached page. -/
def State.readByte (s : State) (warp : Option Nat) (die key : Nat) (slot : BitVec 10) : Byte := s.readVia warp die 0 key slot

def State.readBytes (s : State) (warp : Option Nat) (die key : Nat) (slot : BitVec 10) (n : Nat) : List Byte :=
  (List.range n).map (fun i => s.readByte warp die (key + i) slot)

/-- A line is poisoned (spec/07 R186). -/
def State.poisoned (s : State) (key : Nat) : Bool := s.poison.get (lineOf key) != 0

/-- A die's copy of a line is gone: it reads the home again. -/
def State.dropCopy (s : State) (die line : Nat) : State :=
  { s with
    copies := s.copies.modify line (· &&& ~~~ dieBit die),
    stale := s.stale.keep (fun k _ => !(k / 2 ^ 58 == die && lineOf (k % 2 ^ 58) == line)) }

/-- A remote line cache may evict a copy to make room, and tells the home; with its 16 MiB in use it must (spec/02 R54). -/
def State.evictCopy (s : State) (die : Nat) : State :=
  let held := s.copies.filterMap (fun e => if e.2 &&& dieBit die ≠ 0 then some e.1 else none)
  if held.isEmpty || (held.length < 131072 && !s.choice 320) then s
  else s.dropCopy die (held.getD (Config.freeNat s.fresh 321 % held.length) 0)

/-- Mordant holds the 64-byte line of a byte (spec/08 R206). -/
def State.hubOwns (s : State) (key : Nat) : Bool := (s.hub.hubOwned.get (sectorOf key)).isSome

/-- A die's copy of a line holds a byte that an access through another key does not find: the line is filled anew (R56). -/
def State.staleUnder (s : State) (die line : Nat) (slot : BitVec 10) : Bool :=
  s.stale.any (fun e => e.1 / 2 ^ 58 == die && lineOf (e.1 % 2 ^ 58) == line && (match e.2 with
    | some x => x.key != .empty && x.key != s.keyOf slot
    | none => false))

/-- A load by a core of die `d` fills its remote line cache (spec/02 R54), unless the page is uncached, the line is
hub-owned (spec/08 R206), or the memory is not this device's. -/
def State.fillCopy (s : State) (die key : Nat) (ca : BitVec 2) (slot : BitVec 10) : State :=
  match s.homeOfKey key with
  | some h =>
    let s := if ca ≠ 2 ∧ s.staleUnder die (lineOf key) slot then s.dropCopy die (lineOf key) else s
    if h = die ∨ ca = 2 ∨ s.hubOwns key ∨ s.copies.get (lineOf key) &&& dieBit die ≠ 0 then s
    else
      let s := s.evictCopy die
      { s with copies := s.copies.modify (lineOf key) (· ||| dieBit die) }
  | none => s

/-- A read of a byte leaves its die: another die is the home and the remote line cache holds no copy or is bypassed, or it is not this
device's memory. -/
def State.farFrom (s : State) (die key : Nat) (ca : BitVec 2) : Bool :=
  match s.homeOfKey key with
  | some h => h != die && (ca == 2 || s.copies.get (lineOf key) &&& dieBit die == 0)
  | none => true

/-- A read of a byte waits for a SILENT die. -/
def State.readSilent (s : State) (die key : Nat) (ca : BitVec 2) : Bool := s.farFrom die key ca && s.pathHeld die (s.homeOfKey key)

/-- The route to some byte of another device is gone for a partition: an access sent on it may never complete (spec/03 R61). -/
def State.routeLost (s : State) (p : Nat) (keys : List Nat) : Bool :=
  keys.any (fun k => region (keyPa k) == 2 && !s.routed p (keyPa k / 2 ^ 40 % 256))
def State.unanswered (s : State) (p : Nat) (keys : List Nat) : Bool := s.routeLost p keys && s.choice 330

/-! ### Performing writes -/

/-- The other dies that hold a copy of a line: none of a hub-owned one (spec/08 R206). -/
def State.copyDies (s : State) (key die : Nat) : BitVec 4 :=
  if s.hubOwns key then 0
  else s.copies.get (lineOf key) &&& ~~~ dieBit die &&& ~~~ (match s.homeOfKey key with | some h => dieBit h | none => 0)

/-- A line written under another key slot is first decrypted under that slot (spec/02 R56). -/
def State.rekey (s : State) (key : Nat) (slot : BitVec 10) : State :=
  let k := s.keyOf slot
  let line := lineOf key
  if 8 ≤ region (keyPa key) ∨ s.lineKey.get line = k then s
  else
    let bytes := (List.range 128).map (fun i => s.decrypted (128 * line + i) slot)
    { s with mem := s.mem.setFrom (128 * line) bytes, lineKey := s.lineKey.set line k }

/-- The home copy of a byte is written; a byte of a poisoned line is overwritten (spec/07 R186). A write that no release sequence holds ends
the one that was there (spec/08 R193). -/
def State.putByte (s : State) (b : WByte) : State :=
  let s := s.rekey b.key b.slot
  { s with
    mem := s.mem.set b.key b.val, lineSlot := s.lineSlot.set (lineOf b.key) b.slot, sync := s.sync.set b.key [],
    poison := if s.poison.get (lineOf b.key) = 0 then s.poison
      else s.poison.modify (lineOf b.key) (fun m => m &&& ~~~((1 : BitVec 128) <<< (b.key % 128))) }

/-- The stale copies that other dies keep of a byte until they acknowledge the invalidation (R201). -/
def State.keepStale (s : State) (key : Nat) (dies : BitVec 4) : State :=
  (setBits dies).foldl (fun s d =>
    match s.stale.get (staleKey d key) with
    | some _ => s
    | none => { s with stale := s.stale.set (staleKey d key) (some ⟨s.mem.get key, s.lineKey.get (lineOf key)⟩) }) s

/-- Where the caches of a core keep a line that was read through a key slot. -/
def slotKey (line : Nat) (slot : BitVec 10) : Nat := 1024 * line + slot.toNat

/-- A core's L1 holds no copy of another device's line any more (spec/08 R217), on some dies. -/
def State.dropL1 (s : State) (dies : BitVec 4) (line : Nat) : State :=
  if region (keyPa (128 * line)) = 2 then
    { s with cores := s.cores.mapVals (fun c x =>
        if dies &&& dieBit (c / 44) ≠ 0 then { x with l1 := x.l1.keep (fun k _ => k / 1024 != line) } else x) }
  else s

/-- The storing die reads its own store, and no older copy of the byte, from now on (R197, R201). -/
def State.freshen (s : State) (die : Nat) (key : Nat) : State :=
  ({ s with stale := s.stale.set (staleKey die key) none } : State).dropL1 (dieBit die) (lineOf key)

/-- A .E byte is performed at its home: other dies keep their old copies for now, the storing die none. -/
def State.performE (s : State) (die : Nat) (bs : List WByte) : State :=
  bs.foldl (fun s b => ((s.keepStale b.key (s.copyDies b.key die)).freshen die b.key).putByte b) s

/-- A byte performed as .G becomes visible everywhere at once: no die keeps a copy of its line. -/
def State.performG (s : State) (bs : List WByte) : State :=
  bs.foldl (fun s b => (([0, 1, 2, 3].foldl (fun s d => s.dropCopy d (lineOf b.key)) s).dropL1 15 (lineOf b.key)).putByte b) s

/-- The dies that keep a copy of a line of some bytes, with their homes: those a write performed as .G waits for (R201). -/
def State.ackDies (s : State) (die : Nat) (keys : List Nat) : BitVec 4 :=
  keys.foldl (fun m k => m ||| s.copyDies k die ||| (match s.homeOfKey k with | some h => dieBit h | none => 0)) 0

/-- The SILENT dies, but for one whose own requests do not leave it. -/
def State.silentBut (s : State) (die : Nat) : BitVec 4 :=
  [0, 1, 2, 3].foldl (fun m d => if d != die && (s.die d).state == .silent then m ||| dieBit d else m) 0

/-- A write performed as .G waits for a SILENT die: a home of its bytes, one that holds a copy of them, or its own (spec/01 R31). -/
def State.ackSilent (s : State) (die : Nat) (keys : List Nat) : Bool :=
  s.ackDies die keys &&& s.silentBut die != 0 || keys.any (fun k => s.pathHeld die (s.homeOfKey k))

/-- Bytes at consecutive keys. -/
def wbytes (key : Nat) (slot : BitVec 10) : List Byte → List WByte
  | [] => []
  | b :: bs => { key := key, val := b, slot := slot } :: wbytes (key + 1) slot bs

/-- Two operations write, or one writes and the other accesses, a common byte. -/
def Work.writeKeys : Work → List Nat
  | .store _ bs => bs.map (·.key)
  | .atomic accs _ => accs.flatMap (fun a => (List.range a.size).map (a.key + ·))
  | _ => []

def Work.overlaps (a b : Work) : Bool := a.writeKeys.any (fun k => b.writeKeys.contains k)

/-- An operation's place in the coherence order of its bytes has come (R195, R199): no earlier operation of its own warp that writes one of
them is still unperformed, nor an earlier store that its whole die sees already. -/
def State.coReady (s : State) (n : Nat) (o : Op) : Bool :=
  s.ops.all (fun e => match e.2 with
    | some e2 => decide (n ≤ e.1) || e2.performed || !e2.work.overlaps o.work || !e2.visibleTo (some o.warp) o.die 0
    | none => true)

/-! ### Ranges: pieces within a 128-byte line -/

/-- A virtual range as pieces (address, length), none crossing a line. -/
def pieces : Nat → BitVec 64 → Nat → List (BitVec 64 × Nat)
  | 0, _, _ => []
  | fuel + 1, va, n =>
    if n = 0 then []
    else
      let k := min n (128 - va.toNat % 128)
      (va, k) :: pieces fuel (va + BitVec.ofNat 64 k) (n - k)

def rangePieces (va : BitVec 64) (n : Nat) : List (BitVec 64 × Nat) := pieces (n / 128 + 2) va n

/-! ### The scratchpad window (spec/06 R139) -/

def windowBase : Nat := 0xFFFFFF0000000000
def inWindow (va : BitVec 64) : Bool := windowBase ≤ va.toNat && va.toNat < windowBase + 2 ^ 24
def windowOff (va : BitVec 64) : Nat := va.toNat - windowBase
/-- A range of the window is within the vat's SCR KiB. -/
def Vat.inScratch (v : Vat) (off n : Nat) : Bool := off + n ≤ v.scr * 1024

/-! ### An agent's reads and writes of virtual ranges -/

/-- A read or write that failed, or that waits: for a SILENT die (spec/01 R31), or for a device that no longer answers (spec/03 R61). -/
inductive Miss where
  | fault (code : BitVec 8) (cause : BitVec 4) (va : BitVec 64)
  | lost (die : Nat) (va : BitVec 64)
  | poison (va : BitVec 64)
  | held
  deriving DecidableEq, Repr, Inhabited

/-- How the reads of a range see the outstanding stores of a warp: as that warp does, or no warp; or loosely, each byte of such a store read
old or new by a free choice (spec/14 R336, spec/15 R361). -/
inductive Reader where
  | exact (warp : Option Nat)
  | loose (warp : Nat)
  deriving DecidableEq, Repr, Inhabited

/-- The warp as which a byte is read. -/
def Reader.warp (x : Reader) (s : State) (key : Nat) : Option Nat :=
  match x with
  | .exact w => w
  | .loose w => if s.choice (2 ^ 64 + key) then some w else none

/-- Reads a virtual range of a context at a place, piece by piece, from memory or, for an agent of a vat, its window; the first piece
that fails ends it. -/
def State.readPieces (s : State) (pl ctx : Nat) (vat : Option Nat) (x : Reader) (n : Nat) :
    List (BitVec 64 × Nat) → List Byte → State × Except Miss (List Byte)
  | [], acc => (s, .ok acc)
  | (va, k) :: rest, acc =>
    if vat.isSome && inWindow va then
      let v := s.vat (vat.getD 0)
      if v.inScratch (windowOff va) k then
        s.readPieces pl ctx vat x n rest (acc ++ v.scratch.getFrom (windowOff va) k)
      else (s, .error (.fault pageFault 5 va))
    else
      let w := s.translate pl ctx va .read n
      let s := s.noteWalk pl ctx w
      match w.res with
      | .ok pa slot ca =>
        let p := (s.ctx ctx).part
        let key := s.memKey p pa
        if s.readSilent (placeDie pl) key ca || s.unanswered p [key] then (s, .error .held)
        else if s.poisoned key then (s, .error (.poison va))
        else
          let bs := (List.range k).map (fun i => s.readVia (x.warp s (key + i)) (placeDie pl) ca (key + i) slot)
          (s.fillCopy (placeDie pl) key ca slot).readPieces pl ctx vat x (n + 8) rest (acc ++ bs)
      | .fault c cause => (s, .error (.fault c cause va))
      | .lost d => (s, .error (.lost d va))
      | .held => (s, .error .held)

/-- Translates the pieces of a range for writing. -/
def State.writePieces (s : State) (pl ctx n : Nat) :
    List (BitVec 64 × Nat) → List (Nat × BitVec 10 × Nat) → State × Except Miss (List (Nat × BitVec 10 × Nat))
  | [], acc => (s, .ok acc)
  | (va, k) :: rest, acc =>
    let w := s.translate pl ctx va .write n
    let s := s.noteWalk pl ctx w
    match w.res with
    | .ok pa slot _ => s.writePieces pl ctx (n + 8) rest (acc ++ [(s.memKey (s.ctx ctx).part pa, slot, k)])
    | .fault c cause => (s, .error (.fault c cause va))
    | .lost d => (s, .error (.lost d va))
    | .held => (s, .error .held)

/-- Lays bytes out over translated pieces. -/
def layBytes : List (Nat × BitVec 10 × Nat) → List Byte → List WByte
  | [], _ => []
  | (key, slot, k) :: rest, bs => wbytes key slot (bs.take k) ++ layBytes rest (bs.drop k)

/-- The hub, as the place of an agent that is on no compute die (spec/00 R4, spec/08 R188). -/
def hubDie : Nat := 4

/-- A read of a range by firmware or the task engine. -/
def State.agentRead (s : State) (ctx die : Nat) (va : BitVec 64) (n k : Nat) : State × Except Miss (List Byte) :=
  s.readPieces (agentPlace die) ctx none (.exact none) k (rangePieces va n) []

/-- A write of a range at a place, performed as .G (R191), or held. -/
def State.placeWrite (s : State) (pl ctx : Nat) (va : BitVec 64) (bs : List Byte) (k : Nat) : State × Option Miss :=
  let r := s.writePieces pl ctx k (rangePieces va bs.length) []
  match r.2 with
  | .ok ps =>
    let ws := layBytes ps bs
    let keys := ws.map (·.key)
    if s.ackSilent (placeDie pl) keys || s.unanswered (s.ctx ctx).part keys then (r.1, some .held) else (r.1.performG ws, none)
  | .error m => (r.1, some m)

/-- A write of a context is held. -/
def State.postedBehind (s : State) (ctx : Nat) : Bool := s.posted.any (fun p => match p with | .range _ c _ _ => c == ctx | _ => false)

/-- A write of a range by firmware, a launch processor or the task engine: one that a SILENT die holds up is sent, and performed later, behind
those of its context that are held already (spec/01 R31). -/
def State.agentWrite (s : State) (ctx : Nat) (va : BitVec 64) (bs : List Byte) (k : Nat) (pl : Nat := hubPlace) : State × Option Miss :=
  let r := s.placeWrite pl ctx va bs k
  match r.2, s.postedBehind ctx with
  | some .held, _ => ({ r.1 with posted := s.posted ++ [.range pl ctx va bs] }, none)
  | none, true => ({ s with posted := s.posted ++ [.range pl ctx va bs] }, none)
  | m, _ => (r.1, m)

/-- Writes of bytes of memory, or accesses from outside, are held. -/
def State.bytesHeld (s : State) : Bool := s.posted.any (fun p => match p with | .bytes _ => true | .access _ _ _ => true | _ => false)

/-- The same of bytes of memory. -/
def State.hubWrite (s : State) (bs : List WByte) : State :=
  if s.bytesHeld || s.ackSilent hubDie (bs.map (·.key)) then
    { s with posted := s.posted ++ [.bytes bs] }
  else s.performG bs

/-! ### Releases (spec/08 R194, R201, R210)

Scopes number from 0 (.W) to 5 (.SYS) (spec/14 R328). -/

/-- An operation of the releasing warp does not hold back a release of a scope: a load, whose value is fixed; an atomic of wider scope;
within its die an .E store that the die sees; else a store that is performed, for package scope with every acknowledgement beyond it. -/
def Op.releasedAt (o : Op) (scope : Nat) : Bool :=
  match o.work with
  | .store _ bs =>
    scope == 0
      || (if scope < 3 then o.performed || bs.all (fun b => o.visibleTo none o.die b.key) else o.performed && (o.owed == 0 || o.ackLost))
  | .histl _ _ => o.complete || scope == 0
  | .atomic _ _ => o.complete || scope == 0 || decide (scope < o.scope.toNat)
  | _ => true

/-- Bytes of a size code (spec/14 R328). -/
def szBytes (sz : BitVec 4) : Nat :=
  match sz.toNat with
  | 0 | 1 => 1
  | 2 | 3 => 2
  | 4 => 4
  | 5 => 8
  | _ => 16

/-- The keys that a load touches. -/
def LoadAcc.keys (a : LoadAcc) : List Nat := (List.range (szBytes a.sz)).map (a.key + ·)

/-- What is sent from a die to the home of some byte is held for a SILENT die (spec/01 R31, R394). -/
def State.homeSilent (s : State) (die : Nat) (keys : List Nat) : Bool := keys.any (fun k => s.pathHeld die (s.homeOfKey k))

/-- An access of a load is held. -/
def State.loadHeld (s : State) (die : Nat) (a : LoadAcc) : Bool := a.far && s.homeSilent die a.keys

/-- A load that reads when it completes has an access that is held. -/
def State.loadSilent (s : State) (o : Op) : Bool :=
  match o.work with
  | .load _ accs _ _ => o.late && accs.any (s.loadHeld o.die)
  | _ => false

/-- An .E store whose acknowledgements are not all in. -/
def Op.owing (o : Op) : Bool :=
  match o.work with
  | .store false _ => !o.performed || (o.owed != 0 && !o.ackLost)
  | _ => false

/-! What a synchronisation carries (R193, R194): a warp's release passes on the .E stores that happened before it and are not acknowledged
everywhere yet; an acquire that reads it takes them up, and a later release of package scope or wider waits for them. A release of package
scope has waited for all of its own, so what is carried comes from narrower ones. -/

/-- Of some stores those not acknowledged yet. -/
def State.still (s : State) (ns : List Nat) : List Nat :=
  (ns.filter (fun n => match s.op n with | some o => o.owing | none => false)).eraseDups

/-- The stores that happened before the next event of a warp. -/
def State.priorStores (s : State) (k : Nat) : List Nat :=
  s.still (s.ops.filterMap (fun e => match e.2 with | some o => if o.warp = k then some e.1 else none | none => none) ++ (s.warp k).reached)

/-- What a release or FENCE of a scope by a warp gives; a release store is itself among it. -/
def State.carry (s : State) (k scope : Nat) (own : List Nat) : List Carry :=
  let ns := s.priorStores k ++ own
  if ns.isEmpty then [] else [⟨k, s.dieOf k, scope, ns⟩]

/-- What is still to be carried. -/
def State.live (s : State) (cs : List Carry) : List Carry :=
  ((cs.map (fun c => { c with ops := s.still c.ops })).filter (fun c => !c.ops.isEmpty)).eraseDups

/-- Each agent lies in the other's scope instance (R193, R189). -/
def Carry.meets (c : Carry) (k die scope : Nat) : Bool :=
  let within (sc : Nat) : Bool :=
    if sc = 0 then c.warp == k else if sc = 1 then c.warp / 32 == k / 32 else if sc = 2 then c.die == die else true
  within scope && within c.scope

/-- Stores reach a warp. -/
def State.reach (s : State) (k : Nat) (ns : List Nat) : State :=
  if ns.isEmpty then s else s.modWarp k (fun w => { w with reached := s.still (w.reached ++ ns) })

/-- What carries are worth to an acquire of a scope by a warp. -/
def State.taken (s : State) (k scope : Nat) (cs : List Carry) : List Nat :=
  s.still ((cs.filter (fun c => c.meets k (s.dieOf k) scope)).flatMap (fun c => c.ops))

/-- A warp has read writes that carry something: an acquire of a scope takes it up at once, another read at the next FENCE. -/
def State.hear (s : State) (k : Nat) (acquire : Option Nat) (cs : List Carry) : State :=
  if cs.isEmpty || !(s.warp k).resident then s
  else
    let t := match acquire with
      | some sc => s.reach k (s.taken k sc cs)
      | none => s
    t.modWarp k (fun w => { w with heard := s.live (w.heard ++ cs) })

/-- The reads of a warp behind an acquire within its vat (R106, R146, R211). -/
def State.takeOver (s : State) (k : Nat) : State := s.reach k (s.vat (s.warp k).vat).carried

/-- What the write that holds a byte carries. -/
def State.noteSync (s : State) (keys : List Nat) (cs : List Carry) : State :=
  if cs.isEmpty then s else { s with sync := keys.foldl (fun m k => m.set k cs) s.sync }

/-- A release of a scope by a warp, issued as operation `n` or now, may be performed: every earlier access of the warp is visible in the
scope, and beyond the die so is every store that has reached the warp (R194). A load that waits for a SILENT die has not been made. -/
def State.releaseReady (s : State) (warp scope n : Nat) : Bool :=
  s.ops.all (fun e => match e.2 with
    | some o => decide (n ≤ e.1) || o.warp != warp || (o.releasedAt scope && (scope == 0 || !s.loadSilent o))
    | none => true) && (decide (scope < 3) || (s.still (s.warp warp).reached).isEmpty)

/-- The warp's outstanding accesses are followed by a release of a scope: its loads have read. One of vat scope covers its stores and those
that have reached it for a later promotion (R208), and hands them over to its vat. -/
def State.noteRelease (s : State) (warp scope : Nat) : State :=
  let ns := s.priorStores warp
  let s := { s with ops := s.ops.mapVals (fun n e => e.map (fun o =>
      if o.warp = warp then { o with released := o.released || scope == 1, late := o.late && o.cls == .mx }
      else if scope == 1 && ns.contains n then { o with released := true } else o)) }
  if scope ≠ 1 ∨ ns.isEmpty then s
  else s.modVat (s.warp warp).vat (fun v => { v with carried := s.still (v.carried ++ ns) })

/-- A FENCE of a scope takes up what the warp's reads and the FENCEs before it carry (R193 cases 2 and 3). -/
def State.takeFence (s : State) (k scope : Nat) : State := s.reach k (s.taken k scope ((s.warp k).heard ++ s.fences))

/-- A FENCE gives what it carries to the warp's later stores and to later FENCEs. -/
def State.giveFence (s : State) (k scope : Nat) : State :=
  let c := s.carry k scope []
  if c.isEmpty then s
  else ({ s with fences := s.live (s.fences ++ c) } : State).modWarp k (fun w => { w with fenced := s.live (w.fenced ++ c) })

/-! ### Code text (spec/10 R240, spec/11 R250) -/

/-- The virtual address of a code offset. -/
def State.codeVa (s : State) (warp : Nat) (off : Word) : BitVec 64 :=
  (s.lot (s.vat (s.warp warp).vat).lot).record.codeva + off.setWidth 64

/-- The instruction line that holds a byte as a core fetches it (spec/10 R246): as its instruction cache holds it, which may be old, or as
memory has it, unless that waits for a SILENT die. -/
def State.codeLine (s : State) (core key : Nat) (slot : BitVec 10) (ca : BitVec 2) : List Byte :=
  let die := dieOfCore core
  let now := (List.range 128).map (fun i => s.readVia none die ca (128 * lineOf key + i) slot)
  let held := (s.core core).icache.get (slotKey (lineOf key) slot)
  if held = [] ∨ held = now then now
  else if s.readSilent die key ca || s.choice 14 then held else now

/-- The word of a line that holds a byte. -/
def lineWord (line : List Byte) (key : Nat) : Word := BitVec.ofNat 32 (bytesToNat ((line.drop (key % 128)).take 4))

/-- The word at a code offset as the warp's core fetches it, without leaving a trace or waiting. -/
def State.peek (s : State) (warp : Nat) (off : Word) : Xlat × Word :=
  let va := s.codeVa warp off
  let ctx := s.ctxOf warp
  let core := (s.warp warp).core
  if inWindow va then (xfault 7, 0)
  else
    let w := s.translate core ctx va .exec 16 (waits := false)
    match w.res with
    | .ok pa slot ca =>
      let key := s.memKey (s.ctx ctx).part pa
      (w.res, lineWord (s.codeLine core key slot ca) key)
    | r => (r, 0)

/-- The tag of a decoded word (spec/10 R246): the context, the code object's version and the VA of its clause header, and beside them its
place in the clause. -/
def decodedKey (ctx : Nat) (c : CodeHeader) (hdrVa : BitVec 64) (idx : Nat) : Nat :=
  ((ctx * 2 ^ 16 + c.vmaj.toNat * 2 ^ 8 + c.vmin.toNat) * 2 ^ 64 + hdrVa.toNat) * 16 + idx
def decodedCtx (k : Nat) : Nat := k / 2 ^ 84
def decodedVa (k : Nat) : Nat := k / 16 % 2 ^ 64

/-- An entry taken into a cache of `size` entries; a full one loses an entry of its own choosing. -/
def cacheFill {α : Type} [Inhabited α] [DecidableEq α] (m : Map α) (key size free : Nat) (v : α) : Map α :=
  if m.length < size ∨ m.get key ≠ default then m.set key v
  else (m.erase ((m.map (·.1)).getD (free % size) 0)).set key v

/-- A fetch of a word of the clause at `hdr` (spec/10 R246): the translation's traces stay, and the line and the word in their caches, which
hold 512 lines and 8,192 words. The decoded-op cache may still hold another word, which may then issue instead (spec/08 R216). -/
def State.fetch (s : State) (warp : Nat) (off : Word) (hdr : Word := off) : State × Xlat × Word :=
  let va := s.codeVa warp off
  let ctx := s.ctxOf warp
  let core := (s.warp warp).core
  if inWindow va then (s, xfault 7, 0)
  else
    let w := s.translate core ctx va .exec 16
    let s := s.noteWalk core ctx w
    match w.res with
    | .ok pa slot ca =>
      let key := s.memKey (s.ctx ctx).part pa
      let lk := slotKey (lineOf key) slot
      let line := s.codeLine core key slot ca
      let word := lineWord line key
      let ck := decodedKey ctx (s.lot (s.vat (s.warp warp).vat).lot).code (s.codeVa warp hdr) ((off.toNat - hdr.toNat) / 4)
      let silent := s.readSilent (dieOfCore core) key ca && (s.core core).icache.get lk == []
      let decoded := (s.core core).decoded.get ck
      if silent && decoded.isNone then (s, .held, 0)
      else
        let used := match decoded with
          | some old => if old = word then word else if silent || s.choice 15 then old else word
          | none => word
        let s := if silent then s else s.fillCopy (dieOfCore core) key ca slot
        if s.poisoned key && !silent then (s, .fault eccUncorr 0, 0)
        else
          (s.modCore core (fun c => { c with
            icache := if silent then c.icache else cacheFill c.icache lk 512 (Config.freeNat s.fresh 322) line,
            decoded := cacheFill c.decoded ck 8192 (Config.freeNat s.fresh 323) (some used) }), w.res, used)
    | r => (s, r, 0)

/-- The code object's header of a warp. -/
def State.code (s : State) (warp : Nat) : CodeHeader := (s.lot (s.vat (s.warp warp).vat).lot).code

/-- A code offset lies in the text. -/
def CodeHeader.inText (c : CodeHeader) (off : Word) : Bool := c.textoff ≤ off.toNat && off.toNat < c.textoff + c.textlen

/-- The first clause header of the 64-byte line that holds an offset (R250). -/
def CodeHeader.lineHead (c : CodeHeader) (off : Word) : Nat := max (off.toNat / 64 * 64) c.textoff

/-- Reads the headers of a line from `pos` on until `off` is reached or passed: the header of the clause that `off` lies
in, if any. -/
def State.scanLine (s : State) (warp : Nat) (off : Nat) : Nat → Nat → Nat
  | 0, pos => pos
  | fuel + 1, pos =>
    let next := pos + 4 * (hdrN (s.peek warp (BitVec.ofNat 32 pos)).2 + 1)
    if off < next then pos else s.scanLine warp off fuel next

/-- The header of the clause in which a code offset lies. -/
def State.headerOf (s : State) (warp : Nat) (off : Word) : Word :=
  BitVec.ofNat 32 (s.scanLine warp off.toNat 16 ((s.code warp).lineHead off))

/-- A code offset names a clause header (R250). Bits [1:0] of a code offset are 0. -/
def State.isHeader (s : State) (warp : Nat) (off : Word) : Bool :=
  (s.code warp).inText off && off.toNat % 4 == 0 && s.headerOf warp off == off

/-- The clause in which a code offset lies, standing at it. -/
def State.locate (s : State) (warp : Nat) (off : Word) (issue enabled : Lanes) : Clause :=
  let hdr := s.headerOf warp off
  { hdr := hdr, word := (s.peek warp hdr).2, idx := (off.toNat - hdr.toNat) / 4, issue := issue, enabled := enabled,
    rep := none }

/-- The length in words of the instruction in turn: a clause not yet begun is passed over whole. -/
def State.wordLen (s : State) (warp : Nat) (c : Clause) : Nat :=
  if c.idx = 0 then hdrN c.word + 1
  else
    let w := (s.peek warp c.pc).2
    if slotLong (w.extractLsb' 21 9).toNat then 2 else 1

end Sys2Proof.Machine
end

