-- ==== Sys2Proof/Machine/Fault.lean ====
section
/-! DEFINITION. The escalation ladder (spec/07): fault records, the warp, vat and context rungs, the stop of a vat, the save
area's header and fault queue. Trap entry itself is `Warp.enterTrap` of Machine/Ops.lean. -/

namespace Sys2Proof.Machine

/-! ### Fault codes (spec/07 R166 Table 2) -/

def fIllegalOpcode : BitVec 8 := 0x01
def fIllegalClause : BitVec 8 := 0x02
def fIllegalOperand : BitVec 8 := 0x03
def fIllegalTarget : BitVec 8 := 0x04
def fIllegalRole : BitVec 8 := 0x05
def fRegBounds : BitVec 8 := 0x06
def fStallShort : BitVec 8 := 0x07
def fAlign : BitVec 8 := 0x0A
def fEcc : BitVec 8 := eccUncorr
def fSlotState : BitVec 8 := 0x0C
def fStageOrder : BitVec 8 := 0x0D
def fTlrInvalid : BitVec 8 := 0x0E
def fLakeFault : BitVec 8 := 0x0F
def fBarrierTimeout : BitVec 8 := 0x10
def fServiceTimeout : BitVec 8 := 0x11
def fOvfStall : BitVec 8 := 0x12
def fAckLoss : BitVec 8 := 0x13
def fDieLost : BitVec 8 := 0x14
def fFeatureAbsent : BitVec 8 := 0x15
def fBkpt : BitVec 8 := 0xFF

/-- What a fault is, apart from where the warp stands. -/
structure Raise where
  code : BitVec 8
  flm : Lanes
  fpc : Word
  info : Word := 0
  fva : BitVec 64 := 0
  cause : BitVec 4 := 0
  dies : BitVec 4 := 0
  rest : Lanes := 0
  claim : Nat := 0
  deriving DecidableEq, Repr, Inhabited

/-- A failed access as the fault it raises. One that waits for a SILENT die raises none. -/
def Miss.toRaise (m : Miss) (flm : Lanes) (fpc : Word) : Raise :=
  match m with
  | .fault c cause va => { code := c, flm := flm, fpc := fpc, fva := va, cause := cause }
  | .lost d va => { code := fDieLost, flm := flm, fpc := fpc, fva := va, dies := dieBit d }
  | .poison va => { code := fEcc, flm := flm, fpc := fpc, fva := va }
  | .held => { code := 0, flm := flm, fpc := fpc }

/-- The record of a fault of a warp (R168). REPLAY is set for translation faults with a lane to replay. -/
def State.record (s : State) (k : Nat) (r : Raise) : FaultRecord :=
  let w := s.warp k
  let v := s.vat w.vat
  { code := r.code, cause := r.cause, rung := 0, replay := (r.code == pageFault || r.code == permFault) && r.flm != 0,
    code2 := 0, dies := r.dies, flm := r.flm, fpc := r.fpc, warp := BitVec.ofNat 6 w.num, hdep := w.hdep, sgq := w.sgact,
    fva := r.fva, vatnum := v.vatnum, info := r.info, gtime := BitVec.ofNat 64 s.gtime,
    lottag := (s.lot v.lot).record.lottag, seq := 0, origin := 0, claim := r.claim, rest := r.rest }

/-- The sixteen words of a record. -/
def FaultRecord.words (f : FaultRecord) : List Word :=
  [ f.code.setWidth 32 ||| f.cause.setWidth 32 <<< 8 ||| f.rung.setWidth 32 <<< 12
      ||| (if f.replay then 1 <<< 15 else 0) ||| f.code2.setWidth 32 <<< 16 ||| f.dies.setWidth 32 <<< 24,
    f.flm, f.fpc,
    f.warp.setWidth 32 ||| BitVec.ofNat 32 ((lowest f.flm).getD 0) <<< 6 ||| f.hdep.setWidth 32 <<< 11
      ||| (if f.sgq then 1 <<< 13 else 0),
    f.fva.setWidth 32, (f.fva >>> 32).setWidth 32, f.vatnum, f.info,
    f.gtime.setWidth 32, (f.gtime >>> 32).setWidth 32, f.lottag, f.seq.setWidth 32, 0, 0, 0, 0 ]

def wordBytes (w : Word) : List Byte := natToBytes 4 w.toNat
def FaultRecord.bytes (f : FaultRecord) : List Byte := f.words.flatMap wordBytes

/-- Same fault, whatever rung holds it; a timeout passes it on as SERVICE_TIMEOUT (R164). -/
def FaultRecord.same (a b : FaultRecord) : Bool :=
  a.fpc == b.fpc && a.warp == b.warp && a.vatnum == b.vatnum && a.gtime == b.gtime

/-- A lot keeps the first fault raised in it and the rung that last held it (spec/03 R67). -/
def State.noteFirst (s : State) (lot : Nat) (fr : FaultRecord) : State :=
  s.modLot lot (fun l => match l.first with
    | none => { l with first := some fr, firstPc := if fr.fpc == 0 then 0 else l.record.codeva + fr.fpc.setWidth 64 }
    | some f => if f.same fr then { l with first := some { f with rung := fr.rung } } else l)

/-! ### The save area's header (R177) -/

def State.saveVa (s : State) (ctx : Nat) : BitVec 64 := (s.ctx ctx).saveVa

/-- TDMASK and the overflow indices are written into the header (R177). -/
def State.saveHeader (s : State) (ctx : Nat) : State × Option Miss :=
  let c := s.ctx ctx
  let ovf := (List.range 8).flatMap (fun i => wordBytes (c.ovf.get i))
  let r := s.agentWrite ctx (c.saveVa + 0x40) (wordBytes (c.tdmask.setWidth 32)) 100
  match r.2 with
  | some m => (r.1, some m)
  | none => r.1.agentWrite ctx (c.saveVa + 0x80) ovf 110

/-- A number in the save area, read by the firmware: a use of the dies the read reaches (spec/01 R33 Table 8). -/
def State.saveNat (s : State) (ctx off n : Nat) : State × Except Miss Nat :=
  let r := s.agentRead ctx hubDie (s.saveVa ctx + BitVec.ofNat 64 off) n 120
  (r.1, match r.2 with | .ok bs => .ok (bytesToNat bs) | .error m => .error m)

/-- The fault queue has room for a record (R175). Where FQRI cannot be read nothing holds the firmware back, and its write of the
record finds the fault; while the read waits for a SILENT die the firmware waits. -/
def State.fqRoom (s : State) (ctx : Nat) : Bool :=
  match (s.saveNat ctx 0x10 2).2 with
  | .ok ri => (((s.ctx ctx).fqwi - BitVec.ofNat 16 ri).toNat < 32)
  | .error .held => false
  | .error _ => true

/-- The firmware has read FQRI (spec/01 R33). -/
def State.fqRead (s : State) (ctx : Nat) : State := (s.saveNat ctx 0x10 2).1

/-- Signals an MSI-X vector of a partition's function (spec/03 R58). -/
def State.signal (s : State) (part vector : Nat) : State :=
  s.modHub (fun h => { h with irqs := h.irqs ++ [(part, vector)] })

/-- The same, behind the writes of a context that a SILENT die holds up. -/
def State.signalBehind (s : State) (ctx part vector : Nat) : State :=
  if s.postedBehind ctx then { s with posted := s.posted ++ [.irq ctx part vector] } else s.signal part vector

/-- The record itself, at entry SEQ mod 32, and FQWI behind it (R175). -/
def State.writeRecord (s : State) (ctx : Nat) (fr : FaultRecord) : State × Option Miss :=
  let seq := (s.ctx ctx).fqwi
  let r := s.agentWrite ctx (s.saveVa ctx + 0x1000 + BitVec.ofNat 64 (64 * (seq.toNat % 32))) ({ fr with seq := seq }).bytes 130
  match r.2 with
  | some m => (r.1, some m)
  | none =>
    let r := r.1.agentWrite ctx (s.saveVa ctx + 0xC) (wordBytes ((seq + 1).setWidth 32)) 140
    match r.2 with
    | some m => (r.1, some m)
    | none => (r.1.modCtx ctx (fun c => { c with fqwi := seq + 1 }), none)

/-- Writes the save area's header and a record, and signals FQIRQ (R174, R175). A read or write of the area that fails is answered with
its miss (R177). -/
def State.queueRecord (s : State) (ctx : Nat) (fr : FaultRecord) : State × Option Miss :=
  let ri := s.saveNat ctx 0x10 2
  let irq := ri.1.saveNat ctx 8 4
  match ri.2, irq.2 with
  | .error m, _ => (ri.1, some m)
  | .ok _, .error m => (irq.1, some m)
  | .ok _, .ok v =>
    let h := irq.1.saveHeader ctx
    match h.2 with
    | some m => (h.1, some m)
    | none =>
      let r := h.1.writeRecord ctx fr
      match r.2 with
      | some m => (r.1, some m)
      | none => (r.1.signalBehind ctx (s.ctx ctx).part (v % 2 ^ 11), none)

/-! ### Stopping vats (R395) -/

/-- The range of a vat's image is free again (R177). -/
def State.freeImage (s : State) (vk : Nat) : State :=
  let v := s.vat vk
  match v.image with
  | some (off, _) =>
    (s.modCtx (s.lot v.lot).ctx (fun c => { c with saveUsed := c.saveUsed.filter (fun u => u.1 != off) })).setVat vk { v with image := none }
  | none => s

/-- A vat ends (spec/03 R69, spec/04 R86): its warps' sticky flags count in its lot's exception summary. TEND is the end of the last vat that
leaves a core or whose image is discarded, and stays 0 in a lot of which no vat ran (DESIGN CHOICE, log 95). -/
def State.endVat (s : State) (vk : Nat) : State :=
  let v := s.vat vk
  let flags := (warpKeys vk v).foldl (fun f k => f ||| (s.warp k).fstat.setWidth 5) 0
  let s := s.modLot v.lot (fun l => { l with exc := l.exc ||| flags, tend := s.gtime })
  let s := (s.freeImage vk).modVat vk (fun v => { v with place := .gone })
  (warpKeys vk v).foldl (fun s k => s.modWarp k (fun w => { w with resident := false, hold := .free })) s

/-- A vat begins to stop, with its warps that stand at a safe point stopped at once; a vat that is SAVED has its image
discarded and counts as left. -/
def State.stopVat (s : State) (vk : Nat) (discard : Bool) : State :=
  let v := s.vat vk
  let s := s.setVat vk { v with stop := some (v.stop.getD s.gtime), discard := v.discard || discard }
  let s := if v.place = .saved then s.endVat vk else s
  (warpKeys vk v).foldl (fun s k => s.modWarp k (fun w =>
    let safe := (w.evict != .running && w.evict != .requested && !w.saveRestore) || w.phase == .boundary || w.phase == .header || w.wpark || w.vatTrapStop || w.serviceWait || w.faultWait
      || (match w.hold with | .parked _ => true | _ => false)
    if safe then { w with stopped := true } else w)) s

/-- The vats of a context that are not gone, in launch-sequence order. -/
def State.vatsOf (s : State) (ctx : Nat) : List Nat :=
  s.vats.filterMap (fun e => match e.2 with
    | some v => if (s.lot v.lot).ctx = ctx ∧ v.place ≠ .gone then some e.1 else none
    | none => none)

/-- The lots of a context in some phases. -/
def State.lotsOf (s : State) (ctx : Nat) (p : LotPhase → Bool) : List Nat :=
  s.lots.filterMap (fun e => match e.2 with
    | some l => if l.ctx = ctx ∧ p l.phase then some e.1 else none
    | none => none)

/-! ### The context rung (R174) -/

/-- Serviceable: PAGE_FAULT and PERM_FAULT with REPLAY = 1. -/
def FaultRecord.serviceable (f : FaultRecord) : Bool := (f.code == pageFault || f.code == permFault) && f.replay

/-- CODE2 of the terminal record, which is queued or waits for room, is written in place (R174, R38). -/
def State.recordCode2 (s : State) (ctx : Nat) (dies : BitVec 4) : State :=
  match (s.ctx ctx).terminal with
  | none => s.modCtx ctx (fun c => { c with waiting := c.waiting.map (fun t =>
      if t.code2 == 0 then { t with code2 := fDieLost, dies := t.dies ||| dies } else t) })
  | some t =>
    if t.code2 != 0 then s
    else
      let t := { t with code2 := fDieLost, dies := t.dies ||| dies }
      let s := s.modCtx ctx (fun c => { c with terminal := some t })
      (s.agentWrite ctx (s.saveVa ctx + 0x1000 + BitVec.ofNat 64 (64 * (t.seq.toNat % 32))) t.bytes 150).1

/-- The lots of a context that a terminal fault ends: they complete FAULTED once their vats have left (R174). -/
def State.failLots (s : State) (ctx : Nat) (fr : FaultRecord) (ends : LotPhase → Bool) : State :=
  (s.lotsOf ctx ends).foldl (fun s l =>
    (s.noteFirst l fr).modLot l (fun l => { l with
      phase := .running, status := if l.status == 0 || l.status == 2 then 1 else l.status,
      first := l.first.map (fun f => { f with rung := fr.rung }) })) s

/-- The terminal action without its record: the queues are stopped with ERR set, the running lots complete FAULTED once
their vats have left (R174), and with DIE_LOST every lot (spec/01 R34); the vats are stopped. -/
def State.terminate (s : State) (ctx : Nat) (fr : FaultRecord) : State :=
  let s := s.modCtx ctx (fun c => { c with
    faulted := true, services := [],
    queues := (List.range 16).foldl (fun q i => q.modify i (fun d => { d with err := true, en := false })) c.queues })
  let s := s.failLots ctx fr (fun p => p == .running || (p == .gated && fr.code == fDieLost))
  (s.vatsOf ctx).foldl (fun s v => s.stopVat v false) s

/-- The record of a terminal fault is queued (R174). -/
def State.queueTerminal (s : State) (ctx : Nat) (fr : FaultRecord) : State :=
  let seq := (s.ctx ctx).fqwi
  let r := s.queueRecord ctx fr
  r.1.modCtx ctx (fun c => { c with terminal := if r.2 = none then some { fr with seq := seq } else none })

/-- The terminal action (R174). A faulted context queues no further record, but for DIE_LOST, which is recorded beside the first and
completes the lots that are gated still (spec/01 R34, R38); a fault during a context reset is not reported (spec/03 R72). While the
fault queue is full the fault waits with the vats resident (R175); one of the partition rung faults the context at once (R176), and only
its record waits. -/
def State.faultContext (s : State) (ctx : Nat) (fr : FaultRecord) : State :=
  if (s.ctx ctx).resetting then s
  else if (s.ctx ctx).faulted then
    if fr.code == fDieLost then (s.recordCode2 ctx fr.dies).failLots ctx fr (· == .gated) else s
  else if s.fqRoom ctx then (s.terminate ctx fr).queueTerminal ctx fr
  else
    let s := if fr.rung == 3 then (s.fqRead ctx).terminate ctx fr else s.fqRead ctx
    s.modCtx ctx (fun c => { c with waiting := if fr.rung == 3 then [fr] else c.waiting ++ [fr] })

/-- A fault of a context waits for room in the fault queue, and there is room (R175). -/
def State.roomCame (s : State) (ctx : Nat) : Bool :=
  let c := s.ctx ctx
  !c.waiting.isEmpty && !c.resetting && s.fqRoom ctx

/-- The first fault that waited is taken. What waited behind it reaches a context that is faulted. -/
def State.takeWaiting (s : State) (ctx : Nat) : State :=
  match (s.ctx ctx).waiting with
  | [] => s
  | fr :: rest =>
    let was := (s.ctx ctx).faulted
    let s := s.modCtx ctx (fun c => { c with waiting := [] })
    let s := if was then s.queueTerminal ctx fr else s.faultContext ctx fr
    rest.foldl (fun s fr => s.faultContext ctx fr) s

/-- GRANT: what ACQA has granted the vat, in KiB. -/
def Vat.granted (v : Vat) : Nat := v.grants.foldl (· + ·) 0

/-- Offset of the software area, and size, of the image of a vat with `n` warps (spec/21 R389). -/
def swOff (n : Nat) : Nat := (0x800 + 2048 * n + 4095) / 4096 * 4096
def Vat.imageBytes (v : Vat) (n : Nat) : Nat :=
  (swOff n + 1024 * (v.scr + v.acc + v.granted) + 128 * (8 * (v.regs + 1)) * n + 65535) / 65536 * 65536

/-- The lowest free range of the save area, from 0x1_0000, that holds `n` bytes (R177). -/
def findRange (used : List (Nat × Nat)) (size n : Nat) : Option Nat :=
  ((0x10000 :: used.map (fun u => u.1 + u.2)).filter (fun o =>
    decide (o + n ≤ size) && used.all (fun u => decide (o + n ≤ u.1 ∨ u.1 + u.2 ≤ o)))).min?

/-- A vat whose code object has no save or restore vector is never evicted (R180), and neither it nor one of a COHAB lot is swapped out for a
fault (R174). -/
def State.evictable (s : State) (vk : Nat) : Bool :=
  let l := s.lot (s.vat vk).lot
  l.code.svec != 0 && l.code.rvec != 0
def State.swappable (s : State) (vk : Nat) : Bool := s.evictable vk && !(s.lot (s.vat vk).lot).record.flags.getLsbD 0

/-- A fault of pending lanes is found and not served yet (spec/05 R131). -/
def Warp.faultPends (w : Warp) : Bool :=
  let names (fr : FaultRecord) : Bool := fr.flm &&& w.lanesIn pendingData != 0
  w.async.any names || (w.trap.tmode && names w.trap.frec) || w.swapFault.any names

/-- A request finds the warp outside a trap that holds pre-emption back (R181). Lanes whose data only the service of their fault brings hold it
back, too: no image holds a split gather (spec/05 R136; DEDUCED, log 103). -/
def Warp.drains (w : Warp) : Bool := w.evict == .requested && !w.trap.tmsk && !w.saveRestore && !w.faultPends

/-- Issue stops at a safe point (R181, R397): inside a clause the program counters of its issue set name the word. -/
def Warp.toDrain (w : Warp) : Warp :=
  let mid := w.phase == .word
  let w := if mid then w.setModePcs (lanesOf w.clause.issue) (fun _ => w.clause.pc) else w
  { w.flush with
    evict := .drain, hold := .free,
    outside := some { clause := w.clause, mid := mid, replay := w.replay, spawnDone := w.spawnDone }, replay := none }

/-- An eviction is requested of a warp. One that stands at a fault of the context rung, or that has no live lane, issues
nothing more, whether the request is its first or not. -/
def Warp.request (w : Warp) (whole : Bool) (reason : BitVec 2) : Warp :=
  if w.evict != .running && w.evict != .requested then { w with evictWhole := whole }
  else
    let w := { w with evict := .requested, evictWhole := whole, evictReason := reason }
    if (w.swapFault.isSome && !w.faultPends) || w.masks.lmask == 0 then w.toDrain else w

/-- The image of a vat has its range of the save area: the one it has, or the lowest free one (R177). None is free where SIZE cannot
be read. -/
def State.allotImage (s : State) (vk : Nat) : Option State :=
  let v := s.vat vk
  let ctx := (s.lot v.lot).ctx
  if v.image.isSome then some s
  else
    let n := v.imageBytes v.nwarp
    let size := s.saveNat ctx 0 8
    match size.2 with
    | .error _ => none
    | .ok bytes => (findRange (s.ctx ctx).saveUsed bytes n).map (fun off =>
        (size.1.modCtx ctx (fun c => { c with saveUsed := c.saveUsed ++ [(off, n)] })).setVat vk { v with image := some (off, n) })

/-- The range of a vat's image is brought to the size that its grants give now (R178): where it lies, or, while no warp of the vat stands in it,
in the lowest range that holds it. -/
def State.resizeImage (s : State) (vk : Nat) : Option State :=
  let v := s.vat vk
  let ctx := (s.lot v.lot).ctx
  let n := v.imageBytes v.nwarp
  match v.image with
  | none => none
  | some (off, old) =>
    if n = old then some s
    else match (s.saveNat ctx 0 8).2 with
      | .error _ => none
      | .ok bytes =>
        let used := (s.ctx ctx).saveUsed.filter (fun u => u.1 != off)
        let fits := decide (off + n ≤ bytes) && used.all (fun u => decide (off + n ≤ u.1 ∨ u.1 + u.2 ≤ off))
        let bare := (warpKeys vk v).all (fun k => (s.warp k).evict != .saved && !(s.warp k).trap.smode)
        (if fits && !bare then some off else if bare then findRange used bytes n else none).map (fun o =>
          (s.modCtx ctx (fun c => { c with saveUsed := used ++ [(o, n)] })).setVat vk { v with image := some (o, n) })

/-- The firmware's read of SIZE for an image of the vat fails: the fault it takes (R177), and the state it leaves. -/
def State.sizeMiss (s : State) (vk : Nat) : State × Option Miss :=
  let v := s.vat vk
  let size := s.saveNat (s.lot v.lot).ctx 0 8
  match size.2 with
  | .error .held => (size.1, none)
  | .error m => if v.image.isSome then (s, none) else (size.1, some m)
  | .ok _ => (size.1, none)

/-- Requests the eviction of a whole vat (R181), if its image fits the save area. -/
def State.requestWhole (s : State) (vk : Nat) (reason : BitVec 2) : Option State :=
  (s.allotImage vk).map (fun s =>
    let s := s.modVat vk (fun v => { v with imageWhole := true, imageReason := reason })
    (warpKeys vk (s.vat vk)).foldl (fun s k => s.modWarp k (fun w => w.request true reason)) s)

/-- The record of a failed access of the firmware, of an overflow refill or of a latch write (R177): another fault than the one in hand. -/
def FaultRecord.missed (fr : FaultRecord) (m : Miss) : FaultRecord :=
  let r := m.toRaise 0 0
  { fr with code := r.code, cause := r.cause, fva := r.fva, dies := r.dies, flm := 0, fpc := 0, info := 0, replay := false, rest := 0 }

/-- The vat of a warp at a serviceable fault is swapped out (R174), but where a fault of pending lanes keeps it (log 103). -/
def State.swapsOut (s : State) (vk : Nat) : Bool :=
  s.swappable vk && (warpKeys vk (s.vat vk)).all (fun k => !(s.warp k).faultPends)

/-- The record of a serviceable fault is queued and the vat swapped out, or the warp left waiting on its core (R174), where an eviction that has
been requested takes it (R181). While the queue is full the fault waits (R175). -/
def State.queueService (s : State) (k : Nat) (fr : FaultRecord) : State :=
  let ctx := s.ctxOf k
  let vk := (s.warp k).vat
  if s.fqRoom ctx then
    let seq := (s.ctx ctx).fqwi
    let s := s.modWarp k (fun w => { w with trap := { w.trap with offeredAt := s.gtime } })
    let size := if s.swapsOut vk then s.sizeMiss vk else (s, none)
    let s := match (if s.swapsOut vk then s.requestWhole vk 1 else none) with
      | some s' => s'.modWarp k (fun w => { w with serviceWait := false })
      | none => size.1.modWarp k (fun w => if w.drains then w.toDrain else w)
    let r := s.queueRecord ctx fr
    match size.2, r.2 with
    | some m, _ => size.1.faultContext ctx (fr.missed m)
    | _, some m => r.1.faultContext ctx (fr.missed m)
    | none, none =>
      r.1.modCtx ctx (fun c => { c with
        services := c.services ++ [{ seq := seq, lot := (s.vat vk).lot, vat := vk, warp := k, refill := none, record := { fr with seq := seq } }] })
  else s.fqRead ctx

/-- A warp stands at a serviceable fault whose record is not queued yet: its vat stays resident (R175). -/
def State.unqueued (s : State) (k : Nat) : Bool :=
  let w := s.warp k
  w.serviceWait && w.swapFault.isSome && !(s.ctx (s.ctxOf k)).services.any (fun x => x.refill.isNone && x.warp == k)

/-- A warp's fault waits for room in the fault queue, and there is room (R175). -/
def State.faultWaits (s : State) (k : Nat) : Bool :=
  let w := s.warp k
  s.unqueued k && w.resident && (w.evict == .running || w.evict == .requested)
    && !(s.ctx (s.ctxOf k)).faulted && (s.vat w.vat).stop.isNone && s.fqRoom (s.ctxOf k)

/-- A fault of a warp that is terminal for its context: one that stands at the faulting instruction stops there (R395), and while the fault waits
for room the warp waits with it (R175). -/
def State.faultWarp (s : State) (k : Nat) (fr : FaultRecord) (resume : Resume) : State :=
  let ctx := s.ctxOf k
  let s := s.faultContext ctx fr
  if (s.ctx ctx).faulted || (s.ctx ctx).resetting then
    if resume = .boundary then s else s.modWarp k (fun w => { w with stopped := true, hold := .free })
  else s.modWarp k (fun w => { w with faultWait := true, hold := .free })

/-- Offers a fault of a warp to the context rung (R174). -/
def State.offerContext (s : State) (k : Nat) (fr0 : FaultRecord) (resume : Resume) : State :=
  let ctx := s.ctxOf k
  let fr := { fr0 with rung := 2 }
  let vk := (s.warp k).vat
  let s := s.noteFirst (s.vat vk).lot fr
  if (s.ctx ctx).faulted || (s.ctx ctx).resetting then s
  else if fr.serviceable then
    -- the warp stands at its faulting instruction, outside trap mode
    let s := s.modWarp k (fun w =>
      let mask := match w.replay with | some _ => w.trap.trmask | none => w.clause.issue
      let back := match w.replay with | some b => b | none => (w.clause, resume)
      { w with
        swapFault := some fr, replay := none, serviceWait := true, hold := .free,
        trap := { w.trap with tmode := false, tmsk := false, trpc := fr.fpc, trmask := mask, frec := fr,
                              lpcWritten := 0, clause := back.1, resume := back.2, offeredAt := s.gtime } })
    s.queueService k fr
  else s.faultWarp k fr resume

/-! ### The vat rung (R165, R171) -/

/-- The lowest-numbered warp of a vat that has a live lane. -/
def State.liveWarp (s : State) (vk : Nat) : Option Nat :=
  (warpKeys vk (s.vat vk)).find? (fun k => (s.warp k).masks.lmask != 0)

/-- A take mask selects a code (R165). -/
def takes (mask : Word) (code : BitVec 8) : Bool :=
  if 0x80 ≤ code then mask.getLsbD 0 else mask.getLsbD code.toNat

/-- A fault of a warp waits for the TRET of the vat trap that another warp holds (R187): the warp stops with the others. -/
def State.defer (s : State) (k : Nat) (fr : FaultRecord) (resume : Resume) (rung : Nat) : State :=
  (s.modVat (s.warp k).vat (fun v => { v with deferred := v.deferred ++ [{ warp := k, record := fr, resume := resume, rung := rung }] })).modWarp k
    (fun w => { w with vatTrapStop := true })

/-- Another warp of the vat holds the vat trap. -/
def State.trappedElsewhere (s : State) (k : Nat) : Bool :=
  match (s.vat (s.warp k).vat).trapWarp with
  | some j => j != k
  | none => false

/-- Offers a fault to the vat rung. While another warp of the vat is in vat-trap mode the fault waits for its TRET
(R187). -/
def State.offerVat (s : State) (k : Nat) (fr0 : FaultRecord) (resume : Resume) : State :=
  let w := s.warp k
  let v := s.vat w.vat
  let fr := { fr0 with rung := 1 }
  let s := s.noteFirst v.lot fr
  let code := s.code k
  if w.saveRestore || (w.trap.tmode && w.trap.frec.rung == 1) || code.vvec == 0 || !takes v.vvmask fr.code then
    s.offerContext k fr resume
  else match v.trapWarp with
    | some j =>
      if j = k then s.offerContext k fr resume
      else s.defer k fr resume 1
    | none =>
      match (if w.masks.lmask != 0 then some k else s.liveWarp w.vat) with
      | none => s.offerContext k fr resume
      | some j =>
        let x := s.warp j
        let at' := if j = k then resume else .boundary
        let stands := x.phase != .word || (match x.hold with | .parked _ => true | _ => false)
        -- a warp within a clause that did not raise the fault first stops at its boundary
        if at' = .boundary ∧ !stands then s.modWarp j (fun x => { x with async := x.async ++ [fr] })
        else
          let s := s.modVat w.vat (fun v => { v with trapWarp := some j })
          s.modWarp j (fun x => x.enterTrap 1 fr (if at' = .boundary ∧ x.phase = .word then .again else at') x.masks.lmask
            (BitVec.ofNat 32 code.vvec) s.gtime)

/-! ### The warp rung -/

/-- Offers a fault to the warp rung (R165, R171). While another warp of the vat is in vat-trap mode it waits (R187). -/
def State.offerWarp (s : State) (k : Nat) (fr : FaultRecord) (resume : Resume) : State :=
  let w := s.warp k
  let code := s.code k
  let s := s.noteFirst (s.vat w.vat).lot fr
  if s.trappedElsewhere k && !w.saveRestore then s.defer k fr resume 0
  else if w.saveRestore || w.trap.tmode || w.hdep != 0 || code.tvec == 0 || !takes w.trap.tvmask fr.code then
    s.offerVat k fr resume
  else s.setWarp k (w.enterTrap 0 fr resume 0 (BitVec.ofNat 32 code.tvec) s.gtime)

/-- Raises a fault of a warp at its first rung (R166 Table 2): in save and restore mode at the context rung, terminal
(R181). -/
def State.raise (s : State) (k : Nat) (r : Raise) (resume : Resume) : State :=
  let w := s.warp k
  let fr := s.record k r
  -- no fault that arises during a stop is raised (R395)
  if (s.vat w.vat).stop.isSome then s.modWarp k (fun w => { w with stopped := true })
  else if w.saveRestore then
    let s := s.noteFirst (s.vat w.vat).lot { fr with rung := 2 }
    s.faultWarp k { fr with rung := 2, replay := false } resume
  else if r.code == fBarrierTimeout then s.offerVat k fr resume
  else if r.code == fOvfStall || r.code == fAckLoss || r.code == fDieLost then s.offerContext k fr resume
  else s.offerWarp k fr resume

/-- A fault of the instruction in turn with every issuing lane in FLM (R167). -/
def State.raiseHere (s : State) (code : BitVec 8) (info : Word) : State :=
  (s.modW (·.countIssue 0)).raise s.cur { code := code, flm := s.w.clause.issue, fpc := s.w.clause.pc, info := info } .after

/-- A fault of the instruction in turn that some lanes take, and the address of the lowest of them (R167, R169); where a lower lane reads a
register with an uncorrectable error, that fault. `rest` are the lanes that other codes have left uncommitted, where a replay retries them. -/
def State.raiseLanes (s : State) (code : BitVec 8) (flm : Lanes) (cause : BitVec 4) (fva : BitVec 64) (dies : BitVec 4)
    (rest : Option Lanes := none) : State :=
  let w := s.w
  let ecc := w.eccLanes != 0 && decide ((lowest w.eccLanes).getD 32 < (lowest flm).getD 32)
  let others (m : Lanes) : Lanes := match rest with | some x => x ||| m | none => 0
  (s.modW (·.countIssue 0)).raise s.cur
    (if ecc then { code := fEcc, flm := w.eccLanes, fpc := w.clause.pc, info := w.eccInfo, rest := others flm }
     else { code := code, flm := flm, fpc := w.clause.pc, cause := cause, fva := fva, dies := dies, rest := others w.eccLanes }) .after

/-- The next rung for a fault the warp's rung passes on: a timeout (R164) or TRET.ESC (R173). -/
def State.passOn (s : State) (k : Nat) (fr : FaultRecord) (resume : Resume) : State :=
  match fr.rung.toNat with
  | 0 => s.offerVat k fr resume
  | _ => s.offerContext k fr resume

/-- Faults that waited for the vat rung are offered in their order, each as it was raised (R187). -/
def State.offerDeferred (s : State) (ds : List Deferred) : State :=
  ds.foldl (fun s d => if d.rung = 0 then s.offerWarp d.warp d.record d.resume else s.offerVat d.warp d.record d.resume) s

/-- The vat rung is resolved: the vat's stopped warps go on, and the faults that waited are offered (R173, R187), but for those of warps that
are away. One that finds the vat rung taken again waits again. -/
def State.releaseVat (s : State) (vk : Nat) : State :=
  let v := s.vat vk
  let here (d : Deferred) : Bool := (s.warp d.warp).evict == .running || (s.warp d.warp).evict == .requested
  let s := s.modVat vk (fun v => { v with trapWarp := none, deferred := v.deferred.filter (fun d => !here d) })
  let s := (warpKeys vk v).foldl (fun s k => s.modWarp k (fun w => { w with vatTrapStop := false })) s
  s.offerDeferred (v.deferred.filter here)

end Sys2Proof.Machine
end

