-- ==== Sys2Proof/Machine/Issue.lean ====
section
/-! DEFINITION. Issue: the faults of a whole instruction in their order (spec/07 R167), what an issue leaves in the warp
(spec/05 R123, spec/11 R258), events and their entry (spec/05 R113–R128), clause headers (spec/11 R248–R252). -/

namespace Sys2Proof.Machine

/-! ### Faults of the whole instruction -/

/-- Which lanes read the lane registers and predicates that an instruction names as sources (spec/07 R186): none (its reads are
listed apart), each enabled lane its own, the lowest enabled lane alone its own, or every enabled lane those of every enabled lane. -/
inductive Reach where
  | nothing
  | own
  | low
  | every
  deriving DecidableEq, Repr, Inhabited

/-- What an instruction shows of itself before it has any effect: its slot, its stall count, whether its operands are
legal, the registers it names as code and count, the predicates it names, further grounds of ILLEGAL_OPCODE and
ILLEGAL_ROLE, whether the first register and the first predicate named are destinations, the tile it names, which lanes read the lane
registers and predicates it names as sources, and reads of other lanes' registers beside those, as lane and cell. -/
structure Sig where
  slot : Nat
  stall : BitVec 2
  ok : Bool := true
  uses : List (Code × Nat) := []
  preds : List (BitVec 3) := []
  legal : Bool := true
  roleOk : Bool := true
  dst : Bool := true
  pdst : Bool := false
  tile : Option Nat := none
  reach : Reach := .own
  others : List (Nat × Nat) := []
  deriving DecidableEq, Repr, Inhabited

/-- ROWS, COLS and K of MCFG (spec/15 R351). -/
def Vat.rows (v : Vat) : Nat := 8 * ((v.mcfg.extractLsb' 7 3).toNat + 1)
def Vat.cols (v : Vat) : Nat := 8 * ((v.mcfg.extractLsb' 10 3).toNat + 1)
def Vat.extentK (v : Vat) : Nat := 32 * ((v.mcfg.extractLsb' 0 7).toNat + 1)

/-- The elements of the accumulator window, and whether a tile lies within it (spec/06 R156). -/
def Vat.windowElements (v : Vat) : Nat := 256 * (v.acc + v.granted)
def Vat.tileFits (v : Vat) (t : Nat) : Bool := (t + 1) * (v.rows * v.cols) ≤ v.windowElements

/-- A (R137): how many lane registers the warp owns. -/
def State.laneRegs (s : State) : Nat := 8 * (s.v.regs + 1)

/-- The lane-register indexes that uses name, outside the banked codes. -/
def Warp.named (w : Warp) (uses : List (Code × Nat)) : List Nat :=
  uses.flatMap (fun u => (List.range u.2).filterMap (fun i =>
    let c := u.1.toNat + i
    if c < 96 && !(92 ≤ c && w.hvBanked) then some (w.vwb.toNat + c) else none))

/-- A register cell range of a code: its first cell and how many lanes have one. -/
def Warp.cellRange (w : Warp) (c : Nat) : Nat × Nat := if c < 96 then (w.laneCell c 0, 32) else (w.kCell (c - 96), 1)

/-- A named register or predicate has a fixed-latency write that is not yet visible (R260). -/
def Warp.shortStall (w : Warp) (uses : List (Code × Nat)) (preds : List (BitVec 3)) : Bool :=
  let ranges := uses.flatMap (fun u => (List.range u.2).map (fun i => w.cellRange (u.1.toNat + i)))
    ++ preds.map (fun p => (w.predCell p.toNat 0, 32))
  w.pending.any (fun p => decide (w.dist < p.due) && ranges.any (fun r => decide (r.1 ≤ p.cell ∧ p.cell < r.1 + r.2)))

/-- CHECK of the lot (spec/03 R64). -/
def State.checked (s : State) : Bool := s.l.record.flags.getLsbD 1

/-- The clause predicate has a fixed-latency write that the clause's first word does not see yet (spec/11 R252): it counts as read by
that word. -/
def Warp.predicateShort (w : Warp) : Bool :=
  w.clause.idx == 1 && hdrPen w.clause.word && w.replay.isNone && w.shortStall [] [hdrPsel w.clause.word]

/-- The first fault of the whole instruction, with its INFO (R167). With no lane enabled only the clause predicate that the first word reads too
early faults (R252, R260). -/
def State.wholeFault (s : State) (g : Sig) : Option (BitVec 8 × Word) :=
  let w := s.w
  let absent := match slotFeature g.slot with | some b => !s.hub.featacc.getLsbD b | none => false
  if w.clause.enabled == 0 then
    (if s.checked && w.predicateShort then some (fStallShort, 0) else none)
  else if slotForbidden g.slot w.bank || !g.legal then some (fIllegalOpcode, 0)
  else if absent then some (fFeatureAbsent, 0)
  else if !slotRole g.slot w.mat || !g.roleOk then some (fIllegalRole, 0)
  else if !g.ok then some (fIllegalOperand, 0)
  else match (w.named g.uses).find? (fun i => s.laneRegs ≤ i) with
    | some i => some (fRegBounds, BitVec.ofNat 32 i)
    | none =>
      match g.tile.filter (fun t => !s.v.tileFits t) with
      | some t => some (fRegBounds, BitVec.ofNat 32 t)
      | none => if s.checked && (w.shortStall g.uses g.preds || w.predicateShort) then some (fStallShort, 0) else none

/-! ### The end of an instruction -/

/-- The end of an instruction that does not transfer control: the clause goes on behind it, or, after a replay, where the
trap was taken (R169, R173). -/
def State.retire (s : State) (g : Sig) : State :=
  let w := s.w.countIssue g.stall
  match w.replay with
  | some (c, how) => s.setW (w.resumeAt c how (s.wordLen s.cur c))
  | none => s.setW (w.advance (if slotLong g.slot then 2 else 1))

/-- The end of an instruction that ends its clause and has set the program counters itself: the boundary follows. -/
def State.retireAtBoundary (s : State) (g : Sig) : State :=
  s.setW { s.w.countIssue g.stall with phase := .boundary }

/-- The cells of a lane's own registers and predicates that an instruction names as sources. -/
def Warp.sources (w : Warp) (g : Sig) (l : Nat) : List Nat :=
  let regs := if g.dst then g.uses.drop 1 else g.uses
  let preds := if g.pdst then g.preds.drop 1 else g.preds
  regs.flatMap (fun u => (List.range u.2).filterMap (fun i =>
      if u.1.toNat + i < 96 then some (w.cell (u.1.toNat + i) l) else none))
    ++ preds.map (fun p => w.predCell p.toNat l)

/-- The cells that enabled lane `l` reads of an instruction's sources. -/
def Warp.cellsRead (w : Warp) (g : Sig) (l : Nat) : List Nat :=
  (match g.reach with
    | .nothing => []
    | .own => w.sources g l
    | .low => if lowest w.clause.enabled = some l then w.sources g l else []
    | .every => (lanesOf w.clause.enabled).flatMap (w.sources g))
    ++ (g.others.filter (fun o => o.1 == l)).map (·.2)

/-- The lanes that read a register or predicate with an uncorrectable error (R186 Table 5). -/
def State.eccLanes (s : State) (g : Sig) : Lanes :=
  let w := s.w
  if w.poisoned.isEmpty then 0
  else maskWhere (fun l => inMask w.clause.enabled l && (w.cellsRead g l).any w.poisoned.contains)

/-- The location of an uncorrectable error that lanes read (R186): the cell number of the first of them that the lowest lane reads, in
the numbering of Machine/Operands.lean (DESIGN CHOICE, log 83: the spec gives INFO no numbering of registers here). -/
def State.eccCell (s : State) (g : Sig) (bad : Lanes) : Nat :=
  ((s.w.cellsRead g ((lowest bad).getD 0)).find? s.w.poisoned.contains).getD 0

/-- A warp that has issued stands at a fault: in a trap, or stopped with its fault in other hands. -/
def Warp.faulted (old new : Warp) : Bool :=
  new.serviceWait || new.faultWait || new.stopped || new.vatTrapStop || new.trap.tmode != old.trap.tmode || new.trap.frec != old.trap.frec

/-- An instruction whose lanes in `bad` read an uncorrectable error: it has no effect in them. Where it ends without another fault ECC_UNCORR is
raised for them, with INFO naming the location, at the instruction; with one, `State.raiseLanes` has chosen between them (R167). While it waits
nothing is raised. -/
def State.issueEcc (s : State) (g : Sig) (bad : Lanes) (eff : State → State) : State :=
  let w := s.w
  let c := w.clause
  let info := BitVec.ofNat 32 (s.eccCell g bad)
  let en := c.enabled &&& ~~~ bad
  let s := s.modW (fun w => { w with clause := { c with enabled := en }, eccLanes := bad, eccInfo := info })
  let t := if en == 0 then s.retire g else eff s
  let t := t.modW (fun x => { x with
    eccLanes := 0, eccInfo := 0,
    clause := if x.clause.hdr == c.hdr && x.clause.idx != 0 then { x.clause with enabled := c.enabled } else x.clause,
    trap := if x.trap.clause.pc == c.pc && w.faulted x then { x.trap with clause := { x.trap.clause with enabled := c.enabled } } else x.trap })
  if t.w.hold != .free || w.faulted t.w then t
  else if slotEnds g.slot then t.raise s.cur { code := fEcc, flm := bad, fpc := c.pc, info := info } .boundary
  else (t.modW (fun x => { x with clause := c, replay := w.replay, phase := .word })).raise s.cur
    { code := fEcc, flm := bad, fpc := c.pc, info := info } .after

/-- Issues an instruction: its whole-instruction fault, or nothing but the issue slot when no lane is enabled, or its
effect, which ends the instruction itself. -/
def State.issueRaw (s : State) (g : Sig) (eff : State → State) : Out :=
  match s.wholeFault g with
  | some f => .next (s.raiseHere f.1 f.2)
  | none =>
    if s.w.clause.enabled == 0 then .next (s.retire g)
    else
      let bad := s.eccLanes g
      if bad == 0 then .next (eff s) else .next (s.issueEcc g bad eff)

/-- Issues an instruction that neither transfers control nor waits. -/
def State.issue (s : State) (g : Sig) (eff : State → State) : Out := s.issueRaw g (fun s => (eff s).retire g)

/-- The enabled lanes, ascending. -/
def State.lanes (s : State) : List Nat := lanesOf s.w.clause.enabled

/-- The lowest enabled lane. -/
def State.lane0 (s : State) : Nat := (lowest s.w.clause.enabled).getD 0

/-- The word stands and the warp waits, as a stall or as a park. -/
def State.stall (s : State) : State :=
  s.modW (fun w => { w with hold := .stalled, holdSince := if w.hold = .stalled then w.holdSince else s.gtime })
def State.park (s : State) (p : Park) : State :=
  s.modW (fun w => { w with hold := .parked p, holdSince := if w.hold = .parked p then w.holdSince else s.gtime })

/-- Per-lane results of a fixed-latency instruction. -/
def State.pendLanes (s : State) (cell : Nat → Nat) (value : Nat → Word) (lat : Nat) : State :=
  s.modW (fun w => s.lanes.foldl (fun w l => w.pend (cell l) (value l) lat) w)

/-- A lane register written in every enabled lane. -/
def State.pendD (s : State) (d : Code) (value : Nat → Word) (lat : Nat) : State :=
  s.pendLanes (fun l => s.w.cell d.toNat l) value lat

/-- A predicate written in every enabled lane. -/
def State.pendP (s : State) (p : BitVec 3) (value : Nat → Bool) (lat : Nat) : State :=
  s.pendLanes (fun l => s.w.predCell p.toNat l) (fun l => if value l then 1 else 0) lat

/-- A k register written once. -/
def State.pendK (s : State) (d : Code) (value : Word) (lat : Nat) : State :=
  s.modW (fun w => w.pend (s.w.cell d.toNat 0) value lat)

/-- Writes without a latency (R259, interlocked). -/
def State.putD (s : State) (d : Code) (value : Nat → Word) : State :=
  s.modW (fun w => s.lanes.foldl (fun w l => w.put (s.w.cell d.toNat l) (value l)) w)
def State.putP (s : State) (p : BitVec 3) (value : Nat → Bool) : State :=
  s.modW (fun w => s.lanes.foldl (fun w l => w.put (s.w.predCell p.toNat l) (if value l then 1 else 0)) w)
def State.putK (s : State) (d : Code) (value : Word) : State := s.modW (fun w => w.put (s.w.cell d.toNat 0) value)

/-! ### Lanes that wait, leave and wake -/

/-- A lane becomes EXITED (R112): it leaves every mask. -/
def Warp.exitLane (w : Warp) (l : Nat) : Warp :=
  let b := ~~~ laneBit l
  { w with
    lstate := w.lstate.set l exited,
    masks := { w.masks with
      lmask := w.masks.lmask &&& b, amask := w.masks.amask &&& b, ham1 := w.masks.ham1 &&& b,
      ham2 := w.masks.ham2 &&& b, sggrp := w.masks.sggrp &&& b, arrl := w.masks.arrl &&& b,
      jm := w.masks.jm.mapVals (fun _ m => m &&& b), ja := w.masks.ja.mapVals (fun _ m => m &&& b) } }

/-- The lowest join barrier that is complete (R122). -/
def Warp.completeJoin (w : Warp) : Option Nat :=
  (List.range 8).find? (fun j => w.masks.jm.get j != 0 && w.masks.jm.get j == w.masks.ja.get j)

/-- JOINED is raised only at depth 0 with DHV.EN = 1, outside a trap handler and a quantum (R122). -/
def Warp.joinsRaise (w : Warp) : Bool :=
  w.hdep == 0 && w.dhvEn && !w.trap.tmode && !w.saveRestore && !w.sgact

/-- Completes one join barrier: its waiting lanes become READY, its masks clear, and JOINED is the cause of the next
event; `pc` names the completing instruction (R115 Table 2). -/
def Warp.completeOne (w : Warp) (pc : Word) (j : Nat) : Warp :=
  let made := maskWhere (fun l => inMask (w.masks.jm.get j) l && w.lstate.get l == waitJoin)
  let lpc := w.lpc.get ((lowest made).getD 0)
  let w := { w with
    lstate := (lanesOf made).foldl (fun m l => m.set l ready) w.lstate,
    masks := { w.masks with jm := w.masks.jm.set j 0, ja := w.masks.ja.set j 0 } }
  match w.cause with
  | some c => if c.evrec.extractLsb' 0 4 == 3 then w else set w made lpc
  | none => set w made lpc
where
  set (w : Warp) (made : Lanes) (lpc : Word) : Warp :=
    if w.joinsRaise then
      { w with cause := some { evrec := 3 ||| BitVec.ofNat 32 (256 * j), evpc := pc, evt := lpc, evf := 0, evtk := 0, evm := made } }
    else w

/-- Tests every join barrier (R122); eight at most complete. -/
def Warp.testJoins (w : Warp) (pc : Word) : Nat → Warp
  | 0 => w
  | n + 1 => match w.completeJoin with
    | some j => (w.completeOne pc j).testJoins pc n
    | none => w

/-- Lanes become READY by a completion (R128): they resume together without an event, or enter ARRL. Those of a warp that is away, saved
or about to be, stand as they are until its restore (R136). An ARRIVE that reports a barrier and data has KIND 1 (DESIGN CHOICE, log 106: R110
gives KIND for one or the other). -/
def Warp.wake (w : Warp) (made : Lanes) (barrier : Bool) : Warp :=
  if made == 0 then w
  else if w.evict != .running && w.evict != .requested && w.evict != .drain then { w with away := w.away ||| made }
  else
    let w := { w with lstate := (lanesOf made).foldl (fun m l => m.set l ready) w.lstate }
    let lpcs := (lanesOf made).map w.lpc.get
    if w.wpark && w.hdep == 0 && made == w.masks.wset && lpcs.all (· == lpcs.headD 0) then
      { w with masks := { w.masks with amask := made }, wpark := false, phase := if w.trap.tmode then w.phase else .boundary }
    else
      { w with masks := { w.masks with arrl := w.masks.arrl ||| made }, wpark := false,
               arrBarrier := if w.masks.arrl == 0 then barrier else w.arrBarrier || barrier }

/-- The lanes of a warp that wait at a barrier, and what its completion hands over to a warp with such lanes. -/
def Warp.waitingAt (w : Warp) (id : BitVec 5) : Lanes := maskWhere (fun l => inMask (w.lanesIn waitBar) l && w.barid.get l == id)
def State.takeOverAt (s : State) (k : Nat) (id : BitVec 5) : State := if (s.warp k).waitingAt id == 0 then s else s.takeOver k

/-- The fields of VBSTAT (R132). -/
def vbExpect (v : Word) : Nat := (v.extractLsb' 16 11).toNat
def vbArrived (v : Word) : Nat := (v.extractLsb' 0 11).toNat
def vbMake (phase : Bool) (expect arrived : Nat) : Word :=
  (if phase then 0x80000000 else 0) ||| BitVec.ofNat 32 (expect % 2048 * 65536) ||| BitVec.ofNat 32 (arrived % 2048)

/-- The vat barrier completes when ARRIVED ≥ EXPECT (R132): every waiting lane of the vat that waits at it becomes READY, an acquire for its warp (spec/08 R211);
ARRIVED clears and PHASE toggles. BARID 0 marks the vat barrier (spec/13 R313). -/
def State.testVatBarrier (s : State) (vk : Nat) : State :=
  let v := s.vat vk
  let vb := v.vbstat
  if vbArrived vb < vbExpect vb then s
  else
    let s := s.setVat vk { v with vbstat := vbMake (!vb.getLsbD 31) (vbExpect vb) 0 }
    (warpKeys vk v).foldl (fun s k => (s.takeOverAt k 0).modWarp k (fun w => w.wake (w.waitingAt 0) true)) s

/-- An exit, or BLEAVE, lowers EXPECT by the lanes given (R132). -/
def State.lowerExpect (s : State) (vk n : Nat) : State :=
  if n = 0 then s
  else
    let v := s.vat vk
    let vb := v.vbstat
    (s.setVat vk { v with vbstat := vbMake (vb.getLsbD 31) (vbExpect vb - n) (vbArrived vb) }).testVatBarrier vk

/-- Lanes of a warp become EXITED, in whatever way (R112, R122, R132): joins and the vat barrier are tested, but for one whose counts are
kept (spec/13 R325). `pc` names the instruction for JOINED. -/
def State.exitLanes (s : State) (k : Nat) (lanes : Lanes) (pc : Word) (keep : Bool := false) : State :=
  let w := s.warp k
  let gone := lanes &&& w.masks.lmask
  if gone == 0 then s
  else
    let w' := (lanesOf gone).foldl Warp.exitLane w
    let s := s.setWarp k (w'.testJoins pc 8)
    if keep then s else s.lowerExpect w.vat (countLanes (gone &&& ~~~ w.masks.blmask))

/-- After an instruction that made lanes wait or leave (R111, R126): with no READY lane left the warp parks, with the
waiting lanes as WSET; with AMASK emptied while a parked lane remains EMPTY is the cause, unless a join completed. -/
def Warp.afterLeave (w : Warp) (left : Lanes) (pc succ : Word) : Warp :=
  let isReady := w.lanesIn ready
  if w.masks.lmask == 0 then w
  else if isReady == 0 then
    { w with wpark := true,
             masks := { w.masks with wset := left &&& w.masks.lmask } }
  else if w.masks.amask == 0 && w.dhvEn && w.hdep == 0 && !w.sgact && !w.trap.tmode && w.cause.isNone then
    { w with cause := some (emptied pc succ left) }
  else w

/-! ### Events (R113–R125) -/

/-- The event number of a cause. -/
def EventBank.reason (c : EventBank) : Nat := (c.evrec.extractLsb' 0 4).toNat

/-- EnterEvent (R115): the record is written into bank HDEP + 1 and every live lane stands at the handler's entry. The
lanes' own program counters have been set by the instruction. -/
def Warp.enterEvent (w : Warp) (c : EventBank) : Warp :=
  let w := w.flush
  let d := w.hdep + 1
  let c := { c with evrec := c.evrec ||| d.setWidth 32 <<< 4 }
  let at' := w.dhvBase + BitVec.ofNat 32 (64 * c.reason)
  let w := { w with hdep := d, cause := none, phase := .boundary }
  if d == 1 then
    { w with
      ev1 := c,
      masks := { w.masks with ham1 := w.masks.lmask, arrl := if c.reason = 5 then 0 else w.masks.arrl },
      hpc1 := setPcs w.hpc1 (lanesOf w.masks.lmask) (fun _ => at') }
  else
    { w with
      ev2 := c, dretWait := 0, dretPc := [], dretMask := [], masks := { w.masks with ham2 := w.masks.lmask },
      hpc2 := setPcs w.hpc2 (lanesOf w.masks.lmask) (fun _ => at') }

/-- The lanes of a set that have the lowest program counter (R119). -/
def lowestGroup (set : Lanes) (pc : Nat → Word) : Lanes :=
  match (lanesOf set).map (fun l => (pc l).toNat) with
  | [] => 0
  | p :: ps =>
    let m := ps.foldl min p
    maskWhere (fun l => inMask set l && (pc l).toNat == m)

/-- The clause that a set of lanes will issue next. -/
def Warp.toHeader (w : Warp) (set : Lanes) : Warp :=
  { w with
    phase := .header, hold := .free,
    clause := { hdr := w.modePc ((lowest set).getD 0), word := 0, idx := 0, issue := set, enabled := set, rep := none } }

/-- ParkWarp(WSET := 0) (R119, R128). -/
def Warp.parkWarp (w : Warp) (wset : Lanes) : Warp :=
  { w with wpark := true, masks := { w.masks with wset := wset } }

/-- Fallback (R119) over candidates: the group with the lowest program counter issues. -/
def Warp.fallback (w : Warp) (c : Lanes) : Warp :=
  let r := if w.hdep == 0 && !w.trap.tmode && !w.saveRestore then w.readyIn c else c
  if r == 0 then w.parkWarp 0
  else
    let set := lowestGroup r w.modePc
    let w := if w.bank == 0 && !w.sgact then { w with masks := { w.masks with amask := set } } else w
    w.toHeader set

/-- The lane the safeguard is due for (R125): the parked lane of highest age, the lowest number on ties. -/
def Warp.oldestParked (w : Warp) : Option Nat :=
  let due := (lanesOf w.parkedLanes).filter (fun l => w.pglim ≤ (w.pkage.get l).toNat)
  due.find? (fun l => due.all (fun m => (w.pkage.get m).toNat ≤ (w.pkage.get l).toNat))

/-- A safeguard quantum starts (R125). -/
def Warp.startQuantum (w : Warp) (o : Nat) : Warp :=
  let grp := maskWhere (fun l => inMask w.masks.lmask l && w.lstate.get l == ready && w.lpc.get l == w.lpc.get o)
  let cnt := w.sgcnt.extractLsb' 0 16
  { w with
    hdep := 0, cause := none, sgact := true, sgrem := w.squant, dretWait := 0, dretPc := [], dretMask := [],
    sgcnt := (if cnt == 0xFFFF then cnt else cnt + 1).setWidth 32,
    evpcOfQuantum := w.lpc.get o,
    masks := { w.masks with sggrp := grp, amask := grp } }

/-- The quantum ends at a boundary with SGREM = 0 or with no lane of SGGRP READY (R125). -/
def Warp.quantumOver (w : Warp) : Bool := w.sgrem == 0 || w.readyIn w.masks.sggrp == 0

/-- The end of a quantum (R125): ages clear, AMASK clears, SAFEGUARD is raised or the fallback policy goes on. -/
def Warp.endQuantum (w : Warp) : Warp :=
  let grp := w.masks.sggrp
  let still := w.readyIn grp
  let low := (lanesOf still).map (fun l => (w.lpc.get l).toNat)
  let w := { w with
    pkage := (lanesOf grp).foldl (fun m l => m.set l 0) w.pkage, sgact := false, cause := none,
    masks := { w.masks with amask := 0 } }
  if w.masks.lmask == 0 then w
  else if w.dhvEn then
    w.enterEvent { evrec := 7, evpc := w.evpcOfQuantum, evt := BitVec.ofNat 32 (low.foldl min (low.headD 0)), evf := 0, evtk := still, evm := grp }
  else w.fallback w.masks.lmask

/-- Depth 0 with the handler enabled, no event due. An EMPTY that no instruction has caused has EVPC, EVF and EVM 0 (DESIGN CHOICE, log 107:
Table 2 of R115 gives them by the emptying instruction). -/
def Warp.normalIssue (w : Warp) : Warp :=
  if w.masks.amask != 0 then w.toHeader w.masks.amask
  else if w.lanesIn ready == 0 then { w with wpark := true }
  else w.enterEvent (emptied 0 0 0)

/-- The DRET of depth 2 that takes effect: that of the lowest lane of HAM2 (R116, R119). -/
def Warp.dret2 (w : Warp) : Warp :=
  let l := (lowest w.masks.ham2).getD 0
  let pc := w.dretPc.get l
  let set := maskWhere (fun i => inMask (w.dretMask.get l) i && inMask w.masks.lmask i && w.hpc1.get i == pc)
  let set := if set == 0 then lowestGroup w.masks.ham1 w.hpc1.get else set
  { w.flush with
    hdep := 1, dretWait := 0, dretPc := [], dretMask := [], masks := { w.masks with ham1 := set }, phase := .boundary }

/-- What happens at a clause boundary (R114, R119, R125), in the warp's mode. A depth-1 handler that no live lane is left to run, while other
lanes live, parks the warp (DESIGN CHOICE, log 104: R119 gives no outcome). With DHV.EN = 0 the fallback policy chooses within the handler, too
(R119, R136). -/
def Warp.boundary (w : Warp) : Warp :=
  if w.saveRestore then w.fallback 0xFFFFFFFF
  else if w.trap.tmode then w.fallback (w.trap.issue &&& w.masks.lmask)
  else if w.masks.lmask == 0 then w
  else if w.sgact then
    -- a quantum whose lanes all wait ends too; the warp stays parked until one of them is READY (R126, R127)
    if w.quantumOver then w.endQuantum else if w.wpark then w else { w with cause := none }.fallback w.masks.sggrp
  else if w.wpark then w
  else match w.oldestParked with
    | some o => (w.startQuantum o).fallback (w.startQuantum o).masks.sggrp
    | none =>
      if w.hdep == 2 then
        if w.masks.ham2 != 0 && w.masks.ham2 &&& ~~~ w.dretWait == 0 then w.dret2
        else { w with cause := none }.fallback (w.masks.ham2 &&& ~~~ w.dretWait)
      else if w.hdep == 1 then
        match w.cause with
        | some c => w.enterEvent c
        | none => if w.masks.ham1 == 0 then w.parkWarp 0 else if !w.dhvEn then w.fallback w.masks.ham1 else w.toHeader w.masks.ham1
      else if !w.dhvEn then { w with cause := none }.fallback w.masks.lmask
      else match w.cause with
        | some c => w.enterEvent c
        | none =>
          if w.masks.arrl != 0 then
            { w with arrBarrier := false }.enterEvent
              { evrec := 5 ||| (if w.arrBarrier then 0x800 else 0), evpc := 0, evt := w.lpc.get ((lowest w.masks.arrl).getD 0), evf := 0, evtk := 0, evm := w.masks.arrl }
          else w.normalIssue

/-! ### Clause headers (spec/11 R248–R252) -/

/-- The slots of a clause's words in order with their index; an extension word is passed over. A word that does not
decode stands as its slot. -/
def clauseSlots : Nat → Nat → List Word → List (Nat × Nat)
  | 0, _, _ => []
  | _ + 1, _, [] => []
  | fuel + 1, i, w :: ws =>
    let k := (w.extractLsb' 21 9).toNat
    (i, k) :: (if slotLong k then clauseSlots fuel (i + 2) (ws.drop 1) else clauseSlots fuel (i + 1) ws)

/-- Whether a clause is malformed (R249): the header's fields, its 64-byte line, its words' classes, an extension word
beyond its end, an ending instruction before its end, a REP that breaks R262. -/
def badClause (hdr h : Word) (words : List Word) : Bool :=
  let n := hdrN h
  let slots := clauseSlots 16 1 words
  n == 0 || hdrRes h != 0 || hdrWc0 h == 7 || hdrWc1 h == 7 || (hdrWc0 h == 0 && hdrWt0 h != 0)
    || (hdrWc1 h == 0 && hdrWt1 h != 0) || (!hdrPen h && (hdrPsel h != 0 || hdrPneg h))
    || decide (64 < hdr.toNat % 64 + 4 * (n + 1))
    || slots.any (fun e => !slotInClass e.2 (hdrE h))
    || slots.any (fun e => slotLong e.2 && e.1 == n)
    || slots.any (fun e => slotEnds e.2 && e.1 + (if slotLong e.2 then 1 else 0) != n)
    || (slots.zip (slots.drop 1)).any (fun e => e.1.2 == slot 0x3F 0 && (slotNoRep e.2.2 || rowClass (e.2.2 / 8) == 3 && e.2.2 / 8 != 0x3F))
    || slots.any (fun e => e.2 == slot 0x3F 0 && e.1 == n)

/-- Both waits of a header hold for a warp, and for the one in turn (R251). -/
def State.waitsMet (s : State) (k : Nat) (h : Word) : Bool :=
  let ok (c t : Nat) := match classOf c with | some x => decide (s.count k x ≤ t) | none => true
  ok (hdrWc0 h) (hdrWt0 h) && ok (hdrWc1 h) (hdrWt1 h)
def State.waitsHold (s : State) (h : Word) : Bool := s.waitsMet s.cur h

/-- The LD threshold of a header, the lower where both waits name LD. -/
def ldThreshold (h : Word) : Option Nat :=
  match hdrWc0 h == 1, hdrWc1 h == 1 with
  | true, true => some (min (hdrWt0 h) (hdrWt1 h))
  | true, false => some (hdrWt0 h)
  | false, true => some (hdrWt1 h)
  | false, false => none

/-- The split load that a GSPLIT at this header splits (R130), with the lanes that have no data: of the operations that the wait on LD
still needs, the oldest beyond its threshold, it is the only one that has not completed. -/
def State.splitDue (s : State) (h : Word) : Option (Nat × Lanes) :=
  let w := s.w
  if w.hdep != 0 || w.trap.tmode || w.saveRestore || w.sgact || !w.dhvEn then none
  else match ldThreshold h with
    | none => none
    | some t =>
      let lds := (s.opsOf s.cur).filter (fun e => decide (e.2.cls = .ld))
      match (lds.take (lds.length - t)).filter (fun e => !e.2.complete) with
      | [(n, o)] => match o.work with
        | .load _ _ true missing =>
          let left := missing &&& o.lanes
          if left != 0 && left != o.lanes then some (n, left) else none
        | _ => none
      | _ => none

/-- GSPLIT (R130): the lanes without data that are READY (R111 Table 3) become PENDING at the waiting clause, the load is no longer
counted, and the complete ones behind it are. -/
def State.split (s : State) (n : Nat) (left : Lanes) : State :=
  let w := s.w
  let left := w.readyIn left
  let pc := w.clause.hdr
  let fpc := match s.op n with | some o => o.fpc | none => 0
  let amask := w.masks.amask &&& ~~~ left
  let s := s.setW { w with
    lstate := (lanesOf left).foldl (fun m l => m.set l pendingData) w.lstate,
    lpc := setPcs w.lpc (lanesOf left) (fun _ => pc),
    masks := { w.masks with amask := amask }, phase := .boundary, hold := .free,
    cause := some { evrec := 4, evpc := fpc, evt := pc, evf := pc, evtk := left, evm := amask } }
  match s.op n with
  | some o => (s.setOp n { o with reported := true }).report s.cur .ld
  | none => s

/-- A fault of a clause that has not begun: FPC is the offset given, FLM the issue set. -/
def State.raiseHeader (s : State) (code : BitVec 8) (fpc : Word) (fva : BitVec 64) (cause : BitVec 4) (resume : Resume) : State :=
  s.raise s.cur { code := code, flm := s.w.clause.issue, fpc := fpc, fva := fva, cause := cause } resume

/-- Where FPC points when the warp stands outside the text or at no header (R250): for a vector, the instruction whose
entry failed. -/
def Warp.targetPc (w : Warp) (code : CodeHeader) : Word :=
  if w.trap.tmode && !w.saveRestore then
    if w.clause.hdr == BitVec.ofNat 32 (if w.trap.frec.rung == 0 then code.tvec else code.vvec) then w.trap.frec.fpc else w.clause.hdr
  else if w.hdep == 1 && w.clause.hdr == w.dhvBase + BitVec.ofNat 32 (64 * w.ev1.reason) then w.ev1.evpc
  else if w.hdep == 2 && w.clause.hdr == w.dhvBase + BitVec.ofNat 32 (64 * w.ev2.reason) then w.ev2.evpc
  else w.clause.hdr

/-- The warp in turn reads its clause header (R249–R252): faults, waits, the clause predicate; then its first word is
next, and with it the fault of a predicate read too early (`Warp.predicateShort`). -/
def State.issueHeader (s : State) : State :=
  let w := s.w
  let pc := w.clause.hdr
  if !(s.code s.cur).inText pc then s.raiseHeader fIllegalTarget (w.targetPc (s.code s.cur)) 0 0 .after
  else
    let f := s.fetch s.cur pc
    let s := f.1
    match f.2.1 with
    | .fault c cause => s.raiseHeader c pc (s.codeVa s.cur pc) cause (if c == fEcc then .after else .again)
    | .lost d => s.raise s.cur { code := fDieLost, flm := w.clause.issue, fpc := pc, fva := s.codeVa s.cur pc, dies := dieBit d } .again
    | .held => s.stall
    | .ok _ _ _ =>
      let h := f.2.2
      if !s.isHeader s.cur pc then s.raiseHeader fIllegalTarget (w.targetPc (s.code s.cur)) 0 0 .after
      else
        let words := (List.range (hdrN h)).map (fun i => (s.peek s.cur (pc + BitVec.ofNat 32 (4 * (i + 1)))).2)
        let s := s.modW (fun w => { w with clause := { w.clause with word := h } })
        if badClause pc h words then s.raiseHeader fIllegalClause pc 0 0 .after
        else if !s.waitsHold h then
          match s.splitDue h with
          | some (n, left) => s.split n left
          | none => s.stall
        else
          let en := if hdrPen h then
            maskWhere (fun l => inMask w.clause.issue l && xor (s.readP (hdrPsel h) l) (hdrPneg h)) else w.clause.issue
          s.modW (fun w => { w with phase := .word, hold := .free, clause := { w.clause with idx := 1, enabled := en } })

end Sys2Proof.Machine
end

