-- ==== Sys2Proof/Machine/Flags.lean ====
section
/-! DEFINITION. Comparisons of integers (spec/12 R280) and the sticky arithmetic flags of FSTAT (spec/09 R222). -/

namespace Sys2Proof.Machine

/-- The comparison codes of ICMPP and KCMPP (R280). -/
def intCmp (sub : BitVec 4) (a b : Word) : Bool :=
  match sub.toNat with
  | 0 => a == b
  | 1 => a != b
  | 2 => a.slt b
  | 3 => a.sle b
  | 4 => b.slt a
  | 5 => b.sle a
  | 6 => a.ult b
  | 7 => a.ule b
  | 8 => b.ult a
  | _ => b.ule a

/-- CMB (R280): a comparison is combined with a predicate when bit 0 of IMM7 is set. -/
def State.combine (s : State) (r : Bool) (ps : BitVec 3) (pn : BitVec 1) (imm7 : BitVec 7) (l : Nat) : Bool :=
  if imm7.getLsbD 0 then r && s.readPX ps pn l else r

/-- The predicates a comparison reads. -/
def cmbPreds (pd ps : BitVec 3) (imm7 : BitVec 7) : List (BitVec 3) := if imm7.getLsbD 0 then [pd, ps] else [pd]

/-- Arithmetic flags in the order of FSTAT (R222): NV, DZ, OF, UF, NX from bit 0. -/
abbrev Flags := BitVec 5
def fNV : Flags := 1
def fDZ : Flags := 2
def fOF : Flags := 4
def fUF : Flags := 8
def fNX : Flags := 16

/-- Sets sticky flags of the warp in turn. -/
def State.addFlags (s : State) (f : Flags) : State := s.modW (fun w => { w with fstat := w.fstat ||| f.setWidth 32 })

/-- The OR of the flags of the enabled lanes (spec/12 R276). -/
def State.laneFlags (s : State) (f : Nat → Flags) : Flags := s.lanes.foldl (fun r l => r ||| f l) 0

end Sys2Proof.Machine
end

