-- ==== Sys2Proof/Machine/Stage.lean ====
section
/-! DEFINITION. What a release waits for (spec/08 R194), lanes that leave with their tasks and iterations (spec/05 R112,
spec/04 R93, R107, R109), and staged loops (spec/04 R104–R106, spec/13 R315, R316). -/

namespace Sys2Proof.Machine

/-! ### Releases and exits -/

/-- A release made by an instruction itself: the warp stalls until it may be performed. -/
def State.releasing (s : State) (scope : Nat) (eff : State → State) : State :=
  if s.releaseReady s.cur scope s.nextOp then eff (s.noteRelease s.cur scope) else s.stall

/-! ### The stage table (R104, R105) -/

/-- Fields of STGSLOT. -/
def slotRun (x : Word) : Bool := x.getLsbD 15
def slotOwner (x : Word) : Nat := (x.extractLsb' 10 5).toNat
def slotCnt (x : Word) : Nat := (x.extractLsb' 0 8).toNat
def slotMake (owner cnt : Nat) : Word := 0x8000 ||| BitVec.ofNat 32 (owner % 32 * 1024) ||| BitVec.ofNat 32 (cnt % 256)

/-- W. -/
def Vat.window (v : Vat) : Nat := v.stage.wm1.toNat + 1

/-- The iteration that a running slot holds: the one index from OLDEST on that falls on the slot. -/
def Vat.iteration (v : Vat) (i : Nat) : Word :=
  v.stage.oldest + (BitVec.ofNat 32 i - v.stage.oldest) % 64

/-- The slot of a warp's current iteration, if any. -/
def Vat.currentSlot (v : Vat) (warp : Nat) : Option Nat :=
  (List.range 64).find? (fun i => slotRun (v.stgslot.get i) && slotOwner (v.stgslot.get i) == warp)

/-- Iteration `i` has not ended. -/
def Vat.unended (v : Vat) (i : Word) : Bool :=
  let k := (i % 64).toNat
  slotRun (v.stgslot.get k) && v.iteration k == i

/-- The lowest unended index, or NEXT. -/
def Vat.lowestUnended (v : Vat) : Word :=
  match (List.range 64).find? (fun j => v.unended (v.stage.oldest + BitVec.ofNat 32 j)) with
  | some j => v.stage.oldest + BitVec.ofNat 32 j
  | none => v.stage.next

/-- STGEND of the iteration in a slot. -/
def Vat.endSlot (v : Vat) (k : Nat) : Vat :=
  let v := { v with stgslot := v.stgslot.modify k (fun x => x &&& ~~~(0x8000 : Word)) }
  let v := { v with stage := { v.stage with oldest := v.lowestUnended } }
  if v.stage.xh && (List.range 64).all (fun i => !slotRun (v.stgslot.get i)) then
    { v with stage := { v.stage with state := 2 } }
  else v

/-- A warp's current iteration ends. -/
def Vat.endIteration (v : Vat) (warp : Nat) : Vat :=
  match v.currentSlot warp with
  | some k => v.endSlot k
  | none => v

/-! ### Lanes that leave -/

/-- The lot's abort flag has reached a die: by its event, or because 1 µs has passed since the LABORT (R109). -/
def Lot.abortAtDie (l : Lot) (die now : Nat) : Bool := l.abort && (l.abortDies.getLsbD die || decide (l.abortAt + 1000 ≤ now))

/-- The lot's abort flag has reached the die of a warp. -/
def State.abortDue (s : State) (k : Nat) : Bool := (s.lot (s.vat (s.warp k).vat).lot).abortAtDie (s.dieOf k) s.gtime

/-- Lanes wait at a barrier of the vat, so that an abort keeps its counts (spec/13 R325). -/
def Vat.atBarrier (v : Vat) : Bool := vbArrived v.vbstat != 0 || (List.range 16).any (fun i => vbArrived (v.nbstat.get i) != 0)

/-- A warp without live lanes ends the iteration that it still holds, as by STGEND (R107): at a release of vat scope (R106). -/
def State.endStage (s : State) (k : Nat) : State :=
  let w := s.warp k
  if w.masks.lmask == 0 && ((s.vat w.vat).currentSlot w.num).isSome && s.releaseReady k 1 s.nextOp then
    (s.noteRelease k 1).modVat w.vat (fun v => v.endIteration w.num)
  else s

/-- The outstanding operations of a warp that a retirement waits for (R93, spec/14 R342). -/
def State.taskOps (s : State) (k : Nat) : List Nat :=
  s.ops.filterMap (fun e => match e.2 with
    | some o => if o.warp = k ∧ (o.cls = .st ∨ o.cls = .at ∨ o.cls = .cp ∨ o.cls = .bk) then some e.1 else none
    | none => none)

/-- Lanes retire their tasks, as by TDONE (R93): the task engine waits for the warp's outstanding operations. -/
def State.retireTasks (s : State) (k : Nat) (lanes : Lanes) : State :=
  let die := s.dieOf k
  let s := (lanesOf lanes).foldl (fun s l =>
    match (s.warp k).tasks.get l with
    | some t =>
      if inMask (s.warp k).tdone l then s
      else s.modDie die (fun d => { d with tasks := d.tasks.modify t (fun x => { x with retiring := some (s.taskOps k) }) })
    | none => s) s
  s.modWarp k (fun w => { w with tdone := w.tdone ||| (lanes &&& maskWhere (fun l => (w.tasks.get l).isSome)) })

/-- Lanes become EXITED (R112, R306): tasks retire, joins and the vat barrier are tested, and a warp without live lanes
ends its iteration, at once or when its stores can be released (`State.endStage`), gives up any trap it holds, and passes the faults of its
engines to the vat rung (spec/07 R171). -/
def State.leave (s : State) (k : Nat) (lanes : Lanes) (pc : Word) (keep : Bool := false) : State :=
  let gone := lanes &&& (s.warp k).masks.lmask
  if gone == 0 then s
  else
    let s := ((s.retireTasks k gone).noteRelease k 0).exitLanes k gone pc keep
    let w := s.warp k
    if w.masks.lmask != 0 then s
    else
      let s := (s.endStage k).modWarp k (fun w => { w.flush with
        wpark := false, cause := none, phase := .boundary, hold := .free, replay := none, sgact := false,
        trap := { w.trap with tmode := false, tmsk := false } })
      let s := if (s.vat w.vat).trapWarp == some k then s.releaseVat w.vat else s
      w.async.foldl (fun s fr => s.offerVat k fr .boundary) (s.modWarp k (fun w => { w with async := [] }))

/-- The warp samples the abort flag before the instruction (R109). -/
def State.sampling (s : State) (g : Sig) (eff : State → State) : State :=
  if s.abortDue s.cur then (s.leave s.cur s.w.masks.lmask s.w.clause.pc s.v.atBarrier).retireAtBoundary g else eff s

/-! ### Stage instructions (R105, R315) -/

/-- STAGE_ORDER, with the table unchanged. -/
def State.stageOrder (s : State) : State := s.raiseHere fStageOrder 0

/-- The signature of a stage instruction. -/
def stageSig (f : Nat) (st : BitVec 2) (ok : Bool) (uses : List (Code × Nat)) : Sig :=
  { slot := slot 0x2B f, stall := st, ok := ok, uses := uses }

/-- The operand of STGADV, STGSET and STGWL: with D = 1 the immediate B, with D = 0 the k register A. -/
def stageOk (d a b : Code) : Bool := if d == 1 then a == 0 else d == 0 && isK a && b == 0
def stageUses (d a : Code) : List (Code × Nat) := if d == 0 then [(a, 1)] else []
def State.stageValue (s : State) (d a b : Code) : Nat := if d == 1 then b.toNat else (s.readK a).toNat

/-- STGBEG. -/
def execStgbeg (st : BitVec 2) (a b : Code) (s : State) : Out :=
  let g := stageSig 0 st (isK a && isK b) [(a, 1), (b, 1)]
  s.issueRaw g (fun s =>
    let n := s.readK a
    let w := (s.readK b).toNat
    if s.v.stage.state == 1 || w == 0 || 64 < w then s.stageOrder
    else (s.modV (fun v => { v with
      stage := { next := 0, oldest := 0, n := n, xh := false, wm1 := BitVec.ofNat 6 (w - 1), state := 1 }, stgslot := [] })).retire g)

/-- A predicate written in every live lane at once. -/
def State.putLiveP (s : State) (p : BitVec 3) (value : Bool) : State :=
  s.modW (fun w => (lanesOf w.masks.lmask).foldl (fun w l => w.put (w.predCell p.toNat l) (if value then 1 else 0)) w)

/-- STGNEXT: an iteration, the end of the loop, or a park while the window is full. -/
def execStgnext (st : BitVec 2) (d : Code) (pd : BitVec 3) (s : State) : Out :=
  let g : Sig := { slot := slot 0x2B 1, stall := st, ok := isK d, uses := [(d, 1)], preds := [pd], pdst := true }
  s.issueRaw g (fun s => s.sampling g (fun s =>
    let h := s.v.stage
    if h.state == 0 || h.state == 3 then s.stageOrder
    else if (s.v.currentSlot s.w.num).isSome then s.stageOrder
    else if h.state == 2 || h.xh then ((s.putK d 0xFFFFFFFF).putLiveP pd false).retire g
    else if s.v.window ≤ (h.next - h.oldest).toNat then s.park .stgnext
    else
      let s := s.modV (fun v => { v with
        stgslot := v.stgslot.set (h.next % 64).toNat (slotMake s.w.num 0),
        stage := { h with next := h.next + 1, xh := h.next + 1 == h.n } })
      ((s.putK d h.next).putLiveP pd true).retire g))

/-- Raises the stage counter of the current iteration: a release at vat scope (R106). -/
def State.stageCount (s : State) (g : Sig) (f : Nat → Nat) : State :=
  match s.v.currentSlot s.w.num with
  | none => s.stageOrder
  | some k => s.releasing 1 (fun s =>
      (s.modV (fun v => { v with stgslot := v.stgslot.modify k (fun x => slotMake s.w.num (f (slotCnt x))) })).retire g)

/-- STGADV. -/
def execStgadv (st : BitVec 2) (d a b : Code) (s : State) : Out :=
  let g := stageSig 2 st (stageOk d a b) (stageUses d a)
  s.issueRaw g (fun s => s.stageCount g (fun c => min (c + s.stageValue d a b) 255))

/-- STGSET. -/
def execStgset (st : BitVec 2) (d a b : Code) (s : State) : Out :=
  let g := stageSig 3 st (stageOk d a b) (stageUses d a)
  s.issueRaw g (fun s => s.stageCount g (fun c => max c (min (s.stageValue d a b) 255)))

/-- STGWL's condition for the current iteration in slot `k`. -/
def Vat.stageReached (v : Vat) (k value : Nat) : Bool :=
  let c := v.iteration k
  c == 0 || !v.unended (c - 1) || value < slotCnt (v.stgslot.get ((c - 1) % 64).toNat)

/-- STGWL: proceeds, or parks until the predecessor has passed the stage. -/
def execStgwl (st : BitVec 2) (d a b : Code) (s : State) : Out :=
  let g := stageSig 4 st (stageOk d a b) (stageUses d a)
  s.issueRaw g (fun s =>
    match s.v.currentSlot s.w.num with
    | none => s.stageOrder
    | some k => if s.v.stageReached k (s.stageValue d a b) then (s.takeOver s.cur).retire g else s.park .stgwl)

/-- STGEND. -/
def execStgend (st : BitVec 2) (s : State) : Out :=
  let g := stageSig 5 st true []
  s.issueRaw g (fun s =>
    match s.v.currentSlot s.w.num with
    | none => s.stageOrder
    | some k => s.releasing 1 (fun s => (s.modV (fun v => v.endSlot k)).retire g))

end Sys2Proof.Machine
end

