-- ==== Sys2Proof/Machine/Control.lean ====
section
/-! DEFINITION. Branches, calls, exit, joins, handler return, park and yield, barriers (spec/13 R299–R314), and the two
clause events (spec/05 R114, spec/11 R249–R252). -/

namespace Sys2Proof.Machine

/-! ### Transfers (R301) -/

/-- Event causes exist only with the handler enabled (spec/05 R119), at depth 0 or 1, outside the other modes and a quantum. -/
def Warp.diverges (w : Warp) : Bool :=
  w.dhvEn && ((w.bank == 0 && !w.sgact) || w.bank == 1)

/-- The lanes of ACTIVE go to their targets, the other lanes of ISSUE to the fall-through. With one common target the warp
goes on there; else DIVERGE is the cause of an event, or the fallback policy chooses. `ev` gives EVT, EVF and KIND. -/
def State.transfer (s : State) (g : Sig) (target : Nat → Word) (ev : Word × Word × Bool) : State :=
  let c := s.w.clause
  let npc (l : Nat) : Word := if inMask c.enabled l then target l else c.next
  let ls := lanesOf c.issue
  let go (s : State) : State :=
    let s := (s.modW (fun w => w.setModePcs ls npc)).retireAtBoundary g
    if ls.all (fun l => npc l == npc (ls.headD 0)) || !s.w.diverges then s
    else
      let r : EventBank := { evrec := if ev.2.2 then 0x801 else 1, evpc := c.pc, evt := ev.1, evf := ev.2.1,
                             evtk := maskWhere (fun l => inMask c.issue l && npc l == ev.1), evm := c.issue }
      s.modW (fun w => { w with cause := some r })
  if ls.any (fun l => (npc l).toNat ≤ c.hdr.toNat) then s.sampling g go else go s

/-- ILLEGAL_TARGET (spec/11 R250): no lane moves. -/
def State.badTarget (s : State) (flm : Lanes) : State :=
  s.raiseLanes fIllegalTarget flm 0 0 0

/-- The target of a C-format word: its header's offset + 4 × OFF. -/
def State.labelOf (s : State) (off : BitVec 17) : Word := s.w.clause.hdr + ((off.signExtend 32) <<< 2)

/-- A direct branch whose lanes satisfying `goes` go to the label; one that no lane takes names no target (spec/10 R242). -/
def State.branch (s : State) (g : Sig) (off : BitVec 17) (goes : State → Nat → Bool) : Out :=
  s.issueRaw g (fun s =>
    let t := s.labelOf off
    let next := s.w.clause.next
    let taken := maskWhere (fun l => inMask s.w.clause.enabled l && goes s l)
    if taken != 0 && !s.isHeader s.cur t then s.badTarget taken
    else s.transfer g (fun l => if goes s l then t else next) (t, next, false))

/-- BRA. -/
def execBra (st : BitVec 2) (off : BitVec 17) (s : State) : Out :=
  s.branch { slot := slot 0x28 0, stall := st } off (fun _ _ => true)

/-- BRA, predicated. -/
def execBraPred (st : BitVec 2) (ps : BitVec 3) (pn : BitVec 1) (off : BitVec 17) (s : State) : Out :=
  s.branch { slot := slot 0x28 1, stall := st, preds := [ps] } off (fun s l => s.readPX ps pn l)

/-- An indirect branch to each lane's register (R303, R305). -/
def State.branchTo (s : State) (g : Sig) (a : Code) : Out :=
  s.issueRaw g (fun s =>
    let bad := maskWhere (fun l => inMask s.w.clause.enabled l && !s.isHeader s.cur (s.readOp a l))
    if bad != 0 then s.badTarget bad
    else s.transfer g (s.readOp a) (s.readOp a s.lane0, 0, true))

/-- BRX. -/
def execBrx (st : BitVec 2) (a : Code) (s : State) : Out :=
  s.branchTo { slot := slot 0x28 2, stall := st, dst := false, uses := [(a, 1)] } a

/-- RET. -/
def execRet (st : BitVec 2) (a : Code) (s : State) : Out :=
  s.branchTo { slot := slot 0x28 4, stall := st, dst := false, uses := [(a, 1)] } a

/-- The link register (R304): v(VWB + 91), and hv3 in the event handler. -/
def Warp.linkCode (w : Warp) : Code := if w.hvBanked then 95 else 91

/-- CALL. -/
def execCall (st : BitVec 2) (off : BitVec 17) (s : State) : Out :=
  let g : Sig := { slot := slot 0x28 3, stall := st, uses := [(s.w.linkCode, 1)] }
  s.issueRaw g (fun s =>
    let t := s.labelOf off
    let next := s.w.clause.next
    if !s.isHeader s.cur t then s.badTarget s.w.clause.enabled
    else (s.putD s.w.linkCode (fun _ => next)).transfer g (fun _ => t) (t, next, false))

/-! ### Lanes that wait or leave -/

/-- A warp parked with every live lane in WAIT_JOIN raises BARRIER_TIMEOUT at the vat rung at once (spec/05 R120). -/
def State.joinStuck (s : State) (k : Nat) : State :=
  let w := s.warp k
  if w.wpark && w.masks.lmask != 0 && w.lanesIn waitJoin == w.masks.lmask && (s.vat w.vat).stop.isNone then
    let jb := ((List.range 8).find? (fun j => w.masks.jm.get j != 0 && w.masks.jm.get j != w.masks.ja.get j)).getD 0
    s.raise k { code := fBarrierTimeout, flm := w.masks.lmask, fpc := w.waitPc.get ((lowest w.masks.lmask).getD 0),
                info := BitVec.ofNat 32 jb } .boundary
  else s

/-- The end of an instruction that made lanes wait or leave: all of ISSUE stands at the successor, `left` has left AMASK,
`made` waits. -/
def State.endLeave (s : State) (g : Sig) (left made : Lanes) (pc succ : Word) : State :=
  let s := s.modW (fun w => w.afterLeave (left ||| made) pc succ)
  (s.modW (fun w => { w with masks := { w.masks with wset := if w.wpark then made &&& w.masks.lmask else w.masks.wset } })).retireAtBoundary g

/-- Every lane of ISSUE has its program counter at the successor. -/
def State.toSuccessor (s : State) : State :=
  s.modW (fun w => w.setModePcs (lanesOf w.clause.issue) (fun _ => w.clause.next))

/-- Lanes leave AMASK, and SGGRP where `parks`. -/
def Warp.dropActive (w : Warp) (ls : Lanes) (parks : Bool) : Warp :=
  { w with masks := { w.masks with
      amask := w.masks.amask &&& ~~~ ls, sggrp := if parks then w.masks.sggrp &&& ~~~ ls else w.masks.sggrp } }

/-- EXIT (R306). -/
def execExit (st : BitVec 2) (s : State) : Out :=
  let g : Sig := { slot := slot 0x28 5, stall := st }
  s.issueRaw g (fun s =>
    let c := s.w.clause
    let stay := c.issue &&& ~~~ c.enabled
    let s := s.modW (fun w => w.setModePcs (lanesOf stay) (fun _ => c.next))
    ((s.leave s.cur c.enabled c.pc).endLeave g c.enabled 0 c.pc c.next).joinStuck s.cur)

/-- NOP (spec/11 R266). -/
def execNop (st : BitVec 2) (s : State) : Out := s.issue { slot := slot 0x28 6, stall := st } id

/-- Nanoseconds that `n` cycles last, rounded up: a cycle is one of 1.4 GHz (spec/00 R9). -/
def cycleNs (n : Nat) : Nat := (5 * n + 6) / 7

/-- SLEEP (R307): the warp does not issue for `n` cycles. -/
def execSleep (st : BitVec 2) (imm : BitVec 14) (s : State) : Out :=
  let g : Sig := { slot := slot 0x28 7, stall := st }
  s.issueRaw g (fun s =>
    if imm == 0 then s.retire g
    else (s.retire g).park (.sleep (s.gtime + cycleNs imm.toNat)))

/-- ENROL (R308). -/
def execEnrol (st : BitVec 2) (d a : Code) (s : State) : Out :=
  s.issue { slot := slot 0x29 0, stall := st, ok := d < 8 && isK a, uses := [(a, 1)] } (fun s =>
    let m := s.readK a
    s.modW (fun w => { w with masks := { w.masks with jm := w.masks.jm.modify d.toNat (· ||| (m &&& w.masks.lmask)) } }))

/-- Lanes begin to wait. -/
def Warp.waits (w : Warp) (ls : Lanes) (st : BitVec 3) (bar : BitVec 5) (pc : Word) (now : Nat) : Warp :=
  (lanesOf ls).foldl (fun w l => { w with
    lstate := w.lstate.set l st, barid := w.barid.set l bar, barSince := w.barSince.set l now, waitPc := w.waitPc.set l pc }) w

/-- JWAIT (R309, spec/05 R121, R122). -/
def execJwait (st : BitVec 2) (d : Code) (s : State) : Out :=
  let g : Sig := { slot := slot 0x29 1, stall := st, ok := d < 8 }
  s.issueRaw g (fun s =>
    let c := s.w.clause
    let made := c.enabled &&& s.w.masks.jm.get d.toNat
    let s := s.toSuccessor.modW (fun w =>
      let w := (w.waits made waitJoin 0 c.pc s.gtime).dropActive made false
      { w with masks := { w.masks with ja := w.masks.ja.modify d.toNat (· ||| made) } })
    let done := s.w.completeJoin.isSome
    let s := s.modW (fun w => w.testJoins c.pc 8)
    if done then s.retireAtBoundary g else (s.endLeave g made made c.pc c.next).joinStuck s.cur)

/-- DRET at depth 1 (spec/05 R116). -/
def State.dret1 (s : State) (pc : Word) (mask : Lanes) : State :=
  let c := s.w.clause
  let s := s.modW (fun w =>
    let old := w.masks.amask
    let new := maskWhere (fun l => inMask mask l && inMask w.masks.lmask l && w.lstate.get l == ready && w.lpc.get l == pc)
    let w := { w.flush with hdep := 0, cause := none, phase := .boundary, masks := { w.masks with amask := new } }
    if new != 0 then w
    else if w.lanesIn ready == 0 then w.parkWarp 0
    -- without a handler the fallback policy goes on at the boundary (R119)
    else if !w.dhvEn then w
    else w.enterEvent (emptied c.pc c.next old))
  s.joinStuck s.cur

/-- DRET (R310). -/
def execDret (st : BitVec 2) (a b : Code) (s : State) : Out :=
  let g : Sig := { slot := slot 0x29 2, stall := st, ok := isK a && isK b, uses := [(a, 1), (b, 1)] }
  s.issueRaw g (fun s =>
    let pc := s.readK a
    let mask := s.readK b
    let c := s.w.clause
    if !s.isHeader s.cur pc then s.badTarget c.enabled
    else if s.w.hdep == 1 then (s.retireAtBoundary g).dret1 pc mask
    else
      let ls := lanesOf c.enabled
      (s.modW (fun w =>
        { (w.setModePcs (lanesOf (c.issue &&& ~~~ c.enabled)) (fun _ => c.next)) with
          dretWait := w.dretWait ||| c.enabled, dretPc := setPcs w.dretPc ls (fun _ => pc),
          dretMask := setPcs w.dretMask ls (fun _ => mask) })).retireAtBoundary g)

/-- PARK (R311). -/
def execPark (st : BitVec 2) (s : State) : Out :=
  let g : Sig := { slot := slot 0x29 3, stall := st }
  s.issueRaw g (fun s =>
    let c := s.w.clause
    (s.toSuccessor.modW (fun w => w.dropActive c.enabled w.sgact)).endLeave g c.enabled 0 c.pc c.next)

/-- YIELD (R311). -/
def execYield (st : BitVec 2) (s : State) : Out :=
  let g : Sig := { slot := slot 0x29 4, stall := st }
  s.issueRaw g (fun s =>
    let c := s.w.clause
    let s := s.toSuccessor
    (s.modW (fun w =>
      if w.sgact then w.dropActive c.enabled true
      else if w.dhvEn then
        { w with cause := some { evrec := 6, evpc := c.pc, evt := c.next, evf := c.next, evtk := 0, evm := c.issue } }
      else w)).retireAtBoundary g)

/-! ### Barriers -/

/-- BARV (R312, spec/05 R132): arrival is a release at vat scope (spec/08 R211). -/
def execBarv (st : BitVec 2) (s : State) : Out :=
  let g : Sig := { slot := slot 0x2A 0, stall := st }
  s.issueRaw g (fun s => s.sampling g (fun s => s.releasing 1 (fun s =>
    let c := s.w.clause
    let arr := c.enabled &&& ~~~ s.w.masks.blmask
    let s := s.modV (fun v => { v with
      vbstat := vbMake (v.vbstat.getLsbD 31) (vbExpect v.vbstat) (vbArrived v.vbstat + countLanes arr) })
    let s := s.toSuccessor.modW (fun w => (w.waits arr waitBar 0 c.pc s.gtime).dropActive arr false)
    let s := s.endLeave g arr arr c.pc c.next
    if arr == 0 then s else s.testVatBarrier s.w.vat)))

/-- A named barrier completes when ARRIVED ≥ EXPECT (R313): its waiting lanes become READY, its counts clear, PHASE
toggles. -/
def State.testNamedBarrier (s : State) (vk nb : Nat) : State :=
  let v := s.vat vk
  let b := v.nbstat.get nb
  if vbArrived b < vbExpect b then s
  else
    let s := s.setVat vk { v with nbstat := v.nbstat.set nb (vbMake (!b.getLsbD 31) 0 0) }
    (warpKeys vk v).foldl (fun s k => (s.takeOverAt k (BitVec.ofNat 5 (16 + nb))).modWarp k (fun w =>
      let made := w.waitingAt (BitVec.ofNat 5 (16 + nb))
      ({ w with barid := (lanesOf made).foldl (fun m l => m.set l 0) w.barid }).wake made true)) s

/-- BARN (R313). -/
def execBarn (st : BitVec 2) (d a : Code) (s : State) : Out :=
  let g : Sig := { slot := slot 0x2A 1, stall := st, ok := d < 16 && isK a, uses := [(a, 1)] }
  s.issueRaw g (fun s =>
    let n := (s.readK a).toNat
    let nb := d.toNat
    let b := s.v.nbstat.get nb
    if n == 0 || 1024 < n || (vbExpect b != 0 && vbExpect b != n) then s.raiseHere fIllegalOperand 0
    else s.releasing 1 (fun s =>
      let c := s.w.clause
      let s := s.modV (fun v => { v with
        nbstat := v.nbstat.set nb (vbMake (b.getLsbD 31) n (vbArrived b + countLanes c.enabled)) })
      let s := s.toSuccessor.modW (fun w =>
        (w.waits c.enabled waitBar (BitVec.ofNat 5 (16 + nb)) c.pc s.gtime).dropActive c.enabled false)
      let s := s.endLeave g c.enabled c.enabled c.pc c.next
      s.testNamedBarrier s.w.vat nb))

/-- BLEAVE (R312, spec/05 R132). -/
def execBleave (st : BitVec 2) (s : State) : Out :=
  s.issue { slot := slot 0x2A 2, stall := st } (fun s =>
    let new := s.w.clause.enabled &&& ~~~ s.w.masks.blmask
    let s := s.modW (fun w => { w with masks := { w.masks with blmask := w.masks.blmask ||| new } })
    s.lowerExpect s.w.vat (countLanes new))

/-! ### Clause events -/

/-- CLAUSE_ISSUE: the warp in turn reads its clause header (spec/11 R249). -/
def execClauseIssue (s : State) : Out := .next s.issueHeader

/-- A fault found by an engine, or an error in the vat's storage (spec/07 R186), is raised at a clause boundary; the second,
and one of a warp without live lanes (R171), at the vat rung. -/
def State.raiseAsync (s : State) (fr : FaultRecord) : State :=
  let r : Raise := { code := fr.code, flm := fr.flm, fpc := fr.fpc, info := fr.info, fva := fr.fva, cause := fr.cause, dies := fr.dies,
                     claim := fr.claim }
  if fr.rung == 1 && s.v.stop.isNone && !s.w.saveRestore then
    s.offerVat s.cur (if fr.warp == BitVec.ofNat 6 s.w.num then s.record s.cur r else fr) .boundary
  else s.raise s.cur r .boundary

/-- CLAUSE_BOUNDARY (spec/05 R114): a stop, an eviction, another warp's vat trap and a fault found by an engine come before the events of the
warp; a fault of pending lanes comes before the eviction, which waits for it (`Warp.drains`). -/
def execClauseBoundary (s : State) : Out :=
  let w := s.w
  if s.v.stop.isSome then .next (s.setW { w with stopped := true, hold := .free })
  else if w.drains then .next (s.setW w.toDrain)
  else if s.v.trapWarp.isSome && s.v.trapWarp != some s.cur && !w.saveRestore then .next (s.setW { w with vatTrapStop := true })
  else match w.async with
    | fr :: rest => .next ((s.setW { w with async := rest }).raiseAsync fr)
    | [] => .next (s.setW w.boundary)

end Sys2Proof.Machine
end

