-- ==== Sys2Proof/Machine/Float.lean ====
section
/-! DEFINITION. Floating-point arithmetic (spec/09 R219–R230): exact values, one rounding, the formats, narrow codes and
format slots, conversions, the special functions of spec/12 R291 correctly rounded. Every function computes by structural
recursion on numbers. -/

namespace Sys2Proof.Machine

/-! ### Values -/

/-- A floating value: NaN (signalling or quiet), an infinity, or (-1)^neg × m × 2^e. -/
inductive FVal where
  | nan (signalling : Bool)
  | inf (neg : Bool)
  | fin (neg : Bool) (m : Nat) (e : Int)
  deriving DecidableEq, Repr, Inhabited

/-- A format with an implicit bit: precision, least and greatest exponent of a normal number. -/
structure Fmt where
  p : Nat
  emin : Int
  emax : Int
  deriving DecidableEq, Repr, Inhabited

def f32 : Fmt := { p := 24, emin := -126, emax := 127 }
def f16 : Fmt := { p := 11, emin := -14, emax := 15 }
def bf16 : Fmt := { p := 8, emin := -126, emax := 127 }

/-- Width of the exponent field. -/
def Fmt.expBits (f : Fmt) : Nat := if f.emax = 15 then 5 else 8
def Fmt.width (f : Fmt) : Nat := f.expBits + f.p

/-- Dec: the value of an encoded number (R219). -/
def Fmt.decode (f : Fmt) (b : Nat) : FVal :=
  let t := f.p - 1
  let man := b % 2 ^ t
  let ex := b / 2 ^ t % 2 ^ f.expBits
  let neg := b / 2 ^ (f.width - 1) % 2 == 1
  if ex = 2 ^ f.expBits - 1 then
    if man = 0 then .inf neg else .nan (man / 2 ^ (t - 1) == 0)
  else if ex = 0 then .fin neg man (f.emin - t)
  else .fin neg (man + 2 ^ t) (ex - f.emax - t)

/-- The canonical NaN (R221), an infinity, a zero, the largest finite number. -/
def Fmt.nanCode (f : Fmt) : Nat := (2 ^ f.expBits - 1) * 2 ^ (f.p - 1) + 2 ^ (f.p - 2)
def Fmt.sign (f : Fmt) (neg : Bool) : Nat := if neg then 2 ^ (f.width - 1) else 0
def Fmt.infCode (f : Fmt) (neg : Bool) : Nat := f.sign neg + (2 ^ f.expBits - 1) * 2 ^ (f.p - 1)
def Fmt.maxCode (f : Fmt) (neg : Bool) : Nat := f.infCode neg - 1

/-- An integer quotient and the part cut off, as the rounding sees it: exact, below, at or above one half. -/
structure Cut where
  n : Nat
  inexact : Bool
  half : Ordering
  deriving DecidableEq, Repr

/-- m × 2^e (plus something below one unit when `sticky`) over 2^q. -/
def cutAt (m : Nat) (e : Int) (sticky : Bool) (q : Int) : Cut :=
  if q ≤ e then { n := m * 2 ^ (e - q).toNat, inexact := sticky, half := .lt }
  else
    let k := (q - e).toNat
    let r := m % 2 ^ k
    let h := 2 ^ (k - 1)
    { n := m / 2 ^ k, inexact := r != 0 || sticky,
      half := if r < h then .lt else if r = h ∧ sticky = false then .eq else .gt }

/-- The rounding decision (R220): RNE, RTZ, RUP, RDN. -/
def Cut.round (c : Cut) (rm : BitVec 2) (neg : Bool) : Nat :=
  let up : Bool := match rm.toNat with
    | 0 => c.half == .gt || (c.half == .eq && c.n % 2 == 1)
    | 1 => false
    | 2 => c.inexact && !neg
    | _ => c.inexact && neg
  if up then c.n + 1 else c.n

/-- The rounded magnitude n × 2^q of a non-zero value, with the least exponent `emin` and no greatest one; whether it is
inexact, and whether it is tiny after rounding (R222). -/
structure Rounded where
  n : Nat
  q : Int
  inexact : Bool
  tiny : Bool
  deriving DecidableEq, Repr

def roundMag (p : Nat) (emin : Int) (rm : BitVec 2) (neg : Bool) (m : Nat) (e : Int) (sticky : Bool) : Rounded :=
  let top : Int := e + Nat.log2 m
  let q0 := top - (p - 1 : Nat)
  let q := max top emin - (p - 1 : Nat)
  let c := cutAt m e sticky q
  let c0 := cutAt m e sticky q0
  let n0 := c0.round rm neg
  { n := c.round rm neg, q := q, inexact := c.inexact,
    tiny := decide (top < emin) && !(decide (n0 = 2 ^ p) && decide (top + 1 = emin)) }

/-- Overflow under a mode: infinity or the largest finite number (R228). -/
def overflowsToInf (rm : BitVec 2) (neg : Bool) : Bool :=
  match rm.toNat with
  | 0 => true
  | 1 => false
  | 2 => !neg
  | _ => neg

/-- Encodes n × 2^q, n ≤ 2^p, as a number of the format. -/
def Fmt.encodeFin (f : Fmt) (neg : Bool) (n : Nat) (q : Int) : Nat :=
  let t := f.p - 1
  if n < 2 ^ t then f.sign neg + n
  else
    let n' := if n = 2 ^ f.p then 2 ^ t else n
    let q' := if n = 2 ^ f.p then q + 1 else q
    f.sign neg + (q' + t + f.emax).toNat * 2 ^ t + (n' - 2 ^ t)

/-- Round (spec/12 R277): the exact non-zero value (-1)^neg × m × 2^e, or one just above it in magnitude when `sticky`,
in the format and mode, with its flags. -/
def Fmt.roundFin (f : Fmt) (rm : BitVec 2) (neg : Bool) (m : Nat) (e : Int) (sticky : Bool) : Nat × Flags :=
  let r := roundMag f.p f.emin rm neg m e sticky
  let big := decide (f.emax < r.q + (Nat.log2 r.n : Nat)) && r.n != 0
  if big then ((if overflowsToInf rm neg then f.infCode neg else f.maxCode neg), fOF ||| fNX)
  else (f.encodeFin neg r.n r.q, (if r.inexact then fNX else 0) ||| (if r.inexact && r.tiny then fUF else 0))

/-- Rounds a value: zeros keep their sign, NaN is canonical. -/
def Fmt.round (f : Fmt) (rm : BitVec 2) : FVal → Nat × Flags
  | .nan s => (f.nanCode, if s then fNV else 0)
  | .inf n => (f.infCode n, 0)
  | .fin n m e => if m = 0 then (f.sign n, 0) else f.roundFin rm n m e false

/-! ### Exact sums and products -/

def FVal.isNan : FVal → Bool
  | .nan _ => true
  | _ => false
def FVal.isSnan : FVal → Bool
  | .nan s => s
  | _ => false
def FVal.isInf : FVal → Bool
  | .inf _ => true
  | _ => false
def FVal.isZero : FVal → Bool
  | .fin _ m _ => m == 0
  | _ => false
def FVal.neg : FVal → Bool
  | .nan _ => false
  | .inf n => n
  | .fin n _ _ => n
def FVal.negate : FVal → FVal
  | .nan s => .nan s
  | .inf n => .inf (!n)
  | .fin n m e => .fin (!n) m e

/-- Flag of a signalling source (R221). -/
def snanFlag (xs : List FVal) : Flags := if xs.any FVal.isSnan then fNV else 0

/-- The exact product; a zero times an infinity is invalid. -/
def mulVal (a b : FVal) : FVal × Flags :=
  if a.isNan || b.isNan then (.nan false, snanFlag [a, b])
  else match a, b with
    | .fin na ma ea, .fin nb mb eb => (.fin (xor na nb) (ma * mb) (ea + eb), 0)
    | x, y => if x.isZero || y.isZero then (.nan false, fNV) else (.inf (xor x.neg y.neg), 0)

/-- The signed integer of a finite value at exponent `e`, which is not above its own. -/
def FVal.at (v : FVal) (e : Int) : Int :=
  match v with
  | .fin n m x => let k : Int := (m * 2 ^ (x - e).toNat : Nat); if n then -k else k
  | _ => 0

def FVal.exp : FVal → Int
  | .fin _ _ e => e
  | _ => 0

/-- The exact sum of finite values. A zero sum keeps the sign all the terms agree on, where all are zeros; otherwise it is
+0, or −0 under RDN (spec/12 R282). -/
def sumFin (rm : BitVec 2) (xs : List FVal) : FVal :=
  let e := (xs.filter (fun x => !x.isZero)).foldl (fun r x => min r x.exp) (((xs.filter (fun x => !x.isZero)).headD (.fin false 0 0)).exp)
  let t := (xs.filter (fun x => !x.isZero)).foldl (fun r x => r + x.at e) (0 : Int)
  if t = 0 then
    if xs.all (fun x => x.isZero && x.neg) then .fin true 0 0
    else if xs.all (fun x => x.isZero && !x.neg) then .fin false 0 0
    else .fin (rm == 3) 0 0
  else .fin (decide (t < 0)) t.natAbs e

/-- The exact sum of any values: opposite infinities are invalid. -/
def sumVal (rm : BitVec 2) (xs : List FVal) : FVal × Flags :=
  if xs.any FVal.isNan then (.nan false, snanFlag xs)
  else
    let infs := xs.filter FVal.isInf
    match infs with
    | [] => (sumFin rm xs, 0)
    | i :: _ => if infs.all (fun x => x.neg == i.neg) then (i, 0) else (.nan false, fNV)

/-- A result rounded, with the flags of the exact operation. -/
def Fmt.finish (f : Fmt) (rm : BitVec 2) (r : FVal × Flags) : Nat × Flags :=
  let x := f.round rm r.1
  (x.1, x.2 ||| r.2)

def Fmt.add (f : Fmt) (rm : BitVec 2) (a b : Nat) : Nat × Flags := f.finish rm (sumVal rm [f.decode a, f.decode b])
def Fmt.sub (f : Fmt) (rm : BitVec 2) (a b : Nat) : Nat × Flags :=
  f.finish rm (sumVal rm [f.decode a, (f.decode b).negate])
def Fmt.mul (f : Fmt) (rm : BitVec 2) (a b : Nat) : Nat × Flags := f.finish rm (mulVal (f.decode a) (f.decode b))

/-- The exact sum of products and a value: the invalid products count whatever the rest is. -/
def fmaVal (rm : BitVec 2) (ps : List (FVal × FVal)) (c : FVal) : FVal × Flags :=
  let prods := ps.map (fun p => mulVal p.1 p.2)
  let fl := prods.foldl (fun r p => r ||| p.2) (snanFlag [c])
  let r := sumVal rm (prods.map (·.1) ++ [c])
  (r.1, r.2 ||| fl)

def Fmt.fma (f : Fmt) (rm : BitVec 2) (a b c : Nat) : Nat × Flags :=
  f.finish rm (fmaVal rm [(f.decode a, f.decode b)] (f.decode c))

/-! ### Comparison, minimum, classification (spec/12 R282, R284) -/

/-- The order of two values that are not NaN; zeros are equal. -/
def cmpVal (a b : FVal) : Ordering :=
  match a, b with
  | .inf n, .inf m => if n = m then .eq else if n then .lt else .gt
  | .inf n, _ => if n then .lt else .gt
  | _, .inf n => if n then .gt else .lt
  | x, y =>
    let e := min x.exp y.exp
    compare (x.at e) (y.at e)

/-- FMIN and FMAX: the lesser or greater, with −0 below +0; of one NaN the other operand. -/
def fminmax (greater : Bool) (a b : Nat) : Nat × Flags :=
  let x := f32.decode a
  let y := f32.decode b
  let fl := snanFlag [x, y]
  if x.isNan && y.isNan then (f32.nanCode, fl)
  else if x.isNan then (b, fl)
  else if y.isNan then (a, fl)
  else
    let less := match cmpVal x y with
      | .lt => true
      | .gt => false
      | .eq => x.neg && !y.neg
    if less != greater then (a, fl) else (b, fl)

def fneg (a : Nat) : Nat × Flags :=
  let x := f32.decode a
  if x.isNan then (f32.nanCode, snanFlag [x]) else ((a + 2 ^ 31) % 2 ^ 32, 0)

def fabs (a : Nat) : Nat × Flags :=
  let x := f32.decode a
  if x.isNan then (f32.nanCode, snanFlag [x]) else (a % 2 ^ 31, 0)

/-- FCLASS: one bit of ten. -/
def fclassOf (a : Nat) : Nat :=
  match f32.decode a with
  | .nan s => if s then 2 ^ 8 else 2 ^ 9
  | .inf n => if n then 1 else 2 ^ 7
  | .fin n m _ =>
    if m = 0 then (if n then 2 ^ 3 else 2 ^ 4)
    else if m < 2 ^ 23 then (if n then 2 ^ 2 else 2 ^ 5)
    else if n then 2 ^ 1 else 2 ^ 6

/-- FCMPP's codes (R284). -/
def floatCmp (sub : BitVec 4) (a b : Nat) : Bool × Flags :=
  let x := f32.decode a
  let y := f32.decode b
  let anyNan := x.isNan || y.isNan
  let c := cmpVal x y
  let r := match sub.toNat with
    | 0 => !anyNan && c == .eq
    | 1 => anyNan || c != .eq
    | 2 => !anyNan && c == .lt
    | 3 => !anyNan && c != .gt
    | 4 => !anyNan && c == .gt
    | 5 => !anyNan && c != .lt
    | 6 => !anyNan
    | _ => anyNan
  (r, if 2 ≤ sub.toNat && sub.toNat ≤ 5 && anyNan then fNV else snanFlag [x, y])

/-! ### Integers and floats (R228, R285) -/

/-- A finite value rounded to an integer: magnitude and whether it changed. -/
def toIntMag (rm : BitVec 2) (neg : Bool) (m : Nat) (e : Int) : Nat × Bool :=
  let c := cutAt m e false 0
  (c.round rm neg, c.inexact)

/-- FRINT: an integral value of the same sign; inexact is not raised. -/
def frintOf (rm : BitVec 2) (a : Nat) : Nat × Flags :=
  match f32.decode a with
  | .nan s => (f32.nanCode, if s then fNV else 0)
  | .inf n => (f32.infCode n, 0)
  | .fin n m e =>
    let r := (toIntMag rm n m e).1
    if r = 0 then (f32.sign n, 0) else ((f32.roundFin 1 n r 0 false).1, 0)

/-- A float rounded into [lo, hi] (R228). -/
def floatToInt (rm : BitVec 2) (lo hi : Int) : FVal → Int × Flags
  | .nan _ => (0, fNV)
  | .inf n => (if n then lo else hi, fNV)
  | .fin n m e =>
    let r := toIntMag rm n m e
    let i : Int := if n then -(r.1 : Int) else r.1
    if i < lo then (lo, fNV) else if hi < i then (hi, fNV) else (i, if r.2 then fNX else 0)

/-! ### Narrow codes and format slots (R223–R230) -/

/-- A format slot (R225). -/
def slKind (w : Word) : Nat := (w.extractLsb' 0 4).toNat
def slP (w : Word) : Nat := (w.extractLsb' 4 3).toNat
def slSgn (w : Word) : Bool := w.getLsbD 7
def slInf (w : Word) : Bool := w.getLsbD 8
def slSat (w : Word) : Bool := w.getLsbD 9
def slScl (w : Word) : Nat := (w.extractLsb' 10 2).toNat

/-- A slot encoding is unassigned (R226). -/
def slotUnassigned (w : Word) : Bool :=
  decide (6 ≤ slKind w) || w.extractLsb' 12 20 != 0
    || (slKind w == 0 && slP w == 0) || (slKind w == 1 && (slP w == 0 || decide (3 < slP w)))
    || (decide (2 ≤ slKind w) && (slP w != 0 || slInf w)) || (decide (4 ≤ slKind w) && !slSgn w)
    || slScl w == 3 || ((slKind w == 2 || slKind w == 3) && slScl w != 0)

/-- Element width in bits. -/
def slWidth (w : Word) : Nat :=
  match slKind w with
  | 0 => 8
  | 1 => 4
  | 2 => 8
  | 3 => 4
  | _ => 16

def slIsInt (w : Word) : Bool := slKind w == 2 || slKind w == 3

/-- Exponent width and bias of a narrow floating format. -/
def slExpBits (w : Word) : Nat := slWidth w - slP w + (if slSgn w then 0 else 1)
def slBias (w : Word) : Nat := 2 ^ (slExpBits w - 1)

/-- The value of a narrow floating code (R223 Table 1). -/
def narrowDecode (w : Word) (c : Nat) : FVal :=
  let k := slWidth w
  let t := slP w - 1
  let sgn := slSgn w
  let neg := sgn && c / 2 ^ (k - 1) == 1
  let mag := if sgn then c % 2 ^ (k - 1) else c
  if (if sgn then c == 2 ^ (k - 1) else c == 2 ^ k - 1) then .nan false
  else if slInf w && (if sgn then mag == 2 ^ (k - 1) - 1 else c == 2 ^ k - 2) then .inf neg
  else
    let e := mag / 2 ^ t
    let f := mag % 2 ^ t
    if e = 0 then .fin neg f (1 - slBias w - t : Int) else .fin neg (f + 2 ^ t) (e - slBias w - t : Int)

/-- The integer of an INT8 or INT4 code (R224). -/
def narrowInt (w : Word) (c : Nat) : Int :=
  let k := slWidth w
  if slSgn w && 2 ^ (k - 1) ≤ c then (c : Int) - 2 ^ k else c

/-- The value of an element of any slot (R229). A signalling NaN of a 16-bit format stays one. -/
def slotValue (w : Word) (c : Nat) : FVal :=
  match slKind w with
  | 0 => narrowDecode w c
  | 1 => narrowDecode w c
  | 4 => f16.decode c
  | 5 => bf16.decode c
  | _ => let i := narrowInt w c; .fin (decide (i < 0)) i.natAbs 0

/-- The largest finite magnitude code of a narrow floating format. -/
def narrowMaxMag (w : Word) : Nat :=
  let k := slWidth w
  (if slSgn w then 2 ^ (k - 1) - 1 else 2 ^ k - 2) - (if slInf w then 1 else 0)

def narrowNan (w : Word) : Nat := if slSgn w then 2 ^ (slWidth w - 1) else 2 ^ slWidth w - 1
def narrowSign (w : Word) (neg : Bool) : Nat := if neg && slSgn w then 2 ^ (slWidth w - 1) else 0
def narrowInfCode (w : Word) (neg : Bool) : Nat := narrowSign w neg + narrowMaxMag w + 1

/-- The magnitude code of n × 2^q, if it is representable below the infinity and NaN codes; codes rise with value. -/
def narrowMag (w : Word) (n : Nat) (q : Int) : Nat :=
  let t := slP w - 1
  if n < 2 ^ t then n
  else
    let n' := if n = 2 ^ slP w then 2 ^ t else n
    let q' := if n = 2 ^ slP w then q + 1 else q
    (q' + t + slBias w).toNat * 2 ^ t + (n' - 2 ^ t)

/-- CVTS of a finite or infinite binary32 into a narrow floating slot, steps 2 to 5 of R230. -/
def narrowEncode (w : Word) (rm : BitVec 2) (x : FVal) : Nat × Flags :=
  let max := narrowMaxMag w
  match x with
  | .nan s => (narrowNan w, if s then fNV else 0)
  | .inf neg =>
    if neg && !slSgn w then ((if slSat w then 0 else narrowNan w), fNV)
    else if slInf w then (narrowInfCode w neg, 0)
    else ((if slSat w then narrowSign w neg + max else narrowNan w), fNV)
  | .fin neg m e =>
    if m = 0 then (0, 0)
    else
      let emin : Int := 1 - slBias w
      let r := roundMag (slP w) emin rm neg m e false
      if r.n = 0 then (0, fUF ||| fNX)
      else if neg && !slSgn w then ((if slSat w then 0 else narrowNan w), fNV)
      else
        let mag := narrowMag w r.n r.q
        if max < mag then
          let toward := rm == 1 || (rm == 3 && !neg) || (rm == 2 && neg)
          ((if slSat w || toward then narrowSign w neg + max
            else if slInf w then narrowInfCode w neg else narrowNan w), fOF ||| fNX)
        else
          (narrowSign w neg + mag, (if r.inexact then fNX else 0) ||| (if r.inexact && r.tiny then fUF else 0))

/-- CVTS.TO (R230): the code of a binary32 value in a slot. -/
def toSlot (w : Word) (rm : BitVec 2) (a : Nat) : Nat × Flags :=
  let x := f32.decode a
  let k := slWidth w
  match slKind w with
  | 0 => narrowEncode w rm x
  | 1 => narrowEncode w rm x
  | 4 => sat f16 x
  | 5 => sat bf16 x
  | _ =>
    let wide : Int × Flags := if slSgn w then floatToInt rm (-2 ^ 31) (2 ^ 31 - 1) x else floatToInt rm 0 (2 ^ 32 - 1) x
    let lo : Int := if slSgn w then -2 ^ (k - 1) else 0
    let hi : Int := if slSgn w then 2 ^ (k - 1) - 1 else 2 ^ k - 1
    let out := decide (wide.1 < lo) || decide (hi < wide.1)
    let v := if slSat w then max lo (min hi wide.1) else wide.1
    ((v % 2 ^ k).toNat, wide.2 ||| (if out then fNV else 0))
where
  sat (f : Fmt) (x : FVal) : Nat × Flags :=
    let r := f.round rm x
    if slSat w && r.2 &&& fOF != 0 then (f.maxCode x.neg, r.2) else r

/-- CVTS.FROM (R229): the exact binary32 value of a code; no flag. -/
def fromSlot (w : Word) (c : Nat) : Nat := (f32.round 0 (slotValue w c)).1

/-! ### Square roots and reciprocals, exact to the last bit -/

/-- The integer square root, bit by bit. -/
def isqrtBits : Nat → Nat → Nat → Nat
  | 0, _, r => r
  | k + 1, n, r => if (r + 2 ^ k) * (r + 2 ^ k) ≤ n then isqrtBits k n (r + 2 ^ k) else isqrtBits k n r

def isqrt (n : Nat) : Nat := isqrtBits (Nat.log2 n / 2 + 1) n 0

/-- FRCP: 1/a. -/
def frcpOf (a : Nat) : Nat × Flags :=
  match f32.decode a with
  | .nan s => (f32.nanCode, if s then fNV else 0)
  | .inf n => (f32.sign n, 0)
  | .fin n m e =>
    if m = 0 then (f32.infCode n, fDZ)
    else f32.roundFin 0 n (2 ^ 80 / m) (-80 - e) (2 ^ 80 % m != 0)

/-- The mantissa and exponent of a value made so that the exponent is even. -/
def evenExp (m : Nat) (e : Int) : Nat × Int := if e % 2 = 0 then (m, e) else (2 * m, e - 1)

/-- FSQRT. -/
def fsqrtOf (a : Nat) : Nat × Flags :=
  match f32.decode a with
  | .nan s => (f32.nanCode, if s then fNV else 0)
  | .inf n => if n then (f32.nanCode, fNV) else (f32.infCode false, 0)
  | .fin n m e =>
    if m = 0 then (f32.sign n, 0)
    else if n then (f32.nanCode, fNV)
    else
      let x := evenExp m e
      let big := x.1 * 2 ^ 80
      let r := isqrt big
      f32.roundFin 0 false r (x.2 / 2 - 40) (r * r != big)

/-- FRSQ: 1/√a. -/
def frsqOf (a : Nat) : Nat × Flags :=
  match f32.decode a with
  | .nan s => (f32.nanCode, if s then fNV else 0)
  | .inf n => if n then (f32.nanCode, fNV) else (f32.sign false, 0)
  | .fin n m e =>
    if m = 0 then (f32.infCode n, fDZ)
    else if n then (f32.nanCode, fNV)
    else
      let x := evenExp m e
      let r := isqrt (2 ^ 160 / x.1)
      f32.roundFin 0 false r (-80 - x.2 / 2) (r * r * x.1 != 2 ^ 160)

/-! ### Fixed-point approximations with error bounds

An approximation is a number of units of 2^-n and a bound, in units, on its distance from the value it stands for. -/

structure App where
  c : Int
  err : Nat
  deriving DecidableEq, Repr

/-- The odd terms z^(2k+1)/(2k+1) of a series, with their signs alternating or not, from the term `t` = z^(2k+1) on;
`zz` is z². -/
def oddSeries (n : Nat) (alternating : Bool) (zz : Nat) : Nat → Nat → Nat → Int → Int
  | 0, _, _, acc => acc
  | fuel + 1, k, t, acc =>
    if t = 0 then acc
    else
      let term : Int := (t / (2 * k + 1) : Nat)
      oddSeries n alternating zz fuel (k + 1) (t * zz / 2 ^ n)
        (if alternating && k % 2 == 1 then acc - term else acc + term)

/-- arctan(1/q). Each of the terms used is short by less than 2 units. -/
def atanInv (n q : Nat) : App :=
  let z := 2 ^ n / q
  { c := oddSeries n true (z * z / 2 ^ n) n 0 z 0, err := 4 * n + 4 }

/-- π = 16 arctan(1/5) − 4 arctan(1/239). -/
def piApp (n : Nat) : App :=
  let a := atanInv n 5
  let b := atanInv n 239
  { c := 16 * a.c - 4 * b.c, err := 16 * a.err + 4 * b.err }

/-- 2 artanh(z) for z in units, z ≤ 1/3. -/
def twoAtanh (n z : Nat) : App :=
  { c := 2 * oddSeries n false (z * z / 2 ^ n) n 0 z 0, err := 8 * n + 8 }

def ln2App (n : Nat) : App := twoAtanh n (2 ^ n / 3)

/-- Terms t^k/k! of the exponential series from `term` on. -/
def expSeries (n t : Nat) : Nat → Nat → Nat → Nat → Nat
  | 0, _, _, acc => acc
  | fuel + 1, k, term, acc =>
    if term = 0 then acc else expSeries n t fuel (k + 1) (term * t / 2 ^ n / (k + 1)) (acc + term)

/-- Terms of sine (from k = 1) or cosine (from k = 0): the sign alternates, each divides by (k+1)(k+2). -/
def trigSeries (n rr : Nat) : Nat → Nat → Nat → Bool → Int → Int
  | 0, _, _, _, acc => acc
  | fuel + 1, k, term, minus, acc =>
    if term = 0 then acc
    else trigSeries n rr fuel (k + 2) (term * rr / 2 ^ n / ((k + 1) * (k + 2))) (!minus)
      (if minus then acc - (term : Int) else acc + term)

/-- Rounds an approximation to binary32 when both ends of its interval round to one number; the value is known to be
inexact. -/
def settleApp (n : Nat) (a : App) (scale : Int) : Option (Nat × Flags) :=
  let neg := decide (a.c < 0)
  let mag := a.c.natAbs
  if mag ≤ a.err + 2 ^ 30 then none
  else
    let lo := f32.roundFin 0 neg (mag - a.err) (scale - n) true
    let hi := f32.roundFin 0 neg (mag + a.err - 1) (scale - n) true
    if lo = hi then some lo else none

/-- Tries precisions until one settles the rounding. -/
def settleFrom (f : Nat → Option (Nat × Flags)) : List Nat → Nat × Flags
  | [] => (f32.nanCode, 0)
  | n :: ns => match f n with
    | some r => r
    | none => settleFrom f ns

def precisions : List Nat := [160, 320, 640, 1280]

/-- FEXP2: 2^a. -/
def fexp2Of (a : Nat) : Nat × Flags :=
  match f32.decode a with
  | .nan s => (f32.nanCode, if s then fNV else 0)
  | .inf n => if n then (f32.sign false, 0) else (f32.infCode false, 0)
  | .fin neg m e =>
    let whole := (cutAt m e false 0)
    if whole.inexact = false then
      -- an integer exponent
      let k : Int := if neg then -(whole.n : Int) else whole.n
      if m = 0 then (f32.round 0 (.fin false 1 0)) else f32.roundFin 0 false 1 (max (-400) (min 400 k)) false
    else if 2 ^ 9 ≤ whole.n then
      f32.roundFin 0 false 1 (if neg then -400 else 400) true
    else
      let k : Int := if neg then -(whole.n : Int) - 1 else whole.n
      settleFrom (fun n =>
        -- f = a − k in [0, 1), exact in units of 2^-n or just above its floor
        let fx := ((if neg then (2 ^ n : Int) * (whole.n + 1) - (cutAt m e false (-(n : Int))).n
          else (cutAt m e false (-(n : Int))).n - (2 ^ n : Int) * whole.n)).toNat
        let l := ln2App n
        let t := fx * l.c.toNat / 2 ^ n
        settleApp n { c := expSeries n t n 0 (2 ^ n) 0, err := 4 * (l.err + 4) + 4 * n } k) precisions

/-- FLOG2: log₂ a. -/
def flog2Of (a : Nat) : Nat × Flags :=
  match f32.decode a with
  | .nan s => (f32.nanCode, if s then fNV else 0)
  | .inf n => if n then (f32.nanCode, fNV) else (f32.infCode false, 0)
  | .fin neg m e =>
    if m = 0 then (f32.infCode true, fDZ)
    else if neg then (f32.nanCode, fNV)
    else
      let top := Nat.log2 m
      let ex : Int := e + top
      if m = 2 ^ top then f32.round 0 (.fin (decide (ex < 0)) ex.natAbs 0)
      else
        settleFrom (fun n =>
          -- m / 2^top = (1 + z)/(1 − z)
          let z := (m - 2 ^ top) * 2 ^ n / (m + 2 ^ top)
          let l := twoAtanh n z
          let d := ln2App n
          let q : Int := l.c * 2 ^ n / d.c
          settleApp n { c := ex * 2 ^ n + q, err := 4 * (l.err + d.err + 4) } 0) precisions

/-- The quadrant and remainder of a magnitude by π/2, in units of 2^-n: r = a − q π/2 in [0, π/2) or nearly so. -/
def reduceQuarter (n m : Nat) (e : Int) : Nat × App :=
  let big := n + 160
  let p := piApp big
  let x := (cutAt m e false (-(big : Int))).n
  let q := 2 * x / p.c.toNat
  let r : Int := (x : Int) - q * p.c / 2
  (q, { c := r / 2 ^ 160, err := 2 + (q * p.err + 2) / 2 ^ 160 })

/-- sin or cos of a remainder. -/
def trigApp (n : Nat) (cosine : Bool) (r : App) : App :=
  let x := r.c.toNat
  let rr := x * x / 2 ^ n
  { c := if cosine then trigSeries n rr n 0 (2 ^ n) false 0 else trigSeries n rr n 1 x false 0,
    err := r.err + 4 * n + 8 }

/-- sin (`shift` 0) or cos (`shift` 1) of a finite non-zero value. -/
def trigOf (shift : Nat) (neg : Bool) (m : Nat) (e : Int) : Nat × Flags :=
  settleFrom (fun n =>
    let r := reduceQuarter n m e
    let q := (r.1 + shift) % 4
    let t := trigApp n (q % 2 == 1) r.2
    let minus := xor (2 ≤ q) (neg && shift == 0)
    settleApp n { t with c := if minus then -t.c else t.c } 0) precisions

/-- FSIN. Below 2^-13 the sine is the argument less something under a quarter of its last place. -/
def fsinOf (a : Nat) : Nat × Flags :=
  match f32.decode a with
  | .nan s => (f32.nanCode, if s then fNV else 0)
  | .inf _ => (f32.nanCode, fNV)
  | .fin neg m e =>
    if m = 0 then (f32.sign neg, 0)
    else if e + (Nat.log2 m : Nat) < -13 then f32.roundFin 0 neg (m * 2 ^ 40 - 1) (e - 40) true
    else trigOf 0 neg m e

/-- FCOS. -/
def fcosOf (a : Nat) : Nat × Flags :=
  match f32.decode a with
  | .nan s => (f32.nanCode, if s then fNV else 0)
  | .inf _ => (f32.nanCode, fNV)
  | .fin neg m e =>
    if m = 0 then f32.round 0 (.fin false 1 0)
    else if e + (Nat.log2 m : Nat) < -13 then f32.roundFin 0 false (2 ^ 40 - 1) (-40) true
    else trigOf 1 neg m e

/-! ### Dot-product groups (R232, R233) -/

/-- The floor of the base-2 logarithm of a non-zero finite value. -/
def FVal.floorLog (v : FVal) : Int :=
  match v with
  | .fin _ m e => e + (Nat.log2 m : Nat)
  | _ => 0

/-- A non-zero value truncated toward zero onto units of 2^q. -/
def FVal.onGrid (v : FVal) (q : Int) : Int :=
  match v with
  | .fin n m e => let k : Int := (cutAt m e false q).n; if n then -k else k
  | _ => 0

/-- The sum of a group's products before scaling, with its flag, invalid where no input was NaN: products are pairs of decoded elements, each
with the sum of its exponents. -/
def groupSum (ps : List (FVal × FVal × Int)) : FVal × Flags :=
  let prods := ps.map (fun p => (mulVal p.1 p.2.1, p.2.2))
  let vals := prods.map (fun p => match p.1.1 with | .fin n m e => FVal.fin n m (e + p.2) | v => v)
  let anyNan := vals.any FVal.isNan
  let pos := vals.any (fun v => v.isInf && !v.neg)
  let neg := vals.any (fun v => v.isInf && v.neg)
  if anyNan || (pos && neg) then
    (.nan false, if ps.any (fun p => p.1.isNan || p.2.1.isNan) then 0 else fNV)
  else if pos then (.inf false, 0)
  else if neg then (.inf true, 0)
  else
    let z := vals.filter (fun v => !v.isZero)
    match z with
    | [] => (.fin (vals.all FVal.neg) 0 0, 0)
    | v :: vs =>
      let q := vs.foldl (fun r x => max r x.floorLog) v.floorLog - 40
      let g := z.foldl (fun r x => r + x.onGrid q) (0 : Int)
      (.fin (decide (g < 0)) g.natAbs q, 0)

/-- FloatGroup (R232): the group's sum times the scale, rounded once to binary32. -/
def floatGroup (ps : List (FVal × FVal × Int)) (scale : FVal) : Nat × Flags :=
  let g := groupSum ps
  let r := f32.finish 0 (mulVal g.1 scale)
  (r.1, r.2 ||| g.2)

/-- One float group added to the accumulator. -/
def floatAccumulate (acc : Nat) (ps : List (FVal × FVal × Int)) (scale : FVal) : Nat × Flags :=
  let g := floatGroup ps scale
  let r := f32.add 0 acc g.1
  (r.1, r.2 ||| g.2)

/-- One integer group added to the INT32 accumulator (R233). -/
def intAccumulate (sat : Bool) (acc : Word) (ps : List (Int × Int)) : Word :=
  let t := ps.foldl (fun r p => r + p.1 * p.2) acc.toInt
  if sat then BitVec.ofInt 32 (max (-2 ^ 31) (min (2 ^ 31 - 1) t)) else BitVec.ofInt 32 t

end Sys2Proof.Machine
end

