-- ==== Sys2Proof/Machine/IntAlu.lean ====
section
/-! DEFINITION. Integer, logic, shift and move instructions (spec/12 R278–R281). -/

namespace Sys2Proof.Machine

/-! ### The moulds -/

/-- A two-source lane instruction of format R (spec/12 R277): each enabled lane's `d` becomes `op a b`. -/
def State.aluR (s : State) (k : Nat) (st : BitVec 2) (d a b : Code) (op : Word → Word → Word) : Out :=
  s.issue { slot := k, stall := st, ok := isLane d, uses := [(d, 1), (a, 1), (b, 1)] }
    (fun s => s.pendD d (fun l => op (s.readOp a l) (s.readOp b l)) (slotLatency k))

/-- A unary lane instruction. -/
def State.aluU (s : State) (k : Nat) (st : BitVec 2) (d a : Code) (op : Word → Word) : Out :=
  s.issue { slot := k, stall := st, ok := isLane d, uses := [(d, 1), (a, 1)] }
    (fun s => s.pendD d (fun l => op (s.readOp a l)) (slotLatency k))

/-- A three-source lane instruction. -/
def State.aluX (s : State) (k : Nat) (st : BitVec 2) (ok : Bool) (d a b c : Code) (op : Word → Word → Word → Word) : Out :=
  s.issue { slot := k, stall := st, ok := isLane d && ok, uses := [(d, 1), (a, 1), (b, 1), (c, 1)] }
    (fun s => s.pendD d (fun l => op (s.readOp a l) (s.readOp b l) (s.readOp c l)) (slotLatency k))

/-- Both words of a pair written as one result. -/
def State.pendPair (s : State) (d : Code) (value : Nat → BitVec 64) (lat : Nat) : State :=
  (s.pendD d (fun l => (value l).setWidth 32) lat).pendD (d + 1) (fun l => (value l >>> 32).setWidth 32) lat

/-- A 64-bit instruction on pairs (R279): `nb` registers of b are read. -/
def State.alu64 (s : State) (k : Nat) (st : BitVec 2) (d a b : Code) (nb : Nat) (op : BitVec 64 → BitVec 64 → BitVec 64) : Out :=
  s.issue { slot := k, stall := st, ok := lanePair d && aligned a 2 && aligned b nb, uses := [(d, 2), (a, 2), (b, nb)] }
    (fun s => s.pendPair d (fun l => op (s.readPair a l)
      (if nb = 2 then s.readPair b l else (s.readOp b l).setWidth 64)) (slotLatency k))

/-! ### Operations on words -/

/-- Bits [63:32] of the signed and of the unsigned product. -/
def mulhS (a b : Word) : Word := BitVec.ofInt 32 (a.toInt * b.toInt / 2 ^ 32)
def mulhN (a b : Word) : Word := BitVec.ofNat 32 (a.toNat * b.toNat / 2 ^ 32)
def minS (a b : Word) : Word := if a.sle b then a else b
def maxS (a b : Word) : Word := if a.sle b then b else a
def absS (a : Word) : Word := if a.slt 0 then -a else a
def shlW (a b : Word) : Word := a <<< b.toNat
def shrW (a b : Word) : Word := a >>> b.toNat
def sarW (a b : Word) : Word := a.sshiftRight (min b.toNat 31)
def rolW (a b : Word) : Word := a.rotateLeft (b.toNat % 32)
def popW (a : Word) : Word := BitVec.ofNat 32 (countLanes a)
def clzW (a : Word) : Word :=
  BitVec.ofNat 32 (((List.range 32).find? (fun i => a.getLsbD (31 - i))).getD 32)
def brevW (a : Word) : Word := maskWhere (fun i => a.getLsbD (31 - i))

/-- IMAD's three forms (R280 Table 2). -/
def imadW (sub : BitVec 4) (a b c : Word) : Word :=
  match sub.toNat with
  | 0 => a * b + c
  | 1 => mulhS a b + c
  | _ => mulhN a b + c

/-- The mask of `n` low bits. -/
def lowMask (n : Nat) : Word := BitVec.ofNat 32 (2 ^ n - 1)

/-- BFI: `len` bits of a inserted into c at position b. -/
def bfiW (len : Nat) (a b c : Word) : Word :=
  if 32 ≤ b.toNat then c
  else
    let m := lowMask (min len (32 - b.toNat)) <<< b.toNat
    (c &&& ~~~ m) ||| ((a <<< b.toNat) &&& m)

/-- BFX: `len` bits of a extracted at position b, zero- or sign-extended. -/
def bfxW (signed : Bool) (len : Nat) (a b : Word) : Word :=
  if 32 ≤ b.toNat then 0
  else
    let n := min len (32 - b.toNat)
    let x := (a >>> b.toNat) &&& lowMask n
    if signed && x.getLsbD (n - 1) then x ||| ~~~ lowMask n else x


/-! ### Rows 0x00 and 0x01 -/

/-- IADD (R278). -/
def execIadd (st : BitVec 2) (d a b : Code) (s : State) : Out := s.aluR (slot 0 0) st d a b (fun a b => a + b)

/-- ISUB (R278). -/
def execIsub (st : BitVec 2) (d a b : Code) (s : State) : Out := s.aluR (slot 0 1) st d a b (fun a b => a - b)

/-- IMUL (R278): the low 32 bits. -/
def execImul (st : BitVec 2) (d a b : Code) (s : State) : Out := s.aluR (slot 0 2) st d a b (fun a b => a * b)

/-- IMULH (R278). -/
def execImulh (st : BitVec 2) (d a b : Code) (s : State) : Out := s.aluR (slot 0 3) st d a b (fun a b => mulhS a b)

/-- IMIN (R278). -/
def execImin (st : BitVec 2) (d a b : Code) (s : State) : Out := s.aluR (slot 0 4) st d a b (fun a b => minS a b)

/-- IMAX (R278). -/
def execImax (st : BitVec 2) (d a b : Code) (s : State) : Out := s.aluR (slot 0 5) st d a b (fun a b => maxS a b)

/-- IABS (R278). -/
def execIabs (st : BitVec 2) (d a : Code) (s : State) : Out := s.aluU (slot 0 6) st d a (fun a => absS a)

/-- INEG (R278). -/
def execIneg (st : BitVec 2) (d a : Code) (s : State) : Out := s.aluU (slot 0 7) st d a (fun a => -a)

/-- IMAD, IMAD.HI, IMAD.HI.N (R280). -/
def execImad (st : BitVec 2) (d a b : Code) (sub : BitVec 4) (c : Code) (s : State) : Out :=
  s.aluX (slot 1 0) st (sub ≤ 2) d a b c (imadW sub)

/-- IADD64 (R279). -/
def execIadd64 (st : BitVec 2) (d a b : Code) (s : State) : Out := s.alu64 (slot 1 1) st d a b 2 (fun a b => a + b)

/-- ISUB64 (R279). -/
def execIsub64 (st : BitVec 2) (d a b : Code) (s : State) : Out := s.alu64 (slot 1 2) st d a b 2 (fun a b => a - b)

/-- BFI (R280). -/
def execBfi (st : BitVec 2) (d a b c : Code) (imm7 : BitVec 7) (s : State) : Out :=
  s.aluX (slot 1 3) st (1 ≤ imm7 && imm7 ≤ 32) d a b c (bfiW imm7.toNat)

/-- BFX.N and BFX.S (R280). -/
def execBfx (st : BitVec 2) (d a b : Code) (sub : BitVec 4) (imm7 : BitVec 7) (s : State) : Out :=
  s.issue { slot := slot 1 4, stall := st, ok := isLane d && sub ≤ 1 && 1 ≤ imm7 && imm7 ≤ 32, uses := [(d, 1), (a, 1), (b, 1)] }
    (fun s => s.pendD d (fun l => bfxW (sub == 1) imm7.toNat (s.readOp a l) (s.readOp b l)) (slotLatency (slot 1 4)))

/-- SEL (R280). -/
def execSel (st : BitVec 2) (d a b : Code) (ps : BitVec 3) (pn : BitVec 1) (s : State) : Out :=
  s.issue { slot := slot 1 5, stall := st, ok := isLane d, uses := [(d, 1), (a, 1), (b, 1)], preds := [ps] }
    (fun s => s.pendD d (fun l => if s.readPX ps pn l then s.readOp a l else s.readOp b l) (slotLatency (slot 1 5)))

/-- The operand limits of the comparisons: their code, and PS and PN without CMB. -/
def cmpOk (top : BitVec 4) (sub : BitVec 4) (ps : BitVec 3) (pn : BitVec 1) (imm7 : BitVec 7) : Bool :=
  sub ≤ top && imm7 ≤ 1 && (imm7 == 1 || (ps == 0 && pn == 0))

/-- ICMPP (R280). -/
def execIcmpp (st : BitVec 2) (a b : Code) (sub : BitVec 4) (pd ps : BitVec 3) (pn : BitVec 1) (imm7 : BitVec 7)
    (s : State) : Out :=
  s.issue { slot := slot 1 6, stall := st, ok := cmpOk 9 sub ps pn imm7, dst := false, pdst := true, uses := [(a, 1), (b, 1)],
            preds := cmbPreds pd ps imm7 }
    (fun s => s.pendP pd (fun l => s.combine (intCmp sub (s.readOp a l) (s.readOp b l)) ps pn imm7 l)
      (slotLatency (slot 1 6)))

/-! ### Rows 0x02 and 0x03 -/

/-- AND (R278). -/
def execAnd (st : BitVec 2) (d a b : Code) (s : State) : Out := s.aluR (slot 2 0) st d a b (fun a b => a &&& b)

/-- OR (R278). -/
def execOr (st : BitVec 2) (d a b : Code) (s : State) : Out := s.aluR (slot 2 1) st d a b (fun a b => a ||| b)

/-- XOR (R278). -/
def execXor (st : BitVec 2) (d a b : Code) (s : State) : Out := s.aluR (slot 2 2) st d a b (fun a b => a ^^^ b)

/-- NOT (R278). -/
def execNot (st : BitVec 2) (d a : Code) (s : State) : Out := s.aluU (slot 2 3) st d a (fun a => ~~~ a)

/-- SHL (R278). -/
def execShl (st : BitVec 2) (d a b : Code) (s : State) : Out := s.aluR (slot 2 4) st d a b (fun a b => shlW a b)

/-- SHR (R278). -/
def execShr (st : BitVec 2) (d a b : Code) (s : State) : Out := s.aluR (slot 2 5) st d a b (fun a b => shrW a b)

/-- SAR (R278). -/
def execSar (st : BitVec 2) (d a b : Code) (s : State) : Out := s.aluR (slot 2 6) st d a b (fun a b => sarW a b)

/-- ROL (R278). -/
def execRol (st : BitVec 2) (d a b : Code) (s : State) : Out := s.aluR (slot 2 7) st d a b (fun a b => rolW a b)

/-- SHL64 (R279): an amount of 64 or more gives 0. -/
def execShl64 (st : BitVec 2) (d a b : Code) (s : State) : Out :=
  s.alu64 (slot 3 0) st d a b 1 (fun a b => a <<< b.toNat)

/-- SHR64 (R279). -/
def execShr64 (st : BitVec 2) (d a b : Code) (s : State) : Out :=
  s.alu64 (slot 3 1) st d a b 1 (fun a b => a >>> b.toNat)

/-- POPC (R278). -/
def execPopc (st : BitVec 2) (d a : Code) (s : State) : Out := s.aluU (slot 3 2) st d a (fun a => popW a)

/-- CLZ (R278). -/
def execClz (st : BitVec 2) (d a : Code) (s : State) : Out := s.aluU (slot 3 3) st d a (fun a => clzW a)

/-- BREV (R278). -/
def execBrev (st : BitVec 2) (d a : Code) (s : State) : Out := s.aluU (slot 3 4) st d a (fun a => brevW a)

/-- MOV (R278). -/
def execMov (st : BitVec 2) (d a : Code) (s : State) : Out := s.aluU (slot 3 5) st d a (fun a => a)

/-! ### Row 0x04: moves (R281) -/

/-- MOVI: the sign-extended immediate. -/
def execMovi (st : BitVec 2) (d : Code) (imm : BitVec 14) (s : State) : Out :=
  s.issue { slot := slot 4 0, stall := st, ok := isLane d, uses := [(d, 1)] }
    (fun s => s.pendD d (fun _ => imm.signExtend 32) (slotLatency (slot 4 0)))

/-- LIMM: a 32-bit immediate, to every enabled lane or once to a k register. -/
def execLimm (st : BitVec 2) (d : Code) (imm : BitVec 32) (s : State) : Out :=
  s.issue { slot := slot 4 1, stall := st, uses := [(d, 1)] }
    (fun s => if isLane d then s.pendD d (fun _ => imm) (slotLatency (slot 4 1)) else s.pendK d imm (slotLatency (slot 4 1)))

/-- SETWB (R137): the window base of every later instruction. -/
def execSetwb (st : BitVec 2) (imm : BitVec 8) (s : State) : Out :=
  s.issue { slot := slot 4 2, stall := st, ok := imm.toNat % 32 == 0 && imm ≤ 224 }
    (fun s => s.modW (fun w => { w with vwb := imm }))

/-- The register MOVX reaches in a lane (R138): exact, not wrapped. -/
def State.movxIndex (s : State) (a : Code) (imm7 : BitVec 7) (l : Nat) : Nat :=
  s.w.vwb.toNat + (s.readOp a l).toNat + imm7.toNat

/-- The common course of MOVX: REG_BOUNDS with the offending lanes before STALL_SHORT, which also covers the register
actually named; last ECC_UNCORR, for MOVX.R (`reads`) in the register actually named too (spec/07 R186). -/
def State.movx (s : State) (g : Sig) (a : Code) (imm7 : BitVec 7) (reads : Bool) (eff : State → State) : Out :=
  let out := maskWhere (fun l => inMask s.w.clause.enabled l && decide (s.laneRegs ≤ s.movxIndex a imm7 l))
  let short := s.checked && s.lanes.any (fun l =>
    let c := cellV (s.movxIndex a imm7 l) 0
    s.w.pending.any (fun p => decide (s.w.dist < p.due ∧ c ≤ p.cell ∧ p.cell < c + 32)))
  let bounds := s.raise s.cur { code := fRegBounds, flm := out, fpc := s.w.clause.pc, info := BitVec.ofNat 32 (s.movxIndex a imm7 ((lowest out).getD 0)) } .after
  let bad := s.eccLanes g ||| maskWhere (fun l => reads && inMask s.w.clause.enabled l && s.w.poisoned.contains (cellV (s.movxIndex a imm7 l) l))
  match s.wholeFault g with
  | some f => .next (if f.1 == fStallShort && out != 0 then bounds else s.raiseHere f.1 f.2)
  | none =>
    if s.w.clause.enabled == 0 then .next (s.retire g)
    else if out != 0 then .next bounds
    else if short then .next (s.raiseHere fStallShort 0)
    else if bad == 0 then .next ((eff s).retire g)
    else .next (s.issueEcc g bad (fun s => (eff s).retire g))

/-- MOVX.R (R138, R281): reads the unbanked register. -/
def execMovxR (st : BitVec 2) (d a : Code) (imm7 : BitVec 7) (s : State) : Out :=
  s.movx { slot := slot 4 3, stall := st, ok := isLane d, uses := [(d, 1), (a, 1)] } a imm7 true
    (fun s => s.pendD d (fun l => s.readCell (cellV (s.movxIndex a imm7 l) l)) (slotLatency (slot 4 3)))

/-- MOVX.W (R138, R281): writes the unbanked register. -/
def execMovxW (st : BitVec 2) (a b : Code) (imm7 : BitVec 7) (s : State) : Out :=
  s.movx { slot := slot 4 4, stall := st, dst := false, uses := [(a, 1), (b, 1)] } a imm7 false
    (fun s => s.pendLanes (fun l => cellV (s.movxIndex a imm7 l) l) (fun l => s.readOp b l) (slotLatency (slot 4 4)))

end Sys2Proof.Machine
end

