-- ==== Sys2Proof/Machine/FloatAlu.lean ====
section
/-! DEFINITION. Floating-point, packed 16-bit, conversion and special-function instructions (spec/12 R282–R291). -/

namespace Sys2Proof.Machine

/-! ### The moulds: each enabled lane's result and the OR of the lanes' flags (spec/12 R276) -/

/-- A result as a word with its flags. -/
abbrev FRes := Nat × Flags

/-- Lane results of a float instruction. -/
def State.fresult (s : State) (g : Sig) (d : Code) (f : State → Nat → FRes) : Out :=
  s.issue g (fun s => (s.pendD d (fun l => BitVec.ofNat 32 (f s l).1) (slotLatency g.slot)).addFlags
    (s.laneFlags (fun l => (f s l).2)))

def State.fpuR (s : State) (k : Nat) (st : BitVec 2) (d a b : Code) (op : Nat → Nat → FRes) : Out :=
  s.fresult { slot := k, stall := st, ok := isLane d, uses := [(d, 1), (a, 1), (b, 1)] } d
    (fun s l => op (s.readOp a l).toNat (s.readOp b l).toNat)

def State.fpuU (s : State) (k : Nat) (st : BitVec 2) (d a : Code) (op : Nat → FRes) : Out :=
  s.fresult { slot := k, stall := st, ok := isLane d, uses := [(d, 1), (a, 1)] } d (fun s l => op (s.readOp a l).toNat)

def State.fpuX (s : State) (k : Nat) (st : BitVec 2) (ok : Bool) (d a b c : Code) (op : Nat → Nat → Nat → FRes) : Out :=
  s.fresult { slot := k, stall := st, ok := isLane d && ok, uses := [(d, 1), (a, 1), (b, 1), (c, 1)] } d
    (fun s l => op (s.readOp a l).toNat (s.readOp b l).toNat (s.readOp c l).toNat)

/-! ### Halves (R286, R287) -/

def lo16 (x : Nat) : Nat := x % 2 ^ 16
def hi16 (x : Nat) : Nat := x / 2 ^ 16 % 2 ^ 16

/-- XM.SUB[0] of the packed instructions: .F16 or .BF16. -/
def packedFmt (sub : BitVec 4) : Fmt := if sub.getLsbD 0 then bf16 else f16

/-- An operation on both halves. -/
def halves (op : Nat → Nat → FRes) (a b : Nat) : FRes :=
  let l := op (lo16 a) (lo16 b)
  let h := op (hi16 a) (hi16 b)
  (l.1 + 2 ^ 16 * h.1, l.2 ||| h.2)

def halves3 (op : Nat → Nat → Nat → FRes) (a b c : Nat) : FRes :=
  let l := op (lo16 a) (lo16 b) (lo16 c)
  let h := op (hi16 a) (hi16 b) (hi16 c)
  (l.1 + 2 ^ 16 * h.1, l.2 ||| h.2)

/-- FDP2: a two-term dot product and a binary32 addend, one rounding (R286). -/
def fdp2Of (f : Fmt) (rm : BitVec 2) (a b c : Nat) : FRes :=
  f32.finish rm (fmaVal rm [(f.decode (lo16 a), f.decode (lo16 b)), (f.decode (hi16 a), f.decode (hi16 b))] (f32.decode c))

/-- Byte `i` of a word as an integer. -/
def byteInt (signed : Bool) (x : Word) (i : Nat) : Int :=
  let b := x.extractLsb' (8 * i) 8
  if signed then b.toInt else b.toNat

/-- IDP4 (R288). -/
def idp4W (sub : BitVec 4) (a b c : Word) : Word :=
  c + BitVec.ofInt 32 ([0, 1, 2, 3].foldl (fun r i => r + byteInt (sub.getLsbD 0) a i * byteInt (sub.getLsbD 1) b i) (0 : Int))

/-! ### Conversions (R289) -/

/-- The float format of a type code. -/
def cvtFmt (t : Nat) : Option Fmt :=
  match t with
  | 0 => some f32
  | 1 => some f16
  | 2 => some bf16
  | _ => none

/-- Signedness and width of an integer type code. -/
def cvtSigned (t : Nat) : Bool := decide (t ≤ 7)
def cvtBits (t : Nat) : Nat :=
  match t % 4 with
  | 0 => 8
  | 1 => 16
  | 2 => 32
  | _ => 64

def cvtLo (t : Nat) : Int := if cvtSigned t then -2 ^ (cvtBits t - 1) else 0
def cvtHi (t : Nat) : Int := if cvtSigned t then 2 ^ (cvtBits t - 1) - 1 else 2 ^ cvtBits t - 1
def cvtReserved (t : Nat) : Bool := t == 3 || decide (11 < t)
def cvtWide (t : Nat) : Bool := t == 7 || t == 11

/-- The value of a source of a type. -/
def cvtValue (t : Nat) (x : BitVec 64) : FVal :=
  match cvtFmt t with
  | some f => f.decode (x.toNat % 2 ^ f.width)
  | none =>
    let n := x.toNat % 2 ^ cvtBits t
    let i : Int := if cvtSigned t && 2 ^ (cvtBits t - 1) ≤ n then (n : Int) - 2 ^ cvtBits t else n
    .fin (decide (i < 0)) i.natAbs 0

/-- CVT: the destination's bits, an integer extended to 32 bits or a pair. A conversion of a type to itself returns its
source with NaN made canonical. -/
def cvtOf (rm : BitVec 2) (src dst : Nat) (x : BitVec 64) : BitVec 64 × Flags :=
  match cvtFmt dst with
  | some f =>
    let r := f.round rm (cvtValue src x)
    (BitVec.ofNat 64 r.1, r.2)
  | none =>
    let r := floatToInt rm (cvtLo dst) (cvtHi dst) (cvtValue src x)
    (BitVec.ofInt 64 r.1, r.2)

/-! ### Row 0x10 -/

/-- FADD, RNE (R282). -/
def execFadd (st : BitVec 2) (d a b : Code) (s : State) : Out := s.fpuR (slot 0x10 0) st d a b (f32.add 0)

/-- FSUB, RNE (R282). -/
def execFsub (st : BitVec 2) (d a b : Code) (s : State) : Out := s.fpuR (slot 0x10 1) st d a b (f32.sub 0)

/-- FMUL, RNE (R282). -/
def execFmul (st : BitVec 2) (d a b : Code) (s : State) : Out := s.fpuR (slot 0x10 2) st d a b (f32.mul 0)

/-- FMIN (R282). -/
def execFmin (st : BitVec 2) (d a b : Code) (s : State) : Out := s.fpuR (slot 0x10 3) st d a b (fminmax false)

/-- FMAX (R282). -/
def execFmax (st : BitVec 2) (d a b : Code) (s : State) : Out := s.fpuR (slot 0x10 4) st d a b (fminmax true)

/-- FNEG (R282). -/
def execFneg (st : BitVec 2) (d a : Code) (s : State) : Out := s.fpuU (slot 0x10 5) st d a (Machine.fneg)

/-- FABS (R282). -/
def execFabs (st : BitVec 2) (d a : Code) (s : State) : Out := s.fpuU (slot 0x10 6) st d a (Machine.fabs)

/-- FCLASS (R282): no flag. -/
def execFclass (st : BitVec 2) (d a : Code) (s : State) : Out := s.fpuU (slot 0x10 7) st d a (fun a => (fclassOf a, 0))

/-! ### Row 0x11 -/

/-- FADD.rm (R282). -/
def execFaddRm (st : BitVec 2) (d a b : Code) (rm : BitVec 2) (s : State) : Out := s.fpuR (slot 0x11 0) st d a b (f32.add rm)

/-- FSUB.rm (R282). -/
def execFsubRm (st : BitVec 2) (d a b : Code) (rm : BitVec 2) (s : State) : Out := s.fpuR (slot 0x11 1) st d a b (f32.sub rm)

/-- FMUL.rm (R282). -/
def execFmulRm (st : BitVec 2) (d a b : Code) (rm : BitVec 2) (s : State) : Out := s.fpuR (slot 0x11 2) st d a b (f32.mul rm)

/-- FFMA (R283). -/
def execFfma (st : BitVec 2) (d a b : Code) (rm : BitVec 2) (c : Code) (s : State) : Out :=
  s.fpuX (slot 0x11 3) st true d a b c (f32.fma rm)

/-- FCMPP (R284). -/
def execFcmpp (st : BitVec 2) (a b : Code) (sub : BitVec 4) (pd ps : BitVec 3) (pn : BitVec 1) (imm7 : BitVec 7)
    (s : State) : Out :=
  s.issue { slot := slot 0x11 4, stall := st, ok := cmpOk 7 sub ps pn imm7, dst := false, pdst := true, uses := [(a, 1), (b, 1)],
            preds := cmbPreds pd ps imm7 }
    (fun s =>
      let r := fun l => floatCmp sub (s.readOp a l).toNat (s.readOp b l).toNat
      (s.pendP pd (fun l => s.combine (r l).1 ps pn imm7 l) (slotLatency (slot 0x11 4))).addFlags
        (s.laneFlags (fun l => (r l).2)))

/-- FRINT.rm (R285). -/
def execFrint (st : BitVec 2) (d a : Code) (rm : BitVec 2) (s : State) : Out := s.fpuU (slot 0x11 5) st d a (frintOf rm)

/-- FDP2.ty.rm (R286). -/
def execFdp2 (st : BitVec 2) (d a b : Code) (rm : BitVec 2) (sub : BitVec 4) (c : Code) (s : State) : Out :=
  s.fpuX (slot 0x11 6) st (sub ≤ 1) d a b c (fdp2Of (packedFmt sub) rm)

/-! ### Row 0x12 -/

/-- HADD2 (R287): binary16, RNE. -/
def execHadd2 (st : BitVec 2) (d a b : Code) (s : State) : Out := s.fpuR (slot 0x12 0) st d a b (halves (f16.add 0))

/-- HMUL2 (R287): binary16, RNE. -/
def execHmul2 (st : BitVec 2) (d a b : Code) (s : State) : Out := s.fpuR (slot 0x12 1) st d a b (halves (f16.mul 0))

/-- HFMA2.ty.rm (R287). -/
def execHfma2 (st : BitVec 2) (d a b : Code) (rm : BitVec 2) (sub : BitVec 4) (c : Code) (s : State) : Out :=
  s.fpuX (slot 0x12 2) st (sub ≤ 1) d a b c (halves3 ((packedFmt sub).fma rm))

/-- HADD2.ty.rm (R287). -/
def execHadd2X (st : BitVec 2) (d a b : Code) (rm : BitVec 2) (sub : BitVec 4) (s : State) : Out :=
  s.fresult { slot := slot 0x12 3, stall := st, ok := isLane d && sub ≤ 1, uses := [(d, 1), (a, 1), (b, 1)] } d
    (fun s l => halves ((packedFmt sub).add rm) (s.readOp a l).toNat (s.readOp b l).toNat)

/-- HMUL2.ty.rm (R287). -/
def execHmul2X (st : BitVec 2) (d a b : Code) (rm : BitVec 2) (sub : BitVec 4) (s : State) : Out :=
  s.fresult { slot := slot 0x12 4, stall := st, ok := isLane d && sub ≤ 1, uses := [(d, 1), (a, 1), (b, 1)] } d
    (fun s l => halves ((packedFmt sub).mul rm) (s.readOp a l).toNat (s.readOp b l).toNat)

/-- IDP4 (R288): no flag. -/
def execIdp4 (st : BitVec 2) (d a b : Code) (sub : BitVec 4) (c : Code) (s : State) : Out :=
  s.aluX (slot 0x12 5) st (sub ≤ 3) d a b c (idp4W sub)

/-! ### Row 0x13 -/

/-- CVT.to.from.rm (R289): SUB is the source type, IMM7 the destination type. -/
def execCvt (st : BitVec 2) (d a : Code) (rm : BitVec 2) (sub : BitVec 4) (imm7 : BitVec 7) (s : State) : Out :=
  let src := sub.toNat
  let dst := imm7.toNat
  let na := if cvtWide src then 2 else 1
  let nd := if cvtWide dst then 2 else 1
  s.issue { slot := slot 0x13 0, stall := st,
            ok := isLane d && !cvtReserved src && !cvtReserved dst && aligned a na && aligned d nd,
            uses := [(d, nd), (a, na)] }
    (fun s =>
      let r := fun l => cvtOf rm src dst (if cvtWide src then s.readPair a l else (s.readOp a l).setWidth 64)
      (if cvtWide dst then s.pendPair d (fun l => (r l).1) (slotLatency (slot 0x13 0))
        else s.pendD d (fun l => (r l).1.setWidth 32) (slotLatency (slot 0x13 0))).addFlags (s.laneFlags (fun l => (r l).2)))

/-- The format slot of the lot (R225). -/
def State.fslot (s : State) (fs : BitVec 3) : Word := s.l.record.fslot.get fs.toNat

/-- Element `j` of K bits lies within a register. -/
def elementOk (w : Word) (j : Nat) : Bool := decide ((j + 1) * slWidth w ≤ 32)
def element (w : Word) (x : Word) (j : Nat) : Nat := x.toNat / 2 ^ (slWidth w * j) % 2 ^ slWidth w
/-- An element replaced by a code. -/
def setElement (w : Word) (x : Word) (j c : Nat) : Word :=
  let k := slWidth w
  (x &&& ~~~(lowMask k <<< (k * j))) ||| (BitVec.ofNat 32 c <<< (k * j))

/-- CVTS.TO (R290): element j of d is replaced; d is read as well as written. -/
def execCvtsTo (st : BitVec 2) (d a : Code) (rm : BitVec 2) (fs : BitVec 3) (imm7 : BitVec 7) (s : State) : Out :=
  let f := s.fslot fs
  s.issue { slot := slot 0x13 1, stall := st, ok := isLane d && elementOk f imm7.toNat, uses := [(d, 1), (d, 1), (a, 1)] }
    (fun s =>
      let r := fun l => toSlot f rm (s.readOp a l).toNat
      (s.pendD d (fun l => setElement f (s.readOp d l) imm7.toNat (r l).1) (slotLatency (slot 0x13 1))).addFlags
        (s.laneFlags (fun l => (r l).2)))

/-- CVTS.FROM (R290): no flag. -/
def execCvtsFrom (st : BitVec 2) (d a : Code) (fs : BitVec 3) (imm7 : BitVec 7) (s : State) : Out :=
  let f := s.fslot fs
  s.issue { slot := slot 0x13 2, stall := st, ok := isLane d && elementOk f imm7.toNat, uses := [(d, 1), (a, 1)] }
    (fun s => s.pendD d (fun l => BitVec.ofNat 32 (fromSlot f (element f (s.readOp a l) imm7.toNat)))
      (slotLatency (slot 0x13 2)))

/-! ### Row 0x1C (R291) -/

/-- FRCP: 1/a. -/
def execFrcp (st : BitVec 2) (d a : Code) (s : State) : Out := s.fpuU (slot 0x1C 0) st d a (frcpOf)

/-- FRSQ: 1/√a. -/
def execFrsq (st : BitVec 2) (d a : Code) (s : State) : Out := s.fpuU (slot 0x1C 1) st d a (frsqOf)

/-- FSQRT: √a. -/
def execFsqrt (st : BitVec 2) (d a : Code) (s : State) : Out := s.fpuU (slot 0x1C 2) st d a (fsqrtOf)

/-- FEXP2: 2^a. -/
def execFexp2 (st : BitVec 2) (d a : Code) (s : State) : Out := s.fpuU (slot 0x1C 3) st d a (fexp2Of)

/-- FLOG2: log₂ a. -/
def execFlog2 (st : BitVec 2) (d a : Code) (s : State) : Out := s.fpuU (slot 0x1C 4) st d a (flog2Of)

/-- An interlocked unary function (R259): the result is written before the next issue. -/
def State.fpuWait (s : State) (k : Nat) (st : BitVec 2) (d a : Code) (op : Nat → FRes) : Out :=
  s.issue { slot := k, stall := st, ok := isLane d, uses := [(d, 1), (a, 1)] }
    (fun s => (s.putD d (fun l => BitVec.ofNat 32 (op (s.readOp a l).toNat).1)).addFlags
      (s.laneFlags (fun l => (op (s.readOp a l).toNat).2)))

/-- FSIN: sin a, interlocked. -/
def execFsin (st : BitVec 2) (d a : Code) (s : State) : Out := s.fpuWait (slot 0x1C 5) st d a fsinOf

/-- FCOS: cos a, interlocked. -/
def execFcos (st : BitVec 2) (d a : Code) (s : State) : Out := s.fpuWait (slot 0x1C 6) st d a fcosOf

end Sys2Proof.Machine
end

