-- ==== Sys2Proof/Machine/MemOps.lean ====
section
/-! DEFINITION. Loads, stores, atomics, prefetch, cache control, fences and counter waits (spec/14 R326–R335), and the
completion of loads, stores and atomics (spec/08 R201–R209, spec/14 R331). -/

namespace Sys2Proof.Machine

/-! ### Where the lanes' accesses go -/

/-- One lane's access: a byte offset of the scratchpad, an address of memory, a fault, or a walk that waits for a SILENT die. -/
inductive Place where
  | window (off : Nat)
  | mem (key : Nat) (slot : BitVec 10) (ca : BitVec 2)
  | fault (code : BitVec 8) (cause : BitVec 4) (dies : BitVec 4)
  | held
  deriving DecidableEq, Repr, Inhabited

structure LaneAt where
  lane : Nat
  va : BitVec 64
  place : Place
  deriving DecidableEq, Repr, Inhabited

/-- An access at an offset of the window (R327, R139). -/
def State.windowPlace (s : State) (o : Int) (size : Nat) : Place :=
  if o % size ≠ 0 then .fault fAlign 0 0
  else if 0 ≤ o ∧ s.v.inScratch o.toNat size then .window o.toNat
  else .fault pageFault 5 0

/-- An access of a warp at a virtual address outside the window, translated: its choices are numbered `n`, those of its walk `m`. A load or
atomic of a poisoned line faults (spec/07 R186). -/
def State.memPlace (s : State) (k : Nat) (va : BitVec 64) (acc : Access) (consumes : Bool) (n m : Nat) : State × Place :=
  let ctx := s.ctxOf k
  let core := (s.warp k).core
  let w := s.translate core ctx va acc n m
  let s := s.noteWalk core ctx w
  match w.res with
  | .ok pa slot ca =>
    let key := s.memKey (s.ctx ctx).part pa
    (s, if consumes && s.poisoned key then .fault fEcc 0 0 else .mem key slot ca)
  | .fault c cause => (s, .fault c cause 0)
  | .lost d => (s, .fault fDieLost 0 (dieBit d))
  | .held => (s, .held)

/-- An access at a virtual address: in the window, or in memory. -/
def State.vaPlace (s : State) (va : BitVec 64) (size : Nat) (acc : Access) (consumes : Bool) (n m : Nat) : State × Place :=
  if va.toNat % size ≠ 0 then (s, .fault fAlign 0 0)
  else if inWindow va then (s, s.windowPlace (windowOff va) size)
  else s.memPlace s.cur va acc consumes n m

/-- The address of lane `l` (R327): of LDS, STS and ATOMS an offset in the window, of the others a virtual address. -/
def State.laneVa (s : State) (offset : Bool) (a : Code) (off : BitVec 16) (l : Nat) : BitVec 64 :=
  if offset then BitVec.ofNat 64 windowBase + (s.readOp a l).setWidth 64 + off.signExtend 64
  else s.readPair a l + off.signExtend 64

/-- The first enabled lane whose address lies in the same 4 KiB page: the lanes of a page make one walk (spec/02 R53). -/
def State.walkLane (s : State) (a : Code) (off : BitVec 16) (l : Nat) : Nat :=
  (s.lanes.find? (fun j => (s.laneVa false a off j).toNat / 4096 == (s.laneVa false a off l).toNat / 4096)).getD l

/-- Lane `l`'s access. -/
def State.laneAt (s : State) (offset : Bool) (a : Code) (off : BitVec 16) (size : Nat) (acc : Access) (consumes : Bool)
    (l : Nat) : State × LaneAt :=
  let va := s.laneVa offset a off l
  if offset then (s, ⟨l, va, s.windowPlace ((s.readOp a l).toNat + off.toInt) size⟩)
  else
    let r := s.vaPlace va size acc consumes (32 + l) (32 + s.walkLane a off l)
    (r.1, ⟨l, va, r.2⟩)

/-- The accesses of the enabled lanes, ascending. -/
def State.lanesAt (s : State) (offset : Bool) (a : Code) (off : BitVec 16) (size : Nat) (acc : Access) (consumes : Bool) :
    State × List LaneAt :=
  s.lanes.foldl (fun r l =>
    let x := r.1.laneAt offset a off size acc consumes l
    (x.1, r.2 ++ [x.2])) (s, [])

def LaneAt.committed (x : LaneAt) : Bool := match x.place with | .fault _ _ _ => false | _ => true
def LaneAt.code (x : LaneAt) : Option (BitVec 8) := match x.place with | .fault c _ _ => some c | _ => none

/-- An access needs a feature that is not accepted: the whole instruction has no effect (spec/03 R74). -/
def featureMissing (xs : List LaneAt) : Bool := xs.any (fun x => x.code == some fFeatureAbsent)

/-- A lane's translation waits (spec/01 R31): the instruction is tried again. -/
def anyHeld (xs : List LaneAt) : Bool := xs.any (fun x => x.place == .held)

/-- The lanes of committed accesses. -/
def committedLanes (xs : List LaneAt) : Lanes := maskOf ((xs.filter LaneAt.committed).map (·.lane))

/-- Ends an instruction whose lanes' accesses are known: normally, or with the record of R167: the code of the lowest
faulting lane and the lanes that took it. Where lanes use two lost dies, FLM holds them all and DIES the die of the lowest one (DESIGN CHOICE,
log 97: spec/01 R36 speaks of "the die used"). -/
def State.endLanes (s : State) (g : Sig) (xs : List LaneAt) : State :=
  match xs.find? (fun x => !x.committed) with
  | none => s.retire g
  | some x => match x.place with
    | .fault c cause dies =>
      s.raiseLanes c (maskOf ((xs.filter (fun y => y.code == some c)).map (·.lane))) cause x.va dies
        (some (maskOf ((xs.filter (fun y => !y.committed && y.code != some c)).map (·.lane))))
    | _ => s.retire g

/-! ### What holds an access back -/

/-- A counter of the warp stands at 63 (spec/08 R209). -/
def State.countFull (s : State) (c : OpClass) : Bool := 63 ≤ s.count s.cur c

/-- An acquire of the warp has not been performed: no later access overtakes it (R192). -/
def State.acquiring (s : State) : Bool := (s.opsOf s.cur).any (fun e => e.2.acquire && !e.2.performed && !e.2.complete)

/-- The Lake commands that BKFENCE orders before the warp's later loads have not all ended (R214). -/
def State.lakeFenced (s : State) : Bool := s.w.bkfence.any (fun n => match s.op n with | some o => !o.complete | none => false)

/-- A touched window line is absent (spec/06 R140). -/
def State.touchesAbsent (s : State) (xs : List LaneAt) : Bool :=
  xs.any (fun x => match x.place with | .window o => s.v.absent.get (o / 128) != 0 | _ => false)

/-- The memory keys that accesses of a size touch. -/
def accessKeys (size : Nat) (xs : List LaneAt) : List Nat :=
  xs.flatMap (fun x => match x.place with | .mem k _ _ => (List.range size).map (k + ·) | _ => [])

/-- An outstanding atomic of the warp writes one of the keys. -/
def State.atomicOn (s : State) (keys : List Nat) : Bool :=
  (s.opsOf s.cur).any (fun e => match e.2.work with
    | .atomic _ _ => !e.2.performed && e.2.work.writeKeys.any keys.contains
    | _ => false)

/-- Loads of the warp that touch one of the keys have read (R195, R197). -/
def State.bindLoads (s : State) (keys : List Nat) : State :=
  { s with ops := s.ops.mapVals (fun _ e => e.map (fun o =>
      if o.warp = s.cur ∧ o.late then match o.work with
        | .load _ accs _ _ => if accs.any (fun a => (List.range 16).any (fun i => keys.contains (a.key + i))) then { o with late := false } else o
        | _ => o
      else o)) }

/-- Cores that must answer a PRM push (spec/08 R208): those of the dies of the warp's partition that are LIVE or SILENT. -/
def State.pushCores (s : State) : List Nat :=
  [0, 1, 2, 3].flatMap (fun d =>
    if ((s.die d).state == .live || (s.die d).state == .silent) && (s.die d).part == s.c.part then (List.range (s.die d).cores.length).map (44 * d + ·)
    else [])

/-- The data of the vat-scope releases of some warps are out (R208): every store that a release has followed, and every store of a save
routine (R218), is performed and acknowledged, or its acknowledgement is no longer waited for. -/
def State.pushedOut (s : State) (mine : Nat → Bool) : Bool :=
  s.ops.all (fun e => match e.2 with
    | some o => !mine o.warp || !(o.released || (s.warp o.warp).evict == .save)
        || (match o.work with | .store _ _ => o.performed && (o.owed == 0 || o.ackLost) | _ => true)
    | none => true)

/-- With PRM the warp first has every core's answer (R208); the push begins at its first try. Where a release that came behind a core's
answer has data still under way, the cores are asked again. -/
def State.promoting (s : State) (prm : Bool) (eff : State → State) : State :=
  let ask (s : State) : State := (s.modW (fun w => { w with prmWait := some s.pushCores })).stall
  if !prm then eff s
  else match s.w.prmWait with
    | some [] => if s.pushedOut (fun k => s.partOf k == s.c.part) then eff (s.modW (fun w => { w with prmWait := none })) else ask s
    | some _ => s.stall
    | none => ask s

/-! ### Loads (R329) -/

/-- Registers of a size code. -/
def szRegs (sz : BitVec 4) : Nat := if sz == 5 then 2 else if sz == 6 then 4 else 1

/-- The registers that bytes of a size code give, the lowest first. -/
def extendSz (sz : BitVec 4) (bs : List Byte) : List Word :=
  let n := bytesToNat bs
  match sz.toNat with
  | 0 => [(BitVec.ofNat 8 n).signExtend 32]
  | 2 => [(BitVec.ofNat 16 n).signExtend 32]
  | 5 => [BitVec.ofNat 32 n, BitVec.ofNat 32 (n / 2 ^ 32)]
  | 6 => [BitVec.ofNat 32 n, BitVec.ofNat 32 (n / 2 ^ 32), BitVec.ofNat 32 (n / 2 ^ 64), BitVec.ofNat 32 (n / 2 ^ 96)]
  | _ => [BitVec.ofNat 32 n]

/-- Bytes of the vat's scratchpad. -/
def Vat.scratchBytes (v : Vat) (off n : Nat) : List Byte := v.scratch.getFrom off n

/-- Destinations of a lane: cells with their values. -/
def laneDests (l : Nat) (cells : List Nat) (vs : List Word) : List Dest :=
  (cells.zip vs).map (fun e => ⟨l, e.1, e.2⟩)

/-- The cells of an access group of a lane. -/
def Warp.cells (w : Warp) (d : Code) (n l : Nat) : List Nat := (List.range n).map (fun i => w.cell (d.toNat + i) l)

/-- A line of another device's memory as a core's loads see it (spec/08 R217): the copy of its L1, which may be old, or the home's. -/
def State.l1Line (s : State) (core line : Nat) (slot : BitVec 10) : List Byte :=
  let home := (List.range 128).map (fun i => s.decrypted (128 * line + i) slot)
  let held := (s.core core).l1.get (slotKey line slot)
  if held = [] ∨ held = home then home
  else if s.pathHeld (dieOfCore core) none || s.choice 350 then held else home

/-- A core's L1 holds a line of another device's memory for an access. -/
def State.inL1 (s : State) (core key : Nat) (slot : BitVec 10) (ca : BitVec 2) : Bool :=
  region (keyPa key) == 2 && ca == 0 && (s.core core).l1.get (slotKey (lineOf key) slot) != []

/-- One byte as a load reads it, and what the write it comes from carries (spec/08 R193). -/
def State.loadByte (s : State) (warp : Nat) (a : LoadAcc) (i : Nat) : Byte × List Carry :=
  let key := a.key + i
  let die := s.dieOf warp
  match s.pendingAt (some warp) die key with
  | some x => (s.pendingByte (some warp) die x.2 a.slot, x.1.carries)
  | none =>
    if a.ca = 0 ∧ region (keyPa key) = 2 then
      let b := (s.l1Line (s.warp warp).core (lineOf key) a.slot).getD (key % 128) 0
      (b, if b = s.decrypted key a.slot then s.sync.get key else [])
    else match s.staleAt die a.ca key a.slot with
      | some b => (b, [])
      | none => (s.decrypted key a.slot, s.sync.get key)

/-- What a load of one access reads from memory now. -/
def State.loadNow (s : State) (warp : Nat) (a : LoadAcc) : List Dest :=
  laneDests a.lane a.cells (extendSz a.sz ((List.range (szBytes a.sz)).map (fun i => (s.loadByte warp a i).1)))

/-- What the writes that a load's accesses read carry. -/
def State.loadCarries (s : State) (warp : Nat) (accs : List LoadAcc) : List Carry :=
  accs.flatMap (fun a => (List.range (szBytes a.sz)).flatMap (fun i => (s.loadByte warp a i).2))

/-- A load leaves its line in the caches: of this device's memory in its die's remote line cache (spec/02 R54), of another device's in its
core's L1, unless the page bypasses that (spec/08 R217). -/
def State.fillLine (s : State) (core key : Nat) (slot : BitVec 10) (ca : BitVec 2) : State :=
  if region (keyPa key) = 2 then
    s.modCore core (fun c => { c with l1 := c.l1.set (slotKey (lineOf key) slot) (if ca = 0 then s.l1Line core (lineOf key) slot else []) })
  else s.fillCopy (dieOfCore core) key ca slot

/-- The destinations of committed accesses, as read now; the caches keep the lines. -/
def State.readLanes (s : State) (d : Code) (sz : BitVec 4) (xs : List LaneAt) : State × List Dest × List LoadAcc :=
  xs.foldl (fun r x =>
    let cells := s.w.cells d (szRegs sz) x.lane
    match x.place with
    | .window o => (r.1, r.2.1 ++ laneDests x.lane cells (extendSz sz (s.v.scratchBytes o (szBytes sz))), r.2.2)
    | .mem key slot ca =>
      let a : LoadAcc := ⟨x.lane, key, slot, ca, !s.inL1 s.w.core key slot ca && s.farFrom (s.dieOf s.cur) key ca, sz, cells⟩
      (r.1.fillLine s.w.core key slot ca, r.2.1 ++ s.loadNow s.cur a, r.2.2 ++ [a])
    | _ => r) (s, [], [])

/-- The keys that an operation of a lane's instruction touches. -/
def Work.touchedKeys : Work → List Nat
  | .load _ accs _ _ => accs.flatMap LoadAcc.keys
  | w => w.writeKeys

/-- Bytes of an earlier operation of the warp that the warp alone sees: a load that reads one completes behind it, so that nothing after
the load is ordered before the store (R202, R203). -/
def State.readsOwn (s : State) (warp n : Nat) (keys : List Nat) : Bool :=
  s.ops.any (fun e => match e.2 with
    | some o => decide (e.1 < n) && o.warp == warp && !o.performed
        && o.work.pendingBytes.any (fun b => keys.contains b.key && !o.visibleTo none o.die b.key)
    | none => false)

/-- An access of an operation has been on a route lost to its partition for the 2 ms of the context rung's service timeout (spec/03 R61). -/
def State.overdue (s : State) (o : Op) : Bool :=
  !o.complete && s.routeLost (s.ctx o.ctx).part o.work.touchedKeys && decide (o.issuedAt + 2000000 ≤ s.gtime)

/-- An access of a load waits. -/
def State.loadWaits (s : State) (n : Nat) (o : Op) (a : LoadAcc) : Bool :=
  s.readsOwn o.warp n a.keys || s.loadHeld o.die a || s.unanswered (s.ctx o.ctx).part a.keys

/-- An acquire beyond the die discards the core's L1 copies of other devices' lines (R217; of package scope, because a store from another die
may have happened before it: R198). -/
def State.discardL1 (s : State) (core : Nat) (acquire : Bool) (scope : Nat) : State :=
  if acquire && 3 ≤ scope then s.modCore core (fun c => { c with l1 := [] }) else s

/-- A load has read: an acquire takes up what the writes it read carry (R193). -/
def State.heardBy (s : State) (warp : Nat) (acquire : Bool) (scope : Nat) (cs : List Carry) : State :=
  s.hear warp (if acquire then some scope else none) cs

/-- Where `State.sync` keeps a byte of a vat's scratchpad. -/
def windowKey (vat off : Nat) : Nat := 2 ^ 64 * (vat + 1) + off

/-- The scratchpad bytes that accesses of a size touch, as keys of `State.sync`. -/
def windowKeys (vat size : Nat) (xs : List LaneAt) : List Nat :=
  xs.flatMap (fun x => match x.place with | .window o => (List.range size).map (fun i => windowKey vat (o + i)) | _ => [])

/-- Stores to the scratchpad carry something, or nothing any more. -/
def State.noteWindow (s : State) (keys : List Nat) (cs : List Carry) : State :=
  { s with sync := keys.foldl (fun m k => m.set k cs) s.sync }

/-- Bounds of a load's XA fields (R328 Table 2). -/
def loadXaOk (lds : Bool) (xa : Xa) : Bool :=
  xa.md == 0 && xa.sz ≤ 6 && xa.sub ≤ 1 && xa.ord ≤ 1 && (if xa.ord == 1 then xa.sco ≤ 5 else xa.sco == 0)
    && (xa.prm == 0 || xa.ord == 1 && 3 ≤ xa.sco) && (xa.spl == 0 || !lds && xa.ord == 0)

/-- The lanes of accesses to memory, with their addresses and memory keys. -/
def memSites (xs : List LaneAt) : List (Nat × BitVec 64 × Nat) :=
  xs.filterMap (fun x => match x.place with | .mem key _ _ => some (x.lane, x.va, key) | _ => none)

/-- The effect of LD and LDS. -/
def State.loadLanes (s : State) (g : Sig) (offset : Bool) (d a : Code) (xa : Xa) : State :=
  if s.countFull .ld || s.lakeFenced || s.acquiring then s.stall
  else s.promoting (xa.prm == 1) (fun s =>
    let r := s.lanesAt offset a xa.off (szBytes xa.sz) .read true
    let keys := accessKeys (szBytes xa.sz) r.2
    if featureMissing r.2 then r.1.raiseHere fFeatureAbsent 0
    else if s.touchesAbsent r.2 then s.park .presence
    else if s.atomicOn keys || anyHeld r.2 then r.1.stall
    else
      let live := committedLanes r.2
      let acq := xa.ord == 1
      let t := (r.1.bindLoads keys).discardL1 s.w.core acq xa.sco.toNat
      let b := t.readLanes d xa.sz r.2
      let split := xa.spl == 1 && s.w.bank == 0 && s.w.dhvEn && !s.w.sgact
      let held := b.2.2.any (s.loadHeld (s.dieOf s.cur))
      if held && xa.prm == 1 then r.1.stall
      else
        let cs := t.loadCarries s.cur b.2.2 ++ (windowKeys s.w.vat (szBytes xa.sz) r.2).flatMap t.sync.get
        let t := if live == 0 then b.1
          else
            let n := b.1.nextOp
            let u := (b.1.heardBy s.cur (acq && !held) xa.sco.toNat cs).startOp .ld (.load b.2.1 b.2.2 split (if split then live else 0)) live 0
            match u.op n with
            | some o => u.setOp n { o with acquire := acq, scope := xa.sco, performed := !held && !s.readsOwn s.cur n keys,
                                           late := held || (!acq && s.choice 300), sites := memSites r.2 }
            | none => u
        t.endLanes g r.2)

/-- LD (R329). LD.SPLIT in trap mode is a plain LD whatever HDEP the trap was taken at (DESIGN CHOICE, log 112: spec/05 R117 forbids it at HDEP ≥ 1,
and R329 makes it a plain LD in trap mode). -/
def execLd (st : BitVec 2) (d a : Code) (xa : Xa) (s : State) : Out :=
  let n := szRegs xa.sz
  let g : Sig := { slot := slot 0x34 0, stall := st, ok := isLane d && aligned d n && aligned a 2 && loadXaOk false xa,
                   uses := [(d, n), (a, 2)], legal := xa.spl == 0 || s.w.bank == 0 || s.w.bank == 3 }
  s.issueRaw g (fun s => s.loadLanes g false d a xa)

/-- LDS (R329). -/
def execLds (st : BitVec 2) (d a : Code) (xa : Xa) (s : State) : Out :=
  let n := szRegs xa.sz
  let g : Sig := { slot := slot 0x34 2, stall := st, ok := isLane d && aligned d n && loadXaOk true xa, uses := [(d, n), (a, 1)] }
  s.issueRaw g (fun s => s.loadLanes g true d a xa)

/-! ### Stores (R330) -/

/-- Bounds of a store's XA fields (R328 Table 2). -/
def storeXaOk (sts : Bool) (xa : Xa) : Bool :=
  (xa.sz == 1 || xa.sz == 3 || xa.sz == 4 || xa.sz == 5 || xa.sz == 6) && xa.sub ≤ 1 && xa.prm == 0 && xa.spl == 0
    && (xa.ord == 0 && xa.sco == 0 || xa.ord == 2 && xa.sco ≤ 5) && (xa.md == 0 || !sts)

/-- The bytes that a lane stores. -/
def State.dataBytes (s : State) (b : Code) (sz : BitVec 4) (l : Nat) : List Byte :=
  ((List.range (szRegs sz)).flatMap (fun i => wordBytes (s.readOp (b + BitVec.ofNat 7 i) l))).take (szBytes sz)

/-- The committed window stores are performed at once for the whole vat (R191), lanes ascending: a scratchpad with them. -/
def State.scratchStores (s : State) (b : Code) (sz : BitVec 4) (xs : List LaneAt) (m : Map Byte) : Map Byte :=
  xs.foldl (fun m x => match x.place with
    | .window o => m.setFrom o (s.dataBytes b sz x.lane)
    | _ => m) m

/-- The bytes of the committed stores to memory, lanes ascending. -/
def State.memStores (s : State) (b : Code) (sz : BitVec 4) (xs : List LaneAt) : List WByte :=
  xs.flatMap (fun x => match x.place with | .mem key slot _ => wbytes key slot (s.dataBytes b sz x.lane) | _ => [])

/-- A store that is performed as .G: written so, or to system memory alone (R191). In one that goes to device memory as well, the bytes to
system memory stay with their warp until they are performed (`Op.visibleTo`). -/
def storesG (md : BitVec 1) (bs : List WByte) : Bool := md == 1 || (!bs.isEmpty && bs.all (fun b => 8 ≤ region (keyPa b.key)))

/-- The effect of ST and STS. -/
def State.storeLanes (s : State) (g : Sig) (offset : Bool) (a b : Code) (xa : Xa) : State :=
  if s.countFull .st || s.acquiring then s.stall
  else
    let r := s.lanesAt offset a xa.off (szBytes xa.sz) .write false
    let live := committedLanes r.2
    let bs := s.memStores b xa.sz r.2
    let window := r.2.any (fun x => match x.place with | .window _ => true | _ => false)
    let goes := s.releaseReady s.cur xa.sco.toNat s.nextOp
    if featureMissing r.2 then r.1.raiseHere fFeatureAbsent 0
    else if anyHeld r.2 || (xa.ord == 2 && window && !goes) then r.1.stall
    else
      let va := match r.2.find? LaneAt.committed with | some x => x.va | none => 0
      let rel := xa.ord == 2
      let cs := (if rel then s.carry s.cur xa.sco.toNat (if bs.isEmpty then [] else [s.nextOp]) else []) ++ s.live s.w.fenced
      let t := if rel && live != 0 then r.1.noteRelease s.cur xa.sco.toNat else r.1
      let t := ((t.bindLoads (bs.map (·.key))).noteWindow (windowKeys s.w.vat (szBytes xa.sz) r.2) cs).modV
        (fun v => { v with scratch := s.scratchStores b xa.sz r.2 v.scratch })
      let t := if live == 0 then t
        else
          let n := t.nextOp
          let u := t.startOp .st (if bs.isEmpty then .done else .store (storesG xa.md bs) bs) live va
          match u.op n with
          | some o => u.setOp n { o with scope := xa.sco, release := rel && !bs.isEmpty && !goes, released := rel && xa.sco == 1, carries := cs,
                                         sites := memSites r.2 }
          | none => u
      t.endLanes g r.2

/-- ST (R330). -/
def execSt (st : BitVec 2) (a b : Code) (xa : Xa) (s : State) : Out :=
  let n := szRegs xa.sz
  let g : Sig := { slot := slot 0x34 1, stall := st, ok := aligned a 2 && aligned b n && storeXaOk false xa, dst := false,
                   uses := [(a, 2), (b, n)] }
  s.issueRaw g (fun s => s.storeLanes g false a b xa)

/-- STS (R330). -/
def execSts (st : BitVec 2) (a b : Code) (xa : Xa) (s : State) : Out :=
  let n := szRegs xa.sz
  let g : Sig := { slot := slot 0x34 3, stall := st, ok := aligned b n && storeXaOk true xa, dst := false, uses := [(a, 1), (b, n)] }
  s.issueRaw g (fun s => s.storeLanes g true a b xa)

/-! ### Atomics (R331) -/

/-- The new value of a location of `w` bits (R331 Table 4). -/
def atomNew {w : Nat} (sub : BitVec 4) (m b c : BitVec w) : BitVec w :=
  match sub.toNat with
  | 0 => m + b
  | 1 => if m.sle b then m else b
  | 2 => if m.sle b then b else m
  | 3 => if m.ule b then m else b
  | 4 => if m.ule b then b else m
  | 5 => m &&& b
  | 6 => m ||| b
  | 7 => m ^^^ b
  | 8 => b
  | 9 => if m == b then c else m
  | 10 => if b.ule m then 0 else m + 1
  | 11 => if m == 0 || b.ult m then b else m - 1
  | _ => BitVec.ofNat w (f32.add 0 m.toNat b.toNat).1

/-- The same on a location of 4 or 8 bytes. -/
def atomValue (size : Nat) (sub : BitVec 4) (m b c : BitVec 64) : BitVec 64 :=
  if size = 8 then atomNew sub m b c
  else (atomNew sub (m.setWidth 32) (b.setWidth 32) (c.setWidth 32)).setWidth 64

/-- Bounds of an atomic's XA fields (R328 Table 2, R331 Table 4). -/
def atomXaOk (red : Bool) (xa : Xa) : Bool :=
  (xa.sz == 4 || xa.sz == 5) && xa.sco ≤ 5 && xa.md == 0 && xa.prm == 0 && xa.spl == 0 && xa.sub ≤ 12
    && (xa.sz == 4 || xa.sub ≤ 9) && (!red || (xa.sub != 9 && (xa.ord == 0 || xa.ord == 2)))

/-- Registers of the operand. -/
def atomRegs (xa : Xa) : Nat := szRegs xa.sz * (if xa.sub == 9 then 2 else 1)

/-- Two register groups overlap. -/
def groupsOverlap (d : Code) (n : Nat) (b : Code) (m : Nat) : Bool := decide (d.toNat < b.toNat + m ∧ b.toNat < d.toNat + n)

/-- A value of `n` registers. -/
def State.readGroup (s : State) (b : Code) (n l : Nat) : BitVec 64 := if n = 2 then s.readPair b l else (s.readOp b l).setWidth 64

/-- One atomic on the scratchpad: the new scratchpad and the old value. -/
def scratchAtomic (m : Map Byte) (off size : Nat) (sub : BitVec 4) (b c : BitVec 64) : Map Byte × BitVec 64 :=
  let old := BitVec.ofNat 64 (bytesToNat (m.getFrom off size))
  (m.setFrom off (natToBytes size (atomValue size sub old b c).toNat), old)

/-- A 32- or 64-bit value as registers. -/
def valueWords (n : Nat) (v : BitVec 64) : List Word := if n = 2 then [v.setWidth 32, (v >>> 32).setWidth 32] else [v.setWidth 32]

/-- The effect of ATOM, ATOMS and RED; `d` is the destination of the first two. -/
def State.atomLanes (s : State) (g : Sig) (offset : Bool) (d : Option Code) (a b : Code) (xa : Xa) : State :=
  if s.countFull .at || s.acquiring then s.stall
  else
    let n := szRegs xa.sz
    let r := s.lanesAt offset a xa.off (szBytes xa.sz) .write true
    let keys := accessKeys (szBytes xa.sz) r.2
    let live := committedLanes r.2
    let window := r.2.any (fun x => match x.place with | .window _ => true | _ => false)
    if featureMissing r.2 then r.1.raiseHere fFeatureAbsent 0
    else if s.touchesAbsent r.2 then s.park .presence
    else if anyHeld r.2 || (xa.ord.getLsbD 1 && window && !s.releaseReady s.cur xa.sco.toNat s.nextOp) then r.1.stall
    else
      let opB (l : Nat) := s.readGroup b n l
      let opC (l : Nat) := if xa.sub == 9 then s.readGroup (b + BitVec.ofNat 7 n) n l else 0
      let cells (l : Nat) := match d with | some d => s.w.cells d n l | none => []
      let rel := xa.ord.getLsbD 1
      let cs := (if rel then s.carry s.cur xa.sco.toNat [] else []) ++ s.live s.w.fenced
      let wk := windowKeys s.w.vat (szBytes xa.sz) r.2
      let old := wk.flatMap s.sync.get
      let t := if rel && live != 0 then r.1.noteRelease s.cur xa.sco.toNat else r.1
      let t := ((t.bindLoads keys).heardBy s.cur (xa.ord.getLsbD 0) xa.sco.toNat old).noteWindow wk (s.live (old ++ cs))
      let w := r.2.foldl (fun (acc : Map Byte × List Dest) x => match x.place with
        | .window o =>
          let y := scratchAtomic acc.1 o (szBytes xa.sz) xa.sub (opB x.lane) (opC x.lane)
          (y.1, acc.2 ++ laneDests x.lane (cells x.lane) (valueWords n y.2))
        | _ => acc) (t.v.scratch, [])
      let accs := r.2.filterMap (fun x => match x.place with
        | .mem key slot _ => some { lane := x.lane, key := key, slot := slot, size := szBytes xa.sz, sub := xa.sub,
                                    b := opB x.lane, c := opC x.lane, cell := (cells x.lane).head? : AtomAcc }
        | _ => none)
      let va := match r.2.find? LaneAt.committed with | some x => x.va | none => 0
      let t := t.modV (fun v => { v with scratch := w.1 })
      let t := if live == 0 then t
        else
          let k := t.nextOp
          let u := t.startOp .at (.atomic accs w.2) live va
          match u.op k with
          | some o => u.setOp k { o with scope := xa.sco, release := rel && !accs.isEmpty, carries := cs,
                                         acquire := xa.ord.getLsbD 0, performed := accs.isEmpty, sites := memSites r.2 }
          | none => u
      t.endLanes g r.2

/-- ATOM (R331). -/
def execAtom (st : BitVec 2) (d a b : Code) (xa : Xa) (s : State) : Out :=
  let n := szRegs xa.sz
  let m := atomRegs xa
  let g : Sig := { slot := slot 0x34 4, stall := st,
                   ok := isLane d && aligned d n && aligned a 2 && aligned b m && !groupsOverlap d n b m && atomXaOk false xa,
                   uses := [(d, n), (a, 2), (b, m)] }
  s.issueRaw g (fun s => s.atomLanes g false (some d) a b xa)

/-- ATOMS (R331). -/
def execAtoms (st : BitVec 2) (d a b : Code) (xa : Xa) (s : State) : Out :=
  let n := szRegs xa.sz
  let m := atomRegs xa
  let g : Sig := { slot := slot 0x34 5, stall := st,
                   ok := isLane d && aligned d n && aligned b m && !groupsOverlap d n b m && atomXaOk false xa,
                   uses := [(d, n), (a, 1), (b, m)] }
  s.issueRaw g (fun s => s.atomLanes g true (some d) a b xa)

/-- RED (R331). -/
def execRed (st : BitVec 2) (a b : Code) (xa : Xa) (s : State) : Out :=
  let m := atomRegs xa
  let g : Sig := { slot := slot 0x34 6, stall := st, ok := aligned a 2 && aligned b m && atomXaOk true xa, dst := false,
                   uses := [(a, 2), (b, m)] }
  s.issueRaw g (fun s => s.atomLanes g false none a b xa)

/-! ### Prefetch and cache control (R332) -/

/-- Of the lanes of a prefetch or cache control those that fail are dropped, but for uses of a lost die, which fault (spec/01 R36), and
where a feature is missing. -/
def State.endHints (s : State) (g : Sig) (xs : List LaneAt) : State :=
  if featureMissing xs then s.raiseHere fFeatureAbsent 0
  else s.endLanes g (xs.filter (fun x => x.committed || x.code == some fDieLost))

/-- PREF: the translations of its lanes leave their traces. -/
def execPref (st : BitVec 2) (a : Code) (sub : BitVec 4) (off : BitVec 16) (s : State) : Out :=
  let g : Sig := { slot := slot 0x34 7, stall := st, ok := aligned a 2 && sub ≤ 1, dst := false, uses := [(a, 2)] }
  s.issueRaw g (fun s =>
    let r := s.lanesAt false a off 1 .read false
    if anyHeld r.2 then r.1.stall else r.1.endHints g r.2)

/-- CCTL: an operation counted in ST; `act` is what it does to the line of one lane. -/
def State.cctl (s : State) (st : BitVec 2) (a : Code) (off : BitVec 16) (act : State → Nat → State) : Out :=
  let g : Sig := { slot := slot 0x35 4, stall := st, ok := aligned a 2, dst := false, uses := [(a, 2)] }
  s.issueRaw g (fun s =>
    if s.countFull .st then s.stall
    else
      let r := s.lanesAt false a off 1 .read false
      let t := r.2.foldl (fun s x => match x.place with
        | .mem key _ _ => act s (lineOf key)
        | _ => s) r.1
      if featureMissing r.2 then r.1.raiseHere fFeatureAbsent 0
      else if anyHeld r.2 then r.1.stall
      else (t.startOp .st .done s.w.clause.enabled 0).endHints g r.2)

/-- CCTL.IL1: the issuing core's L1 copy is discarded. -/
def execCctlIl1 (st : BitVec 2) (a : Code) (off : BitVec 16) (s : State) : Out :=
  s.cctl st a off (fun s line => s.modCore s.w.core (fun c => { c with l1 := c.l1.keep (fun k _ => k / 1024 != line) }))
/-- CCTL.IRLC: the line is taken out of the die's remote line cache. -/
def execCctlIrlc (st : BitVec 2) (a : Code) (off : BitVec 16) (s : State) : Out :=
  s.cctl st a off (fun s line => s.dropCopy (s.dieOf s.cur) line)
/-- CCTL.WBL2. -/
def execCctlWbl2 (st : BitVec 2) (a : Code) (off : BitVec 16) (s : State) : Out := s.cctl st a off (fun s _ => s)

/-! ### Fences and waits (R333–R335) -/

/-- What a FENCE of a scope waits for beyond a release: every load, store and narrower atomic of the warp has completed. -/
def State.fenceReady (s : State) (scope : Nat) : Bool :=
  s.releaseReady s.cur scope s.nextOp && (s.opsOf s.cur).all (fun e =>
    e.2.complete || match e.2.cls with
      | .ld | .st => false
      | .at => decide (scope < e.2.scope.toNat)
      | _ => true)

/-- FENCE (R333). -/
def execFence (st : BitVec 2) (a : Code) (s : State) : Out :=
  let scope := (a.extractLsb' 0 3).toNat
  let prm := a.getLsbD 3
  let g : Sig := { slot := slot 0x35 0, stall := st, ok := a < 16 && scope ≤ 5 && (!prm || 3 ≤ scope) }
  s.issueRaw g (fun s =>
    let t := if s.fenceReady scope then s.takeFence s.cur scope else s
    if s.fenceReady scope && t.releaseReady s.cur scope s.nextOp then
      t.promoting prm (fun t => (((t.giveFence s.cur scope).noteRelease s.cur scope).discardL1 s.w.core true scope).retire g)
    else t.stall)

/-- IFENCE (R334): the decoded words of the warp's context and the instruction cache are discarded on its core. -/
def execIfence (st : BitVec 2) (s : State) : Out :=
  s.issue { slot := slot 0x35 1, stall := st } (fun s =>
    s.modCore s.w.core (fun c => { c with decoded := c.decoded.keep (fun k _ => decodedCtx k != s.l.ctx), icache := [] }))

/-- LFENCE (R334): earlier stores have completed, then the TLR caches hold nothing older: the issuing core's is discarded, and so, for a SEGO
that a warp of another core issues behind it (spec/06 R149, spec/08 R215), are the others (DESIGN CHOICE, log 88: at once). -/
def execLfence (st : BitVec 2) (s : State) : Out :=
  let g : Sig := { slot := slot 0x35 2, stall := st }
  s.issueRaw g (fun s =>
    if (s.opsOf s.cur).all (fun e => e.2.complete || e.2.cls != .st) then
      ({ s with cores := s.cores.mapVals (fun _ c => { c with tlrCache := [] }) } : State).retire g
    else s.stall)

/-- WAITC (R335). -/
def execWaitc (st : BitVec 2) (a b : Code) (s : State) : Out :=
  let g : Sig := { slot := slot 0x35 3, stall := st, ok := (classOf a.toNat).isSome && b < 64 }
  s.issueRaw g (fun s =>
    match classOf a.toNat with
    | some c => if s.count s.cur c ≤ b.toNat then s.retire g else s.stall
    | none => s)

/-! ### Completion -/

/-- Destinations of an operation are written (spec/11 R261). -/
def State.deliver (s : State) (o : Op) (ds : List Dest) : State :=
  s.modWarp o.warp (fun w => ds.foldl (fun w d => w.arrive o.born d.cell d.value) w)

/-- An operation is complete and reported in its turn (spec/08 R209). -/
def State.finish (s : State) (n : Nat) (f : Op → Op) : State :=
  match s.op n with
  | none => s
  | some o => (s.setOp n { f o with complete := true }).report o.warp o.cls

/-- A load's destinations when it completes: as read at issue, or read now. -/
def State.loadValues (s : State) (o : Op) (ds : List Dest) (accs : List LoadAcc) : List Dest :=
  if o.late then accs.flatMap (s.loadNow o.warp) ++ ds.filter (fun d => !accs.any (fun a => a.lane == d.lane)) else ds

/-- An acquire that reads when it completes lets none of its core's L1 copies survive until then (spec/08 R217). -/
def State.discardLate (s : State) (o : Op) : State :=
  if o.late then s.discardL1 (s.warp o.warp).core o.acquire o.scope.toNat else s

/-- A load that reads when it completes leaves its lines in the caches then, and takes up what the writes it reads carry. -/
def State.readLate (s : State) (o : Op) (accs : List LoadAcc) : State :=
  if !o.late then s
  else
    let t := s.heardBy o.warp o.acquire o.scope.toNat (s.loadCarries o.warp accs)
    accs.foldl (fun t a => t.fillLine (s.warp o.warp).core a.key a.slot a.ca) t

/-- The lanes of a split load whose data have arrived become READY (spec/05 R131). -/
def State.arriveLanes (s : State) (warp : Nat) (lanes : Lanes) : State :=
  s.modWarp warp (fun w => w.wake (lanes &&& w.lanesIn pendingData) false)

/-- A fault of a lane of a warp's load has been reported and is not resolved yet. -/
def State.laneReported (s : State) (o : Op) (l : Nat) : Bool :=
  let w := s.warp o.warp
  let names (fr : FaultRecord) : Bool := fr.fpc == o.fpc && inMask fr.flm l
  w.async.any names || (w.trap.tmode && names w.trap.frec) || w.swapFault.any names
    || (s.vat w.vat).deferred.any (fun d => d.warp == o.warp && names d.record)

/-- What the access of a pending lane gives (R131): its data, as the load read them or, where its access is made only now (a choice of
the hardware's, while nothing orders the load before a later access; DESIGN CHOICE, log 87), as they are now; or its fault. -/
def State.pendingLane (s : State) (o : Op) (ds : List Dest) (accs : List LoadAcc) (l : Nat) : State × Except LaneAt (List Dest) :=
  let then' := (s.loadValues o ds accs).filter (fun d => d.lane == l)
  match accs.find? (fun a => a.lane == l), o.sites.find? (fun x => x.1 == l) with
  | some _, some x =>
    if (s.warp o.warp).evict == .running && o.late && s.choice (400 + l) then
      let r := s.memPlace o.warp x.2.1 .read true (400 + l) (400 + l)
      match r.2 with
      | .fault c cause dies => (r.1, .error ⟨l, x.2.1, .fault c cause dies⟩)
      | _ => (r.1, .ok then')
    else (s, .ok then')
  | _, _ => (s, .ok then')

/-- Accesses of some pending lanes in turn: the destinations of those that gave data, and those that failed. -/
def State.pendingLanes (s : State) (o : Op) (ds : List Dest) (accs : List LoadAcc) :
    List Nat → List Nat → List Dest → List LaneAt → State × List Nat × List Dest × List LaneAt
  | [], ls, out, bad => (s, ls, out, bad)
  | l :: rest, ls, out, bad =>
    let r := s.pendingLane o ds accs l
    match r.2 with
    | .ok x => r.1.pendingLanes o ds accs rest (ls ++ [l]) (out ++ x) bad
    | .error e => r.1.pendingLanes o ds accs rest ls out (bad ++ [e])

/-- A fault of pending lanes is found: its record waits for the warp's next clause boundary, with the load's offset and the lanes that took
the code of the lowest of them (R131, spec/07 R167). -/
def State.reportPending (s : State) (o : Op) (bad : List LaneAt) : State :=
  match bad with
  | ⟨_, va, .fault c cause dies⟩ :: _ =>
    let flm := maskOf ((bad.filter (fun y => y.code == some c)).map (·.lane))
    let fr := s.record o.warp { code := c, flm := flm, fpc := o.fpc, cause := cause, fva := va, dies := dies }
    s.modWarp o.warp (fun w => { w with async := w.async ++ [fr] })
  | _ => s

/-- Data of some pending lanes of a split load arrive (R131). -/
def State.arrivePending (s : State) (n : Nat) (now : Lanes) : State :=
  match s.op n with
  | some o => match o.work with
    | .load ds accs true missing =>
      let turn := (lanesOf (now &&& missing)).filter (fun l => !s.laneReported o l)
      let r := s.pendingLanes o ds accs turn [] [] []
      let got := maskOf r.2.1
      let t := (r.1.readLate o (accs.filter (fun a => inMask got a.lane))).deliver o r.2.2.1
      let left := missing &&& ~~~ got
      let t := if left == 0 then t.dropOp n else t.setOp n { o with work := .load ds accs true left }
      (t.arriveLanes o.warp got).reportPending o r.2.2.2
    | _ => s
  | none => s

/-- Pending lanes whose fault a handler or the host skips become READY without data (DESIGN CHOICE, log 87). -/
def State.skipPending (s : State) (warp : Nat) (fr : FaultRecord) : State :=
  (s.ops.map (·.1)).foldl (fun s n => match s.op n with
    | some o => match o.work with
      | .load ds accs true missing =>
        let now := missing &&& fr.flm
        if o.warp != warp || !o.reported || o.fpc != fr.fpc || now == 0 then s
        else
          let left := missing &&& ~~~ now
          (if left == 0 then s.dropOp n else s.setOp n { o with work := .load ds accs true left }).arriveLanes warp now
      | _ => s
    | none => s) s

/-- The lanes of a load that wait. -/
def State.waitingLanes (s : State) (n : Nat) (o : Op) (accs : List LoadAcc) : Lanes := maskOf ((accs.filter (s.loadWaits n o)).map (·.lane))

/-- LOAD_COMPLETE (spec/11 R261). A load already split delivers its missing lanes. -/
def execLoadComplete (op : Nat) (s : State) : Out :=
  match s.op op with
  | some o => match o.work with
    | .load ds accs split missing =>
      let wait := s.waitingLanes op o accs
      if o.complete then .next s
      else if o.reported then .next (s.arrivePending op (missing &&& ~~~ wait))
      else if (if split then wait &&& missing else wait) != 0 then .next s
      else
        let s := s.discardLate o
        let vs := s.loadValues o ds accs
        .next (((s.readLate o accs).deliver o (if split then vs.filter (fun d => inMask missing d.lane) else vs)).finish op
          (fun o => { o with performed := true }))
    | _ => .next s
  | none => .next s

/-- SPLIT_DATA_ARRIVE (spec/05 R129, R131): the data of some lanes of an LD.SPLIT are written. -/
def execSplitDataArrive (op : Nat) (lanes : BitVec 32) (s : State) : Out :=
  match s.op op with
  | some o => match o.work with
    | .load ds accs true missing =>
      if o.complete then .next s
      else
        let now := lanes &&& missing &&& ~~~ s.waitingLanes op o accs
        if o.reported then .next (s.arrivePending op now)
        else
          let left := missing &&& ~~~ now
          let s := (s.readLate o (accs.filter (fun a => inMask now a.lane))).deliver o
            ((s.loadValues o ds accs).filter (fun d => inMask now d.lane))
          let s := s.setOp op { o with work := .load ds accs true left }
          if left == 0 then .next (s.finish op (fun o => { o with performed := true })) else .next s
    | _ => .next s
  | none => .next s

/-- The stores that an operation which both acquires and releases takes up from the writes it reads: its release waits for them, too
(R194). -/
def State.joins (s : State) (o : Op) : List Nat :=
  if o.acquire && o.release && decide (3 ≤ o.scope.toNat) then
    s.taken o.warp o.scope.toNat (o.work.writeKeys.flatMap s.sync.get)
  else []

/-- An operation may be performed now: in its place in the coherence order, and a release behind what it covers. -/
def State.performable (s : State) (n : Nat) (o : Op) : Bool :=
  s.coReady n o && (!o.release || (s.releaseReady o.warp o.scope.toNat n && (s.joins o).isEmpty))

/-- A store's bytes are performed, as .G or as .E, with what they carry. -/
def State.performStore (s : State) (o : Op) (g : Bool) (bs : List WByte) : State :=
  (if g then s.performG bs else s.performE o.die bs).noteSync (bs.map (·.key)) o.carries

/-- A store's requests do not leave its SILENT die. -/
def State.sendHeld (s : State) (o : Op) (keys : List Nat) : Bool := (s.die o.die).state == .silent && s.homeSilent o.die keys

/-- STORE_PERFORMED (spec/08 R201). An .E store is performed at its home, with the copies of other dies still to be
acknowledged; one that held back for its release is first seen by its die. A .G store has been sent; it is performed when every die it waits
for has acknowledged. What goes to a SILENT die is held. -/
def execStorePerformed (op : Nat) (s : State) : Out :=
  match s.op op with
  | some o =>
    if o.complete then .next s
    else match o.work with
      | .done => .next (s.finish op (fun o => { o with performed := true }))
      | .store g bs =>
        if o.performed || (g && o.owed != 0) || !s.performable op o then .next s
        else if g then
          if s.unanswered (s.ctx o.ctx).part (bs.map (·.key)) || s.sendHeld o (bs.map (·.key)) then .next s else
          let owed := s.ackDies o.die (bs.map (·.key))
          if owed == 0 then .next ((s.performStore o true bs).finish op (fun o => { o with performed := true }))
          else .next (s.setOp op { o with owed := owed })
        else if o.release then .next (s.setOp op { o with release := false })
        else if s.homeSilent o.die (bs.map (·.key)) || s.unanswered (s.ctx o.ctx).part (bs.map (·.key)) then .next s
        else
          let owed := bs.foldl (fun m b => m ||| s.copyDies b.key o.die) 0
          .next ((s.performStore o false bs).finish op (fun o => { o with performed := true, owed := owed }))
      | _ => .next s
  | none => .next s

/-- The copies of the lines of some bytes are gone from a die. -/
def State.invalidate (s : State) (dies : BitVec 4) (bs : List WByte) : State :=
  (setBits dies).foldl (fun s d => bs.foldl (fun s b => s.dropCopy d (lineOf b.key)) s) s

/-- Acknowledgements of a store from some dies have arrived: their copies are gone. With the last one a .G store is
performed, and a store performed before that has been reported is forgotten. -/
def State.acknowledge (s : State) (n : Nat) (dies : BitVec 4) : State :=
  match s.op n with
  | some o => match o.work with
    | .store g bs =>
      let left := o.owed &&& ~~~ dies
      if o.owed == 0 then s
      else if g && !o.performed then
        if left != 0 then s.setOp n { o with owed := left }
        else ((s.setOp n { o with owed := 0 }).performStore o true bs).finish n (fun o => { o with performed := true })
      else
        let s := s.invalidate dies bs
        if left == 0 && o.reported then s.dropOp n else s.setOp n { o with owed := left }
    | _ => s
  | none => s

/-- G_STORE_ACK (spec/08 R201): every missing acknowledgement arrives; a SILENT die sends none, and gets none from the others. -/
def execGStoreAck (op : Nat) (s : State) : Out :=
  match s.op op with
  | some o => .next (s.acknowledge op (o.owed &&& (if (s.die o.die).state == .silent then dieBit o.die else ~~~ s.silentBut o.die)))
  | none => .next s

/-- One access of an atomic is performed as .G at its unit; Mordant holds the line of a package-scope one (R206). The release sequence of the
write it reads goes on with it (R193); an acquire takes up what that carries. -/
def State.performAtomic (s : State) (o : Op) (a : AtomAcc) : State × BitVec 64 :=
  let keys := (List.range a.size).map (a.key + ·)
  let cs := keys.flatMap s.sync.get
  let old := BitVec.ofNat 64 (bytesToNat ((List.range a.size).map (fun i => s.decrypted (a.key + i) a.slot)))
  let new := atomValue a.size a.sub old a.b a.c
  let s := ((s.performG (wbytes a.key a.slot (natToBytes a.size new.toNat))).noteSync keys (s.live (cs ++ o.carries))).heardBy o.warp o.acquire
    o.scope.toNat cs
  let s := if 3 ≤ o.scope.toNat && (s.homeOfKey a.key).isSome then
    s.modHub (fun h => { h with hubOwned := h.hubOwned.set (sectorOf a.key) (some s.gtime) }) else s
  (s, old)

/-- The accesses of an atomic, lanes ascending, with the destinations of the old values. -/
def State.performAtomics (s : State) (o : Op) : List AtomAcc → State × List Dest
  | [] => (s, [])
  | a :: as =>
    let r := s.performAtomic o a
    let t := r.1.performAtomics o as
    (t.1, (match a.cell with
      | some c => laneDests a.lane (if a.size = 8 then [c, c + 32] else [c]) (valueWords (a.size / 4) r.2)
      | none => []) ++ t.2)

/-- ATOMIC_COMPLETE (R331). -/
def execAtomicComplete (op : Nat) (s : State) : Out :=
  match s.op op with
  | some o => match o.work with
    | .atomic accs ds =>
      if o.complete || (!accs.isEmpty && (!s.performable op o || s.ackSilent o.die o.work.writeKeys
          || s.unanswered (s.ctx o.ctx).part o.work.writeKeys)) then .next s
      else
        let r := s.performAtomics o accs
        .next (((r.1.discardL1 (s.warp o.warp).core o.acquire o.scope.toNat).deliver o (r.2 ++ ds)).finish op (fun o => { o with performed := true }))
    | _ => .next s
  | none => .next s

/-- PRM_PUSH_REQUEST (spec/08 R208): a core answers a warp's push once the data of its vat-scope releases are out; one on a SILENT die does
not answer, one on a lost die counts as having answered. -/
def execPrmPushRequest (core warp : Nat) (s : State) : Out :=
  match (s.warp warp).prmWait with
  | some cs =>
    let out := (s.die (dieOfCore core)).state != .silent && s.pushedOut (fun k => (s.warp k).core == core)
    if cs.contains core && (out || s.dieGone (dieOfCore core)) then
      .next (s.modWarp warp (fun w => { w with prmWait := some (cs.filter (· != core)) }))
    else .next s
  | none => .next s

end Sys2Proof.Machine
end

