-- ==== Sys2Proof/Machine/Engines.lean ====
section
/-! DEFINITION. The engines of a core (spec/06, spec/14 R336–R340, R342, spec/12 R292–R296): copies, decompression, tables
and chains, stream engines and rings, histograms. -/

namespace Sys2Proof.Machine

/-! ### Faults of engines and of instructions that act once per warp (R326) -/

/-- The lowest enabled lane of the warp in turn as a mask. -/
def State.lowLane (s : State) : Lanes := lowestMask s.w.clause.enabled

/-- A fault at issue of an instruction that acts once per warp; an access that waits for a SILENT die stalls it. -/
def State.raiseMiss (s : State) (m : Miss) : State :=
  if m = .held then s.stall
  else
    let r := m.toRaise s.lowLane s.w.clause.pc
    s.raiseLanes r.code r.flm r.cause r.fva r.dies
def State.raiseOnce (s : State) (code : BitVec 8) (info : Word) (fva : BitVec 64) : State :=
  (s.modW (·.countIssue 0)).raise s.cur { code := code, flm := s.lowLane, fpc := s.w.clause.pc, info := info, fva := fva } .after

/-- A fault found later is raised at the warp's next clause boundary; a warp with no live lane passes it to the vat rung
(spec/07 R171). -/
def State.asyncFault (s : State) (k : Nat) (r : Raise) (claim : Nat := 0) : State :=
  let fr := s.record k { r with claim := claim }
  if (s.vat (s.warp k).vat).stop.isSome then s
  else if (s.warp k).masks.lmask == 0 && !(s.warp k).saveRestore then s.offerVat k fr .boundary
  else s.modWarp k (fun w => { w with async := w.async ++ [fr] })

/-! ### Ranges -/

/-- A range that starts in the window and leaves the vat's scratchpad. -/
def State.badWindow (s : State) (va : BitVec 64) (n : Nat) : Bool := inWindow va && !s.v.inScratch (windowOff va) n

/-- The window lines of a range. -/
def windowLines (va : BitVec 64) (n : Nat) : List Nat :=
  if inWindow va && n != 0 then (List.range ((windowOff va + n - 1) / 128 - windowOff va / 128 + 1)).map (windowOff va / 128 + ·) else []

/-- A line of the range is absent. -/
def State.rangeAbsent (s : State) (va : BitVec 64) (n : Nat) : Bool := (windowLines va n).any (fun l => s.v.absent.get l != 0)

/-- Lines become absent, or one write to each has ended (spec/06 R140). -/
def Vat.claimLines (v : Vat) (ls : List Nat) : Vat := { v with absent := ls.foldl (fun m l => m.modify l (· + 1)) v.absent }
def Vat.freeLines (v : Vat) (ls : List Nat) : Vat := { v with absent := ls.foldl (fun m l => m.modify l (· - 1)) v.absent }

/-- Three writes are outstanding to a line of the range (R140). -/
def State.linesBusy (s : State) (ls : List Nat) : Bool := ls.any (fun l => 3 ≤ s.v.absent.get l)

/-- A write of bytes to a range by an engine of a core: to a vat's window or, as .G, to memory. -/
def State.writeRange (s : State) (core ctx vk : Nat) (va : BitVec 64) (bs : List Byte) (n : Nat) : State × Option Miss :=
  if inWindow va then
    if (s.vat vk).inScratch (windowOff va) bs.length then
      (s.modVat vk (fun v => { v with scratch := v.scratch.setFrom (windowOff va) bs }), none)
    else (s, some (.fault pageFault 5 va))
  else s.placeWrite core ctx va bs n

/-- The bytes of a range up to the first piece that fails, and that failure. -/
def State.readSome (s : State) (core ctx vk : Nat) (x : Reader) :
    List (BitVec 64 × Nat) → List Byte → State × List Byte × Option Miss
  | [], acc => (s, acc, none)
  | p :: rest, acc =>
    let r := s.readPieces core ctx (some vk) x 40 [p] []
    match r.2 with
    | .ok bs => r.1.readSome core ctx vk x rest (acc ++ bs)
    | .error m => (r.1, acc, some m)

/-- The memory keys of the pieces of a range that translate, outside the window. -/
def State.rangeKeys (s : State) (core ctx : Nat) (acc : Access) : Nat → List (BitVec 64 × Nat) → List Nat
  | _, [] => []
  | n, p :: rest =>
    (if inWindow p.1 then []
      else match (s.translate core ctx p.1 acc n).res with
        | .ok pa _ _ => (List.range p.2).map (s.memKey (s.ctx ctx).part pa + ·)
        | _ => []) ++ s.rangeKeys core ctx acc (n + 8) rest

/-- What a load by the warp in turn of an image at the instruction's place in issue order waits for, as LD does (spec/12 R294, spec/08 R197,
R214). -/
def State.imageKeys (s : State) (va : BitVec 64) (n : Nat) : List Nat := s.rangeKeys s.w.core s.l.ctx .read 40 (rangePieces va n)
def State.imageWaits (s : State) (va : BitVec 64) (n : Nat) : Bool := s.acquiring || s.lakeFenced || s.atomicOn (s.imageKeys va n)

/-- The load itself; earlier loads of the same bytes have read. -/
def State.readImage (s : State) (va : BitVec 64) (n : Nat) : State × Except Miss (List Byte) :=
  let r := s.readPieces s.w.core s.l.ctx (some s.w.vat) (.exact (some s.cur)) 40 (rangePieces va n) []
  match r.2 with
  | .ok bs => (r.1.bindLoads (s.imageKeys va n), .ok bs)
  | .error m => (r.1, .error m)

/-! ### COPY (R336) -/

/-- The lines that a fault's copy left absent: that copy's own, or, where the record has been through a save area, the oldest of its code
offset. -/
def Warp.claimOf (w : Warp) (fr : FaultRecord) : Option Claim :=
  (w.claims.find? (fun c => c.id == fr.claim && c.pc == fr.fpc)) <|> w.claims.find? (·.pc == fr.fpc)

/-- A fault of a copy is resolved: without replay its lines are given back, with one they are the first that the replay takes up. -/
def State.settleClaim (s : State) (k : Nat) (fr : FaultRecord) (replay : Bool) : State :=
  let w := s.warp k
  match w.claimOf fr with
  | none => s
  | some c =>
    let rest := w.claims.filter (· != c)
    if replay then s.modWarp k (fun w => { w with claims := c :: rest })
    else (s.modVat w.vat (fun v => v.freeLines c.lines)).modWarp k (fun w => { w with claims := rest })

/-- A replay begins: the lines its fault left are given back. -/
def State.reclaim (s : State) : State :=
  if s.w.replay.isSome then
    match s.w.claims.find? (·.pc == s.w.clause.pc) with
    | some c => (s.modV (fun v => v.freeLines c.lines)).modW (fun w => { w with claims := w.claims.filter (· != c) })
    | none => s
  else s

/-- A copy's fault: its operation ends, some lines stay absent. -/
def State.copyFault (s : State) (op : Nat) (o : Op) (lines : List Nat) (m : Miss) : State :=
  let s := if lines.isEmpty then s else s.modWarp o.warp (fun w => { w with claims := w.claims ++ [⟨o.fpc, op + 1, lines⟩] })
  (s.finish op id).asyncFault o.warp (m.toRaise (lowestMask o.lanes) o.fpc) (op + 1)

/-- COPY. -/
def execCopy (st : BitVec 2) (d a b : Code) (sub : BitVec 4) (s : State) : Out :=
  let g : Sig := { slot := slot 0x36 0, stall := st, ok := kPair d && kPair a && isK b && sub ≤ 1, dst := false,
                   uses := [(d, 2), (a, 2), (b, 1)] }
  s.issueRaw g (fun s =>
    let dst := s.readPair d 0
    let src := s.readPair a 0
    let n := (s.readK b).toNat
    if n == 0 || n % 4 != 0 || 2 ^ 24 < n then s.raiseHere fIllegalOperand 0
    else if dst.toNat % 4 != 0 || src.toNat % 4 != 0 then s.raiseOnce fAlign 0 (if dst.toNat % 4 != 0 then dst else src)
    else if s.badWindow dst n || s.badWindow src n then s.raiseMiss (.fault pageFault 5 (if s.badWindow dst n then dst else src))
    else
      let t := s.reclaim
      let ls := windowLines dst n
      if s.countFull .cp || s.acquiring || t.linesBusy ls then s.stall
      else ((t.modV (·.claimLines ls)).startOp .cp (.copy dst src n []) s.w.clause.enabled dst).retire g)

/-- The lowest lane of an operation's lanes. -/
def Op.low (o : Op) : Lanes := lowestMask o.lanes

/-- The pieces of a copy, one to each 128-byte line of its destination: offset and length. -/
def copyPieces (dst : BitVec 64) (n : Nat) : List (Nat × Nat) := (rangePieces dst n).map (fun p => ((p.1 - dst).toNat, p.2))

/-- A piece is moved; the source is read now, and each byte of a store of the warp still outstanding may be seen or not. -/
def State.movePiece (s : State) (o : Op) (dst src : BitVec 64) (p : Nat × Nat) : State × Option Miss :=
  let w := s.warp o.warp
  let at' := dst + BitVec.ofNat 64 p.1
  let r := s.readPieces w.core o.ctx (some w.vat) (.loose o.warp) 40 (rangePieces (src + BitVec.ofNat 64 p.1) p.2) []
  match r.2 with
  | .error m => (r.1, some m)
  | .ok bs =>
    let x := r.1.writeRange w.core o.ctx w.vat at' bs 60
    match x.2 with
    | some m => (x.1, some m)
    | none => (x.1.modVat w.vat (·.freeLines (windowLines at' p.2)), none)

/-- The pieces of a list in turn, as far as nothing fails or waits: those moved since, and what failed. -/
def State.movePieces (s : State) (o : Op) (dst src : BitVec 64) : List (Nat × Nat) → List Nat → State × List Nat × Option Miss
  | [], moved => (s, moved, none)
  | p :: rest, moved =>
    let r := s.movePiece o dst src p
    match r.2 with
    | some m => (r.1, moved, if m = .held then none else some m)
    | none => r.1.movePieces o dst src rest (moved ++ [p.1])

/-- A copy goes on: it moves those of its pieces that a choice takes. A fault ends it, and leaves the lines not completed absent; the last
piece completes it. -/
def State.copyOn (s : State) (op : Nat) (choose : List (Nat × Nat) → List (Nat × Nat)) : State :=
  match s.op op with
  | some o => match o.work with
    | .copy dst src n moved =>
      if o.complete then s
      else
        let left (moved : List Nat) : List (Nat × Nat) := (copyPieces dst n).filter (fun p => !moved.contains p.1)
        let r := s.movePieces o dst src (choose (left moved)) moved
        match r.2.2 with
        | some m => r.1.copyFault op o ((left r.2.1).flatMap (fun p => windowLines (dst + BitVec.ofNat 64 p.1) p.2)) m
        | none =>
          if (left r.2.1).isEmpty then r.1.finish op id else r.1.setOp op { o with work := .copy dst src n r.2.1 }
    | _ => s
  | none => s

/-- COPY_COMPLETE (R336, spec/06 R141): the pieces still to be moved are moved. -/
def execCopyComplete (op : Nat) (s : State) : Out := .next (s.copyOn op id)

/-- One piece of a copy, whichever the hardware takes, is moved before the rest (spec/08 R216). -/
def State.copyPiece (s : State) (op : Nat) : State :=
  s.copyOn op (fun ps => (ps.drop (Config.freeNat s.fresh 331 % ps.length)).take 1)

/-! ### Decompression (R153–R155, R337, R338) -/

/-- 16-bit little-endian fields. -/
def half (bs : List Byte) (i : Nat) : Nat := bytesToNat ((bs.drop i).take 2)
def word (bs : List Byte) (i : Nat) : Nat := bytesToNat ((bs.drop i).take 4)

/-- NSYM of a table image. -/
def imageSyms (bs : List Byte) : Nat := word bs 0 / 16 % 512

/-- Whether a table image is valid (R153). -/
def tableValid (bs : List Byte) : Bool :=
  let h := word bs 0
  let wide := h % 2 == 1
  let n := imageSyms bs
  let counts := (List.range 16).map (fun i => half bs (4 + 2 * i))
  let syms := (bs.drop 0x24).take n
  let kraft := ((counts.zip (List.range 16)).map (fun e => e.1 * 2 ^ (15 - e.2))).foldl (· + ·) 0
  h / 2 % 8 == 0 && h / 2 ^ 13 == 0 && 1 ≤ n && (if wide then n ≤ 256 else n ≤ 16) && counts.foldl (· + ·) 0 == n
    && decide syms.Nodup && (wide || syms.all (fun b => b.toNat < 16))
    && (kraft == 2 ^ 16 || (n == 1 && counts.headD 0 == 1))

/-- One code read from a bit stream: `code` bits so far, `first` the first code of the length, `idx` the first symbol of the
length; the counts of the lengths from here on. -/
def readCode : List Nat → List Bool → Nat → Nat → Nat → Option (Nat × List Bool)
  | [], _, _, _, _ => none
  | _ :: _, [], _, _, _ => none
  | c :: cs, b :: bs, code, first, idx =>
    let code := 2 * code + (if b then 1 else 0)
    let first := 2 * first
    if code < first + c then some (idx + (code - first), bs) else readCode cs bs code (first + c) (idx + c)

/-- The bits of bytes, the most significant of each first (R154). -/
def bitsOf (bs : List Byte) : List Bool := bs.flatMap (fun b => [7, 6, 5, 4, 3, 2, 1, 0].map b.getLsbD)

/-- Decodes symbols: those decoded, and whether the bits ran out before the count. Bits that are no code of a one-symbol
table give a free symbol, one bit each. -/
def decodeSyms (t : CodeTable) (fresh : Nat) : Nat → List Bool → List Byte × Bool
  | 0, _ => ([], false)
  | n + 1, bits =>
    match readCode t.counts bits 0 0 0 with
    | some (i, rest) =>
      let r := decodeSyms t fresh n rest
      (t.symbols.getD i 0 :: r.1, r.2)
    | none =>
      match bits, decide (t.symbols.length = 1) with
      | _ :: rest, true =>
        let r := decodeSyms t fresh n rest
        (Config.freeByte fresh n :: r.1, r.2)
      | _, _ => ([], true)

/-- 4-bit symbols two to a byte, the earlier in the low half (R154). -/
def packNibbles : List Byte → List Byte
  | [] => []
  | [a] => [a &&& 0xF]
  | a :: b :: rest => ((a &&& 0xF) ||| (b <<< 4)) :: packNibbles rest

/-- Bytes that `n` symbols make. -/
def outBytes (wide : Bool) (n : Nat) : Nat := if wide then n else (n + 1) / 2

/-- An outstanding table load of a kind and object on a core. -/
def State.tableLoading (s : State) (core kind n : Nat) : Bool :=
  s.ops.any (fun e => match e.2 with
    | some o => (s.warp o.warp).core == core && !o.complete && (match o.work with | .table k m _ => k == kind && m == n | _ => false)
    | none => false)

/-- An outstanding DCOPY of a core, with a test of its number and table. -/
def State.decoding (s : State) (core : Nat) (p : Nat → Nat → Bool) : Bool :=
  s.ops.any (fun e => match e.2 with
    | some o => (s.warp o.warp).core == core && !o.complete && (match o.work with | .dcopy _ _ _ _ t => p e.1 t | _ => false)
    | none => false)

/-- The core of the warp in turn. -/
def State.myCore (s : State) : Core := s.core s.w.core

/-- The vat of the warp in turn may use a code table, a chain or the Tint table: it owns it, and it has been loaded or is being loaded
(R158). -/
def State.usableObject (s : State) (kind n : Nat) (owner : Option Nat) (empty : Bool) : Bool :=
  owner == some s.w.vat && (!empty || s.tableLoading s.w.core kind n)

/-- It may load it. -/
def State.loadable (s : State) (owner : Option Nat) : Bool := owner.isNone || owner == some s.w.vat

/-- DCOPY (R337). -/
def execDcopy (st : BitVec 2) (d a b : Code) (sub : BitVec 4) (c : Code) (s : State) : Out :=
  let usable := s.usableObject 2 sub.toNat (s.myCore.tables.get sub.toNat).owner (s.myCore.tables.get sub.toNat).counts.isEmpty
  let g : Sig := { slot := slot 0x36 1, stall := st, ok := kPair d && kPair a && isK b && isK c && sub < 8 && usable, dst := false,
                   uses := [(d, 2), (a, 2), (b, 1), (c, 1)] }
  s.issueRaw g (fun s =>
    let dst := s.readPair d 0
    let src := s.readPair a 0
    let n := (s.readK b).toNat
    let len := (s.readK c).toNat
    let t := s.myCore.tables.get sub.toNat
    let loading := s.tableLoading s.w.core 2 sub.toNat
    if !inWindow dst || n == 0 || 2 ^ 24 < n || len == 0 then s.raiseHere fIllegalOperand 0
    else if loading then s.stall
    else
      let size := outBytes t.wide n
      if s.badWindow dst size then s.raiseMiss (.fault pageFault 5 dst)
      else
        let u := s.reclaim
        let ls := windowLines dst size
        if s.countFull .cp || s.acquiring || u.linesBusy ls then s.stall
        else ((u.modV (·.claimLines ls)).startOp .cp (.dcopy dst src n len sub.toNat) s.w.clause.enabled dst).retire g)

/-- DCOPY_COMPLETE (R155): the core decodes one DCOPY at a time, in issue order. -/
def execDcopyComplete (op : Nat) (s : State) : Out :=
  match s.op op with
  | some o => match o.work with
    | .dcopy dst src n len tab =>
      let core := (s.warp o.warp).core
      if o.complete || s.decoding core (fun k _ => k < op) then .next s
      else
        let vk := (s.warp o.warp).vat
        let t := (s.core core).tables.get tab
        let r := s.readSome core o.ctx vk (.loose o.warp) (rangePieces src len) []
        let x := decodeSyms t s.fresh n (bitsOf r.2.1)
        let ls := windowLines dst (outBytes t.wide n)
        match r.2.2, x.2 with
        | some .held, _ => .next r.1
        | some m, true => .next (r.1.copyFault op o ls m)
        | _, out =>
          let bytes := if t.wide then x.1 else packNibbles x.1
          let bytes := bytes ++ List.replicate (outBytes t.wide n - bytes.length) 0
          let u := r.1.modVat vk (fun v => ({ v with scratch := v.scratch.setFrom (windowOff dst) bytes }).freeLines ls)
          let u := if out then u.modWarp o.warp (fun w => { w with dcerr := true }) else u
          .next (u.finish op id)
    | _ => .next s
  | none => .next s

/-- A table load of the warp in turn, which may load the object: the image is read now, counted in CP and written when it completes (spec/12
R294). `own` makes the vat the object's owner. -/
def State.loadTable (s : State) (g : Sig) (va : BitVec 64) (align n kind obj : Nat) (own : Core → Core) (stalls : Bool) : State :=
  if va.toNat % align != 0 then s.raiseOnce fAlign 0 va
  else if stalls || s.countFull .cp || s.imageWaits va n then s.stall
  else if s.rangeAbsent va n then s.park .presence
  else
    let r := s.readImage va n
    match r.2 with
    | .error m => r.1.raiseMiss m
    | .ok bs => ((r.1.modCore s.w.core own).startOp .cp (.table kind obj bs) s.w.clause.enabled va).retire g

/-- CTABLD (R338). -/
def execCtabld (st : BitVec 2) (d a : Code) (s : State) : Out :=
  let g : Sig := { slot := slot 0x36 2, stall := st, ok := d < 8 && kPair a && s.loadable (s.myCore.tables.get d.toNat).owner, dst := false,
                   uses := [(a, 2)] }
  s.issueRaw g (fun s =>
    let va := s.readPair a 0
    let n := match (s.readImage va 4).2 with | .ok bs => 0x24 + imageSyms bs | .error _ => 4
    s.loadTable g va 4 n 2 d.toNat
      (fun c => { c with tables := c.tables.modify d.toNat (fun t => { t with owner := some s.w.vat }) })
      (s.decoding s.w.core (fun _ t => t == d.toNat)))

/-! ### The Tint table and chains (spec/06 R158–R162, spec/12 R292–R296) -/

/-- An evaluation of the Tint function (R161) with a bank. -/
def tintOf (b : TintBank) (fresh : Nat) (x : Nat) : FRes :=
  let v := f32.decode x
  if v.isNan then (f32.nanCode, snanFlag [v])
  else
    let z := (mulVal (sumVal 0 [v, (f32.decode b.lo.toNat).negate]).1 (f32.decode b.scale.toNat)).1
    let j := if z.isNan then Config.freeNat fresh x % 256
      else (floatToInt 3 0 255 (f32.decode (f32.round 0 z).1)).1.toNat
    let e := b.entries.get j
    f32.fma 0 e.1.toNat x e.2.toNat

/-- The vat may use the Tint table: it owns it and a load has completed, or is under way (R158). -/
def State.tintUsable (s : State) : Bool := s.myCore.tintOwner == some s.w.vat && s.myCore.tintLoaded

/-- TINT (R293). -/
def execTint (st : BitVec 2) (d a : Code) (s : State) : Out :=
  let g : Sig := { slot := slot 0x1D 0, stall := st, ok := isLane d && s.tintUsable, uses := [(d, 1), (a, 1)] }
  s.fresult g d (fun s l => tintOf s.myCore.tintCurrent s.fresh (s.readOp a l).toNat)

/-- TINTLD (R294). -/
def execTintld (st : BitVec 2) (a : Code) (s : State) : Out :=
  let g : Sig := { slot := slot 0x1D 1, stall := st, ok := kPair a && s.loadable s.myCore.tintOwner, dst := false, uses := [(a, 2)] }
  s.issueRaw g (fun s => s.loadTable g (s.readPair a 0) 16 2064 0 0
    (fun c => { c with tintOwner := some s.w.vat }) false)

/-- TINTSW (R295): after every earlier TINTLD of the core the banks swap. -/
def execTintsw (st : BitVec 2) (s : State) : Out :=
  let g : Sig := { slot := slot 0x1D 2, stall := st, ok := s.usableObject 0 0 s.myCore.tintOwner (!s.myCore.tintLoaded) }
  s.issueRaw g (fun s =>
    if s.tableLoading s.w.core 0 0 then s.stall
    else (s.modCore s.w.core (fun c => { c with tintCurrent := c.tintShadow, tintShadow := c.tintCurrent })).retire g)

/-- CHLD (R294). -/
def execChld (st : BitVec 2) (d a : Code) (s : State) : Out :=
  let g : Sig := { slot := slot 0x1D 3, stall := st, ok := d < 8 && kPair a && s.loadable (s.myCore.chains.get d.toNat).owner, dst := false,
                   uses := [(a, 2)] }
  s.issueRaw g (fun s => s.loadTable g (s.readPair a 0) 32 96 1 d.toNat
    (fun c => { c with chains := c.chains.modify d.toNat (fun t => { t with owner := some s.w.vat }) }) false)

/-- Fields of a chain operation word (R159 Table 6). -/
def chOp (w : Word) : Nat := (w.extractLsb' 26 6).toNat
def chDst (w : Word) : Nat := (w.extractLsb' 22 4).toNat
def chSa (w : Word) : Nat := (w.extractLsb' 17 5).toNat
def chSb (w : Word) : Nat := (w.extractLsb' 12 5).toNat
def chSc (w : Word) : Nat := (w.extractLsb' 7 5).toNat

/-- A reserved code or field in an operation word. -/
def chBad (w : Word) : Bool :=
  let src (c : Nat) : Bool := c ≤ 9 || (12 ≤ c && c ≤ 15)
  14 ≤ chOp w || 9 ≤ chDst w || !src (chSa w) || !src (chSb w) || !src (chSc w) || w.extractLsb' 0 7 != 0

/-- The operation words of a chain image. -/
def chainOps (bs : List Byte) : List Word :=
  (List.range (word bs 0 % 32)).map (fun i => BitVec.ofNat 32 (word bs (0x20 + 4 * i)))

/-- Whether a chain image is valid (R159). -/
def chainValid (bs : List Byte) : Bool :=
  let n := word bs 0 % 32
  word bs 0 / 32 == 0 && 1 ≤ n && n ≤ 16 && ((bs.drop 0x14).take 12).all (· == 0) && (chainOps bs).all (fun w => !chBad w)

/-- One operation of a chain: 14 codes, each with the flags of the matching instruction (R160). -/
def chainStep (bank : TintBank) (fresh op a b c : Nat) : FRes :=
  match op with
  | 1 => f32.add 0 a b
  | 2 => f32.sub 0 a b
  | 3 => f32.mul 0 a b
  | 4 => f32.fma 0 a b c
  | 5 => fminmax false a b
  | 6 => fminmax true a b
  | 7 => Machine.fneg a
  | 8 => Machine.fabs a
  | 9 => tintOf bank fresh a
  | 10 => fexp2Of a
  | 11 => frcpOf a
  | 12 => frsqOf a
  | _ =>
    let m := fminmax true a b
    let r := fminmax false m.1 c
    (r.1, m.2 ||| r.2)

/-- One element through a chain: the sources by code, and y at code 8 of the destinations. -/
def runChain (ch : Chain) (bank : TintBank) (fresh x0 x1 : Nat) : FRes :=
  let src (t : Map Nat) (c : Nat) : Nat :=
    if c ≤ 7 then t.get c else if c = 8 then x0 else if c = 9 then x1 else (ch.consts.getD (c - 12) 0).toNat
  let ops := ch.ops.takeWhile (fun w => chOp w != 0)
  let r := ops.foldl (fun (r : Map Nat × Flags) w =>
    let x := chainStep bank fresh (chOp w) (src r.1 (chSa w)) (src r.1 (chSb w)) (src r.1 (chSc w))
    (r.1.set (chDst w) x.1, r.2 ||| x.2)) ([], 0)
  (r.1.get 8, r.2)

/-- CHRUN (R296). -/
def execChrun (st : BitVec 2) (d a b : Code) (sub : BitVec 4) (imm7 : BitVec 7) (s : State) : Out :=
  let n := imm7.toNat
  let fits (c : Code) : Bool := c.toNat + n ≤ 96
  let ch := s.myCore.chains.get sub.toNat
  let loading := s.tableLoading s.w.core 1 sub.toNat
  let tints := (ch.ops.takeWhile (fun w => chOp w != 0)).any (fun w => chOp w == 9) && !loading
  let g : Sig := { slot := slot 0x1D 4, stall := st, ok := sub < 8 && 1 ≤ n && n ≤ 16 && fits d && fits a && fits b
                     && s.usableObject 1 sub.toNat ch.owner ch.ops.isEmpty && (!tints || s.tintUsable),
                   uses := [(d, n), (a, n), (b, n)] }
  s.issueRaw g (fun s =>
    if loading then s.stall
    else
      ((List.range n).foldl (fun s e =>
        let r (l : Nat) := runChain ch s.myCore.tintCurrent s.fresh (s.readOp (a + BitVec.ofNat 7 e) l).toNat
          (s.readOp (b + BitVec.ofNat 7 e) l).toNat
        (s.putD (d + BitVec.ofNat 7 e) (fun l => BitVec.ofNat 32 (r l).1)).addFlags (s.laneFlags (fun l => (r l).2))) s).retire g)

/-- Whether a Tint image is valid: its reserved bytes are 0. -/
def tintValid (bs : List Byte) : Bool := ((bs.drop 8).take 8).all (· == 0)

/-- A table load takes its effect on the core. -/
def Core.loadTable (c : Core) (kind n : Nat) (bs : List Byte) : Core :=
  let w (i : Nat) : Word := BitVec.ofNat 32 (word bs i)
  match kind with
  | 0 => { c with
      tintLoaded := true,
      tintShadow := { lo := w 0, scale := w 4, entries := Map.setFrom [] 0 ((List.range 256).map (fun i => (w (16 + 8 * i), w (20 + 8 * i)))) } }
  | 1 => { c with chains := c.chains.modify n (fun t => { t with
      consts := (List.range 4).map (fun i => w (4 + 4 * i)), ops := chainOps bs }) }
  | _ => { c with tables := c.tables.modify n (fun t => { t with
      wide := word bs 0 % 2 == 1, counts := (List.range 16).map (fun i => half bs (4 + 2 * i)),
      symbols := (bs.drop 0x24).take (imageSyms bs) }) }

/-- TABLE_LOAD_COMPLETE (spec/12 R294): an invalid image raises ILLEGAL_OPERAND and changes nothing. -/
def execTableLoadComplete (op : Nat) (s : State) : Out :=
  match s.op op with
  | some o => match o.work with
    | .table kind n bs =>
      if o.complete then .next s
      else
        let valid := match kind with | 0 => tintValid bs | 1 => chainValid bs | _ => tableValid bs
        if valid then .next ((s.modCore (s.warp o.warp).core (·.loadTable kind n bs)).finish op id)
        else .next ((s.finish op id).asyncFault o.warp { code := fIllegalOperand, flm := o.low, fpc := o.fpc })
    | _ => .next s
  | none => .next s

/-! ### Rings (spec/06 R142–R146) -/

/-- Fields of RINGD. -/
def rdKind (r : BitVec 64) : Nat := (r.extractLsb' 38 2).toNat
def rdNm1 (r : BitVec 64) : Nat := (r.extractLsb' 32 6).toNat
def rdQptr (r : BitVec 64) : Nat := (r.extractLsb' 46 6).toNat
def rdPptr (r : BitVec 64) : Nat := (r.extractLsb' 40 6).toNat
def rdSize (r : BitVec 64) : Nat := 128 * ((r.extractLsb' 16 11).toNat + 1)
def rdBase (r : BitVec 64) : Nat := (r.extractLsb' 0 11).toNat
/-- Scratchpad offset of a slot. -/
def rdOff (r : BitVec 64) (slot : Nat) : Nat := 128 * rdBase r + slot * rdSize r
def setQptr (r : BitVec 64) (v : Nat) : BitVec 64 := (r &&& ~~~((0x3F : BitVec 64) <<< 46)) ||| (BitVec.ofNat 64 (v % 64) <<< 46)
def setPptr (r : BitVec 64) (v : Nat) : BitVec 64 := (r &&& ~~~((0x3F : BitVec 64) <<< 40)) ||| (BitVec.ofNat 64 (v % 64) <<< 40)

/-- Tags: 0 EMPTY, 1 FILLING, 2 FULL, 3 DRAINING. -/
def tagOf (t : BitVec 128) (slot : Nat) : Nat := (t.extractLsb' (2 * slot) 2).toNat
def setTag (t : BitVec 128) (slot v : Nat) : BitVec 128 :=
  (t &&& ~~~((3 : BitVec 128) <<< (2 * slot))) ||| (BitVec.ofNat 128 (v % 4) <<< (2 * slot))

/-- The slot at the pointer of a side. -/
def rdPtr (r : BitVec 64) (producer : Bool) : Nat := if producer then rdPptr r else rdQptr r

/-- A side takes the slot at its pointer: its tag advances and so does the pointer. -/
def Vat.takeSlot (v : Vat) (n : Nat) (producer : Bool) : Vat :=
  let r := v.ringd.get n
  let p := rdPtr r producer
  let next := if p = rdNm1 r then 0 else p + 1
  { v with
    ringd := v.ringd.set n (if producer then setPptr r next else setQptr r next), ringQuiet := v.ringQuiet.set n false,
    ringtag := v.ringtag.modify n (fun t => setTag t p (if producer then 1 else 3)) }

/-- The slot at a side's pointer can be taken. -/
def Vat.canTake (v : Vat) (n : Nat) (producer : Bool) : Bool :=
  tagOf (v.ringtag.get n) (rdPtr (v.ringd.get n) producer) == (if producer then 0 else 2)

/-- A side gives a slot. -/
def Vat.giveSlot (v : Vat) (n slot : Nat) (producer : Bool) : Vat :=
  { v with ringQuiet := v.ringQuiet.set n false, ringtag := v.ringtag.modify n (fun t => setTag t slot (if producer then 2 else 0)) }

/-- The side of a ring that a warp acts on: VEC warps produce drain rings, the MAT warp accumulator rings (R144). -/
def sideOf (mat : Bool) (kind : Nat) : Bool := mat || kind == 2

/-- A MAT warp may not use a fill or drain ring; there is none of a number of 8 or more (R144, R340). -/
def ringRole (mat : Bool) (a : Code) (kind : Nat) : Bool := !mat || 8 ≤ a || kind == 0 || kind == 3

/-- Warps still waiting in SLTAKE on a side of a ring, the first first (R145). -/
def State.slotWaiters (s : State) (vk ring : Nat) (producer : Bool) : List Nat :=
  ((s.vat vk).slotQueue.filter (fun e => e.1 == ring && e.2.1 == producer
    && (s.warp (warpKey vk e.2.2)).hold == .parked (.slot ring))).map (·.2.2)

/-- SLTAKE (R340, R145). -/
def execSltake (st : BitVec 2) (d a : Code) (s : State) : Out :=
  let kind := rdKind (s.v.ringd.get (a.toNat % 8))
  let g : Sig := { slot := slot 0x36 6, stall := st, ok := isK d && a < 8, uses := [(d, 1)], roleOk := ringRole s.w.mat a kind }
  s.issueRaw g (fun s =>
    let n := a.toNat
    let r := s.v.ringd.get n
    let producer := sideOf s.w.mat kind
    let first := (s.slotWaiters s.w.vat n producer).headD s.w.num
    let untested := s.w.hold == .parked (.slot n) && s.v.ringQuiet.get n
    if kind == 0 then s.raiseOnce fSlotState (BitVec.ofNat 32 n) 0
    else if first == s.w.num && s.v.canTake n producer && !untested then
      let s := s.modV (fun v => ({ v with slotQueue := v.slotQueue.filter (fun e => !(e.1 == n && e.2.2 == s.w.num)) }).takeSlot n producer)
      ((s.takeOver s.cur).putK d (BitVec.ofNat 32 (rdPtr r producer))).retire g
    else
      let queued := (s.slotWaiters s.w.vat n producer).contains s.w.num
      let s := if queued then s else s.modV (fun v => { v with
        slotQueue := v.slotQueue.filter (fun e => !(e.1 == n && e.2.2 == s.w.num)) ++ [(n, producer, s.w.num)] })
      s.park (.slot n))

/-- Matrix instructions of the warp are outstanding. -/
def State.matrixBusy (s : State) : Bool := (s.opsOf s.cur).any (fun e => e.2.cls == .mx && !e.2.complete)

/-- SLGIVE (R340, R146): a release at vat scope. A ring whose KIND is 0 has no NM1 to compare the slot with: SLOT_STATE, whatever the slot
(DESIGN CHOICE, log 110: R340 names ILLEGAL_OPERAND for a slot above NM1 and R144 SLOT_STATE for an undefined ring, and neither which is first). -/
def execSlgive (st : BitVec 2) (a b : Code) (s : State) : Out :=
  let kind := rdKind (s.v.ringd.get (a.toNat % 8))
  let g : Sig := { slot := slot 0x36 7, stall := st, ok := a < 8 && isK b, dst := false, uses := [(b, 1)],
                   roleOk := ringRole s.w.mat a kind }
  s.issueRaw g (fun s =>
    let n := a.toNat
    let r := s.v.ringd.get n
    let slot := (s.readK b).toNat
    let producer := sideOf s.w.mat kind
    let tag := tagOf (s.v.ringtag.get n) slot
    if kind != 0 && rdNm1 r < slot then s.raiseHere fIllegalOperand 0
    else if kind == 0 || tag != (if producer then 1 else 3) then s.raiseOnce fSlotState (BitVec.ofNat 32 n) 0
    else if kind == 3 && s.matrixBusy then s.stall
    else s.releasing 1 (fun s => (s.modV (fun v => v.giveSlot n slot producer)).retire g))

/-! ### Stream engines (spec/06 R147–R152, spec/14 R339) -/

/-- Fields of a TLR (R147). -/
structure Tlr where
  base : BitVec 64
  es : Nat
  dir : Bool
  rank : Nat
  ring : Nat
  swz : Nat
  order : List Nat
  ext : List Nat
  str : List Nat
  box : List Nat
  reserved : Bool
  deriving DecidableEq, Repr, Inhabited

def tlrOf (bs : List Byte) : Tlr :=
  let h := word bs 8
  { base := BitVec.ofNat 64 (bytesToNat (bs.take 8)), es := h % 4, dir := h / 4 % 2 == 1, rank := h / 8 % 8, ring := h / 64 % 8,
    swz := h / 512 % 4, order := (List.range 5).map (fun i => h / 2 ^ (16 + 3 * i) % 8),
    ext := (List.range 5).map (fun i => word bs (0xC + 4 * i)),
    str := 0 :: (List.range 4).map (fun i => word bs (0x20 + 4 * i)),
    box := (List.range 5).map (fun i => (bs.getD (0x30 + i) 0).toNat),
    reserved := h / 2 ^ 11 % 32 != 0 || h / 2 ^ 31 != 0 || ((bs.drop 0x35).take 11).any (· != 0) }

/-- Boxes along a dimension, and in all. -/
def Tlr.boxes (t : Tlr) (d : Nat) : Nat := (t.ext.getD d 0 + t.box.getD d 0) / (t.box.getD d 0 + 1)
def Tlr.total (t : Tlr) : Nat := (List.range t.rank).foldl (fun r d => r * t.boxes d) 1
/-- Elements of a box. -/
def Tlr.elements (t : Tlr) : Nat := (List.range t.rank).foldl (fun r d => r * (t.box.getD d 0 + 1)) 1

/-- A TLR is invalid (R148), for the vat whose rings it names. -/
def Vat.tlrInvalid (v : Vat) (t : Tlr) : Bool :=
  let used := List.range t.rank
  let unused := (List.range 5).filter (t.rank ≤ ·)
  let r := v.ringd.get t.ring
  t.rank == 0 || 6 ≤ t.rank
    || !(used.all (fun d => (t.order.take t.rank).contains d))
    || unused.any (fun i => t.order.getD i 0 != 0)
    || used.any (fun d => t.ext.getD d 0 == 0)
    || unused.any (fun d => t.ext.getD d 0 != 0 || t.str.getD d 0 != 0 || t.box.getD d 0 != 0)
    || t.str.any (fun x => x % 2 ^ t.es != 0)
    || t.base.toNat % 2 ^ t.es != 0
    || t.reserved
    || decide (rdSize r < t.elements * 2 ^ t.es)
    || decide (2 ^ 32 < t.total)
    || rdKind r != (if t.dir then 2 else 1)

/-- The engine in turn. -/
def State.engine (s : State) (core e : Nat) : StreamEngine := (s.core core).engines.get e
def State.modEngine (s : State) (core e : Nat) (f : StreamEngine → StreamEngine) : State :=
  s.modCore core (fun c => { c with engines := c.engines.modify e f })

/-- SECFG (R339, R150). -/
def execSecfg (st : BitVec 2) (d a b : Code) (s : State) : Out :=
  let g : Sig := { slot := slot 0x36 3, stall := st, ok := d < 2 && kPair a && isK b, dst := false, uses := [(a, 2), (b, 1)] }
  s.issueRaw g (fun s =>
    let e := d.toNat
    let va := s.readPair a 0
    let x := s.engine s.w.core e
    if x.holder == some s.w.vat && x.busy then s.raiseHere fIllegalOperand 0
    else if va.toNat % 64 != 0 then s.raiseOnce fAlign 0 va
    else if x.holder.isSome && x.holder != some s.w.vat then s.park (.secfg e)
    else (s.modEngine s.w.core e (fun _ => { (default : StreamEngine) with
      holder := some s.w.vat, tlrVa := va, sepos := s.readK b })).retire g)

/-- Where a TLR lies in memory, and its page's key slot. -/
def State.tlrAt (s : State) (va : BitVec 64) : Nat × BitVec 10 :=
  match (s.translate s.w.core s.l.ctx va .read 40).res with
  | .ok pa slot _ => (s.memKey s.c.part pa, slot)
  | _ => (0, 0)

/-- The name of a TLR in the TLR cache: its memory key and key slot, or its vat and place in the window. -/
def State.tlrKey (s : State) (va : BitVec 64) : Nat :=
  if inWindow va then 2 ^ 72 * (s.w.vat + 1) + va.toNat else 1024 * (s.tlrAt va).1 + (s.tlrAt va).2.toNat

/-- The TLR as the engine reads it (R149, R215): what memory holds and what the TLR cache held before may be mixed by 8-byte parts. The cache
of 16 entries keeps what it held or what the home holds, and nothing that a store on its way has not reached. -/
def State.readTlr (s : State) (va : BitVec 64) : State × Except Miss (List Byte) :=
  let r := s.readImage va 64
  match r.2 with
  | .error m => (r.1, .error m)
  | .ok now =>
    let key := s.tlrKey va
    let home := if inWindow va then now else (List.range 64).map (fun i => s.decrypted ((s.tlrAt va).1 + i) (s.tlrAt va).2)
    let held := s.myCore.tlrCache.get key
    let old := if held.length = 64 then held else home
    let mix (new : List Byte) : List Byte := (List.range 8).flatMap (fun i => ((if s.choice (100 + i) then old else new).drop (8 * i)).take 8)
    (r.1.modCore s.w.core (fun c => { c with tlrCache := cacheFill c.tlrCache key 16 (Config.freeNat s.fresh 324) (mix home) }), .ok (mix now))

/-- SEGO (R339). -/
def execSego (st : BitVec 2) (d : Code) (s : State) : Out :=
  let g : Sig := { slot := slot 0x36 4, stall := st, ok := d < 2 }
  s.issueRaw g (fun s =>
    let e := d.toNat
    let x := s.engine s.w.core e
    let pc := s.w.clause.pc
    let again := s.w.replay.isSome && x.holder == some s.w.vat && x.flt && x.fpc == pc && x.warp == s.cur
    if again then
      if s.countFull .cp then s.stall
      else
        let n := s.nextOp
        let t := s.startOp .cp (.sego e) s.w.clause.enabled x.tlrVa
        (t.modEngine s.w.core e (fun x => { x with flt := false, bytes := 0, op := n, warp := s.cur, lane := s.lane0 })).retire g
    else if x.holder != some s.w.vat || x.busy then s.raiseHere fIllegalOperand 0
    else if s.countFull .cp || s.imageWaits x.tlrVa 64 then s.stall
    else
      let r := s.readTlr x.tlrVa
      match r.2 with
      | .error m => r.1.raiseMiss m
      | .ok bs =>
        let t := tlrOf bs
        if s.v.tlrInvalid t then r.1.raiseOnce fTlrInvalid 0 0
        else
          let n := r.1.nextOp
          let u := r.1.startOp .cp (.sego e) s.w.clause.enabled x.tlrVa
          (u.modEngine s.w.core e (fun x => { x with
            tlr := bs, ring := BitVec.ofNat 3 t.ring, busy := true, flt := false, bytes := 0, warp := s.cur, op := n, fpc := pc,
            lane := s.lane0, slot := none })).retire g)

/-- An engine is released (R150): SEPOS stays where it is. -/
def StreamEngine.release (x : StreamEngine) : StreamEngine :=
  { x with holder := none, busy := false, flt := false, slot := none, tlr := [], stopping := false, bytes := 0 }

/-- An engine whose vat is being saved stops where it stands, still held, with SEPOS as it is (R163; DEDUCED, log 30). -/
def StreamEngine.idle (x : StreamEngine) : StreamEngine :=
  { x with busy := false, flt := false, slot := none, tlr := [], stopping := false, bytes := 0 }

/-- An engine is within a box: between two steps only where a replay restarts one. -/
def StreamEngine.inBox (x : StreamEngine) : Bool := x.busy && !x.flt && x.slot.isSome

/-- SESTOP (R339, R152): the box in progress is finished first. -/
def execSestop (st : BitVec 2) (d : Code) (s : State) : Out :=
  let g : Sig := { slot := slot 0x36 5, stall := st, ok := d < 2 }
  s.issueRaw g (fun s =>
    let x := s.engine s.w.core d.toNat
    if x.holder != some s.w.vat then s.retire g
    else if x.inBox then (s.modEngine s.w.core d.toNat (fun x => { x with stopping := true })).stall
    else
      let s := if x.busy && !x.flt then s.finish x.op id else s
      (s.modEngine s.w.core d.toNat StreamEngine.release).retire g)

/-- One element of a box: its index along each dimension. -/
def Tlr.elementAt (t : Tlr) (i : Nat) : List Nat :=
  ((List.range t.rank).foldl (fun (r : List Nat × Nat) d =>
    (r.1 ++ [r.2 % (t.box.getD d 0 + 1)], r.2 / (t.box.getD d 0 + 1))) ([], i)).1

/-- The box of index `q`: its number along each dimension. -/
def Tlr.boxAt (t : Tlr) (q : Nat) : List Nat :=
  let r := (List.range t.rank).foldl (fun (r : Map Nat × Nat) i =>
    let d := t.order.getD i 0
    (r.1.set d (r.2 % t.boxes d), r.2 / t.boxes d)) ([], q)
  (List.range t.rank).map r.1.get

/-- Offset of an element in its slot, with the swizzle (R151). -/
def Tlr.slotOffset (t : Tlr) (i : Nat) : Nat :=
  let o := 2 ^ t.es * i
  if t.swz = 0 then o else o ^^^ (o / 128 % 2 ^ t.swz * 16)

/-- Where element `i` of a box lies in memory; none beyond the tensor's extents. -/
def Tlr.elementVa (t : Tlr) (box : List Nat) (i : Nat) : Option (BitVec 64) :=
  let e := t.elementAt i
  let gs := (List.range t.rank).map (fun d => box.getD d 0 * (t.box.getD d 0 + 1) + e.getD d 0)
  if (List.range t.rank).any (fun d => t.ext.getD d 0 ≤ gs.getD d 0) then none
  else some (t.base + BitVec.ofNat 64 (gs.headD 0 * 2 ^ t.es
    + ((List.range t.rank).drop 1).foldl (fun r d => r + gs.getD d 0 * t.str.getD d 0) 0))

/-- Moves `n` elements of a box from number `i` on; the first access that fails or waits ends it, with its element's number. -/
def State.moveElements (s : State) (core ctx vk : Nat) (t : Tlr) (box : List Nat) (off : Nat) :
    Nat → Nat → State × Option (Nat × Miss)
  | 0, _ => (s, none)
  | n + 1, i =>
    let at' := off + t.slotOffset i
    let size := 2 ^ t.es
    match t.elementVa box i with
    | none =>
      let s := if t.dir then s else s.modVat vk (fun v => { v with scratch := v.scratch.setFrom at' (List.replicate size 0) })
      s.moveElements core ctx vk t box off n (i + 1)
    | some a =>
      if t.dir then
        let r := s.writeRange core ctx vk a ((s.vat vk).scratchBytes at' size) 40
        match r.2 with
        | some m => (r.1, some (i, m))
        | none => r.1.moveElements core ctx vk t box off n (i + 1)
      else
        let r := s.readPieces core ctx (some vk) (.exact none) 40 (rangePieces a size) []
        match r.2 with
        | .error m => (r.1, some (i, m))
        | .ok bs => (r.1.modVat vk (fun v => { v with scratch := v.scratch.setFrom at' bs })).moveElements core ctx vk t box off n (i + 1)

/-- A traversal ends: its count ends and the engine is released. -/
def State.endTraversal (s : State) (core e : Nat) : State :=
  (s.finish (s.engine core e).op id).modEngine core e StreamEngine.release

/-- The lot of a vat has been aborted, as the vat's die knows it. -/
def State.vatAborted (s : State) (vk : Nat) : Bool :=
  let v := s.vat vk
  (s.lot v.lot).abortAtDie (dieOfCore v.core) s.gtime

/-- Every warp of a stopped vat has stopped (spec/07 R395). -/
def State.warpsStopped (s : State) (vk : Nat) : Bool :=
  (s.vat vk).stop.isSome && (warpKeys vk (s.vat vk)).all (fun k => (s.warp k).stopped || (s.warp k).masks.lmask == 0)

/-- STREAM_BOX (R151): the engine takes its slot, if it can, moves one box and gives the slot. A traversal that waits for a
slot when every warp of its stopped vat has stopped can run no further: it ends (spec/07 R395; DEDUCED, log 30). An engine that waits for a
slot tests it again at once after a write of RINGTAG (DESIGN CHOICE, log 109: R143 speaks of parked SLTAKEs). A box stands where an access of it
waits for a SILENT die. -/
def execStreamBox (core e : Nat) (s : State) : Out :=
  let x := s.engine core e
  match x.holder with
  | none => .next s
  | some vk =>
    if !x.busy || x.flt then .next s
    else
      let t := tlrOf x.tlr
      let v := s.vat vk
      let n := x.ring.toNat
      let r := v.ringd.get n
      let producer := !t.dir
      let waits := x.slot.isNone && !v.canTake n producer
      if x.slot.isNone && (t.total ≤ x.sepos.toNat || s.vatAborted vk || (waits && s.warpsStopped vk)) then .next (s.endTraversal core e)
      else if waits then .next s
      else
        let slot := x.slot.getD (rdPtr r producer)
        let s := if x.slot.isSome then s else s.modVat vk (fun v => v.takeSlot n producer)
        let done := x.bytes.toNat / 2 ^ t.es
        let m := s.moveElements core (s.lot v.lot).ctx vk t (t.boxAt x.sepos.toNat) (rdOff r slot) (t.elements - done) done
        match m.2 with
        | some (i, miss) =>
          let u := m.1.modEngine core e (fun x => { x with flt := decide (miss ≠ .held), slot := some slot, bytes := BitVec.ofNat 18 (i * 2 ^ t.es) })
          if miss = .held then .next u else .next ((u.finish x.op id).asyncFault x.warp (miss.toRaise (laneBit x.lane) x.fpc))
        | none =>
          let used := t.elements * 2 ^ t.es
          let u := if t.dir then m.1 else m.1.modVat vk (fun v => { v with
            scratch := v.scratch.setFrom (rdOff r slot + used) (List.replicate (rdSize r - used) 0) })
          let u := u.modVat vk (fun v => v.giveSlot n slot producer)
          let u := u.modEngine core e (fun x => { x with sepos := x.sepos + 1, slot := none, bytes := 0 })
          if t.total ≤ x.sepos.toNat + 1 || x.stopping then .next (u.endTraversal core e) else .next u

/-! ### Histograms (spec/04 R103, R342) -/

/-- A bin saturates. -/
def satInc (x : Word) : Word := if x == 0xFFFFFFFF then x else x + 1

/-- HISTA. -/
def execHista (st : BitVec 2) (a : Code) (s : State) : Out :=
  s.issue { slot := slot 0x37 2, stall := st, dst := false, uses := [(a, 1)] } (fun s =>
    let ids := s.lanes.map (fun l => (s.readOp a l).toNat % 256)
    s.modV (fun v => { v with hist := ids.foldl (fun m i => m.modify i satInc) v.hist }))

/-- COUNT and PREFIX of a histogram. -/
def histCounts (m : Map Word) : List Word := (List.range 256).map m.get
def prefixes : List Word → Word → List Word
  | [], _ => []
  | x :: xs, r => r :: prefixes xs (r + x)
def histBlock (m : Map Word) : List Word := histCounts m ++ prefixes (histCounts m) 0

/-- HISTL. -/
def execHistl (st : BitVec 2) (d a : Code) (s : State) : Out :=
  let g : Sig := { slot := slot 0x37 3, stall := st, ok := d < 16 && kPair a, dst := false, uses := [(a, 2)] }
  s.issueRaw g (fun s =>
    let va := s.readPair a 0
    if va.toNat % 256 != 0 then s.raiseOnce fAlign 0 va
    else if s.countFull .st || s.acquiring then s.stall
    else if inWindow va then
      if s.badWindow va 2048 then s.raiseMiss (.fault pageFault 5 va)
      else (s.startOp .st (.histl d.toNat va) s.w.clause.enabled va).retire g
    else
      let r := s.writePieces s.w.core s.l.ctx 40 (rangePieces va 2048) []
      match r.2 with
      | .error m => r.1.raiseMiss m
      | .ok _ => (r.1.startOp .st (.histl d.toNat va) s.w.clause.enabled va).retire g)

/-- HISTL_COMPLETE (R103): the block, the latch and its copy in the save area are written as one release, and the bins
clear. -/
def execHistlComplete (op : Nat) (s : State) : Out :=
  match s.op op with
  | some o => match o.work with
    | .histl latch va =>
      if o.complete || !s.releaseReady o.warp 3 op then .next s
      else
        let vk := (s.warp o.warp).vat
        let block := histBlock (s.vat vk).hist
        let bytes := block.flatMap wordBytes
        let r := s.writeRange (s.warp o.warp).core o.ctx vk va bytes 40
        match r.2 with
        | some .held => .next r.1
        | some m => .next ((r.1.finish op id).asyncFault o.warp (m.toRaise o.low o.fpc))
        | none =>
          let base := (16 * o.die + latch) * 512
          let t := r.1.modCtx o.ctx (fun c => { c with latches := c.latches.setFrom base block })
          let t := (t.modVat vk (fun v => { v with hist := [] })).noteRelease o.warp 3
          let w := t.agentWrite o.ctx (t.saveVa o.ctx + BitVec.ofNat 64 (0x8000 + 0x800 * latch)) bytes 80
          let t := w.1.finish op id
          match w.2 with
          | none => .next t
          | some m => .next (t.faultContext o.ctx { t.record o.warp (m.toRaise o.low o.fpc) with rung := 2, replay := false })
    | _ => .next s
  | none => .next s

end Sys2Proof.Machine
end

