-- ==== Sys2Proof/Machine/Group.lean ====
section
/-! DEFINITION. Dot-product summation by groups of 32 (spec/09 R231–R235) and the elements of narrow arrays (R224), shared by
the matrix array and the Lake engines. -/

namespace Sys2Proof.Machine

/-- Codes of the elements of an array of a width, 4-bit ones two to a byte with the lower index low, 16-bit ones
little-endian (R224). -/
def codes4 : List Byte → List Nat
  | [] => []
  | b :: bs => b.toNat % 16 :: b.toNat / 16 :: codes4 bs
def codes16 : List Byte → List Nat
  | a :: b :: bs => (a.toNat + 256 * b.toNat) :: codes16 bs
  | _ => []
def codesOf (w : Nat) (bs : List Byte) : List Nat :=
  if w = 4 then codes4 bs else if w = 8 then bs.map BitVec.toNat else codes16 bs

/-- An array read through a slot. -/
def slotValues (w : Word) (bs : List Byte) : List FVal := (codesOf (slWidth w) bs).map (slotValue w)

/-- A value times 2^x, exactly (R227). -/
def FVal.scaled (v : FVal) (x : Int) : FVal :=
  match v with
  | .fin n m e => .fin n m (e + x)
  | v => v

/-- The exponents of the elements from number `k0` on, one for each 128-element k-group. -/
def scaleGroups (exps : List Int) (k0 : Nat) (vs : List FVal) : List FVal :=
  (vs.zip (List.range vs.length)).map (fun e => e.1.scaled (exps.getD ((k0 + e.2) / 128) 0))

/-- The groups of 32 of two vectors added in ascending k; a last group that is not full is completed with products of +0. -/
def addGroups (int sat : Bool) (scale : FVal) : Nat → List FVal → List FVal → Nat → Flags → Nat × Flags
  | 0, _, _, acc, fl => (acc, fl)
  | n + 1, a, b, acc, fl =>
    let pad (v : List FVal) : List FVal := v.take 32 ++ List.replicate (32 - (v.take 32).length) (.fin false 0 0)
    let ps := (pad a).zip (pad b)
    if int then
      addGroups int sat scale n (a.drop 32) (b.drop 32)
        (intAccumulate sat (BitVec.ofNat 32 acc) (ps.map (fun e => (e.1.at 0, e.2.at 0)))).toNat fl
    else
      let r := floatAccumulate acc (ps.map (fun e => (e.1, e.2, 0))) scale
      addGroups int sat scale n (a.drop 32) (b.drop 32) r.1 (fl ||| r.2)

/-- The compressed form of a group of 128 (R235): values and their positions, with the number of the first metadata byte that is bad. -/
def metadataBad : List Byte → Option Byte → Nat → Option Nat
  | [], _, _ => none
  | m :: rest, before, i =>
    if 128 ≤ m.toNat || (match before with | some b => m.toNat ≤ b.toNat | none => false) then some i else metadataBad rest (some m) (i + 1)

def expandGroup (vs : List FVal) (md : List Byte) : List FVal :=
  (List.range 128).map (fun i => match (md.zip vs).find? (fun e => e.1.toNat == i) with
    | some e => e.2
    | none => .fin false 0 0)

end Sys2Proof.Machine
end

