-- ==== Sys2Proof/Machine/Matrix.lean ====
section
/-! DEFINITION. Matrix and tile instructions (spec/15), accumulator space (spec/06 R156, R157). -/

namespace Sys2Proof.Machine

/-! ### Tiles -/

/-- The element of a tile in the accumulator window (spec/06 R156). -/
def Vat.tileIndex (v : Vat) (t r c : Nat) : Nat := v.rows * v.cols * t + r * v.cols + c

/-- Tile elements an outstanding operation is still to write. -/
def Work.tileWrites : Work → List (Nat × Word)
  | .tileStore _ _ ts => ts
  | .drain _ ts => ts
  | _ => []

/-- A tile element as operation `n` of warp `k` reads it: the warp's own earlier writes are seen, of other warps' those that have been
performed (R361). -/
def State.tileSeen (s : State) (k n i : Nat) : Word :=
  s.ops.foldl (fun r e => match e.2 with
    | some o =>
      if o.complete || o.warp != k || decide (n ≤ e.1) then r
      else match o.work.tileWrites.find? (fun t => t.1 == i) with
        | some t => t.2
        | none => r
    | none => r) ((s.vat (s.warp k).vat).tiles.get i)

/-- An operation may still read or write a tile element. -/
def Op.onElement (o : Op) (i : Nat) : Bool :=
  !o.complete && match o.work with
    | .matrix _ _ _ _ _ _ _ _ => true
    | .tileStore _ _ ts => ts.any (fun t => t.1 == i)
    | .drain ds _ => ds.any (fun d => d.1 == i)
    | _ => false

/-- Tile writes of a work that are still to be performed, cut down. -/
def Work.keepTiles (w : Work) (p : Nat × Word → Bool) : Work :=
  match w with
  | .tileStore bytes scratch ts => .tileStore bytes scratch (ts.filter p)
  | .drain ds ts => .drain ds (ts.filter p)
  | w => w

/-- Before an access of a warp to a tile, some writes of the vat's other warps are performed: any that the hardware chooses (R361), in each
warp's own order. -/
def State.landTiles (s : State) (k : Nat) : State :=
  let vk := (s.warp k).vat
  (s.ops.map (·.1)).foldl (fun s n => match s.op n with
    | some o =>
      if o.complete || o.warp == k || (s.warp o.warp).vat != vk || o.late then s
      else
        let behind (i : Nat) : Bool := (s.opsOf o.warp).any (fun e => decide (e.1 < n) && e.2.onElement i)
        let now := o.work.tileWrites.filter (fun t => s.choice (2 ^ 70 + 2 ^ 20 * n + t.1) && !behind t.1)
        if now.isEmpty then s
        else (s.setOp n { o with work := o.work.keepTiles (fun t => !now.contains t) }).modVat vk (fun v => { v with tiles := v.tiles.setAll now })
    | none => s) s

/-- The accumulator ring that refuses a tile, if any (R350): its tag of the tile is not the one wanted. -/
def State.tileRefused (s : State) (t : Nat) : Option Nat :=
  let want := if s.w.mat then 1 else 3
  if s.w.saveRestore then none
  else (List.range 8).find? (fun n =>
    let r := s.v.ringd.get n
    rdKind r == 3 && decide (rdBase r ≤ t ∧ t ≤ rdBase r + rdNm1 r) && tagOf (s.v.ringtag.get n) (t - rdBase r) != want)

/-- Any issue of a matrix instruction that is not a replay clears ROWP.VALID (R356). -/
def Warp.clearRowp (w : Warp) : Warp := { w with rowp := w.rowp &&& 0x3F }

/-- An instruction on a tile that is not refused. -/
def State.onTile (s : State) (t : Nat) (eff : State → State) : State :=
  match s.tileRefused t with
  | some n => s.raiseHere fSlotState (BitVec.ofNat 32 n)
  | none => eff s

/-- Starts a counted instruction that holds nothing back. -/
def State.startTile (s : State) (g : Sig) (w : Work) : State :=
  if s.countFull .mx || s.acquiring then s.stall
  else ((s.modW Warp.clearRowp).startOp .mx w s.w.clause.enabled 0).retire g

/-- An operation reads when it completes, or has read. -/
def State.reading (s : State) (n : Nat) (late : Bool) : State :=
  { s with ops := s.ops.modify n (fun e => e.map (fun o => { o with late := late })) }

/-! ### TCFG (R351) -/

/-- Every counted matrix instruction of the warp in turn has completed. -/
def State.matrixIdle (s : State) : Bool := (s.opsOf s.cur).all (fun e => e.2.complete || e.2.cls != .mx)

/-- TCFG. -/
def execTcfg (st : BitVec 2) (a b : Code) (s : State) : Out :=
  let g : Sig := { slot := slot 0x3C 0, stall := st, ok := a < 64 }
  s.issueRaw g (fun s =>
    if !s.matrixIdle then s.stall
    else
      let s := s.modV (fun v => { v with
        mcfg := b.setWidth 32 ||| a.setWidth 32 <<< 7, tiles := [],
        ringQuiet := (List.range 8).foldl (fun m n => if rdKind (v.ringd.get n) == 3 then m.set n false else m) v.ringQuiet,
        ringtag := (List.range 8).foldl (fun m n => if rdKind (v.ringd.get n) == 3 then m.set n 0 else m) v.ringtag })
      (s.modW Warp.clearRowp).retire g)

/-! ### MMA and MMAS (R352–R356) -/

/-- One operand: base, stride, scale word, slot. -/
structure MatArg where
  va : BitVec 64
  stride : Nat
  scale : Word
  fmt : Word
  deriving DecidableEq, Repr, Inhabited

def MatArg.of (ws : List Word) (fmt : Word) : MatArg :=
  { va := ws.getD 1 0 ++ ws.getD 0 0, stride := (ws.getD 2 0).toNat, scale := ws.getD 3 0, fmt := fmt }

/-- The base or stride is not a multiple of 16. -/
def MatArg.misaligned (x : MatArg) : Bool := x.va.toNat % 16 != 0 || x.stride % 16 != 0

/-- The address of row or column `i`. -/
def MatArg.at (x : MatArg) (i : Nat) : BitVec 64 := x.va + BitVec.ofNat 64 (i * x.stride)

/-- The bytes of a row of `k` elements; of the compressed form with `n` values for each 128 elements (R355). -/
def MatArg.bytes (x : MatArg) (k n : Nat) : Nat :=
  if n = 0 then k * slWidth x.fmt / 8 else k / 128 * (n * slWidth x.fmt / 8 + n)

/-- The exponents of row `i` under SCL = 2 (R353). -/
def MatArg.exps (x : MatArg) (k i : Nat) : BitVec 64 × Nat :=
  (x.va + x.scale.setWidth 64 + BitVec.ofNat 64 (i * ((k + 127) / 128)), if slScl x.fmt = 2 then (k + 127) / 128 else 0)

/-- The ranges that row `i` is read from. -/
def MatArg.ranges (x : MatArg) (k n i : Nat) : List (BitVec 64 × Nat) := [(x.at i, x.bytes k n), x.exps k i]

/-- Why a matrix instruction stops. -/
inductive MatStop where
  | miss (m : Miss)
  | metadata (va : BitVec 64)
  deriving DecidableEq, Repr, Inhabited

/-- The operand pair suits (R353, R355). -/
def matPairOk (a b : Word) (sat : Bool) (k n : Nat) : Bool :=
  slIsInt a == slIsInt b && (!sat || slIsInt a) && (n == 0 || k % 128 == 0)

/-- The array's reads of a range: each byte of a store of the issuing warp that is still outstanding may be seen or not (R361). -/
def State.matRead (s : State) (o : Op) (r : BitVec 64 × Nat) : State × Except Miss (List Byte) :=
  s.readPieces (s.warp o.warp).core o.ctx (some (s.warp o.warp).vat) (.loose o.warp) 40 (rangePieces r.1 r.2) []

/-- The values of the groups of a compressed row, or the address of a bad metadata byte. -/
def sparseValues (fmt : Word) (n : Nat) (va : BitVec 64) : Nat → List Byte → Except MatStop (List FVal)
  | 0, _ => .ok []
  | q + 1, bs =>
    let nv := n * slWidth fmt / 8
    let md := (bs.drop nv).take n
    match metadataBad md none 0 with
    | some j => .error (.metadata (va + BitVec.ofNat 64 (nv + j)))
    | none => (sparseValues fmt n (va + BitVec.ofNat 64 (nv + n)) q (bs.drop (nv + n))).map (expandGroup (slotValues fmt (bs.take nv)) md ++ ·)

/-- Row `i` of A or column `i` of B, decoded and scaled by its exponents. -/
def State.matVector (s : State) (o : Op) (x : MatArg) (k n i : Nat) : State × Except MatStop (List FVal) :=
  let r := s.matRead o (x.at i, x.bytes k n)
  match r.2 with
  | .error m => (r.1, .error (.miss m))
  | .ok bs =>
    match (if n = 0 then .ok (slotValues x.fmt bs) else sparseValues x.fmt n (x.at i) (k / 128) bs) with
    | .error e => (r.1, .error e)
    | .ok vs =>
      if slScl x.fmt != 2 then (r.1, .ok vs)
      else
        let e := r.1.matRead o (x.exps k i)
        match e.2 with
        | .error m => (e.1, .error (.miss m))
        | .ok es => (e.1, .ok (scaleGroups (es.map BitVec.toInt) 0 vs))

/-- Vectors in ascending order; the first that fails ends it. -/
def State.matVectors (s : State) (o : Op) (x : MatArg) (k n : Nat) : List Nat → List (List FVal) → State × Except MatStop (List (List FVal))
  | [], acc => (s, .ok acc)
  | i :: is, acc =>
    let r := s.matVector o x k n i
    match r.2 with
    | .error e => (r.1, .error e)
    | .ok v => r.1.matVectors o x k n is (acc ++ [v])

/-- sA × sB (R232). -/
def matScale (a b : MatArg) : FVal × Flags :=
  let f (x : MatArg) : FVal := if slScl x.fmt = 1 then f32.decode x.scale.toNat else .fin false 1 0
  mulVal (f a) (f b)

/-- One row of the product: the elements of the row with its flags. -/
def State.matRow (s : State) (k op tile : Nat) (a : List FVal) (bs : List (List FVal)) (int sat za : Bool) (scale : FVal) (r : Nat) :
    List (Nat × Word) × Flags :=
  let v := s.vat (s.warp k).vat
  (bs.zip (List.range bs.length)).foldl (fun acc e =>
    let i := v.tileIndex tile r e.2
    let x := addGroups int sat scale ((a.length + 31) / 32) a e.1 (if za then 0 else (s.tileSeen k op i).toNat) 0
    (acc.1 ++ [(i, BitVec.ofNat 32 x.1)], acc.2 ||| x.2)) ([], 0)

/-- The rows of MatMul (R354) in ascending order; a row that fails ends it with its number. -/
def State.matRows (s : State) (o : Op) (op tile : Nat) (x : MatArg) (k n : Nat) (bs : List (List FVal)) (int sat za : Bool)
    (scale : FVal × Flags) : List Nat → List (Nat × Word) → Flags → State × List (Nat × Word) × Flags × Option (Nat × MatStop)
  | [], ts, fl => (s, ts, fl, none)
  | r :: rs, ts, fl =>
    let a := s.matVector o x k n r
    match a.2 with
    | .error e => (a.1, ts, fl, some (r, e))
    | .ok v =>
      let y := a.1.matRow o.warp op tile v bs int sat za scale.1 r
      a.1.matRows o op tile x k n bs int sat za scale rs (ts ++ y.1) (fl ||| y.2 ||| (if int then 0 else scale.2))

/-- What a matrix instruction has done at its operand-complete point. -/
structure MatDone where
  bytes : List WByte := []
  scratch : List (Nat × Byte) := []
  tiles : List (Nat × Word) := []
  flags : Flags := 0
  stop : Option (Nat × MatStop) := none
  deriving DecidableEq, Repr, Inhabited

/-- MatMul. -/
def State.matMul (s : State) (o : Op) (op tile : Nat) (x y : MatArg) (n : Nat) (imm : BitVec 7) (first : Nat) : State × MatDone :=
  let v := s.vat (s.warp o.warp).vat
  let b := s.matVectors o y v.extentK 0 (List.range v.cols) []
  match b.2 with
  | .error e => (b.1, { stop := some (first, e) })
  | .ok bs =>
    let r := b.1.matRows o op tile x v.extentK n bs (slIsInt x.fmt) (imm.getLsbD 3) (imm.getLsbD 4) (matScale x y)
      ((List.range v.rows).drop first) [] 0
    (r.1, { tiles := r.2.1, flags := r.2.2.1, stop := r.2.2.2 })

/-! ### Tile moves (R358) -/

/-- MLD's rows. -/
def State.matLoad (s : State) (o : Op) (tile : Nat) (x : MatArg) : List Nat → List (Nat × Word) → State × MatDone
  | [], ts => (s, { tiles := ts })
  | r :: rs, ts =>
    let v := s.vat (s.warp o.warp).vat
    let m := s.matRead o (x.at r, 4 * v.cols)
    match m.2 with
    | .error e => (m.1, { tiles := ts, stop := some (r, .miss e) })
    | .ok bs =>
      m.1.matLoad o tile x rs (ts ++ (List.range v.cols).map (fun c => (v.tileIndex tile r c, BitVec.ofNat 32 (word bs (4 * c)))))

/-- One row of MST, piece by piece: bytes of memory, translated, and bytes of the window. -/
def State.matStoreRow (s : State) (o : Op) : List (BitVec 64 × Nat) → List Byte → List WByte → List (Nat × Byte) →
    State × Except Miss (List WByte × List (Nat × Byte))
  | [], _, ws, sc => (s, .ok (ws, sc))
  | p :: rest, bs, ws, sc =>
    let now := bs.take p.2
    if inWindow p.1 then
      if (s.vat (s.warp o.warp).vat).inScratch (windowOff p.1) p.2 then
        s.matStoreRow o rest (bs.drop p.2) ws (sc ++ (List.range p.2).map (fun i => (windowOff p.1 + i, now.getD i 0)))
      else (s, .error (.fault pageFault 5 p.1))
    else
      let w := s.writePieces (s.warp o.warp).core o.ctx 40 [p] []
      match w.2 with
      | .error m => (w.1, .error m)
      | .ok ps => w.1.matStoreRow o rest (bs.drop p.2) (ws ++ layBytes ps now) sc

/-- MST's rows: translated, to be written when it completes. -/
def State.matStore (s : State) (o : Op) (op tile : Nat) (x : MatArg) : List Nat → MatDone → State × MatDone
  | [], d => (s, d)
  | r :: rs, d =>
    let v := s.vat (s.warp o.warp).vat
    let bs := (List.range v.cols).flatMap (fun c => wordBytes (s.tileSeen o.warp op (v.tileIndex tile r c)))
    let w := s.matStoreRow o (rangePieces (x.at r) bs.length) bs [] []
    match w.2 with
    | .error m => (w.1, { d with stop := some (r, .miss m) })
    | .ok ps => w.1.matStore o op tile x rs { d with bytes := d.bytes ++ ps.1, scratch := d.scratch ++ ps.2 }

/-! ### Issue and operand-complete point (R356) -/

/-- The instruction at work `n` has not reached its operand-complete point. -/
def State.matReading (s : State) (n : Nat) : Bool :=
  match s.op n with
  | some o => (match o.work with | .matrix _ _ _ _ _ _ _ _ => true | _ => false)
  | none => false

/-- MMA, MMAS, MLD or MST: once issued the warp stands at the word until the operand-complete point. -/
def State.untilRead (s : State) (g : Sig) (eff : State → State) : Out :=
  match s.w.matrixOp with
  | some k => .next (if s.matReading k then s.stall else s.retire g)
  | none => s.issueRaw g eff

/-- Its issue. -/
def State.matIssue (s : State) (f tile : Nat) (kA kB : List Word) (n fs imm : Nat) (xs : List MatArg)
    (ranges : Nat → List (BitVec 64 × Nat)) : State :=
  s.onTile tile (fun s =>
    match xs.find? MatArg.misaligned with
    | some x => s.raiseOnce fAlign 0 (if x.va.toNat % 16 != 0 then x.va else 0)
    | none =>
      let first := if s.w.replay.isSome && s.w.rowp.getLsbD 7 then (s.w.rowp.extractLsb' 0 6).toNat else 0
      if s.countFull .mx || s.acquiring then s.stall
      else if (ranges first).any (fun r => s.rangeAbsent r.1 r.2) then s.park .presence
      else
        let k := s.nextOp
        let t := (s.modW Warp.clearRowp).startOp .mx (.matrix f tile kA kB n fs imm first) s.w.clause.enabled 0
        (t.modW (fun w => { w with matrixOp := some k })).stall)

/-- Four k registers. -/
def State.kQuad (s : State) (c : Code) : List Word := (List.range 4).map (fun i => s.readK (c + BitVec.ofNat 7 i))

/-- MMA and MMAS: `n` is 0, or the values of MMAS in each group of 128. -/
def State.product (s : State) (f : Nat) (st : BitVec 2) (d a b : Code) (n : Nat) (subOk : Bool) (fs : BitVec 3) (imm7 : BitVec 7) : Out :=
  let fmtA := s.fslot fs
  let fmtB := s.fslot (imm7.extractLsb' 0 3)
  let k := s.v.extentK
  let g : Sig := { slot := slot 0x3C f, stall := st, dst := false, uses := [(a, 4), (b, 4)], tile := some d.toNat,
                   ok := d < 16 && isK a && aligned a 4 && isK b && aligned b 4 && subOk && imm7 < 32
                     && matPairOk fmtA fmtB (imm7.getLsbD 3) k n }
  s.untilRead g (fun s =>
    let kA := s.kQuad a
    let kB := s.kQuad b
    let x := MatArg.of kA fmtA
    let y := MatArg.of kB fmtB
    s.matIssue f d.toNat kA kB n fs.toNat imm7.toNat [x, y] (fun first =>
      ((List.range s.v.rows).drop first).flatMap (x.ranges k n) ++ (List.range s.v.cols).flatMap (y.ranges k 0)))

/-- MMA. -/
def execMma (st : BitVec 2) (d a b : Code) (fs : BitVec 3) (imm7 : BitVec 7) (s : State) : Out :=
  s.product 1 st d a b 0 true fs imm7

/-- MMAS. -/
def execMmas (st : BitVec 2) (d a b : Code) (sub : BitVec 4) (fs : BitVec 3) (imm7 : BitVec 7) (s : State) : Out :=
  s.product 2 st d a b (if sub.getLsbD 0 then 64 else 32) (sub < 2) fs imm7

/-- MLD and MST. -/
def State.tileMove (s : State) (f : Nat) (st : BitVec 2) (d a b : Code) : Out :=
  let g : Sig := { slot := slot 0x3C f, stall := st, dst := false, uses := [(a, 2), (b, 1)], tile := some d.toNat,
                   ok := d < 16 && kPair a && isK b }
  s.untilRead g (fun s =>
    let kA := [s.readK a, s.readK (a + 1), s.readK b, 0]
    let x := MatArg.of kA 0
    s.matIssue f d.toNat kA [] 0 0 0 [x] (fun first =>
      if f = 4 then ((List.range s.v.rows).drop first).map (fun r => (x.at r, 4 * s.v.cols)) else []))

/-- MLD. -/
def execMld (st : BitVec 2) (d a b : Code) (s : State) : Out := s.tileMove 4 st d a b
/-- MST. -/
def execMst (st : BitVec 2) (d a b : Code) (s : State) : Out := s.tileMove 5 st d a b

/-- Earlier matrix instructions of the warp are outstanding. -/
def State.matBehind (s : State) (n : Nat) (o : Op) : Bool :=
  (s.opsOf o.warp).any (fun e => decide (e.1 < n) && e.2.cls == .mx && !e.2.complete)

/-- Writes of a matrix instruction are performed. -/
def State.landMatrix (s : State) (vk : Nat) (bytes : List WByte) (scratch : List (Nat × Byte)) (tiles : List (Nat × Word)) : State :=
  (s.performG bytes).modVat vk (fun v => { v with scratch := v.scratch.setAll scratch, tiles := v.tiles.setAll tiles })

/-- The fault of a stopped matrix instruction. -/
def MatStop.toRaise (e : MatStop) (flm : Lanes) (fpc : Word) : Raise :=
  match e with
  | .miss m => m.toRaise flm fpc
  | .metadata va => { code := fIllegalOperand, flm := flm, fpc := fpc, fva := va }

/-- The operands are read. -/
def State.matWork (s : State) (n : Nat) (o : Op) : State × MatDone :=
  let v := s.vat (s.warp o.warp).vat
  match o.work with
  | .matrix f tile kA kB nv fs imm first =>
    let fmt (i : Nat) : Word := (s.lot v.lot).record.fslot.get i
    let x := MatArg.of kA (fmt fs)
    if f = 4 then s.matLoad o tile x ((List.range v.rows).drop first) []
    else if f = 5 then s.matStore o n tile x ((List.range v.rows).drop first) {}
    else s.matMul o n tile x (MatArg.of kB (fmt (imm % 8))) nv (BitVec.ofNat 7 imm) first
  | _ => (s, {})

/-- The window lines that a matrix instruction reads are all present. -/
def State.matPresent (s : State) (o : Op) : Bool :=
  let v := s.vat (s.warp o.warp).vat
  let fmt (i : Nat) : Word := (s.lot v.lot).record.fslot.get i
  let absent (r : BitVec 64 × Nat) : Bool := (windowLines r.1 r.2).any (fun l => v.absent.get l != 0)
  match o.work with
  | .matrix f _ kA kB nv fs imm first =>
    let x := MatArg.of kA (fmt fs)
    let rows := (List.range v.rows).drop first
    if f = 5 then true
    else if f = 4 then !rows.any (fun r => absent (x.at r, 4 * v.cols))
    else
      let y := MatArg.of kB (fmt (imm % 8))
      !rows.any (fun r => (x.ranges v.extentK nv r).any absent) && !(List.range v.cols).any (fun c => (y.ranges v.extentK 0 c).any absent)
  | _ => true

/-- Writes of an operation to memory as .G wait for a SILENT die or for a device that no longer answers. -/
def State.writesHeld (s : State) (o : Op) (bytes : List WByte) : Bool :=
  let keys := bytes.map (·.key)
  s.ackSilent o.die keys || s.unanswered (s.ctx o.ctx).part keys

/-- MATRIX_OPERAND_COMPLETE (R356): the operands are read and checked, and the warp may go on; its writes are performed when
it completes. Where it stops, the rows below are written, ROWP names the row, the count ends and the fault is raised. -/
def execMatrixOperandComplete (op : Nat) (s : State) : Out :=
  match s.op op with
  | some o =>
    if !s.matReading op || !s.matPresent o then .next s
    else
      let r := (s.landTiles o.warp).matWork op o
      let d := r.2
      let k := o.warp
      let t := r.1.modWarp k (fun w => { w with fstat := w.fstat ||| d.flags.setWidth 32, hold := .free })
      match d.stop with
      | none => .next (t.setOp op { o with work := .tileStore d.bytes d.scratch d.tiles })
      | some (_, .miss .held) => .next r.1
      | some (row, e) =>
        if s.matBehind op o || s.writesHeld o d.bytes then .next r.1
        else
          let t := (t.landMatrix (s.warp k).vat d.bytes d.scratch d.tiles).finish op id
          let t := t.modWarp k (fun w => { (w.countIssue 0) with rowp := BitVec.ofNat 32 (128 + row) })
          .next (t.raise k (e.toRaise o.low o.fpc) .after)
  | none => .next s

/-- MATRIX_COMPLETE: the instructions of a warp complete in issue order (R349). MST's writes are performed as .G. -/
def execMatrixComplete (op : Nat) (s : State) : Out :=
  match s.op op with
  | some o =>
    let vk := (s.warp o.warp).vat
    if o.complete || s.matBehind op o then .next s
    else match o.work with
      | .tileStore bytes scratch tiles =>
        if s.writesHeld o bytes then .next s
        else .next ((s.landMatrix vk bytes scratch tiles).finish op (fun o => { o with performed := true }))
      | .drain ds tiles =>
        let t := if o.late then s.landTiles o.warp else s
        let now := ds.map (fun e => if o.late then { e.2 with value := t.tileSeen o.warp op e.1 } else e.2)
        .next (((t.deliver o now).landMatrix vk [] [] tiles).finish op id)
      | _ => .next s
  | none => .next s

/-! ### MZERO, MFILL, MDRAIN (R358, R359) -/

/-- MZERO. -/
def execMzero (st : BitVec 2) (d : Code) (s : State) : Out :=
  let g : Sig := { slot := slot 0x3C 3, stall := st, ok := d < 16, tile := some d.toNat }
  s.issueRaw g (fun s => s.onTile d.toNat (fun s =>
    let n := s.v.rows * s.v.cols
    s.startTile g (.tileStore [] [] ((List.range n).map (fun i => (n * d.toNat + i, 0))))))

/-- row0 and col0 of a position word, and whether they lie in a tile. -/
def posRow (p : Word) : Nat := (p.extractLsb' 0 16).toNat
def posCol (p : Word) : Nat := (p.extractLsb' 16 16).toNat
def Vat.posOk (v : Vat) (p : Word) : Bool := posRow p < v.rows && posCol p < v.cols

/-- MFILL. -/
def execMfill (st : BitVec 2) (d a b : Code) (s : State) : Out :=
  let g : Sig := { slot := slot 0x3C 6, stall := st, dst := false, uses := [(a, 1), (b, 1)], tile := some d.toNat,
                   ok := d < 16 && isLane a && isK b && s.v.posOk (s.readK b) }
  s.issueRaw g (fun s => s.onTile d.toNat (fun s =>
    let p := s.readK b
    let ls := s.lanes.filter (fun l => posCol p + l < s.v.cols)
    s.startTile g (.tileStore [] [] (ls.map (fun l => (s.v.tileIndex d.toNat (posRow p) (posCol p + l), s.readOp a l))))))

/-- An MDRAIN of the warp in turn reads when it completes: one of the warp that reads so is outstanding, or the hardware chooses it
(R361). -/
def State.drainsLate (s : State) : Bool :=
  (s.opsOf s.cur).any (fun e => e.2.late && !e.2.complete && (match e.2.work with | .drain _ _ => true | _ => false)) || s.choice 600

/-- MDRAIN. -/
def execMdrain (st : BitVec 2) (d a b : Code) (sub : BitVec 4) (imm7 : BitVec 7) (s : State) : Out :=
  let n := imm7.toNat
  let g : Sig := { slot := slot 0x3C 7, stall := st, uses := [(d, n), (b, 1)], tile := some a.toNat,
                   ok := isLane d && a < 16 && isK b && sub < 2 && 1 ≤ n && n ≤ 8 && d.toNat + n ≤ 96 && s.v.posOk (s.readK b) }
  s.issueRaw g (fun s => s.onTile a.toNat (fun s =>
    let p := s.readK b
    let n' := s.nextOp
    let late := s.drainsLate
    let s := s.landTiles s.cur
    let ds := (s.lanes.filter (fun l => posCol p + l < s.v.cols)).flatMap (fun l =>
      ((List.range n).filter (fun j => posRow p + j < s.v.rows)).map (fun j =>
        let i := s.v.tileIndex a.toNat (posRow p + j) (posCol p + l)
        (i, (⟨l, s.w.cell (d.toNat + j) l, s.tileSeen s.cur s.nextOp i⟩ : Dest))))
    (s.startTile g (.drain ds (if sub.getLsbD 0 then ds.map (fun e => (e.1, 0)) else []))).reading n' late))

/-! ### Accumulator space (R360, spec/06 R157) -/

/-- MSYNC's conditions: the warp's matrix instructions, and the MFILLs, MDRAINs and MSTs of the vat that were issued before
it, have completed. -/
def State.matSynced (s : State) (p : Park) : Bool :=
  let since := if s.w.hold == .parked p then s.w.holdSince else s.gtime
  s.ops.all (fun e => match e.2 with
    | some o =>
      o.complete || o.cls != .mx
        || (if o.warp = s.cur then false else (s.warp o.warp).vat != s.w.vat || (s.warp o.warp).mat || decide (since < o.issuedAt))
    | none => true)

/-- MSYNC. -/
def execMsync (st : BitVec 2) (s : State) : Out :=
  let g : Sig := { slot := slot 0x3D 2, stall := st }
  s.issueRaw g (fun s => if s.matSynced .msync then (s.modW Warp.clearRowp).retire g else s.park .msync)

/-- RELA: every grant of the vat is given back; what lay in it reads 0 afterwards. -/
def execRela (st : BitVec 2) (s : State) : Out :=
  let g : Sig := { slot := slot 0x3D 1, stall := st }
  s.issueRaw g (fun s =>
    if s.matSynced .rela then
      let s := s.modV (fun v => { v with grants := [], tiles := v.tiles.keep (fun i _ => decide (i < 256 * v.acc)) })
      (s.modW Warp.clearRowp).retire g
    else s.park .rela)

/-- KiB of a core's accumulator store that no resident vat holds. -/
def State.accFree (s : State) (core : Nat) : Nat :=
  256 - s.vats.foldl (fun r e => match e.2 with
    | some v => if v.core = core ∧ v.place = .resident then r + v.acc + v.granted else r
    | none => r) 0

/-- The warps that wait in ACQA on a core, in launch-sequence order, with what they ask for. -/
def State.acqWaiters (s : State) (core : Nat) : List (Nat × Nat) :=
  s.warps.filterMap (fun e => match e.2.hold with
    | .parked (.acqa n) => if e.2.core = core ∧ e.2.resident ∧ e.2.acqAnswer.isNone then some (e.1, n) else none
    | _ => none)

/-- A grant to a warp's vat, or a denial, answers its ACQA. -/
def State.acqAnswer (s : State) (k : Nat) (n : Option Nat) : State :=
  let vk := (s.warp k).vat
  match n with
  | some n =>
    let v := s.vat vk
    (s.setVat vk { v with grants := v.grants ++ [n] }).modWarp k (fun w =>
      { w with acqAnswer := some (BitVec.ofNat 32 (v.acc + v.granted)), hold := .free })
  | none => s.modWarp k (fun w => { w with acqAnswer := some 0xFFFFFFFF, hold := .free })

/-- Waiters are tested in launch-sequence order (R157). -/
def State.acqServe (s : State) (core : Nat) : State :=
  (s.acqWaiters core).foldl (fun s e => if e.2 ≤ s.accFree core then s.acqAnswer e.1 (some e.2) else s) s

/-- While two or more waiting vats each hold a grant, the request of the highest launch sequence number among them fails. -/
def State.acqCycle (s : State) (core : Nat) : Nat → State
  | 0 => s
  | n + 1 =>
    let hs := (s.acqWaiters core).filter (fun e => 0 < (s.vat (s.warp e.1).vat).granted)
    if 2 ≤ hs.length then
      match hs.getLast? with
      | some e => (s.acqAnswer e.1 none).acqCycle core n
      | none => s
    else s

/-- The core's allocator. -/
def State.allocate (s : State) (core : Nat) : State := (s.acqServe core).acqCycle core 16

/-- ACQA: answered at once, or parked until the allocator answers. -/
def execAcqa (st : BitVec 2) (d a : Code) (s : State) : Out :=
  let n := (s.readK a).toNat
  let g : Sig := { slot := slot 0x3D 0, stall := st, ok := isK d && isK a && n != 0, uses := [(d, 1), (a, 1)] }
  s.issueRaw g (fun s =>
    let held := s.v.acc + s.v.granted
    let s := if s.w.acqAnswer.isSome then s
      else if 256 < n + held then s.acqAnswer s.cur none
      else (s.park (.acqa n)).allocate s.w.core
    match s.w.acqAnswer with
    | some x => ((s.modW Warp.clearRowp).putK d x).retire g
    | none => s)

/-- ACQA_GRANT: the core's allocator tests its waiters. -/
def execAcqaGrant (core : Nat) (s : State) : Out := .next (s.allocate core)

end Sys2Proof.Machine
end

