-- ==== Sys2Proof/Machine/Residency.lean ====
section
/-! DEFINITION. Residency: what a vat needs, which core it fits, where its warps go (spec/04 R80–R82), and the state they begin
with (R87, R99). -/

namespace Sys2Proof.Machine

/-- What a vat needs. -/
structure Need where
  nvec : Nat
  nmat : Nat
  regs : Nat
  scr : Nat
  acc : Nat
  deriving DecidableEq, Repr, Inhabited

/-- What is left on a core: lane registers and resident warps of each sub-partition, vats, MAT warps, KiB of scratchpad and
accumulator store. -/
structure Room where
  regs : List Nat
  warps : List Nat
  vats : Nat
  mats : Nat
  scr : Nat
  acc : Nat
  deriving DecidableEq, Repr, Inhabited

/-- An empty core (R80 Table 1). -/
def Room.empty : Room := { regs := [16384, 16384, 16384, 16384], warps := [0, 0, 0, 0], vats := 0, mats := 0, scr := 256, acc := 256 }

/-- Lane registers of one warp. -/
def regCost (regs : Nat) : Nat := 256 * (regs + 1)

/-- The resident warps of a core. -/
def State.warpsOn (s : State) (core : Nat) : List Warp :=
  s.warps.filterMap (fun e => if e.2.core = core ∧ e.2.resident then some e.2 else none)

/-- The resident vats of a core. -/
def State.vatsOn (s : State) (core : Nat) : List Nat :=
  s.vats.filterMap (fun e => match e.2 with
    | some v => if v.core = core ∧ v.place = .resident then some e.1 else none
    | none => none)

/-- The room on a core. -/
def State.room (s : State) (core : Nat) : Room :=
  let vs := (s.vatsOn core).map s.vat
  let ws := s.warpsOn core
  let sub (i : Nat) : List Warp := ws.filter (fun w => w.slot / 16 == i)
  { regs := (List.range 4).map (fun i => 16384 - ((sub i).map (fun w => regCost (s.vat w.vat).regs)).foldl (· + ·) 0),
    warps := (List.range 4).map (fun i => (sub i).length),
    vats := vs.length, mats := (ws.filter (·.mat)).length,
    scr := 256 - (vs.map (·.scr)).foldl (· + ·) 0,
    acc := 256 - (vs.map (fun v => v.acc + v.granted)).foldl (· + ·) 0 }

/-- Sub-partition `i` is preferred to `j` (R81). -/
def Room.prefers (r : Room) (i j : Nat) : Bool :=
  let fi := r.regs.getD i 0
  let fj := r.regs.getD j 0
  let wi := r.warps.getD i 0
  let wj := r.warps.getD j 0
  fj < fi || (fi == fj && (wi < wj || (wi == wj && i < j)))

/-- The sub-partition of the next warp: most free lane registers, then fewer warps, then the lower number. -/
def Room.choose (r : Room) : Nat := [1, 2, 3].foldl (fun b i => if r.prefers i b then i else b) 0

/-- Places `n` warps in number order: their sub-partitions, or none where one finds no slot (R81). -/
def Room.assign (r : Room) (cost : Nat) : Nat → Option (List Nat)
  | 0 => some []
  | n + 1 =>
    let i := r.choose
    if r.regs.getD i 0 < cost || 16 ≤ r.warps.getD i 0 then none
    else (({ r with regs := r.regs.set i (r.regs.getD i 0 - cost), warps := r.warps.set i (r.warps.getD i 0 + 1) } : Room).assign cost n).map (i :: ·)

/-- A vat fits in a room, its warps going to the sub-partitions given (R80). -/
def Room.fits (r : Room) (n : Need) : Option (List Nat) :=
  if 16 ≤ r.vats || 4 < r.mats + n.nmat || r.scr < n.scr || r.acc < n.acc then none
  else r.assign (regCost n.regs) (n.nvec + n.nmat)

/-- The room with a vat placed in it. -/
def Room.place (r : Room) (n : Need) (subs : List Nat) : Room :=
  { subs.foldl (fun r i => { r with regs := r.regs.set i (r.regs.getD i 0 - regCost n.regs), warps := r.warps.set i (r.warps.getD i 0 + 1) }) r with
    vats := r.vats + 1, mats := r.mats + n.nmat, scr := r.scr - n.scr, acc := r.acc - n.acc }

/-- Free warp slots. -/
def Room.free (r : Room) : Nat := 64 - r.warps.foldl (· + ·) 0

/-- The LIVE dies of a partition, and the enabled cores of a die. -/
def State.liveDies (s : State) (part : Nat) : List Nat :=
  [0, 1, 2, 3].filter (fun d => (s.part part).ldt.contains d && (s.die d).state == .live)
def State.coresOf (s : State) (d : Nat) : List Nat := (List.range (s.die d).cores.length).map (44 * d + ·)

/-- The core a vat goes to (R82) among candidates with their rooms: the most free warp slots, then ring order from `start`,
then the lowest number. -/
def chooseCore (n : Need) (start : Nat) (cs : List (Nat × Room)) : Option (Nat × List Nat) :=
  let fit := cs.filterMap (fun c => (c.2.fits n).map (fun p => (c.1, c.2.free, p)))
  let better (a b : Nat × Nat × List Nat) : Bool :=
    let ring (c : Nat) : Nat := (c / 44 + 4 - start) % 4
    b.2.1 < a.2.1 || (a.2.1 == b.2.1 && (ring a.1 < ring b.1 || (ring a.1 == ring b.1 && a.1 < b.1)))
  (fit.foldl (fun (r : Option (Nat × Nat × List Nat)) a => match r with
    | none => some a
    | some b => if better a b then some a else some b) none).map (fun x => (x.1, x.2.2))

/-- The candidates of a partition, and where ring order starts for a lot (R82). -/
def State.candidates (s : State) (dies : List Nat) : List (Nat × Room) :=
  (dies.flatMap s.coresOf).map (fun c => (c, s.room c))
def State.ringStart (s : State) (lot : Nat) : Nat :=
  match (s.lot lot).lastDie with
  | some d => (d + 1) % 4
  | none => ((s.part (s.ctx (s.lot lot).ctx).part).ldt.min?).getD 0

/-! ### The state a warp begins with -/

/-- The lowest free warp slot of a sub-partition, beside those of a list. -/
def State.freeSlot (s : State) (core sub : Nat) (taken : List Nat) : Nat :=
  let used := taken ++ (s.warpsOn core).map (·.slot)
  ((List.range 16).map (16 * sub + ·)).find? (fun i => !used.contains i) |>.getD (16 * sub)

/-- The slots of a vat's warps, in number order. -/
def State.slotsFor (s : State) (core : Nat) : List Nat → List Nat → List Nat
  | [], acc => acc
  | i :: is, acc => s.slotsFor core is (acc ++ [s.freeSlot core i acc])

/-- The lowest free vat slot of a core. -/
def State.freeVatSlot (s : State) (core : Nat) : Nat :=
  let used := (s.vatsOn core).map (fun k => (s.vat k).slot)
  ((List.range 16).find? (fun i => !used.contains i)).getD 0

/-- DHV as the code object gives it (spec/10 R240). -/
def CodeHeader.dhv (c : CodeHeader) : Word := if c.hndoff = 0 then 0 else BitVec.ofNat 32 c.hndoff ||| 1

/-- A warp at its start (R87): `live` lanes at code offset `entry`, with the cells of its registers that are not 0. -/
def startWarp (vat num : Nat) (mat : Bool) (core slot placed : Nat) (live : Lanes) (entry : Nat) (code : CodeHeader) (regs : Map Word) : Warp :=
  { (default : Warp) with
    vat := vat, num := num, mat := mat, core := core, slot := slot, placed := placed, resident := true,
    masks := { (default : Masks) with lmask := live, amask := live },
    lpc := setPcs [] (lanesOf live) (fun _ => BitVec.ofNat 32 entry),
    lstate := (lanesOf (~~~ live)).foldl (fun m l => m.set l exited) [],
    sgcfg := 0x10000100, dhv := code.dhv,
    trap := { (default : Trap) with tvmask := code.tvm },
    regs := regs }

/-- k0–k7 hold KINIT0–7. -/
def kinitRegs (kinit : Map Word) : Map Word := (List.range 8).foldl (fun m i => m.set (cellKn i) (kinit.get i)) []

/-- A new vat on a core: the vat and its warps (R81, R82, R87). -/
def State.startVat (s : State) (lot : Nat) (need : Need) (core : Nat) (subs : List Nat) (vatnum : Word) (task : Bool)
    (live : Nat → Lanes) (entry : Nat) (regs : Nat → Map Word) : State :=
  let l := s.lot lot
  let k := s.nextLseq
  let n := need.nvec + need.nmat
  let first := ((List.range n).map (fun i => countLanes (live i))).foldl (· + ·) 0
  let slots := s.slotsFor core subs []
  let coord (i : Nat) : Word := if task then 0 else BitVec.ofNat 32 i
  let v : Vat := { (default : Vat) with
    lot := lot, vatnum := vatnum, gridX := coord (vatnum.toNat % l.record.gx),
    gridY := coord (vatnum.toNat / l.record.gx % l.record.gy), gridZ := coord (vatnum.toNat / l.record.gx / l.record.gy), task := task, place := .resident, core := core, slot := s.freeVatSlot core,
    nwarp := n, nvec := need.nvec, regs := need.regs, scr := need.scr, acc := need.acc, vvmask := l.code.vvm,
    vbstat := vbMake false first 0, firstLive := first }
  let s := { s with vats := s.vats.set k (some v), nextLseq := k + 1, nextPlace := s.nextPlace + n }
  (List.range n).foldl (fun s i => s.setWarp (warpKey k i)
    (startWarp k i (decide (need.nvec ≤ i)) core (slots.getD i 0) (s.nextPlace - n + i) (live i) entry l.code (regs i))) s

/-- What each vat of a lot needs. -/
def LotRecord.need (r : LotRecord) : Need := { nvec := r.nvec, nmat := r.nmat, regs := r.regs, scr := r.scr, acc := r.acc }

/-- The next vat of a lot is placed on a core. -/
def State.placeVat (s : State) (lot core : Nat) (subs : List Nat) : State :=
  let l := s.lot lot
  let s := s.startVat lot l.record.need core subs (BitVec.ofNat 32 l.nextVat) false
    (fun i => if i < l.record.nvec then 0xFFFFFFFF else 1) l.entryOff.toNat (fun _ => kinitRegs l.record.kinit)
  s.modLot lot (fun l => { l with nextVat := l.nextVat + 1, lastDie := some (dieOfCore core), phase := .running })

end Sys2Proof.Machine
end

