-- ==== Sys2Proof/Machine/Tasks.lean ====
section
/-! DEFINITION. The task engine (spec/04 R89–R102): SPAWN and its records, the dependence table, renaming, retirement, spawn
bins, the overflow ring; and the abort of a lot (R109, spec/14 R341–R343). -/

namespace Sys2Proof.Machine

/-! ### Task records (R90) -/

def recWord (ws : List Word) (i : Nat) : Word := ws.getD i 0
def recEntry (ws : List Word) : BitVec 24 := (recWord ws 0).extractLsb' 0 24
def recHlat (ws : List Word) : Nat := ((recWord ws 0).extractLsb' 24 4).toNat
def recHen (ws : List Word) : Bool := (recWord ws 0).getLsbD 31
def recNrd (ws : List Word) : Nat := ((recWord ws 1).extractLsb' 0 3).toNat
def recNwr (ws : List Word) : Nat := ((recWord ws 1).extractLsb' 3 2).toNat
def recGrd (ws : List Word) : Bool := (recWord ws 1).getLsbD 5
def recX (ws : List Word) : Nat := ((recWord ws 1).extractLsb' 8 10).toNat
def recY (ws : List Word) : Nat := ((recWord ws 1).extractLsb' 18 10).toNat

/-- The 256 bits of the key field, and virtual tile address `i`. -/
def recKeys (ws : List Word) : Nat := bytesToNat ((ws.drop 8).flatMap wordBytes)
def recKey (ws : List Word) (i : Nat) : BitVec 64 := BitVec.ofNat 64 (recKeys ws / 2 ^ (40 * i) % 2 ^ 40 * 4096)

/-- The function a record enters, in a code object. -/
def CodeHeader.taskFunc (c : CodeHeader) (entry : BitVec 24) : Option FuncEntry :=
  c.funcs.find? (fun f => f.taske && f.eoff == 4 * entry.toNat)

/-- A record passes the checks of R90. -/
def CodeHeader.recordOk (c : CodeHeader) (ws : List Word) : Bool :=
  recNrd ws ≤ 4 && recNwr ws != 3
    && (recWord ws 0).extractLsb' 28 3 == 0 && (recWord ws 1).extractLsb' 6 2 == 0 && (recWord ws 1).extractLsb' 28 4 == 0
    && recKeys ws < 2 ^ 240
    && (match c.taskFunc (recEntry ws) with | some f => 24 ≤ 8 * (f.regs + 1) | none => false)

/-! ### The overflow ring (R101) -/

/-- Records a quarter of a context's ring holds, and the address of record `i` of a die's quarter. -/
def Context.quarter (c : Context) : Nat := c.ovfPages / 4 * 64
def Context.ringVa (c : Context) (die i : Nat) : BitVec 64 := c.ovfVa + BitVec.ofNat 64 (die * (c.ovfPages / 4) * 4096 + 64 * (i % c.quarter))

/-- Records in a quarter. Its indices count modulo twice its room. -/
def Context.spilled (c : Context) (die : Nat) : Nat :=
  ((c.ovf.get (2 * die + 1)).toNat + 2 * c.quarter - (c.ovf.get (2 * die)).toNat) % (2 * c.quarter)
def Context.bump (c : Context) (i : Nat) : Context :=
  { c with ovf := c.ovf.modify i (fun x => BitVec.ofNat 32 ((x.toNat + 1) % (2 * c.quarter))) }

/-- Entries of a die's dependence table in use, with the records about to enter. -/
def Die.tableUsed (d : Die) : Nat := (d.tasks.filter (fun e => !e.2.spilled && e.2.place != .retired)).length

/-- What became of an offered record. -/
inductive Accepted where
  | yes
  | full
  | miss (m : Miss)
  deriving DecidableEq, Repr, Inhabited

/-- The engine of a die takes a record into the table or the overflow ring (R101). -/
def State.acceptTask (s : State) (die ctx lot : Nat) (ws : List Word) : State × Accepted :=
  let c := s.ctx ctx
  let d := s.die die
  let t (spill : Bool) : Task := { (default : Task) with
    ctx := ctx, lot := lot, words := ws, offs := c.stmask.extractLsb' 0 24, place := .waiting, spilled := spill }
  let add (s : State) (spill : Bool) : State :=
    s.modDie die (fun d => { d with tasks := d.tasks.set d.nextSpawn (t spill), nextSpawn := d.nextSpawn + 1 })
  if d.tableUsed < 4096 && c.spilled die = 0 then (add s false, .yes)
  else if c.quarter ≤ c.spilled die then (s, .full)
  else
    let r := s.agentWrite ctx (c.ringVa die (c.ovf.get (2 * die + 1)).toNat) (ws.flatMap wordBytes) 160 (agentPlace die)
    match r.2 with
    | some m => (r.1, .miss m)
    | none => ((add r.1 true).modCtx ctx (fun c => c.bump (2 * die + 1)), .yes)

/-! ### SPAWN (spec/14 R341) -/

/-- What SPAWN has done so far: lanes accepted, the faults of lanes with their addresses, and whether a lane stalls or ends
it. -/
structure SpawnRun where
  s : State
  done : Lanes
  faults : List (Nat × Raise)
  stalls : Bool
  ended : Bool

/-- The record of a lane, or its fault. -/
def State.laneRecord (s : State) (x : LaneAt) : Except Raise (List Word) :=
  let bytes (bs : List Byte) : List Word := (List.range 16).map (fun i => BitVec.ofNat 32 (word bs (4 * i)))
  match x.place with
  | .window o => .ok (bytes (s.v.scratchBytes o 64))
  | .mem key slot ca => .ok (bytes ((List.range 64).map (fun i => s.readVia (some s.cur) (s.dieOf s.cur) ca (key + i) slot)))
  | .fault c cause dies => .error { code := c, flm := 0, fpc := 0, cause := cause, fva := x.va, dies := dies }
  | .held => .error (Miss.held.toRaise 0 0)

/-- One lane's record is offered. -/
def SpawnRun.lane (r : SpawnRun) (rest : Lanes) (l : Nat) (rec : Except Raise (List Word)) : SpawnRun :=
  if r.stalls || r.ended then r
  else match rec with
    | .error e => { r with faults := r.faults ++ [(l, e)] }
    | .ok ws =>
      if !r.s.l.code.recordOk ws then { r with faults := r.faults ++ [(l, { code := fIllegalOperand, flm := 0, fpc := 0 })] }
      else
        let a := r.s.acceptTask (r.s.dieOf r.s.cur) r.s.l.ctx r.s.v.lot ws
        match a.2 with
        | .yes => { r with s := a.1, done := r.done ||| laneBit l }
        | .full => { r with s := a.1, stalls := true }
        | .miss m =>
          let e := m.toRaise 0 0
          let higher := (lanesOf rest).filter (fun i => l ≤ i)
          { r with s := a.1, ended := true, faults := r.faults ++ higher.map (fun i => (i, e)) }

/-- The end of a SPAWN: it stalls, or raises the fault of the lowest faulting lane for the lanes that took that code, or
retires. -/
def SpawnRun.finish (r : SpawnRun) (g : Sig) : State :=
  if r.stalls then (r.s.modW (fun w => { w with spawnDone := w.spawnDone ||| r.done })).park .spawn
  else match r.faults with
    | [] => r.s.retire g
    | (_, e) :: _ =>
      let lanes (p : Raise → Bool) : Lanes := maskOf ((r.faults.filter (fun f => p f.2)).map (·.1))
      r.s.raiseLanes e.code (lanes (·.code == e.code)) e.cause e.fva e.dies (some (lanes (·.code != e.code)))

/-- SPAWN's effect on the records of its lanes: a release at package scope, then the records in lane order. -/
def State.spawnRecords (s : State) (g : Sig) (recs : List (Nat × Except Raise (List Word))) : State :=
  s.releasing 3 (fun s =>
    let lanes := maskOf (recs.map (·.1))
    let start : SpawnRun := { s := s, done := 0, faults := [], stalls := false, ended := false }
    (recs.foldl (fun (r : SpawnRun) e => r.lane lanes e.1 e.2) start).finish g)

/-- The lanes that still offer a record. -/
def State.spawnLanes (s : State) : List Nat := s.lanes.filter (fun l => !inMask s.w.spawnDone l)

/-- SPAWN. -/
def execSpawn (st : BitVec 2) (a : Code) (s : State) : Out :=
  let g : Sig := { slot := slot 0x37 0, stall := st, ok := aligned a 2, dst := false, uses := [(a, 2)] }
  s.issueRaw g (fun s => s.sampling g (fun s =>
    if s.acquiring || s.lakeFenced then s.stall
    else
      let r := s.lanesAt false a 0 64 .read true
      let xs := r.2.filter (fun x => !inMask s.w.spawnDone x.lane)
      let keys := accessKeys 64 xs
      let far := xs.flatMap (fun x => match x.place with
        | .mem key _ ca => if s.farFrom (s.dieOf s.cur) key ca then (List.range 64).map (key + ·) else []
        | _ => [])
      if featureMissing xs then r.1.raiseHere fFeatureAbsent 0
      else if s.touchesAbsent xs then s.park .presence
      else if s.atomicOn keys || anyHeld xs || s.homeSilent (s.dieOf s.cur) far || s.unanswered s.c.part keys then r.1.stall
      else
        let t := xs.foldl (fun t x => match x.place with | .mem key slot ca => t.fillLine s.w.core key slot ca | _ => t) (r.1.bindLoads keys)
        t.spawnRecords g (xs.map (fun x => (x.lane, t.laneRecord x)))))

/-- SPAWN.R. -/
def execSpawnR (st : BitVec 2) (a : Code) (s : State) : Out :=
  let g : Sig := { slot := slot 0x37 0, stall := st, ok := aligned a 16 && a ≤ 80, dst := false, uses := [(a, 16)] }
  s.issueRaw g (fun s => s.sampling g (fun s =>
    s.spawnRecords g (s.spawnLanes.map (fun l =>
      (l, .ok ((List.range 16).map (fun i => s.readOp (a + BitVec.ofNat 7 i) l)))))))

/-! ### The dependence table (R91, R92) -/

/-- The die that an access of the task engine found lost. -/
def Miss.lostDie (m : Miss) : Option Nat := match m with | .lost d _ => some d | _ => none

/-- The entries of the rename map: key and current tile. The map of a context that cannot be read has none; where its die is lost, the
context's tasks cannot go on (spec/01 R36), and while it is SILENT they wait (R31). -/
def State.mapEntries (s : State) (ctx die : Nat) : State × List (BitVec 64 × BitVec 64) × Option Miss :=
  let c := s.ctx ctx
  if c.poolTiles = 0 then (s, [], none)
  else
    let r := s.agentRead ctx die c.poolVa 4096 170
    match r.2 with
    | .ok bs => (r.1, (List.range 256).map (fun i =>
        (BitVec.ofNat 64 (bytesToNat ((bs.drop (16 * i)).take 8)), BitVec.ofNat 64 (bytesToNat ((bs.drop (16 * i + 8)).take 8)))), none)
    | .error m => (r.1, [], if m.lostDie.isSome || m == .held then some m else none)

/-- Map(k). -/
def mapOf (m : List (BitVec 64 × BitVec 64)) (k : BitVec 64) : BitVec 64 :=
  if k == 0 then k else match m.find? (fun e => e.1 == k) with | some e => e.2 | none => k

/-- The unretired tasks of a context on the device. -/
def State.ctxTasks (s : State) (ctx : Nat) : List Task :=
  [0, 1, 2, 3].flatMap (fun d => (s.die d).tasks.filterMap (fun e => if e.2.ctx = ctx ∧ e.2.place ≠ .retired then some e.2 else none))

/-- Entries of a context in a die's table. -/
def Die.entries (d : Die) (ctx : Nat) : List (Nat × Task) :=
  d.tasks.filter (fun e => decide (e.2.ctx = ctx) && e.2.place != .waiting && e.2.place != .retired)

/-- The free pool tile of lowest index (R92). -/
def State.freeTile (s : State) (ctx : Nat) (m : List (BitVec 64 × BitVec 64)) : Option (BitVec 64) :=
  let c := s.ctx ctx
  let named := (s.ctxTasks ctx).flatMap (fun t => t.rd ++ t.wr)
  ((List.range c.poolTiles).map (fun i => c.poolVa + BitVec.ofNat 64 (0x10000 * (i + 1)))).find? (fun a =>
    !named.contains a && !m.any (fun e => e.1 != 0 && e.2 == a))

/-- PoolTake(k, new) with SetMap(k, new): the tile taken and the entry written. A key of 0, which marks a free entry, is never renamed
(DESIGN CHOICE, log 89). -/
def State.poolTake (s : State) (ctx : Nat) (m : List (BitVec 64 × BitVec 64)) (k : BitVec 64) : Option (BitVec 64 × Nat) :=
  let at' := match (m.zip (List.range 256)).find? (fun e => e.1.1 == k) with
    | some e => some e.2
    | none => ((m.zip (List.range 256)).find? (fun e => e.1.1 == 0)).map (·.2)
  match at', s.freeTile ctx m with
  | some i, some a => if k == 0 then none else some (a, i)
  | _, _ => none

/-- An entry of a die's table, of whatever context, names a tile. -/
def Die.inUse (d : Die) (a : BitVec 64) : Bool :=
  d.tasks.any (fun e => e.2.place != .waiting && e.2.place != .retired && (e.2.rd.contains a || e.2.wr.contains a))

/-- The write keys of a record resolved in order: the tiles, and a die found lost. A write of the map that faults is a failed PoolTake
(DESIGN CHOICE, log 89). -/
def State.resolveWrites (s : State) (ctx die : Nat) (ws : List Word) :
    List Nat → List (BitVec 64 × BitVec 64) → List (BitVec 64) → State × List (BitVec 64) × Option Miss
  | [], _, acc => (s, acc, none)
  | j :: js, m, acc =>
    let k := recKey ws (4 + j)
    let cur := mapOf m k
    let reads := (List.range (recNrd ws)).any (fun i => recKey ws i == k)
    match (if (s.die die).inUse cur && !reads then s.poolTake ctx m k else none) with
    | some (a, i) =>
      let w := s.agentWrite ctx ((s.ctx ctx).poolVa + BitVec.ofNat 64 (16 * i)) (natToBytes 8 k.toNat ++ natToBytes 8 a.toNat) 180 (agentPlace die)
      match w.2 with
      | none => w.1.resolveWrites ctx die ws js (m.set i (k, a)) (acc ++ [a])
      | some e => if e.lostDie.isSome then (w.1, acc, some e) else w.1.resolveWrites ctx die ws js m (acc ++ [cur])
    | none => s.resolveWrites ctx die ws js m (acc ++ [cur])

/-- StencilPred(e, t) (R96). -/
def stencilPred (e t : Task) : Bool :=
  recGrd e.words && recGrd t.words && recEntry e.words == recEntry t.words
    && (List.range 24).any (fun b =>
      t.offs.getLsbD b && (
        let i := if b < 12 then b else b + 1
        decide (recX e.words + 2 = recX t.words + i % 5 ∧ recY e.words + 2 = recY t.words + i / 5)))

/-- A task is released (R91, R97). -/
def State.releaseTask (s : State) (die n : Nat) : State :=
  let t := (s.die die).tasks.get n
  let base := (16 * die + recHlat t.words) * 512
  let b := (recWord t.words 7).toNat % 256
  let c := s.ctx t.ctx
  let p4 := if recHen t.words then c.latches.get (base + 256 + b) else recWord t.words 6
  let p5 := if recHen t.words then c.latches.get (base + b) else recWord t.words 7
  s.modDie die (fun d => { d with
    tasks := d.tasks.set n { t with place := .released, p4 := p4, p5 := p5 }, released := d.released ++ [n] })

/-- A released task enters the bin of its key, or a free bin (R98). -/
def Die.enterBin (d : Die) (n now : Nat) : Option Die :=
  let t := d.tasks.get n
  let isKey (b : Bin) : Bool := b.ctx == t.ctx && b.lot == t.lot && b.entry == recEntry t.words
  let held := (List.range 64).find? (fun i => match d.bins.get i with | some b => isKey b | none => false)
  let put (i : Nat) (b : Bin) : Die :=
    { d with bins := d.bins.set i (some b), tasks := d.tasks.set n { t with place := .bin i }, released := d.released.filter (· != n) }
  match held with
  | some i => match d.bins.get i with
    | some b => if b.tasks.length < 32 then some (put i { b with tasks := b.tasks ++ [n] }) else none
    | none => none
  | none =>
    ((List.range 64).find? (fun i => (d.bins.get i).isNone)).map (fun i =>
      put i { ctx := t.ctx, lot := t.lot, entry := recEntry t.words, tasks := [n], since := now })

/-- The released tasks enter the bins that can take them, in release order. -/
def State.fillBins (s : State) (die : Nat) : State :=
  s.modDie die (fun d => d.released.foldl (fun d n => (d.enterBin n s.gtime).getD d) d)

/-- The task engine's fault of a context, with no warp named. -/
def State.taskFault (s : State) (lot : Nat) (x : Raise) : FaultRecord :=
  { (default : FaultRecord) with
    code := x.code, cause := x.cause, rung := 2, fva := x.fva, dies := x.dies, vatnum := 0xFFFFFFFF, gtime := BitVec.ofNat 64 s.gtime,
    lottag := (s.lot lot).record.lottag }

/-- The rename pool of a context lies on a lost die (spec/01 R36): DIE_LOST. -/
def State.poolLost (s : State) (ctx lot : Nat) (m : Miss) : State := s.faultContext ctx (s.taskFault lot (m.toRaise 0 0))

/-- A task stands in the table, its predecessors found; with none it is released. -/
def State.enterTable (s : State) (die n : Nat) (t : Task) : State :=
  let meets (a b : List (BitVec 64)) : Bool := a.any b.contains
  let preds := ((s.die die).entries t.ctx).filterMap (fun e =>
    if meets e.2.wr t.rd || meets e.2.wr t.wr || meets e.2.rd t.wr || stencilPred e.2 t then some e.1 else none)
  let s := s.modDie die (fun d => { d with tasks := d.tasks.set n { t with preds := preds } })
  if preds.isEmpty then s.releaseTask die n else s

/-- TASK_ENTER (R91): the oldest waiting record of a context enters the table. -/
def execTaskEnter (die ctx : Nat) (s : State) : Out :=
  match (s.die die).tasks.firstKey (fun _ t => decide (t.ctx = ctx) && t.place == .waiting) with
  | none => .next s
  | some n =>
    let t := (s.die die).tasks.get n
    if t.spilled then .next s
    else
      let m := s.mapEntries ctx die
      let w := m.1.resolveWrites ctx die t.words (if m.2.2.isSome then [] else List.range (recNwr t.words)) m.2.1 []
      match m.2.2 <|> w.2.2 with
      | some .held => .next m.1
      | some e => .next (w.1.poolLost ctx t.lot e)
      | none =>
        let rd := (List.range (recNrd t.words)).map (fun j => mapOf m.2.1 (recKey t.words j))
        .next ((w.1.enterTable die n { t with rd := rd, wr := w.2.1, place := .table }).fillBins die)

/-- A task leaves the table: the tasks it alone held back are released. -/
def State.dropTask (s : State) (die n : Nat) : State :=
  let freed := (s.die die).tasks.filterMap (fun e => if e.2.place = .table ∧ e.2.preds = [n] then some e.1 else none)
  let s := s.modDie die (fun d => { d with
    tasks := (d.tasks.keep (fun k _ => k != n)).mapVals (fun _ t => { t with preds := t.preds.filter (· != n) }),
    released := d.released.filter (· != n) })
  freed.foldl (fun s k => s.releaseTask die k) s

/-- TASK_RETIRE (R93): once the operations that its retirement waits for have ended. -/
def execTaskRetire (die task : Nat) (s : State) : Out :=
  match ((s.die die).tasks.get task).retiring with
  | some ops => if ops.any (fun n => (s.op n).isSome) then .next s else .next ((s.dropTask die task).fillBins die)
  | none => .next s

/-! ### Bins and refills -/

/-- The registers a task's lane begins with (R99). -/
def Task.laneRegs (t : Task) (l n : Nat) : List (Nat × Word) :=
  let ws := t.words
  let pair (a : BitVec 64) : List Word := [a.setWidth 32, (a >>> 32).setWidth 32]
  let rd := (List.range 4).flatMap (fun j => pair (t.rd.getD j 0))
  let wr := (List.range 2).flatMap (fun j => pair (t.wr.getD j 0))
  let vs := [recWord ws 2, recWord ws 3, recWord ws 4, recWord ws 5, t.p4, t.p5] ++ rd ++ wr
    ++ [if recGrd ws then BitVec.ofNat 32 (recY ws * 65536 + recX ws) else 0, BitVec.ofNat 32 n]
  (vs.zip (List.range 20)).map (fun e => (cellV e.2 l, e.1))

/-- The time a bin's timer takes: BTIM cycles of 1.4 GHz (R98, spec/00 R9), rounded up to whole nanoseconds. -/
def binTime (btim : BitVec 8) : Nat := (btim.toNat * 5 + 6) / 7

/-- BIN_FORM_WARP (R98): a full bin, or one whose timer has run out, forms a warp when a core of the die fits. -/
def execBinFormWarp (die bin : Nat) (s : State) : Out :=
  let d := s.die die
  match d.bins.get bin with
  | none => .next s
  | some b =>
    let l := s.lot b.lot
    match (if l.phase == .running && l.status != 1 && l.status != 5 then l.code.taskFunc b.entry else none) with
    | none => .next s
    | some f =>
      let need : Need := { nvec := 1, nmat := 0, regs := f.regs, scr := f.scr, acc := f.acc }
      let due := b.tasks.length == 32 || decide (b.since + binTime d.btim ≤ s.gtime)
      match (if due && d.state == .live then chooseCore need die (s.candidates [die]) else none) with
      | none => .next s
      | some (core, subs) =>
        let lanes := b.tasks.zip (List.range b.tasks.length)
        let regs := lanes.foldl (fun m e => m.setAll ((d.tasks.get e.1).laneRegs e.2 e.1)) (kinitRegs l.record.kinit)
        let k := s.nextLseq
        let s := s.startVat b.lot need core subs 0xFFFFFFFF true (fun _ => maskOf (lanes.map (·.2))) f.eoff (fun _ => regs)
        let s := s.modWarp (warpKey k 0) (fun w => { w with tasks := lanes.foldl (fun m e => m.set e.2 (some e.1)) [] })
        let s := s.modDie die (fun d => { d with
          bins := d.bins.set bin none,
          tasks := b.tasks.foldl (fun m n => m.modify n (fun t => { t with place := .running })) d.tasks })
        .next (s.fillBins die)

/-- OVERFLOW_REFILL (R101, R102): the record at the head of a quarter is read back as an entry of the table frees. -/
def execOverflowRefill (die ctx : Nat) (s : State) : Out :=
  let c := s.ctx ctx
  let d := s.die die
  if c.spilled die = 0 || 4096 ≤ d.tableUsed || c.refillStopped.getLsbD die || c.faulted then .next s
  else match d.tasks.firstKey (fun _ t => decide (t.ctx = ctx) && t.spilled) with
    | none => .next s
    | some n =>
      let r := s.agentRead ctx die (c.ringVa die (c.ovf.get (2 * die)).toNat) 64 190
      match r.2 with
      | .ok bs =>
        let t := r.1.modCtx ctx (fun c => c.bump (2 * die))
        if (d.tasks.get n).place = .retired then .next (t.dropTask die n)
        else .next (t.modDie die (fun d => { d with tasks := d.tasks.modify n (fun t => { t with
          spilled := false, words := (List.range 16).map (fun i => BitVec.ofNat 32 (word bs (4 * i))) }) }))
      | .error .held => .next r.1
      | .error m =>
        let x := m.toRaise 0 0
        let fr := s.taskFault (d.tasks.get n).lot x
        if x.code != pageFault && x.code != permFault then .next (r.1.faultContext ctx fr)
        else if !r.1.fqRoom ctx then .next r.1
        else
          let fr := { fr with replay := true }
          let seq := (r.1.ctx ctx).fqwi
          let q := r.1.queueRecord ctx fr
          match q.2 with
          | some m => .next (q.1.faultContext ctx (fr.missed m))
          | none => .next (q.1.modCtx ctx (fun c => { c with
              refillStopped := c.refillStopped ||| dieBit die,
              services := c.services ++ [{ seq := seq, lot := (d.tasks.get n).lot, vat := 0, warp := 0, refill := some die, record := { fr with seq := seq } }] }))

/-- OVF_STALL (R102): a SPAWN has been stalled for 2 ms. -/
def execOvfStall (warp : Nat) (s : State) : Out :=
  let w := s.warp warp
  if w.hold == .parked .spawn && decide (w.holdSince + 2000000 ≤ s.gtime) then
    .next (s.raise warp { code := fOvfStall, flm := w.clause.enabled &&& ~~~ w.spawnDone, fpc := w.clause.pc } .again)
  else .next s

/-! ### TDONE, LABORT, ABCHK -/

/-- TDONE (R342). -/
def execTdone (st : BitVec 2) (s : State) : Out :=
  let g : Sig := { slot := slot 0x37 1, stall := st, roleOk := s.lanes.all (fun l => (s.w.tasks.get l).isSome) }
  s.issue g (fun s => (s.retireTasks s.cur s.w.clause.enabled).noteRelease s.cur 3)

/-- Tasks of a lot that are not yet formed into warps are discarded on a die (R102). -/
def State.discardTasks (s : State) (lot die : Nat) : State :=
  let gone := (s.die die).tasks.filterMap (fun e =>
    if e.2.lot = lot ∧ e.2.place ≠ .running ∧ e.2.place ≠ .retired then some (e.1, e.2.spilled) else none)
  let s := s.modDie die (fun d => { d with
    bins := d.bins.keep (fun _ b => match b with | some b => b.lot != lot | none => false),
    tasks := gone.foldl (fun m e => m.modify e.1 (fun t => { t with place := .retired })) d.tasks })
  (gone.foldl (fun s e => if e.2 then s else s.dropTask die e.1) s).fillBins die

/-- LABORT (R109, R343). -/
def execLabort (st : BitVec 2) (s : State) : Out :=
  let g : Sig := { slot := slot 0x37 4, stall := st, legal := s.l.record.flags.getLsbD 2 }
  s.issueRaw g (fun s =>
    let s := s.modLot s.v.lot (fun l => if l.abort then l else { l with
      abort := true, abortAt := s.gtime, status := if l.status == 0 then 2 else l.status })
    (s.leave s.cur s.w.masks.lmask s.w.clause.pc s.v.atBarrier).retireAtBoundary g)

/-- ABCHK (R343). -/
def execAbchk (st : BitVec 2) (s : State) : Out :=
  let g : Sig := { slot := slot 0x37 5, stall := st }
  s.issueRaw g (fun s => s.sampling g (fun s => s.retire g))

/-- A warp is parked in the scheduler, or in trap mode (R109). -/
def Warp.exitsAtOnce (w : Warp) : Bool := w.wpark || w.trap.tmode || w.evict == .saved || (match w.hold with | .parked _ => true | _ => false)

/-- ABORT_FLAG_ARRIVE (R109): the flag reaches a die. Its tasks are discarded, parked warps exit (from a barrier with its counts kept: spec/13
R325), an image of the lot is discarded. -/
def execAbortFlagArrive (lot die : Nat) (s : State) : Out :=
  let l := s.lot lot
  if !l.abort || l.abortDies.getLsbD die then .next s
  else
    let s := s.modLot lot (fun l => { l with abortDies := l.abortDies ||| dieBit die })
    let s := s.discardTasks lot die
    let vs := s.vats.filterMap (fun e => match e.2 with | some v => if v.lot = lot ∧ v.place ≠ .gone then some e.1 else none | none => none)
    .next (vs.foldl (fun s vk =>
      if (s.vat vk).place = .saved then s.endVat vk
      else (warpKeys vk (s.vat vk)).foldl (fun s k =>
        let w := s.warp k
        if dieOfCore w.core = die && w.masks.lmask != 0 && w.exitsAtOnce then s.leave k w.masks.lmask w.clause.pc (s.vat vk).atBarrier
        else s) s) s)

end Sys2Proof.Machine
end

