-- ==== Sys2Proof/Machine/SysRegs.lean ====
section
/-! DEFINITION. The system registers (spec/11 R267–R269): what SYSR reads and what SYSW writes, by register number. -/

namespace Sys2Proof.Machine

/-- Word `i` of a wide register. -/
def wordOf {n : Nat} (x : BitVec n) (i : Nat) : Word := (x >>> (32 * i)).setWidth 32
/-- A wide register with one word written. -/
def setWordOf {n : Nat} (x : BitVec n) (i : Nat) (v : Word) : BitVec n :=
  (x &&& ~~~((0xFFFFFFFF : BitVec n) <<< (32 * i))) ||| ((v.setWidth n) <<< (32 * i))

/-- Registers held per lane. -/
def sysPerLane (n : Nat) : Bool := n == 0 || (0x38 ≤ n && n ≤ 0x3D)

/-- The assigned numbers (R268 Table 6). -/
def sysAssigned (n : Nat) : Bool :=
  n ≤ 0x13 || (0x20 ≤ n && n ≤ 0x3D) || (0x40 ≤ n && n ≤ 0x43) || (0x48 ≤ n && n ≤ 0x4D) || (0x50 ≤ n && n ≤ 0x56)
    || (0x60 ≤ n && n ≤ 0x70) || (0x74 ≤ n && n ≤ 0x7A) || (0x80 ≤ n && n ≤ 0xB3) || (0xC0 ≤ n && n ≤ 0x14F)
    || (0x200 ≤ n && n ≤ 0x2FF)

/-- ISAVER (spec/10 R241). -/
def Hub.isaver (h : Hub) : Word := Config.stepping.setWidth 32 <<< 16 ||| h.isaMin.setWidth 32 <<< 8 ||| 4

/-- WSTAT (spec/05 R110). -/
def Warp.wstat (w : Warp) : Word :=
  w.sgrem.setWidth 32 <<< 16 ||| (if w.sgact then 0x10 else 0) ||| (if w.wpark then 8 else 0) ||| w.hdep.setWidth 32

/-- TRSTAT (spec/07 R171). -/
def Warp.trstat (w : Warp) : Word :=
  (if w.trap.rmode then 8 else 0) ||| (if w.trap.smode then 4 else 0) ||| (if w.trap.tmsk then 2 else 0) ||| (if w.trap.tmode then 1 else 0)

/-- The event bank that SYSR reads: bank HDEP, or bank 1. -/
def Warp.eventBank (w : Warp) : EventBank := if w.hdep == 2 then w.ev2 else w.ev1

/-- The words of an event bank. -/
def EventBank.words (e : EventBank) : List Word := [e.evrec, e.evpc, e.evt, e.evf, e.evtk, e.evm]

/-- STGHDR's words (spec/04 R104). -/
def StageHeader.words (h : StageHeader) : List Word :=
  [(if h.xh then 0x100 else 0) ||| h.wm1.setWidth 32 <<< 2 ||| h.state.setWidth 32, h.n, h.oldest, h.next]

/-- SESTAT (spec/06 R150). -/
def State.sestat (s : State) (x : StreamEngine) : Word :=
  (if x.busy then 0x80000000 else 0) ||| (if x.flt then 0x40000000 else 0)
    ||| (match x.holder with | some v => BitVec.ofNat 32 ((s.vat v).slot % 16 * 2 ^ 21) | none => 0)
    ||| x.ring.setWidth 32 <<< 18 ||| x.bytes.setWidth 32

/-- A per-lane register of lane `l`. -/
def State.laneReg (s : State) (n l : Nat) : Word :=
  let w := s.w
  match n with
  | 0 => BitVec.ofNat 32 l
  | 0x38 => w.lpc.get l
  | 0x39 => w.hpc1.get l
  | 0x3A => w.hpc2.get l
  | 0x3B => (w.lstate.get l).setWidth 32
  | 0x3C => (w.pkage.get l).setWidth 32
  | _ => (w.barid.get l).setWidth 32

/-- Identity and context registers, 0x001–0x013. -/
def State.identReg (s : State) (n : Nat) : Word :=
  let w := s.w
  let v := s.v
  let l := s.l
  let g := BitVec.ofNat 64 s.gtime
  match n with
  | 0x01 => BitVec.ofNat 32 w.num
  | 0x02 => BitVec.ofNat 32 (w.slot / 16)
  | 0x03 => BitVec.ofNat 32 w.core
  | 0x04 => v.vatnum
  | 0x05 => v.gridX
  | 0x06 => v.gridY
  | 0x07 => v.gridZ
  | 0x08 => w.vwb.setWidth 32
  | 0x09 => BitVec.ofNat 32 w.vat
  | 0x0A => wordOf l.record.codeva 0
  | 0x0B => w.latchCode.getD (wordOf l.record.codeva 1)
  | 0x0C => wordOf g 0
  | 0x0D => w.latchGtime.getD (wordOf g 1)
  | 0x0E => s.hub.isaver
  | 0x0F => BitVec.ofNat 32 (dieOfCore w.core * 5)
  | 0x10 => s.c.tdmask.setWidth 32
  | 0x11 => s.c.stmask
  | 0x12 => (s.part s.c.part).ackto.setWidth 32
  | _ => (s.die (dieOfCore w.core)).btim.setWidth 32

/-- The masks of a warp, 0x020–0x037. -/
def Masks.reg (m : Masks) (n : Nat) : Word :=
  match n with
  | 0x20 => m.amask
  | 0x21 => m.lmask
  | 0x22 => m.ham1
  | 0x23 => m.ham2
  | 0x24 => m.wset
  | 0x25 => m.arrl
  | 0x26 => m.sggrp
  | 0x27 => m.blmask
  | _ => if n < 0x30 then m.jm.get (n - 0x28) else m.ja.get (n - 0x30)

/-- Control, event, status and trap registers, 0x040–0x056. -/
def State.controlReg (s : State) (n : Nat) : Word :=
  let w := s.w
  match n with
  | 0x40 => w.wstat
  | 0x41 => w.dhv
  | 0x42 => w.sgcfg
  | 0x43 => w.sgcnt
  | 0x50 => w.fstat
  | 0x51 => if w.dcerr then 1 else 0
  | 0x52 => w.trap.tvmask
  | 0x53 => s.v.vvmask
  | 0x54 => w.trstat
  | 0x55 => w.trap.trpc
  | 0x56 => w.trap.trmask
  | _ => w.eventBank.words.getD (n - 0x48) 0

/-- The registers of the vat and the core, from 0x070 on. -/
def State.vatReg (s : State) (n : Nat) : Word :=
  let v := s.v
  if n == 0x70 then v.vbstat
  else if n < 0x78 then v.stage.words.getD (n - 0x74) 0
  else if n == 0x78 then v.mcfg
  else if n == 0x79 then s.w.rowp
  else if n == 0x7A then s.w.lkstat
  else if n < 0x90 then wordOf (v.ringd.get ((n - 0x80) / 2)) (n % 2)
  else if n < 0xB0 then wordOf (v.ringtag.get ((n - 0x90) / 4)) (n % 4)
  else if n < 0xB2 then (s.engine s.w.core (n - 0xB0)).sepos
  else if n < 0xB4 then s.sestat (s.engine s.w.core (n - 0xB2))
  else if n < 0x100 then v.stgslot.get (n - 0xC0)
  else if n < 0x140 then wordOf (s.c.lwdesc.get ((n - 0x100) / 8)) (n % 8)
  else if n < 0x200 then v.nbstat.get (n - 0x140)
  else v.hist.get (n - 0x200)

/-- A register that is not held per lane. -/
def State.sysReg (s : State) (n : Nat) : Word :=
  if n < 0x20 then s.identReg n
  else if n < 0x40 then s.w.masks.reg n
  else if n < 0x60 then s.controlReg n
  else if n < 0x70 then s.w.trap.frec.words.getD (n - 0x60) 0
  else s.vatReg n

/-- A read of word 0 of GTIME or CODEBASE latches word 1 for the next read of it. -/
def State.latchReg (s : State) (n : Nat) : State :=
  let w := s.w
  match n with
  | 0x0A => s.setW { w with latchCode := some (wordOf s.l.record.codeva 1) }
  | 0x0B => s.setW { w with latchCode := none }
  | 0x0C => s.setW { w with latchGtime := some (wordOf (BitVec.ofNat 64 s.gtime) 1) }
  | 0x0D => s.setW { w with latchGtime := none }
  | _ => s

/-- SYSR (R267). -/
def execSysr (st : BitVec 2) (d : Code) (num : BitVec 14) (s : State) : Out :=
  let n := num.toNat
  s.issue { slot := slot 0x3E 0, stall := st, ok := sysAssigned n && (isLane d || !sysPerLane n), uses := [(d, 1)] } (fun s =>
    let s := if sysPerLane n then s.pendD d (s.laneReg n) 4
      else if isLane d then let x := s.sysReg n; s.pendD d (fun _ => x) 4
      else s.pendK d (s.sysReg n) 4
    s.latchReg n)

/-! ### SYSW -/

/-- What every SYSW shows of itself: its source is read. -/
def syswSig (st : BitVec 2) (d : Code) (num : BitVec 14) : Sig :=
  { slot := slot 0x3E 1, stall := st, ok := sysAssigned num.toNat, dst := false, uses := [(d, 1)],
    reach := if sysPerLane num.toNat then .own else .low }

/-- The value of a SYSW of a register that is not held per lane: the lowest enabled lane's. -/
def State.sysSource (s : State) (d : Code) : Word := s.readOp d s.lane0

/-- LPC and LSTATE are writable at HDEP ≥ 1 and in warp-trap or vat-trap mode, in save and restore mode too (spec/05 R110). -/
def Warp.handles (w : Warp) : Bool := w.hdep != 0 || w.trap.tmode

/-- The fields of DHV. -/
def dhvFields : Word := 0xFFFFFE01

/-- The fields of SGCFG that a write stores. -/
def sgcfgOf (x : Word) : Word :=
  let lim := x >>> 16
  let q := x &&& 0xFFFF
  (if lim.toNat < 256 then 256 else lim) <<< 16 ||| (if q == 0 then 1 else q)

/-- STGHDR with a word written. -/
def StageHeader.write (h : StageHeader) (i : Nat) (x : Word) : StageHeader :=
  match i with
  | 0 => { h with xh := x.getLsbD 8, wm1 := x.extractLsb' 2 6, state := x.extractLsb' 0 2 }
  | 1 => { h with n := x }
  | 2 => { h with oldest := x }
  | _ => { h with next := x }

/-- A write of a register with no rule of its own; read-only registers and fields are ignored (spec/00 R10). -/
def State.sysWrite (s : State) (n : Nat) (x : Word) : State :=
  let w := s.w
  let restoring := w.trap.rmode
  if n == 0x11 then s.modCtx s.l.ctx (fun c => { c with stmask := x &&& 0xFFFFFF })
  else if n == 0x41 then s.setW { w with dhv := x &&& dhvFields }
  else if n == 0x42 then s.setW { w with sgcfg := sgcfgOf x }
  else if n == 0x43 then s.setW { w with sgcnt := x &&& 0xFFFF }
  else if n == 0x50 then s.setW { w with fstat := x &&& 0x1F }
  else if n == 0x51 then s.setW { w with dcerr := w.dcerr && !x.getLsbD 0 }
  else if n == 0x52 then s.setW { w with trap := { w.trap with tvmask := x } }
  else if n == 0x53 then s.modV (fun v => { v with vvmask := x })
  else if n == 0x54 then
    if w.trap.tmode then s.setW { w with trap := { w.trap with tmsk := x.getLsbD 1 } } else s
  else if 0x74 ≤ n && n ≤ 0x77 then s.modV (fun v => { v with stage := v.stage.write (n - 0x74) x })
  else if n == 0x78 then if restoring then s.modV (fun v => { v with mcfg := x &&& 0x1FFF }) else s
  else if n == 0x79 then if restoring then s.setW { w with rowp := x &&& 0xBF } else s
  else if n == 0xB0 || n == 0xB1 then
    if (s.engine w.core (n - 0xB0)).holder == some w.vat then s.modEngine w.core (n - 0xB0) (fun e => { e with sepos := x }) else s
  else if 0xC0 ≤ n && n ≤ 0xFF then s.modV (fun v => { v with stgslot := v.stgslot.set (n - 0xC0) (x &&& 0xFCFF) })
  else s

/-- BARID of the enabled lanes, in restore mode. -/
def State.writeBarid (s : State) (d : Code) : State :=
  if s.w.trap.rmode then
    let vals := s.lanes.map (fun l => (l, (s.readOp d l).setWidth 5))
    s.modW (fun w => { w with barid := vals.foldl (fun m e => m.set e.1 e.2) w.barid })
  else s

/-- SYSW of a register with no row of its own. -/
def execSysw (st : BitVec 2) (d : Code) (num : BitVec 14) (s : State) : Out :=
  s.issue (syswSig st d num) (fun s =>
    if num.toNat == 0x3D then s.writeBarid d
    else if sysPerLane num.toNat then s
    else s.sysWrite num.toNat (s.sysSource d))

/-- A descriptor that breaks the bounds of R142. -/
def Vat.ringBad (v : Vat) (r : BitVec 64) : Bool :=
  (rdKind r != 0 && rdNm1 r == 0) || rdNm1 r < rdQptr r || rdNm1 r < rdPptr r
    || ((rdKind r == 1 || rdKind r == 2) && decide (1024 * v.scr < rdOff r (rdNm1 r + 1)))
    || (rdKind r == 3 && decide (15 < rdBase r + rdNm1 r))

/-- A busy stream engine of the vat works on the ring. -/
def State.ringBound (s : State) (n : Nat) : Bool :=
  [0, 1].any (fun e =>
    let x := s.engine s.w.core e
    x.holder == some s.w.vat && x.busy && x.ring.toNat == n)

/-- SYSW of a word of RINGDn (spec/06 R142). -/
def execSyswRingd (st : BitVec 2) (d : Code) (num : BitVec 14) (s : State) : Out :=
  let g := syswSig st d num
  s.issueRaw g (fun s =>
    let n := (num.toNat - 0x80) / 2
    let r := setWordOf (s.v.ringd.get n) (num.toNat % 2) (s.sysSource d) &&& 0xFFFFF07FF07FF
    let put (r : BitVec 64) : State := s.modV (fun v => { v with ringd := v.ringd.set n r, ringtag := v.ringtag.set n 0, ringQuiet := v.ringQuiet.set n false })
    if s.ringBound n then s.raiseHere fSlotState (BitVec.ofNat 32 n)
    else if s.v.ringBad r then (put (r &&& ~~~((3 : BitVec 64) <<< 38))).raiseHere fIllegalOperand 0
    else (put r).retire g)

/-- SYSW of a word of RINGTAGn (spec/06 R143): tags above slot NM1 are reserved. -/
def execSyswRingtag (st : BitVec 2) (d : Code) (num : BitVec 14) (s : State) : Out :=
  s.issue (syswSig st d num) (fun s =>
    let n := (num.toNat - 0x90) / 4
    let keep : BitVec 128 := BitVec.ofNat 128 (2 ^ (2 * (rdNm1 (s.v.ringd.get n) + 1)) - 1)
    let t := setWordOf (s.v.ringtag.get n) (num.toNat % 4) (s.sysSource d) &&& keep
    s.modV (fun v => { v with ringtag := v.ringtag.set n t, ringQuiet := v.ringQuiet.set n true }))

/-- The fields of VBSTAT and NBSTAT. -/
def barrierFields : Word := 0x87FF07FF

/-- SYSW of VBSTAT (spec/05 R132): completion is tested after the write. -/
def execSyswVbstat (st : BitVec 2) (d : Code) (num : BitVec 14) (s : State) : Out :=
  s.issue (syswSig st d num) (fun s =>
    (s.modV (fun v => { v with vbstat := s.sysSource d &&& barrierFields })).testVatBarrier s.w.vat)

/-- SYSW of NBSTATn (spec/13 R313). A named barrier with no phase open has nothing to complete. -/
def execSyswNbstat (st : BitVec 2) (d : Code) (num : BitVec 14) (s : State) : Out :=
  s.issue (syswSig st d num) (fun s =>
    let n := num.toNat - 0x140
    let s := s.modV (fun v => { v with nbstat := v.nbstat.set n (s.sysSource d &&& barrierFields) })
    if vbExpect (s.v.nbstat.get n) = 0 then s else s.testNamedBarrier s.w.vat n)

/-- The two changes of LSTATE that a handler makes (spec/05 R113): the lanes that exit and those that leave a join. -/
def State.lstateWrites (s : State) (d : Code) : Lanes × Lanes :=
  let at' (l : Nat) (old new : BitVec 3) : Bool :=
    inMask s.w.clause.enabled l && s.w.lstate.get l == old && (s.readOp d l).extractLsb' 0 3 == new
  (maskWhere (fun l => at' l ready exited), maskWhere (fun l => at' l waitJoin ready))

/-- SYSW of LSTATE (spec/05 R110, R113). Lanes that exit issue no further word of the clause, but for save and restore mode, where all
lanes issue (spec/07 R183). -/
def execSyswLstate (st : BitVec 2) (d : Code) (num : BitVec 14) (s : State) : Out :=
  let g := syswSig st d num
  s.issueRaw g (fun s =>
    if !s.w.handles then s.retire g
    else
      let x := s.lstateWrites d
      let pc := s.w.clause.pc
      let s := s.modW (fun w => { w with
        lstate := (lanesOf x.2).foldl (fun m l => m.set l ready) w.lstate,
        masks := { w.masks with ja := w.masks.ja.mapVals (fun _ m => m &&& ~~~ x.2) } })
      let s := s.leave s.cur x.1 pc
      if s.w.saveRestore then s.retire g
      else if s.w.masks.lmask == 0 then s.retireAtBoundary g
      else (s.modW (fun w => { w with
        clause := { w.clause with issue := w.clause.issue &&& ~~~ x.1, enabled := w.clause.enabled &&& ~~~ x.1 } })).retire g)

/-- SYSW of LPC (spec/05 R110, spec/07 R173): in trap mode the lanes written are noted, whatever the value. -/
def execSyswLpc (st : BitVec 2) (d : Code) (num : BitVec 14) (s : State) : Out :=
  s.issue (syswSig st d num) (fun s =>
    if !s.w.handles then s
    else
      let vals := s.lanes.map (fun l => (l, s.readOp d l &&& 0xFFFFFFFC))
      s.modW (fun w => { w with
        lpc := vals.foldl (fun m e => m.set e.1 e.2) w.lpc,
        trap := if w.trap.tmode && !w.saveRestore then { w.trap with lpcWritten := w.trap.lpcWritten ||| w.clause.enabled } else w.trap }))

/-- SYSW of HISTBINb (spec/04 R103). -/
def execSyswHistbin (st : BitVec 2) (d : Code) (num : BitVec 14) (s : State) : Out :=
  s.issue (syswSig st d num) (fun s =>
    s.modV (fun v => { v with hist := v.hist.set (num.toNat - 0x200) (s.sysSource d) }))

end Sys2Proof.Machine
end

