-- ==== Sys2Proof/Machine/Traps.lean ====
section
/-! DEFINITION. TRAP, BKPT and the returns from a trap (spec/07 R171–R173, R396), REP (spec/11 R262), and the service timeouts
of the ladder and of waiting warps (spec/07 R164, spec/05 R132, spec/04 R107, spec/06 R140, R145, R150, R157). -/

namespace Sys2Proof.Machine

/-! ### Software traps (R172) -/

/-- TRAP n. -/
def execTrap (st : BitVec 2) (b : Code) (s : State) : Out :=
  s.issueRaw { slot := slot 0x3E 2, stall := st, ok := b ≤ 126 } (fun s =>
    s.raiseHere (0x80 + b.setWidth 8) (b.setWidth 32))

/-- BKPT. -/
def execBkpt (st : BitVec 2) (b : Code) (s : State) : Out :=
  s.issueRaw { slot := slot 0x3E 4, stall := st } (fun s => s.raiseHere fBkpt (b.setWidth 32))

/-! ### Returns (R173) -/

/-- The row of the opcode map that a code offset's word lies in. -/
def State.rowAt (s : State) (k : Nat) (off : Word) : Nat := ((s.peek k off).2.extractLsb' 24 6).toNat

/-- A warp leaves the fault its trap registers hold: by replay, or past it. Lines that a faulted copy holds are given back
and ROWP is dropped where no replay follows (spec/06 R140, spec/15 R356). -/
def State.resolve (s : State) (k : Nat) (skip : Bool) : State :=
  let t := (s.warp k).trap
  let at' := s.locate k t.trpc t.frec.flm t.frec.flm
  let at' := if at'.pc == t.clause.pc then { at' with rep := t.clause.rep } else at'
  let replay := !skip && t.frec.replay
  let s := s.settleClaim k t.frec replay
  let s := if replay then s else s.skipPending k t.frec
  let row := s.rowAt k t.trpc
  let s := if skip && (row == 0x3C || row == 0x3D) then s.modWarp k Warp.clearRowp else s
  let len := s.wordLen k t.clause
  s.modWarp k (fun w => w.tret skip at' len)

/-- A warp goes on by the replay of the serviceable fault that made it wait or took it away (R175). -/
def State.replaySwapped (s : State) (k : Nat) : State :=
  match (s.warp k).swapFault with
  | some fr => (s.modWarp k (fun w => { w with swapFault := none, serviceWait := false, trap := { w.trap with frec := fr } })).resolve k false
  | none => s

/-- TRET and TRET.SKIP: the vat's stopped warps are released at the vat rung. A warp that the return parks with every live lane in
WAIT_JOIN is stuck (spec/05 R120). -/
def State.trapReturn (s : State) (skip : Bool) : State :=
  let rung := s.w.trap.frec.rung
  let parked := s.w.wpark
  let s := (s.modW Warp.flush).resolve s.cur skip
  let s := if rung == 1 then s.releaseVat s.w.vat else s
  if parked || s.w.trap.tmode then s else s.joinStuck s.cur

/-- A warp gives up the trap mode it holds and stands where the trap was taken again, at its faulting instruction or at a clause boundary, with
TRPC, TRMASK and FREC kept. -/
def Warp.unTrap (w : Warp) : Warp :=
  let w := w.flush.leaveTrap
  { w with clause := { w.trap.clause with issue := w.trap.trmask }, phase := if w.trap.resume = .boundary then .boundary else .word, hold := .free, replay := none }

/-- The rung a warp holds passes a fault on (R164, R173). -/
def State.passTrap (s : State) (k : Nat) (fr : FaultRecord) : State :=
  let t := (s.warp k).trap
  let vk := (s.warp k).vat
  let s := s.modWarp k Warp.unTrap
  let s := if t.frec.rung == 1 then s.modVat vk (fun v => { v with trapWarp := none }) else s
  let s := if t.frec.rung == 0 then s.offerVat k fr t.resume else s.offerContext k fr t.resume
  if t.frec.rung == 1 then s.releaseVat vk else s

/-- The signature of the three returns: outside trap mode they are ILLEGAL_OPCODE. -/
def State.tretSig (s : State) (st : BitVec 2) : Sig := { slot := slot 0x3E 3, stall := st, legal := s.w.trap.tmode }

/-- TRET. -/
def execTret (st : BitVec 2) (s : State) : Out :=
  s.issueRaw (s.tretSig st) (fun s => (s.modW (·.countIssue st)).trapReturn false)

/-- TRET.SKIP. -/
def execTretSkip (st : BitVec 2) (s : State) : Out :=
  s.issueRaw (s.tretSig st) (fun s => (s.modW (·.countIssue st)).trapReturn true)

/-- TRET.ESC: FREC is offered to the next rung. -/
def execTretEsc (st : BitVec 2) (s : State) : Out :=
  s.issueRaw (s.tretSig st) (fun s => (s.modW (·.countIssue st)).passTrap s.cur s.w.trap.frec)

/-! ### REP (spec/11 R262) -/

/-- Slots whose D, A or B field is an immediate. -/
def immD : List Nat :=
  [slot 0x1D 3, slot 0x36 2, slot 0x36 3, slot 0x36 4, slot 0x36 5, slot 0x37 3, slot 0x3C 1, slot 0x3C 2, slot 0x3C 3,
   slot 0x3C 4, slot 0x3C 5, slot 0x3C 6]
def immA : List Nat := [slot 0x30 5, slot 0x35 0, slot 0x35 3, slot 0x36 6, slot 0x36 7, slot 0x3C 0, slot 0x3C 7]
def immB : List Nat := [slot 0x21 3, slot 0x21 4, slot 0x30 6, slot 0x35 3, slot 0x37 0, slot 0x3C 0]

/-- The I-format slots that may be repeated: A and B are immediate bits. -/
def slotImm14 (k : Nat) : Bool := k == slot 4 0 || k == slot 0x21 1

/-- A step may apply to a field: the last code lies in the bank of the first. -/
def stepOk (code : Nat) (count : Nat) (step : BitVec 2) (imm : Bool) : Bool :=
  let last := code + (count - 1) * step.toNat
  step == 0 || (step != 3 && !imm && last ≤ 127 && (code < 96 || 96 ≤ code) && (decide (code < 96) == decide (last < 96)))

/-- The steps of a REP fit the word it repeats. -/
def repOk (w : Word) (count : Nat) (sd sa sb : BitVec 2) : Bool :=
  let k := (w.extractLsb' 21 9).toNat
  stepOk (w.extractLsb' 14 7).toNat count sd (immD.contains k)
    && stepOk (w.extractLsb' 7 7).toNat count sa (immA.contains k || slotImm14 k)
    && stepOk (w.extractLsb' 0 7).toNat count sb (immB.contains k || slotImm14 k)

/-- REP: the repeats of the next word begin. -/
def execRep (st : BitVec 2) (count : BitVec 6) (sd sa sb : BitVec 2) (s : State) : Out :=
  let next := (s.peek s.cur (s.w.clause.pc + 4)).2
  let n := count.toNat + 1
  let g : Sig := { slot := slot 0x3F 0, stall := st, ok := repOk next n sd sa sb }
  s.issueRaw g (fun s =>
    (s.retire g).modW (fun w => { w with clause := { w.clause with
      rep := some { repc := BitVec.ofNat 7 n, j := 0, sd := sd, sa := sa, sb := sb } } }))

/-! ### Service timeouts of the rungs (R164) -/

/-- The timeout of a rung in nanoseconds. -/
def rungTimeout (rung : BitVec 3) : Nat := if rung == 0 then 20000 else if rung == 1 then 200000 else 2000000

/-- SERVICE_TIMEOUT in place of a fault: INFO holds the code of the original one, however many rungs have passed it on (R164). -/
def FaultRecord.timedOut (fr : FaultRecord) : FaultRecord :=
  let c := if fr.origin == 0 then fr.code else fr.origin
  { fr with code := fServiceTimeout, cause := 0, replay := false, info := c.setWidth 32, origin := c }

/-- The partition rung faults every context of the partition (R176); its own timeout runs (R164). -/
def State.faultPartition (s : State) (part : Nat) (fr : FaultRecord) : State :=
  let s := s.modPart part (fun p => { p with rungAt := some (p.rungAt.getD s.gtime) })
  s.ctxs.foldl (fun s e => match e.2 with
    | some c => if c.part = part then s.faultContext e.1 { fr with rung := 3, replay := false } else s
    | none => s) s

/-- The fault of a warp is still with the firmware: its vat is not swapped out yet, and does not wait on its core. -/
def State.atFirmware (s : State) (k : Nat) : Bool :=
  let w := s.warp k
  let v := s.vat w.vat
  w.swapFault.isSome && !w.serviceWait && v.place == .resident && w.evict != .running && w.evict != .restore

/-- The first access of a warp that has been on a lost route for too long. -/
def State.overdueOp (s : State) (k : Nat) : Option (Nat × Op) := (s.opsOf k).find? (fun e => s.overdue e.2)

/-- An access that no route answers is given up: SERVICE_TIMEOUT at the context rung, terminal, with the instruction's lanes (spec/03 R61;
DEDUCED, log 92). Nothing is raised during a stop (R395). -/
def State.giveUpAccess (s : State) (k n : Nat) (o : Op) : State :=
  let s := s.finish n (fun o => { o with work := .done, performed := true, owed := 0 })
  if (s.vat (s.warp k).vat).stop.isSome then s
  else s.offerContext k (s.record k { code := fServiceTimeout, flm := o.lanes, fpc := o.fpc, fva := o.va }) .boundary

/-- RUNG_SERVICE_TIMEOUT: the rung that holds the fault of a warp passes SERVICE_TIMEOUT on; a pending eviction takes the
warp instead (R182). So does an access that no route answers. -/
def execRungServiceTimeout (warp : Nat) (s : State) : Out :=
  let w := s.warp warp
  let late (r : BitVec 3) : Bool := decide (w.trap.offeredAt + rungTimeout r ≤ s.gtime)
  if w.trap.tmode && !w.saveRestore && !w.serviceWait && (w.evict == .running || w.evict == .requested) then
    if !late w.trap.frec.rung || (w.evict == .requested && !w.faultPends) then .next s
    else .next (s.passTrap warp w.trap.frec.timedOut)
  else if s.atFirmware warp && late 2 then
    match w.swapFault with
    | some fr => .next (s.faultPartition (s.partOf warp) fr.timedOut)
    | none => .next s
  else match s.overdueOp warp with
    | some e => .next (s.giveUpAccess warp e.1 e.2)
    | none => .next s

/-! ### Timeouts of waiting warps -/

/-- The lowest-numbered warp of a vat that satisfies a test. -/
def State.lowestWarp (s : State) (vk : Nat) (p : Warp → Bool) : Option Nat :=
  (warpKeys vk (s.vat vk)).find? (fun k => p (s.warp k))

/-- The wait of a warp begins anew. -/
def Warp.restartWait (w : Warp) (now : Nat) : Warp :=
  { w with holdSince := now, barSince := (lanesOf (w.lanesIn waitBar)).foldl (fun m l => m.set l now) w.barSince }

/-- A warp runs on its core, with or without a request to leave it. -/
def Warp.onCore (w : Warp) : Bool := w.resident && (w.evict == .running || w.evict == .requested)

/-- BARRIER_TIMEOUT (spec/05 R132, spec/13 R313): a lane has waited for 200 µs. The record is that of the lowest-numbered
waiting warp. -/
def execBarrierTimeout (warp : Nat) (s : State) : Out :=
  let w := s.warp warp
  let waits (w : Warp) : Lanes := w.lanesIn waitBar
  if w.onCore && (lanesOf (waits w)).any (fun l => w.barSince.get l + 200000 ≤ s.gtime) then
    match s.lowestWarp w.vat (fun x => x.onCore && waits x != 0) with
    | some k =>
      let x := s.warp k
      let m := waits x
      let s := (s.modWarp warp (·.restartWait s.gtime)).modWarp k (·.restartWait s.gtime)
      .next (s.raise k { code := fBarrierTimeout, flm := m, fpc := x.waitPc.get ((lowest m).getD 0) } .boundary)
    | none => .next s
  else .next s

/-- The timeout of a warp that is parked before an instruction (R396): after 200 µs the fault goes to the vat rung, in the
lowest-numbered warp that waits for the same. -/
def State.parkTimeout (s : State) (warp : Nat) (code : BitVec 8) (info : Word) (p : Hold → Bool) : State :=
  let w := s.warp warp
  if w.onCore && p w.hold && decide (w.holdSince + 200000 ≤ s.gtime) then
    match s.lowestWarp w.vat (fun x => x.onCore && p x.hold) with
    | some k =>
      let x := s.warp k
      let fr := s.record k { code := code, flm := x.clause.enabled, fpc := x.clause.pc, info := info }
      let s := s.modWarp warp (·.restartWait s.gtime)
      if (s.vat w.vat).stop.isSome then s else s.offerVat k fr .again
    | none => s
  else s

/-- STAGE_PARK_TIMEOUT (spec/04 R107). The record names the stage table by FPC, the STGNEXT or STGWL; INFO is 0 (DESIGN CHOICE, log 98: spec/07
R168 gives INFO no meaning for BARRIER_TIMEOUT). -/
def execStageParkTimeout (warp : Nat) (s : State) : Out :=
  .next (s.parkTimeout warp fBarrierTimeout 0 (fun h => h == .parked .stgnext || h == .parked .stgwl))

/-- SLOT_PARK_TIMEOUT (spec/06 R145). -/
def execSlotParkTimeout (warp : Nat) (s : State) : Out :=
  match (s.warp warp).hold with
  | .parked (.slot r) => .next (s.parkTimeout warp fBarrierTimeout (BitVec.ofNat 32 r) (· == .parked (.slot r)))
  | _ => .next s

/-- PRESENCE_TIMEOUT (spec/06 R140). -/
def execPresenceTimeout (warp : Nat) (s : State) : Out :=
  .next (s.parkTimeout warp fServiceTimeout 0 (· == .parked .presence))

/-- SECFG_PARK_TIMEOUT (spec/06 R150): INFO names the engine. -/
def execSecfgParkTimeout (warp : Nat) (s : State) : Out :=
  match (s.warp warp).hold with
  | .parked (.secfg e) => .next (s.parkTimeout warp fServiceTimeout (BitVec.ofNat 32 e) (· == .parked (.secfg e)))
  | _ => .next s

/-- ACQA_WAIT_TIMEOUT (spec/06 R157). -/
def execAcqaWaitTimeout (warp : Nat) (s : State) : Out :=
  match (s.warp warp).hold with
  | .parked (.acqa n) => .next (s.parkTimeout warp fServiceTimeout 0 (· == .parked (.acqa n)))
  | _ => .next s

/-- VAT_STOP_FORCE (R395): a warp that has not stopped 2 ms after the stop began is stopped where it stands. -/
def execVatStopForce (warp : Nat) (s : State) : Out :=
  match (s.vat (s.warp warp).vat).stop with
  | some t => if t + 2000000 ≤ s.gtime then .next (s.modWarp warp (fun w => { w with stopped := true, hold := .free })) else .next s
  | none => .next s

/-- EVICT_FORCE (R182): the timeout of the rung that a warp in trap mode holds has run out while an eviction is pending: the
warp is evicted at its clause boundary, in its trap handler. -/
def execEvictForce (warp : Nat) (s : State) : Out :=
  let w := s.warp warp
  if w.evict == .requested && w.trap.tmode && !w.saveRestore && !w.faultPends && w.phase != .word
      && decide (w.trap.offeredAt + rungTimeout w.trap.frec.rung ≤ s.gtime) then
    .next (s.modWarp warp Warp.toDrain)
  else .next s

end Sys2Proof.Machine
end

