-- ==== Sys2Proof/Machine/Evict.lean ====
section
/-! DEFINITION. Eviction and restore (spec/07 R177–R185, R397, spec/21 R389): the image header, the warp control block, save
and restore mode, SAVEW, SAVEW.DONE and RESTW. -/

namespace Sys2Proof.Machine

/-! ### The warp control block (R179) -/

def halfBytes (x : BitVec 16) : List Byte := natToBytes 2 x.toNat
def zeros (n : Nat) : List Byte := List.replicate n 0

/-- One 32-bit register of every lane. -/
def laneWords (m : Map Word) : List Byte := allLanes.flatMap (fun l => wordBytes (m.get l))

/-- The lanes of CEN, and REPC: those of the clause in which the eviction found the warp. -/
def Warp.cen (w : Warp) : Lanes := match w.outside with | some o => if o.mid then o.clause.enabled else 0 | none => 0
def Warp.repcOut (w : Warp) : BitVec 7 :=
  match w.outside with
  | some o => match o.clause.rep with | some r => if o.mid then r.repc else 0 | none => 0
  | none => 0

/-- Word 0 of the block. -/
def Warp.blockWord0 (w : Warp) : Word :=
  1 ||| BitVec.ofNat 32 (w.num % 64 * 256) ||| w.hdep.setWidth 32 <<< 14 ||| (if w.sgact then 1 <<< 16 else 0)
    ||| (if w.wpark then 1 <<< 17 else 0) ||| (if w.trap.tmode then 1 <<< 18 else 0) ||| (if w.trap.tmsk then 1 <<< 19 else 0)

/-- The six counters, 6 bits each. -/
def State.counterField (s : State) (k : Nat) : Nat :=
  ((([OpClass.ld, .st, .cp, .mx, .bk, .at].map (s.count k)).zip [0, 1, 2, 3, 4, 5]).map (fun e => min e.1 63 * 64 ^ e.2)).foldl (· + ·) 0

/-- k28–k31 of a bank, and the predicates of PB for a lane. -/
def Warp.bankK (w : Warp) (bank : Nat) : List Word :=
  (List.range 4).map (fun i => w.readCell (if bank = 0 then cellKn (28 + i) else cellKb bank i))
def Warp.bankP (w : Warp) (bank i l : Nat) : Bool := w.readCell (if bank = 0 then cellPn (6 + i) l else cellPb bank i l) != 0
def Warp.pbByte (w : Warp) (l : Nat) : Byte :=
  ((List.range 8).map (fun i => if w.bankP (i / 2) (i % 2) l then (1 : Byte) <<< i else 0)).foldl (· ||| ·) 0

/-- hv0–hv3 of a depth, lane by lane. -/
def Warp.hvBytes (w : Warp) (d : Nat) : List Byte :=
  allLanes.flatMap (fun l => (List.range 4).flatMap (fun i => wordBytes (w.readCell (cellHv d i l))))

/-- The control block of a warp, as it stands outside save and restore mode. WSET loses its exited lanes, since RESTW takes no block that
holds one (DEDUCED, log 18). -/
def State.controlBlock (s : State) (k : Nat) : List Byte :=
  let w := s.warp k
  let m := w.masks
  let words : List Word :=
    [w.blockWord0, w.vwb.setWidth 32 ||| w.repcOut.setWidth 32 <<< 8,
     m.amask, m.lmask, m.ham1, m.ham2, m.wset &&& m.lmask, m.arrl, m.sggrp, m.blmask, w.trap.trmask,
     (w.fstat &&& 0x1F) ||| (if w.dcerr then 0x100 else 0), w.dhv, w.sgcfg, w.sgcnt ||| w.sgrem.setWidth 32 <<< 16]
  let dc : Word := if w.dcerr then 1 else 0
  words.flatMap wordBytes ++ natToBytes 8 (s.counterField k)
    ++ (List.range 8).flatMap (fun j => wordBytes (m.jm.get j)) ++ (List.range 8).flatMap (fun j => wordBytes (m.ja.get j))
    ++ (w.ev1.words ++ w.ev2.words ++ [w.trap.trpc, w.trap.tvmask, dc, w.cen, 0]).flatMap wordBytes
    ++ ([0, 1, 2, 3].flatMap w.bankK).flatMap wordBytes
    ++ allLanes.map w.pbByte
    ++ packNibbles (allLanes.map (fun l => (w.lstate.get l).setWidth 8))
    ++ allLanes.flatMap (fun l => halfBytes (w.pkage.get l))
    ++ laneWords w.lpc ++ laneWords w.hpc1 ++ laneWords w.hpc2 ++ laneWords w.tlpc ++ zeros 8
    ++ (if w.trap.tmode then w.trap.frec.bytes else zeros 64) ++ zeros 64
    ++ w.hvBytes 1 ++ w.hvBytes 2

/-! ### The image header (R178, R389) -/

/-- FEATLIVE as the hardware sets it. -/
def Vat.featLive (v : Vat) : Nat :=
  (if v.stage.state == 1 then 2 else 0) + (if v.task then 4 else 0) + (if v.hist.isEmpty then 0 else 32)

/-- Warps in the image of a vat. -/
def State.imageWarps (s : State) (vk : Nat) : Nat :=
  let v := s.vat vk
  if v.imageWhole then v.nwarp else ((warpKeys vk v).filter (fun k => (s.warp k).outside.isSome)).length

/-- The header: 256 bytes. -/
def State.imageHeader (s : State) (vk : Nat) : List Byte :=
  let v := s.vat vk
  let code := (s.lot v.lot).code
  let off := swOff v.nwarp
  let size := match v.image with | some (_, n) => n | none => 0
  let n := BitVec.ofNat 32
  let version : Word := 4 ||| s.hub.isaMin.setWidth 32 <<< 8 ||| Config.stepping.setWidth 32 <<< 16 ||| (if code.xuse then 1 <<< 24 else 0)
  (([1, version] : List Word).flatMap wordBytes) ++ natToBytes 16 v.featLive
    ++ ([n size, v.vatnum, n vk,
         n (s.imageWarps vk % 64 + (if v.imageWhole then 64 else 0) + 128 * v.imageReason.toNat),
         n (v.regs + 256 * v.scr + 2 ^ 17 * v.acc), n v.granted, 0x800, n off, n (size - off), v.vbstat, v.vvmask] : List Word).flatMap wordBytes
    ++ zeros 188

/-- The virtual address of a vat's image. -/
def State.imageVa (s : State) (vk : Nat) : BitVec 64 :=
  let v := s.vat vk
  s.saveVa (s.lot v.lot).ctx + BitVec.ofNat 64 (match v.image with | some (off, _) => off | none => 0)

/-- The bytes of several ranges of a context at their places in memory; the first range that fails ends it. -/
def State.layRanges (s : State) (ctx : Nat) : List (BitVec 64 × List Byte) → List WByte → State × Except Miss (List WByte)
  | [], acc => (s, .ok acc)
  | r :: rest, acc =>
    let w := s.writePieces hubPlace ctx 200 (rangePieces r.1 r.2.length) []
    match w.2 with
    | .ok ps => w.1.layRanges ctx rest (acc ++ layBytes ps r.2)
    | .error m => (w.1, .error m)

/-- Writes several ranges of a context; where one fails nothing is written. Where a SILENT die holds one up they are sent, and performed later
(spec/01 R31). -/
def State.agentWrites (s : State) (ctx : Nat) (rs : List (BitVec 64 × List Byte)) : State × Option Miss :=
  let w := s.layRanges ctx rs []
  let sent : State := { w.1 with posted := s.posted ++ rs.map (fun r => .range hubPlace ctx r.1 r.2) }
  match w.2 with
  | .ok bs => (if s.postedBehind ctx || s.ackSilent hubDie (bs.map (·.key)) then sent else w.1.performG bs, none)
  | .error .held => (sent, none)
  | .error m => (w.1, some m)

/-! ### Save mode (R181, R183) -/

/-- A warp enters save or restore mode at a vector: k28 the image (spec/21 R390), k29 the warp, k30 WHOLE, k31 REASON. -/
def Warp.enterMode (w : Warp) (restore : Bool) (vec : Nat) (image : BitVec 64) (whole : Bool) (reason : BitVec 2) (now : Nat) : Warp :=
  let w := w.flush
  let ks : List (Nat × Word) :=
    [(cellKb 4 0, image.setWidth 32), (cellKb 4 1, BitVec.ofNat 32 w.num), (cellKb 4 2, if whole then 1 else 0), (cellKb 4 3, reason.setWidth 32)]
  let ps := allLanes.flatMap (fun l => [(cellPb 4 0 l, (0 : Word)), (cellPb 4 1 l, 0)])
  { w with
    trap := { w.trap with smode := !restore, rmode := restore }, modeAt := if restore then now else w.modeAt,
    mpc := setPcs [] allLanes (fun _ => BitVec.ofNat 32 vec), regs := w.regs.setAll (ks ++ ps),
    phase := .boundary, hold := .free, replay := none }

/-- A failed access of the firmware to the save area is terminal for the context (R177). -/
def State.saveMiss (s : State) (vk : Nat) (m : Miss) : State :=
  let k := warpKey vk 0
  let r := s.record k (m.toRaise 0 0)
  s.faultContext (s.lot (s.vat vk).lot).ctx { r with rung := 2, replay := false }

/-- The stream engines of a vat stop at a box boundary, with SEPOS where it stands, and their counts end: they are released (spec/06 R150),
or, while the vat is being saved, still held (R163). -/
def State.stopEngines (s : State) (vk : Nat) (how : StreamEngine → StreamEngine) : State :=
  [0, 1].foldl (fun s e =>
    let core := (s.vat vk).core
    let x := s.engine core e
    if x.holder == some vk then
      let s := if x.busy && !x.flt then s.finish x.op id else s
      s.modEngine core e how
    else s) s
def State.freeEngines (s : State) (vk : Nat) : State := s.stopEngines vk StreamEngine.release

/-- An engine of a vat is within a box. -/
def State.inBox (s : State) (vk : Nat) : Bool :=
  [0, 1].any (fun e => let x := s.engine (s.vat vk).core e; x.holder == some vk && x.inBox)

/-- A warp whose eviction is called off stands where the eviction found it; one that stands at a serviceable fault waits for its answer. -/
def Warp.callOff (w : Warp) : Warp :=
  match w.outside with
  | some o => { w with
      evict := .running, evictWhole := false, outside := none, clause := o.clause, phase := if o.mid then .word else .boundary,
      replay := o.replay, spawnDone := o.spawnDone, serviceWait := w.serviceWait || w.swapFault.isSome }
  | none => w

/-- The eviction of a vat that some warps have reached SAVE for is called off: its image, grown by a grant since the request, no longer fits the
save area (spec/21 R389; DEDUCED, log 108). -/
def State.callOff (s : State) (vk : Nat) (ks : List Nat) : State :=
  let s := ks.foldl (fun s k => s.modWarp k Warp.callOff) s
  let s := s.modVat vk (fun v => { v with imageWhole := false })
  if (warpKeys vk (s.vat vk)).all (fun k => (s.warp k).evict == .running) then s.freeImage vk else s

/-- The warps of a vat that have reached SAVE enter save mode: the header and their control blocks are written, in an image of the size that
the vat's grants give now. -/
def State.enterSave (s : State) (vk : Nat) (ks : List Nat) : State :=
  match s.resizeImage vk with
  | none => s.callOff vk ks
  | some s =>
  let v := s.vat vk
  let l := s.lot v.lot
  let whole := v.imageWhole
  let va := s.imageVa vk
  let h := s.saveHeader l.ctx
  match h.2 with
  | some m => h.1.saveMiss vk m
  | none =>
    let blocks := ks.map (fun k => (va + BitVec.ofNat 64 (0x800 + 2048 * (s.warp k).num), h.1.controlBlock k))
    let r := h.1.agentWrites l.ctx ((va, h.1.imageHeader vk) :: blocks)
    match r.2 with
    | some m => r.1.saveMiss vk m
    | none =>
      let s := if whole then r.1.stopEngines vk StreamEngine.idle else r.1
      ks.foldl (fun s k => s.modWarp k (fun w => w.enterMode false l.code.svec va whole w.evictReason s.gtime)) s

/-- A drained warp: its LD, ST and AT counters are 0 and no lane is PENDING. -/
def State.drained (s : State) (k : Nat) : Bool :=
  let w := s.warp k
  w.evict == .drain && s.count k .ld == 0 && s.count k .st == 0 && s.count k .at == 0 && w.lanesIn pendingData == 0

/-- WARP_DRAIN_DONE (R181, R389): the warp reaches SAVE. A warp alone enters save mode; those of a whole vat enter it
together, once its stream engines stand between two boxes. -/
def execWarpDrainDone (warp : Nat) (s : State) : Out :=
  let s := if (s.warp warp).evict == .requested && (s.warp warp).masks.lmask == 0 then s.modWarp warp Warp.toDrain else s
  if !s.drained warp then .next s
  else
    let vk := (s.warp warp).vat
    let v := s.vat vk
    let before := s
    let s := s.modWarp warp (fun w => { w with evict := .save, modeAt := s.gtime })
    if !v.imageWhole then .next (s.enterSave vk [warp])
    else if before.inBox vk then .next before
    else if (warpKeys vk v).all (fun k => (s.warp k).evict == .save || (s.warp k).evict == .saved) then
      .next (s.enterSave vk ((warpKeys vk v).filter (fun k => (s.warp k).evict == .save && !(s.warp k).trap.smode)))
    else .next s

/-- The core objects a vat owns are freed (spec/06 R158). -/
def Core.freeOwned (c : Core) (vk : Nat) : Core :=
  { c with
    tables := c.tables.mapVals (fun _ t => if t.owner = some vk then default else t),
    chains := c.chains.mapVals (fun _ t => if t.owner = some vk then default else t),
    tintOwner := if c.tintOwner = some vk then none else c.tintOwner,
    tintCurrent := if c.tintOwner = some vk then default else c.tintCurrent,
    tintShadow := if c.tintOwner = some vk then default else c.tintShadow,
    tintLoaded := c.tintLoaded && c.tintOwner != some vk }

/-- What a vat holds on its core is freed: engines, core objects, accumulator store. -/
def State.freeCore (s : State) (vk : Nat) : State :=
  let s := s.freeEngines vk
  (s.modCore (s.vat vk).core (·.freeOwned vk)).allocate (s.vat vk).core

/-- The signature of SAVEW.DONE and of the two forms with an address. -/
def saveSig (f : Nat) (st : BitVec 2) (a : Code) (legal : Bool) : Sig :=
  { slot := slot 0x3E f, stall := st, ok := kPair a, dst := false, uses := [(a, 2)], legal := legal }

/-- SAVEW (R183, R184): the control block is stored at the address, as it stands behind the clause. -/
def execSavew (st : BitVec 2) (a : Code) (s : State) : Out :=
  let g := saveSig 5 st a true
  s.issueRaw g (fun s =>
    let va := s.readPair a 0
    if va.toNat % 2048 != 0 then s.raiseLanes fAlign s.w.clause.enabled 0 va 0
    else if s.countFull .st || s.acquiring then s.stall
    else
      let after := if s.w.saveRestore then s else s.modW (fun w => (w.countIssue st).setModePcs (lanesOf w.clause.issue) (fun _ => w.clause.next))
      let block := after.controlBlock s.cur
      if inWindow va then
        if s.badWindow va 2048 then s.raiseMiss (.fault pageFault 5 va)
        else ((s.modV (fun v => { v with scratch := v.scratch.setFrom (windowOff va) block })).startOp .st .done s.w.clause.enabled va).retire g
      else
        let r := s.writePieces s.w.core s.l.ctx 40 (rangePieces va 2048) []
        match r.2 with
        | .error m => r.1.raiseMiss m
        | .ok ps => (r.1.startOp .st (.store true (layBytes ps block)) s.w.clause.enabled va).retire g)

/-- A warp is SAVED: its slot and registers are free. With the last warp of a whole vat its storage and core objects are
freed; a partial one leaves the stage table on the core (spec/04 R108). An image that is complete on a die which the lot's abort flag has
reached is discarded (R109). -/
def State.warpSaved (s : State) (k : Nat) : State :=
  let vk := (s.warp k).vat
  let s := s.modWarp k (fun w => { w with
    evict := .saved, resident := false, regs := [], trap := { w.trap with smode := false } })
  let v := s.vat vk
  if v.imageWhole && (warpKeys vk v).all (fun k => (s.warp k).evict == .saved) then
    let s := s.modVat vk (fun v => { v with
      place := .saved, scratch := [], tiles := [], hist := [], stage := default, stgslot := [], ringd := [], ringtag := [], ringQuiet := [],
      mcfg := 0,
      absent := [], nbstat := [], slotQueue := [] })
    let s := (warpKeys vk v).foldl (fun s k => s.modWarp k (fun w => { w with claims := [] })) (s.freeCore vk)
    if (s.lot v.lot).abortAtDie (dieOfCore v.core) s.gtime then s.endVat vk else s
  else s

/-- SAVEW.DONE (R184): waits until every counter is 0, and ends save mode. In a vat that is being stopped no save ends (spec/01 R38): the
warp stops there (R395). -/
def execSavewDone (st : BitVec 2) (s : State) : Out :=
  let g : Sig := { slot := slot 0x3E 5, stall := st, legal := s.w.trap.smode }
  s.issueRaw g (fun s =>
    if !(s.opsOf s.cur).isEmpty then s.stall
    else if s.v.stop.isSome then (s.retireAtBoundary g).modW (fun w => { w with stopped := true })
    else (s.retireAtBoundary g).warpSaved s.cur)

/-! ### Restore mode (R184) -/

/-- Fields of a block. -/
def blk (bs : List Byte) (off : Nat) : Word := BitVec.ofNat 32 (word bs off)
def blkLanes (bs : List Byte) (off : Nat) : Map Word := allLanes.foldl (fun m l => m.set l (blk bs (off + 4 * l))) []
def blkEight (bs : List Byte) (off : Nat) : Map Lanes := (List.range 8).foldl (fun m j => m.set j (blk bs (off + 4 * j))) []
def blkLstate (bs : List Byte) (l : Nat) : BitVec 3 := ((bs.getD (0x128 + l / 2) 0) >>> (4 * (l % 2))).setWidth 3
def blkBank (bs : List Byte) (off : Nat) : EventBank :=
  { evrec := blk bs off, evpc := blk bs (off + 4), evt := blk bs (off + 8), evf := blk bs (off + 12), evtk := blk bs (off + 16),
    evm := blk bs (off + 20) }
def blkRecord (bs : List Byte) : FaultRecord :=
  let w (i : Nat) := blk bs (0x380 + 4 * i)
  { code := (w 0).setWidth 8, cause := (w 0).extractLsb' 8 4, rung := (w 0).extractLsb' 12 3, replay := (w 0).getLsbD 15,
    code2 := (w 0).extractLsb' 16 8, dies := (w 0).extractLsb' 24 4, flm := w 1, fpc := w 2, warp := (w 3).setWidth 6,
    hdep := (w 3).extractLsb' 11 2, sgq := (w 3).getLsbD 13, fva := w 5 ++ w 4, vatnum := w 6, info := w 7, gtime := w 9 ++ w 8,
    lottag := w 10, seq := (w 11).setWidth 16 }

/-- The checks of RESTW (R184). The program counters of a block are EVPC of both banks, TRPC, FPC of the record of a trap in progress, and
LPC, HPC1, HPC2 and TLPC of every lane. -/
def blockOk (bs : List Byte) : Bool :=
  let lm := blk bs 0xC
  let masks := [blk bs 8, blk bs 0x10, blk bs 0x14, blk bs 0x18, blk bs 0x1C, blk bs 0x20, blk bs 0xC0]
    ++ (List.range 16).map (fun j => blk bs (0x44 + 4 * j))
  let pcs := [0x88, 0xA0, 0xB4] ++ (if (blk bs 0).getLsbD 18 then [0x388] else []) ++ (List.range 128).map (fun i => 0x178 + 4 * i)
  (blk bs 0).setWidth 8 == (1 : BitVec 8) && (blk bs 0).extractLsb' 14 2 != 3
    && masks.all (fun m => m &&& ~~~ lm == 0) && allLanes.all (fun l => blkLstate bs l ≤ 4)
    && pcs.all (fun o => (blk bs o).setWidth 2 == (0 : BitVec 2))

/-- The register cells a block holds. -/
def blkCells (bs : List Byte) : List (Nat × Word) :=
  (List.range 16).map (fun j => (if j < 4 then cellKn (28 + j) else cellKb (j / 4) (j % 4), blk bs (0xC8 + 4 * j)))
    ++ allLanes.flatMap (fun l => (List.range 8).map (fun i =>
      (if i < 2 then cellPn (6 + i) l else cellPb (i / 2) (i % 2) l, if (bs.getD (0x108 + l) 0).getLsbD i then (1 : Word) else 0)))
    ++ allLanes.flatMap (fun l => (List.range 4).flatMap (fun i =>
      [(cellHv 1 i l, blk bs (0x400 + 16 * l + 4 * i)), (cellHv 2 i l, blk bs (0x600 + 16 * l + 4 * i))]))

/-- The reserved bits of EVREC read as 0 whatever a block holds (spec/00 R7, spec/05 R110). -/
def EventBank.clear (e : EventBank) : EventBank := { e with evrec := e.evrec &&& 0xF3F }

/-- A block is loaded into the warp (R184). -/
def Warp.loadBlock (w : Warp) (bs : List Byte) : Warp :=
  let h := blk bs 0
  { w.flush with
    hdep := h.extractLsb' 14 2, sgact := h.getLsbD 16, wpark := h.getLsbD 17,
    vwb := (blk bs 4).setWidth 8,
    masks := { amask := blk bs 8, lmask := blk bs 0xC, ham1 := blk bs 0x10, ham2 := blk bs 0x14, wset := blk bs 0x18,
               arrl := blk bs 0x1C, sggrp := blk bs 0x20, blmask := blk bs 0x24, jm := blkEight bs 0x44, ja := blkEight bs 0x64 },
    fstat := blk bs 0x2C &&& 0x1F, dcerr := (blk bs 0x2C).getLsbD 8, dhv := blk bs 0x30 &&& dhvFields, sgcfg := blk bs 0x34,
    sgcnt := blk bs 0x38 &&& 0xFFFF, sgrem := (blk bs 0x38).extractLsb' 16 16,
    ev1 := (blkBank bs 0x84).clear, ev2 := (blkBank bs 0x9C).clear,
    trap := { w.trap with
      tmode := h.getLsbD 18, tmsk := h.getLsbD 19, trpc := blk bs 0xB4, trmask := blk bs 0x28, tvmask := blk bs 0xB8,
      frec := if h.getLsbD 18 then { blkRecord bs with origin := w.trap.frec.origin, claim := w.trap.frec.claim, rest := w.trap.frec.rest }
        else default },
    lstate := allLanes.foldl (fun m l => m.set l (blkLstate bs l)) [],
    pkage := allLanes.foldl (fun m l => m.set l (BitVec.ofNat 16 (half bs (0x138 + 2 * l)))) [],
    lpc := blkLanes bs 0x178, hpc1 := blkLanes bs 0x1F8, hpc2 := blkLanes bs 0x278, tlpc := blkLanes bs 0x2F8,
    regs := (w.flush).regs.setAll (blkCells bs) }

/-- The lanes that issue in the warp's mode. -/
def Warp.issuing (w : Warp) : Lanes :=
  match w.bank with
  | 0 => if w.sgact then w.masks.sggrp else w.masks.amask
  | 1 => w.masks.ham1
  | 2 => w.masks.ham2
  | _ => w.trap.issue

/-- The REP that the repeated word at a clause belongs to, with `repc` repeats still to run. -/
def State.repAt (s : State) (k : Nat) (c : Clause) (repc : BitVec 7) : Option Repeat :=
  let w := (s.peek k (c.pc - 4)).2
  if repc == 0 || (w.extractLsb' 21 9).toNat != slot 0x3F 0 then none
  else some { repc := repc, j := (w.extractLsb' 8 6).toNat + 1 - repc.toNat, sd := w.extractLsb' 6 2, sa := w.extractLsb' 4 2, sb := w.extractLsb' 2 2 }

/-- A restored warp stands where its block says: in its trap handler, at a boundary, or inside a clause under CEN. What the
block does not hold of a trap or a replay is found again where the block still names the same instruction. -/
def State.standAgain (s : State) (k : Nat) (bs : List Byte) : State :=
  let w := s.warp k
  let cen := blk bs 0xC0
  let t := w.trap
  let live := w.masks.lmask
  let known := t.clause.pc == t.trpc
  let t := { t with
    issue := if t.frec.rung == 0 then t.trmask else live, offeredAt := s.gtime, rmode := false,
    clause := if known then t.clause else s.locate k t.trpc t.trmask t.trmask,
    resume := if known then t.resume else .after }
  let w := { w with trap := t, phase := .boundary, hold := .free }
  if cen == 0 then s.setWarp k w
  else
    let pc := w.modePc ((lowest cen).getD 0)
    let back := match w.outside with | some o => if pc == t.trpc then o.replay else none | none => none
    let set := if back.isSome then cen else maskWhere (fun l => inMask w.issuing l && w.modePc l == pc)
    let c := s.locate k pc set cen
    -- the lanes that a stalled SPAWN had accepted are not offered again (spec/04 R102)
    let accepted := match w.outside with | some o => if o.mid && pc == o.clause.pc then o.spawnDone else 0 | none => 0
    s.setWarp k { w with phase := .word, replay := back, spawnDone := accepted, clause := { c with rep := s.repAt k c ((blk bs 4).extractLsb' 8 7) } }

/-- The faults of a warp that waited for the vat rung are offered, unless it is still taken (R187). -/
def State.offerOwn (s : State) (k : Nat) : State :=
  let vk := (s.warp k).vat
  let v := s.vat vk
  if v.trapWarp.isSome then s
  else (s.setVat vk { v with deferred := v.deferred.filter (fun d => d.warp != k) }).offerDeferred (v.deferred.filter (fun d => d.warp == k))

/-- A restored warp runs on: its waits and the timeout of a rung that it holds begin anew (R182, spec/21 R392, R393), lanes that became READY
while it was away are reported (spec/05 R128, R136), and a fault that swapped the vat out, or that was answered while the warp was away, is
replayed (R175). -/
def State.resumeWarp (s : State) (k : Nat) : State :=
  let s := s.modWarp k (fun w =>
    let made := w.away &&& w.lanesIn waitBar
    let w := { ({ w with evict := .running, outside := none, away := 0, trap := { w.trap with offeredAt := s.gtime } } : Warp).wake made true with
      evictWhole := false }
    w.restartWait s.gtime)
  let s := if (s.warp k).serviceWait then s else s.replaySwapped k
  s.offerOwn k

/-- RESTW has completed in a warp: it runs on alone, or, in a whole vat, together with the others. -/
def State.warpRestored (s : State) (k : Nat) : State :=
  let vk := (s.warp k).vat
  let v := s.vat vk
  let ks := warpKeys vk v
  if !v.imageWhole then
    let s := s.resumeWarp k
    if ks.any (fun k => (s.warp k).evict != .running) then s else s.freeImage vk
  else if ks.all (fun k => (s.warp k).evict == .restore && !(s.warp k).trap.rmode) then
    let holder := ks.find? (fun k => (s.warp k).trap.tmode && (s.warp k).trap.frec.rung == 1)
    let s := s.modVat vk (fun v => { v with trapWarp := holder, imageWhole := false, resumed := false })
    let s := ks.foldl (fun s k => s.modWarp k (fun w => { w with vatTrapStop := holder.isSome && holder != some k })) s
    (ks.foldl (fun s k => s.resumeWarp k) s).freeImage vk
  else s

/-- RESTW. Counted operations of the warp are counted no longer. -/
def execRestw (st : BitVec 2) (a : Code) (s : State) : Out :=
  let g := saveSig 6 st a s.w.trap.rmode
  s.issueRaw g (fun s =>
    let va := s.readPair a 0
    if va.toNat % 2048 != 0 then s.raiseLanes fAlign s.w.clause.enabled 0 va 0
    else if s.imageWaits va 2048 then s.stall
    else if s.rangeAbsent va 2048 then s.park .presence
    else
      let r := s.readImage va 2048
      match r.2 with
      | .error m => r.1.raiseMiss m
      | .ok bs =>
        if !blockOk bs then r.1.raiseHere fIllegalOperand 0
        else
          let s := (r.1.retireAtBoundary g).modW (fun w => w.loadBlock bs)
          let s := { s with ops := s.ops.mapVals (fun _ e => e.map (fun (o : Op) => if o.warp = s.cur then { o with reported := true } else o)) }
          (s.standAgain s.cur bs).warpRestored s.cur)

/-- The warp is in the state SAVE, in save mode or waiting for its vat's other warps, or in restore mode (R181 Table 4). -/
def Warp.saving (w : Warp) : Bool := w.evict == .save || (w.evict == .restore && w.trap.rmode)

/-- SAVE_RESTORE_TIMEOUT (R181): 2 ms in the state SAVE or RESTORE: SERVICE_TIMEOUT at the context rung, terminal. -/
def execSaveRestoreTimeout (warp : Nat) (s : State) : Out :=
  let w := s.warp warp
  let v := s.vat w.vat
  if w.saving && !w.faultWait && v.stop.isNone && decide (w.modeAt + 2000000 ≤ s.gtime) then
    let cause := ((warpKeys w.vat v).findSome? (fun k => (s.warp k).swapFault)).getD default
    let fr := { s.record warp { code := fServiceTimeout, flm := 0, fpc := w.clause.hdr, info := cause.code.setWidth 32 } with rung := 2 }
    .next ((s.noteFirst v.lot fr).faultWarp warp fr .boundary)
  else .next s

/-! ### Restore placement (R180, R185) -/

/-- A restored warp's registers are allotted, zeroed (R181 Table 4), and it enters restore mode. -/
def State.enterRestore (s : State) (k core slot placed : Nat) : State :=
  let vk := (s.warp k).vat
  let v := s.vat vk
  s.modWarp k (fun w =>
    ({ w with
      core := core, slot := slot, placed := placed, resident := true, evict := .restore, regs := [], pending := [], rowp := 0, lkstat := 0,
      poisoned := [] } : Warp).enterMode true (s.lot v.lot).code.rvec (s.imageVa vk) v.imageWhole w.evictReason s.gtime)

/-- The first failure of the checks on an image header (R185): its INFO. -/
def State.headerBad (s : State) (h : List Byte) : Option Nat :=
  let v := word h 4
  let live := bytesToNat ((h.drop 8).take 16)
  if v % 256 != 4 || s.hub.isaMin.toNat < v / 256 % 256 || (v / 2 ^ 24 % 2 == 1 && v / 2 ^ 16 % 256 != Config.stepping.toNat) then some 0x100
  else (List.range 128).find? (fun i => live / 2 ^ i % 2 == 1 && !s.hub.featacc.getLsbD i)

/-- The image header is read, a use of the dies its read reaches (spec/01 R33 Table 8), and checked; or the read fails (R177). -/
def State.headerFault (s : State) (vk : Nat) : State × Except Miss (Option Nat) :=
  let r := s.agentRead (s.lot (s.vat vk).lot).ctx hubDie (s.imageVa vk) 256 210
  (r.1, match r.2 with | .ok h => .ok (s.headerBad h) | .error m => .error m)

end Sys2Proof.Machine
end

