-- ==== Sys2Proof/Machine/Run.lean ====
section
/-! DEFINITION. How instructions come to run: the fetch and decoding of the word in turn with its REP steps (spec/11 R262,
R264), which warps may issue, the turn that follows when the agenda is empty. -/

namespace Sys2Proof.Machine

/-! ### The word in turn -/

/-- The word with its operand codes stepped for a repeat (R262): only D steps in an I-format word. -/
def stepWord (r : Repeat) (w : Word) : Word :=
  let add (f : Nat) (k : BitVec 2) (w : Word) : Word :=
    let old := w.extractLsb' f 7
    let new := old + BitVec.ofNat 7 (r.j * k.toNat)
    (w &&& ~~~((0x7F : Word) <<< f)) ||| (new.setWidth 32 <<< f)
  let k := (w.extractLsb' 21 9).toNat
  let w := add 14 r.sd w
  if k == slot 4 0 || k == slot 4 2 || k == slot 0x21 1 then w else add 0 r.sb (add 7 r.sa w)

/-- What the word in turn is: an instruction, a word the decoder rejects, or a fetch that failed. -/
inductive Fetched where
  | instr (i : Instr)
  | reject (r : Reject) (w x : Word)
  | miss (x : Xlat)

/-- Fetches and decodes the word in turn of the warp in turn. -/
def State.fetchInstr (s : State) : State × Fetched :=
  let c := s.w.clause
  let f := s.fetch s.cur c.pc c.hdr
  match f.2.1 with
  | .ok _ _ _ =>
    let w := match c.rep with | some r => stepWord r f.2.2 | none => f.2.2
    let x := if slotLong (w.extractLsb' 21 9).toNat then f.1.fetch s.cur (c.pc + 4) c.hdr else (f.1, .ok 0 0 0, 0)
    match decodeWord w x.2.2 with
    | .ok i => (x.1, .instr i.1)
    | .error r => (x.1, .reject r w x.2.2)
  | r => (f.1, .miss r)

/-- The stall count of a word. -/
def wordStall (w : Word) : BitVec 2 := w.extractLsb' 30 2

/-- Instructions that a mode or the lot does not allow are ILLEGAL_OPCODE before their operands are looked at (R167); of a load, its
extension word says whether it is LD.SPLIT (spec/14 R328), of SAVEW its B whether it is SAVEW.DONE (spec/07 R183). -/
def State.slotLegal (s : State) (k : Nat) (w x : Word) : Bool :=
  if k == slot 0x3E 3 then s.w.trap.tmode
  else if k == slot 0x3E 5 then fB w != 1 || s.w.trap.smode
  else if k == slot 0x3E 6 then s.w.trap.rmode
  else if k == slot 0x37 4 then s.l.record.flags.getLsbD 2
  else if k == slot 0x34 0 then (xaOf x).spl == 0 || s.w.bank == 0 || s.w.bank == 3
  else true

/-- Instructions that need a role beyond that of their row: TDONE is a task's (spec/14 R342), SLTAKE and SLGIVE need the ring's (spec/06
R144). -/
def State.slotTask (s : State) (k : Nat) (w : Word) : Bool :=
  if k == slot 0x37 1 then s.lanes.all (fun l => (s.w.tasks.get l).isSome)
  else if k == slot 0x36 6 || k == slot 0x36 7 then ringRole s.w.mat (fA w) (rdKind (s.v.ringd.get ((fA w).toNat % 8)))
  else true

/-- A word that does not decode (R255, R264): the faults of R167 in their order, with ILLEGAL_OPCODE for an unassigned slot, else
ILLEGAL_OPERAND for the operand. With no lane enabled it issues with its stall count and has no effect (R252). -/
def State.rejectWord (s : State) (r : Reject) (w x : Word) : Out :=
  let k := (w.extractLsb' 21 9).toNat
  match r with
  | .operand _ _ => s.issue { slot := k, stall := wordStall w, ok := false, legal := s.slotLegal k w x, roleOk := s.slotTask k w } id
  | _ =>
    if !slotAssigned k && s.hub.microcode.getLsbD k then .refused (.microcode k)
    else s.issue { slot := k, stall := wordStall w, legal := false } id

/-- A fetch of an instruction word that fails: the fault is raised for the issue set, and the word is fetched again after
service. -/
def State.fetchMiss (s : State) (x : Xlat) : Out :=
  let pc := s.w.clause.pc
  match x with
  | .fault c cause => .next (s.raise s.cur { code := c, flm := s.w.clause.issue, fpc := pc, fva := s.codeVa s.cur pc, cause := cause }
      (if c == fEcc then .after else .again))
  | .lost d => .next (s.raise s.cur { code := fDieLost, flm := s.w.clause.issue, fpc := pc, fva := s.codeVa s.cur pc, dies := dieBit d } .again)
  | .held => .next s.stall
  | .ok _ _ _ => .next s

/-- A lot starts at its first vat's first issue (spec/03 R67). -/
def State.markStart (s : State) : State :=
  if s.l.tstart = 0 then s.modLot s.v.lot (fun l => { l with tstart := s.gtime }) else s

/-! ### Turns -/

/-- A warp that may issue: in save and restore mode all lanes do, whatever LMASK holds (spec/07 R183), and whatever answer it waits for
(R181); between the states of an eviction it issues nothing. -/
def Warp.canTurn (w : Warp) : Bool :=
  w.resident && !w.stopped && !w.faultWait && (!w.serviceWait || w.saveRestore)
    && match w.evict with
      | .running | .requested =>
        w.masks.lmask != 0 && !(w.wpark && w.phase == .boundary && !w.sgact && w.evict != .requested && !w.trap.tmode && w.async.isEmpty)
      | .save | .restore => w.saveRestore
      | _ => false

/-- A safe point before a word or a header (spec/07 R397, R395): the warp is parked, stands between two repeats, has not issued its clause, or
stands stopped at its faulting instruction (R187). -/
def Warp.safePoint (w : Warp) : Bool :=
  !w.saveRestore && match w.phase with
    | .boundary => true
    | .header => true
    | .word => w.vatTrapStop || (match w.hold with | .parked _ => true | _ => false) || (match w.clause.rep with | some r => 1 ≤ r.j | none => false)

/-- Whether another warp of the vat holds the vat trap, or this warp holds it and another has not stopped yet (R171). -/
def State.vatTrapHolds (s : State) (k : Nat) : Bool :=
  let w := s.warp k
  match (s.vat w.vat).trapWarp with
  | none => false
  | some j =>
    if w.drains || w.saveRestore then false
    else if j = k then
      w.trap.tmode && w.trap.frec.rung == 1 && (warpKeys w.vat (s.vat w.vat)).any (fun i =>
        i != k && (let x := s.warp i
          x.canTurn && !x.vatTrapStop && x.phase != .boundary && (match x.hold with | .parked _ => false | _ => true)))
    else w.phase == .boundary || w.vatTrapStop || (match w.hold with | .parked _ => true | _ => false)

/-- The GTIME until which a warp sleeps under SLEEP, where nothing ends the sleep before (spec/13 R307, spec/07 R395, R397). -/
def State.sleepsUntil (s : State) (w : Warp) : Option Nat :=
  match w.hold with
  | .parked (.sleep t) => if s.gtime < t && !w.drains && (s.vat w.vat).stop.isNone && w.async.isEmpty then some t else none
  | _ => none
def State.asleep (s : State) (w : Warp) : Bool := (s.sleepsUntil w).isSome

/-- A warp's sub-partition of its core, and the issue slots of it that the warp has waited (spec/04 R88). -/
def Warp.sub (w : Warp) : Nat := w.slot / 16
def State.waited (s : State) (w : Warp) : Nat := (s.core w.core).slots.get w.sub - w.since

/-- The warp in turn may issue now: nothing stops it, and it does not sleep. -/
def State.mayIssue (s : State) : Bool := s.w.canTurn && !s.vatTrapHolds s.cur && !s.asleep s.w

/-- The warp in turn is served; a word that it issues uses an issue slot of its sub-partition (spec/11 R251), and its wait is over. A
word that was held takes no further slot when it is tried again. -/
def State.takeSlot (s : State) : State :=
  let q := s.w.sub
  let issues := s.mayIssue && s.w.phase == .word
  let n := (s.core s.w.core).slots.get q + (if issues && s.w.hold == .free then 1 else 0)
  (s.modCore s.w.core (fun c => { c with slots := c.slots.set q n, served := c.served.set q s.fresh })).modW
    (fun w => if issues then { w with since := n } else w)

/-- Of two ready warps of a sub-partition the one that issues (R88): one that has waited 512 slots or more, the longest wait first,
then the lower slot; else the older. -/
def State.issuesBefore (s : State) (a b : Warp) : Bool :=
  if 512 ≤ s.waited a || 512 ≤ s.waited b then s.waited b < s.waited a || (s.waited a == s.waited b && a.slot ≤ b.slot)
  else a.placed ≤ b.placed

/-- Of two warps the one whose turn comes first: that of the sub-partition served longer ago, in one sub-partition as `first` says. The
order among sub-partitions, which issue side by side, is the model's own (DESIGN CHOICE, log 1). -/
def State.turnsBefore (s : State) (first : Warp → Warp → Bool) (a b : Warp) : Bool :=
  if a.core == b.core && a.sub == b.sub then first a b
  else
    let x := (s.core a.core).served.get a.sub
    let y := (s.core b.core).served.get b.sub
    x < y || (x == y && 4 * a.core + a.sub < 4 * b.core + b.sub)

/-- The first warp in an order of those that satisfy a test. -/
def State.firstWarp (s : State) (p : Nat → Warp → Bool) (first : Warp → Warp → Bool) : Option Nat :=
  s.warps.foldl (fun r e =>
    if p e.1 e.2 then match r with
      | some k => if s.turnsBefore first (s.warp k) e.2 then r else some e.1
      | none => some e.1
    else r) none

/-- An idle Lake engine can take the first entry of its queue (spec/08 R212, R214, spec/03 R78): one that comes from another die has not
reached a SILENT one, nor left it (spec/01 R31). -/
def State.lakeStarts (s : State) (eng : Nat) (e : LakeEngine) : Bool :=
  let d := s.die (eng / 96)
  match e.queue with
  | x :: _ => e.run.isNone && d.state != .lost && !s.pathHeld (s.dieOf x.warp) (some (eng / 96))
      && x.after.all (fun n => match s.op n with | some o => o.complete | none => true)
      && (match x.job with | .command _ _ => !d.lakeHeld | .program _ _ => true)
  | [] => false

/-- The rows of spec/opcode_table.json without an encoding, which may stand in the agenda. The clause events belong to
the warp in turn and happen in its own turn. -/
def isEvent (i : Instr) : Bool :=
  match encode i with
  | [] => match i with
    | .clauseIssue => false
    | .clauseBoundary => false
    | _ => true
  | _ => false

/-- The host writes its own memory (spec/08 R188): system memory has one copy. -/
def State.hostStore (s : State) (pa : Nat) (bs : List Byte) : State :=
  if 8 ≤ region pa then s.hubWrite (wbytes pa 0 bs) else s

/-- The host accepts a range of its memory (spec/02 R41). -/
def State.hostAccept (s : State) (pa size : Nat) : State :=
  s.modHub (fun h => { h with hostRanges := h.hostRanges ++ [(pa % 2 ^ 51, size)] })

end Sys2Proof.Machine
end

