-- ==== Sys2Proof/Machine/Lake.lean ====
section
/-! DEFINITION. Lake engines: BKPROG, BKLAUNCH and BKFENCE (spec/14 R344–R347), the arrival order (spec/08 R212–R214), the
start, the words and the end of a command (spec/16). -/

namespace Sys2Proof.Machine

/-! ### The warp's instructions -/

/-- The engine a k value names (R344): its key, if its fields are legal. -/
def State.lakeEngine (s : State) (x : Word) : Option Nat :=
  let c := (x.extractLsb' 0 7).toNat
  let d := (x.extractLsb' 8 2).toNat
  if c < 96 && x.extractLsb' 7 1 == 0 && x >>> 10 == 0 && (s.part s.c.part).ldt.contains d then some (96 * d + c) else none

/-- The Lake operations a BKFENCE of the warp in turn orders before its later ones. -/
def State.lakeAfter (s : State) : List Nat := s.w.bkfence.filter (fun n => match s.op n with | some o => !o.complete | none => false)

/-- The warp's earlier stores and atomics that a BKLAUNCH's command must find performed, since BKLAUNCH is a release at die scope toward it
(spec/08 R213): stores that no other warp of the die sees yet, and atomics of no wider scope. -/
def State.lakeBehind (s : State) : List Nat :=
  (s.opsOf s.cur).filterMap (fun e => match e.2.work with
    | .store _ _ => if e.2.performed || e.2.complete || !e.2.work.pendingBytes.any (fun b => !e.2.visibleTo none e.2.die b.key) then none else some e.1
    | .atomic _ _ => if e.2.complete || 2 < e.2.scope.toNat then none else some e.1
    | _ => none)

/-- The warp's loads have read, those of pending lanes too. -/
def State.loadsRead (s : State) : State :=
  { s with ops := s.ops.mapVals (fun _ e => e.map (fun o => if o.warp = s.cur then { o with late := o.late && o.cls == .mx } else o)) }

/-- The end of the issue of BKPROG and BKLAUNCH, once the image or record is read: the work joins the engine's order. -/
def State.lakeEnqueue (s : State) (g : Sig) (eng : Nat) (va : BitVec 64) (job : LakeJob) : State :=
  let command := match job with | .command _ _ => true | .program _ _ => false
  let n := s.nextOp
  let after := s.lakeAfter ++ (if command then s.lakeBehind else [])
  let s := (if command then s.loadsRead else s).startOp .bk (.lake eng command) s.w.clause.enabled va
  ((s.touch s.l.ctx (dieBit (eng / 96))).modEng eng (fun e => { e with
    queue := e.queue ++ [{ job := job, op := n, warp := s.cur, ctx := s.l.ctx, after := after }] })).retire g

/-- The checks that BKPROG and BKLAUNCH share (R344): the address, the engine's die, the read. -/
def State.lakeIssue (s : State) (g : Sig) (eng : Nat) (va : BitVec 64) (align n : Nat) (job : List Byte → LakeJob) : State :=
  if va.toNat % align != 0 then s.raiseOnce fAlign 0 va
  else if s.dieGone (eng / 96) then (s.touch s.l.ctx (dieBit (eng / 96))).raiseMiss (.lost (eng / 96) 0)
  else if s.badWindow va n then s.raiseMiss (.fault pageFault 5 va)
  else if s.countFull .bk || s.imageWaits va n then s.stall
  else if s.rangeAbsent va n then s.park .presence
  else
    let r := s.readImage va n
    match r.2 with
    | .error m => r.1.raiseMiss m
    | .ok bs => r.1.lakeEnqueue g eng va (job bs)

/-- BKPROG (R345). -/
def execBkprog (st : BitVec 2) (a b c : Code) (s : State) : Out :=
  let g : Sig := { slot := slot 0x38 0, stall := st, ok := kPair a && isK b && isK c, dst := false, uses := [(a, 2), (b, 1), (c, 1)] }
  s.issueRaw g (fun s =>
    let x := s.readK c
    let n := (x.extractLsb' 0 11).toNat
    let first := (x.extractLsb' 16 10).toNat
    let bad := n == 0 || 1024 < first + n || x &&& 0xFC00F800 != 0
    match (if bad then none else s.lakeEngine (s.readK b)) with
    | none => s.raiseHere fIllegalOperand 0
    | some e => s.lakeIssue g e (s.readPair a 0) 4 (4 * n)
        (fun bs => .program first ((List.range n).map (fun i => BitVec.ofNat 32 (word bs (4 * i))))))

/-- BKLAUNCH (R346). -/
def execBklaunch (st : BitVec 2) (a b : Code) (fs : BitVec 3) (s : State) : Out :=
  let g : Sig := { slot := slot 0x38 1, stall := st, ok := kPair a && isK b, dst := false, uses := [(a, 2), (b, 1)] }
  s.issueRaw g (fun s =>
    match s.lakeEngine (s.readK b) with
    | none => s.raiseHere fIllegalOperand 0
    | some e => s.lakeIssue g e (s.readPair a 0) 64 64 (fun bs => .command bs (s.l.record.fslot.get fs.toNat)))

/-- The outstanding Lake commands of the warp in turn. -/
def State.lakeCommands (s : State) : List Nat :=
  (s.opsOf s.cur).filterMap (fun e => match e.2.work with | .lake _ true => if e.2.complete then none else some e.1 | _ => none)

/-- BKFENCE (R347). -/
def execBkfence (st : BitVec 2) (s : State) : Out :=
  s.issue { slot := slot 0x38 2, stall := st } (fun s =>
    let ns := s.lakeAfter ++ s.lakeCommands.filter (fun n => !s.lakeAfter.contains n)
    s.modW (fun w => { w with bkfence := ns }))

/-! ### The command record (R365) -/

structure LakeRec where
  entry : BitVec 10
  nrow : Nat
  rlen : Nat
  rowva : BitVec 64
  rstr : Nat
  inlen : Nat
  inva : BitVec 64
  outva : BitVec 64
  olen : Nat
  scale : Word
  exoff : Nat
  reserved : Bool
  deriving DecidableEq, Repr, Inhabited

def lakeRec (bs : List Byte) : LakeRec :=
  let w (o : Nat) := word bs o
  let d (o : Nat) : BitVec 64 := BitVec.ofNat 64 (bytesToNat ((bs.drop o).take 8))
  { entry := BitVec.ofNat 10 (w 0), nrow := w 0 / 2 ^ 16, rlen := w 4 % 2 ^ 17, rowva := d 8, rstr := w 0x10, inlen := w 0x14,
    inva := d 0x18, outva := d 0x20, olen := w 0x28, scale := BitVec.ofNat 32 (w 0x2C), exoff := w 0x30 % 2 ^ 16,
    reserved := w 0 / 2 ^ 10 % 64 != 0 || w 4 / 2 ^ 17 != 0 || w 0x30 / 2 ^ 16 != 0 || (bs.drop 0x34).any (· != 0) }

/-- RecordInvalid. -/
def LakeRec.invalid (r : LakeRec) (slot : Word) : Bool :=
  r.reserved || r.nrow == 0 || r.rlen == 0 || 65536 < r.rlen || r.rowva.toNat % 16 != 0 || r.inva.toNat % 16 != 0 || r.rstr % 16 != 0
    || r.outva.toNat % 64 != 0 || r.olen % 64 != 0 || 65536 < r.inlen
    || (slScl slot == 2 && decide (r.rlen < r.exoff + (r.exoff * 8 + 128 * slWidth slot - 1) / (128 * slWidth slot)))

/-- The ranges in the order rows, input, output, with whether they are written. -/
def LakeRec.ranges (r : LakeRec) : List (BitVec 64 × Nat × Bool) :=
  (List.range r.nrow).map (fun i => (r.rowva + BitVec.ofNat 64 (i * r.rstr), r.rlen, false)) ++ [(r.inva, r.inlen, false), (r.outva, r.olen, true)]

/-- The first addresses of a range in each of its 256-byte blocks. -/
def rangeBlocks (va : BitVec 64) (n : Nat) : List (BitVec 64) :=
  if n = 0 then []
  else (List.range ((va.toNat % 256 + n + 255) / 256)).map (fun i => if i = 0 then va else va - BitVec.ofNat 64 (va.toNat % 256) + BitVec.ofNat 64 (256 * i))

/-! ### The start of a command (R366) -/

/-- What a start has found so far: the blocks, or the status and address that end it, or that a walk waits for a SILENT die. -/
structure LakeStart where
  s : State
  blocks : Map (Option (Nat × BitVec 10))
  fail : Option (BitVec 8 × BitVec 64)
  held : Bool := false

/-- One block is translated by the engine's die and its home checked; the walk alone is a use of other dies (spec/01 R33 Table 8). -/
def LakeStart.block (x : LakeStart) (eng ctx : Nat) (write : Bool) (va : BitVec 64) : LakeStart :=
  match x.fail with
  | some _ => x
  | none =>
    let w := x.s.translate (agentPlace (eng / 96)) ctx va (if write then .write else .read) 300
    let s := x.s.noteWalk (agentPlace (eng / 96)) ctx { w with home := 0 }
    match w.res with
    | .ok pa slot _ =>
      let p := (s.ctx ctx).part
      let key := s.memKey p pa
      if s.homeOf p pa != some (eng / 96) || s.channelOf pa != eng % 96 then { x with s := s, fail := some (3, va) }
      else { x with s := s, blocks := x.blocks.set (va.toNat / 256) (some (key - va.toNat % 256, slot)) }
    | .held => { x with s := s, held := true, fail := some (2, va) }
    | _ => { x with s := s, fail := some (2, va) }

/-- Every block of the ranges. -/
def State.lakeBlocks (s : State) (eng ctx : Nat) (r : LakeRec) : LakeStart :=
  r.ranges.foldl (fun x e => (rangeBlocks e.1 e.2.1).foldl (fun x va => x.block eng ctx e.2.2 va) x) { s := s, blocks := [], fail := none }

/-- The memory key and slot of a byte of the ranges. -/
def LakeCommand.place (c : LakeCommand) (va : Nat) : Nat × BitVec 10 :=
  let b := (c.blocks.get (va / 256)).getD (0, 0)
  (b.1 + va % 256, b.2)

/-- The command agent reads as its warp where that is on the engine's die (spec/08 R213). -/
def State.lakeReader (s : State) (eng warp : Nat) : Option Nat := if s.dieOf warp = eng / 96 then some warp else none

/-- The bytes of the row and input ranges as a command finds them at its start. -/
def State.lakeBefore (s : State) (eng warp : Nat) (c : LakeCommand) (r : LakeRec) : Map Byte :=
  (r.ranges.filter (fun e => !e.2.2)).foldl (fun m e =>
    (List.range e.2.1).foldl (fun m i =>
      let va := (e.1 + BitVec.ofNat 64 i).toNat
      let p := c.place va
      m.set va (s.readByte (s.lakeReader eng warp) (eng / 96) p.1 p.2)) m) []

/-- A key of each 128-byte line of the output range. -/
def LakeCommand.outKeys (c : LakeCommand) (r : LakeRec) : List Nat :=
  (rangeBlocks r.outva r.olen).flatMap (fun va => let k := (c.place va.toNat).1 / 256 * 256; [k, k + 128])

/-- Remote copies of the output range go (R366, spec/02 R55). Bytes of the range that the home L2 held and no OUTW writes are kept (DESIGN
CHOICE, log 90: the spec does not say whether the home L2 writes them back as it invalidates the range). -/
def State.lakeInvalidate (s : State) (c : LakeCommand) (r : LakeRec) : State :=
  (rangeBlocks r.outva r.olen).foldl (fun s va =>
    let key := (c.place va.toNat).1
    [0, 1].foldl (fun s j => [0, 1, 2, 3].foldl (fun s d => s.dropCopy d (lineOf key / 2 * 2 + j)) s) s) s

/-- The state of Table 1. -/
def LakeCommand.fresh (entry : BitVec 10) (now : Nat) (blocks : Map (Option (Nat × BitVec 10))) : LakeCommand :=
  { (default : LakeCommand) with pc := entry.setWidth 11, startedAt := now, ib := List.replicate 4096 0, blocks := blocks }

/-- The entry that an idle engine takes. -/
def State.lakeHead (s : State) (eng : Nat) : Option LakeEntry :=
  if s.lakeStarts eng (s.eng eng) then (s.eng eng).queue.head? else none

/-- LAKE_COMMAND_START. -/
def execLakeCommandStart (eng : Nat) (s : State) : Out :=
  match s.lakeHead eng with
  | none => .next s
  | some x => match x.job with
    | .program _ _ => .next s
    | .command bs slot =>
        let r := lakeRec bs
        let ends (s : State) (code : BitVec 8) (va : BitVec 64) : Out :=
          .next (s.modEng eng (fun e => { e with
            run := some { LakeCommand.fresh r.entry s.gtime [] with status := some code, statusPc := r.entry, fva := va } }))
        if r.invalid slot then ends s 1 0
        else
          let b := s.lakeBlocks eng x.ctx r
          match b.fail with
          | some (code, va) => if b.held then .next b.s else ends b.s code va
          | none =>
            let c := LakeCommand.fresh r.entry s.gtime b.blocks
            let c := { c with before := b.s.lakeBefore eng x.warp c r }
            if b.s.ackSilent (eng / 96) (c.outKeys r) then .next b.s
            else .next ((b.s.lakeInvalidate c r).modEng eng (fun e => { e with run := some c }))

/-! ### The end (R369, R370) -/

/-- The status word. -/
def lakeStatus (eng : Nat) (code : BitVec 8) (pc : BitVec 10) : Word :=
  code.setWidth 32 ||| pc.setWidth 32 <<< 8 ||| BitVec.ofNat 32 (eng % 96 * 2 ^ 20 + eng / 96 * 2 ^ 27)

/-- A Lake operation of a warp is complete. Counts are reported in issue order, and each reported failure is raised. -/
def State.finishLake (s : State) (n : Nat) (f : Op → Op) : State :=
  match s.op n with
  | none => s
  | some o =>
    let s := s.setOp n { f o with complete := true, performed := true }
    let due := reportPrefix ((s.opsOf o.warp).filter (fun e => decide (e.2.cls = .bk)))
    let faults := due.filterMap (fun k => match s.op k with
      | some o => match o.work with | .lakeEnded st va => some (o, st, va) | _ => none
      | none => none)
    faults.foldl (fun s e =>
      let code := e.2.1.setWidth 8
      if code == (0 : BitVec 8) || code == (0x0B : BitVec 8) then s
      else s.asyncFault e.1.warp { code := if code == (9 : BitVec 8) then fEcc else fLakeFault, flm := e.1.low, fpc := e.1.fpc, info := e.2.1, fva := e.2.2 })
      (s.report o.warp .bk)

/-- An engine drops its first entry. -/
def State.lakePop (s : State) (eng : Nat) : State := s.modEng eng (fun e => { e with queue := e.queue.drop 1, run := none })

/-- A write of some bytes by an engine, or its report to a warp, waits for a SILENT die (spec/01 R31). -/
def State.lakeHeldFor (s : State) (eng : Nat) (bs : List WByte) (warp : Nat) : Bool :=
  s.ackSilent (eng / 96) (bs.map (·.key)) || s.pathHeld (eng / 96) (some (s.dieOf warp))

/-- LAKE_COMMAND_END. -/
def execLakeCommandEnd (eng : Nat) (s : State) : Out :=
  match (s.eng eng).run, (s.eng eng).queue with
  | some c, x :: _ => match c.status with
    | none => .next s
    | some code =>
      if s.lakeHeldFor eng c.outputs x.warp then .next s
      else
      let s := s.performG c.outputs
      let st := lakeStatus eng code c.statusPc
      let aborted := code == (0x0B : BitVec 8)
      let s := s.modWarp x.warp (fun w => { w with
        lkstat := if code == 0 || aborted then w.lkstat else st,
        fstat := if aborted then w.fstat else w.fstat ||| c.efl.setWidth 32 })
      .next ((s.lakePop eng).finishLake x.op (fun o => { o with work := .lakeEnded st c.fva }))
  | _, _ => .next s

/-- LAKE_PROGRAM_LOAD (R345): each word is tagged with the context. -/
def execLakeProgramLoad (eng : Nat) (s : State) : Out :=
  match s.lakeHead eng with
  | none => .next s
  | some x => match x.job with
    | .command _ _ => .next s
    | .program first ws =>
      let s := s.modEng eng (fun e => { e with program := e.program.setFrom first (ws.map (fun w => some (x.ctx, w))) })
      .next ((s.lakePop eng).finishLake x.op id)

/-- A context's Lake work is discarded (spec/03 R72, R373): a command that has started stops at its next word; one that has
not, and a program load, ends at once. -/
def State.lakeDiscard (s : State) (eng ctx : Nat) : State :=
  let e := s.eng eng
  let s := match e.run, e.queue with
    | some c, x :: _ =>
      if x.ctx = ctx ∧ c.status.isNone then s.modEng eng (fun e => { e with run := some { c with status := some 0x0B, statusPc := c.pc.setWidth 10 } })
      else s
    | _, _ => s
  let waiting := if e.run.isSome then e.queue.drop 1 else e.queue
  let gone := waiting.filter (fun x => x.ctx == ctx)
  let s := s.modEng eng (fun e => { e with queue := e.queue.filter (fun x => !(gone.map (·.op)).contains x.op) })
  gone.foldl (fun s x =>
    let pc : BitVec 10 := match x.job with | .command bs _ => (lakeRec bs).entry | .program _ _ => 0
    s.finishLake x.op (fun o => { o with work := .lakeEnded (lakeStatus eng 0x0B pc) 0 })) s

/-! ### The words (R367) -/

/-- How a word ends: the command goes on, or ends with a status and an address. -/
abbrev LakeResult := Except (BitVec 8 × BitVec 64) (State × LakeCommand)

def lakeRange : LakeResult := .error (5, 0)
def lakeFormat : LakeResult := .error (6, 0)

/-- A word of the running command of the engine in turn: `f` gives its effect on a command whose PC already names the next
word. -/
def State.lakeWord (s : State) (f : State → LakeCommand → LakeRec → Word → LakeResult) : Out :=
  match (s.eng s.curEng).run, (s.eng s.curEng).queue with
  | some c, x :: _ => match x.job, c.status with
    | .command bs slot, none =>
      match f s { c with pc := c.pc + 1 } (lakeRec bs) slot with
      | .ok r => .next (r.1.modEng s.curEng (fun e => { e with run := some r.2 }))
      | .error e => .next (s.modEng s.curEng (fun g => { g with
          run := some { c with status := some e.1, statusPc := c.pc.setWidth 10, fva := e.2 } }))
    | _, _ => .next s
  | _, _ => .next s

/-- The warp of the command in turn. -/
def State.lakeWarp (s : State) : Nat := match (s.eng s.curEng).queue with | x :: _ => x.warp | [] => 0

/-- A byte as the command reads it (R371): what it held at the start, or what is there now, or an OUTW of the command not yet performed,
decided for each 8-byte part. A byte of the blocks in no row or input range (`inside`) is as it is now; one of no block has a free value. -/
def State.lakeByte (s : State) (c : LakeCommand) (va : Nat) (inside : Bool) : Byte :=
  if (c.blocks.get (va / 256)).isNone then Config.freeByte s.fresh va
  else
    let p := c.place va
    let own := c.outputs.foldl (fun r b => if b.key = p.1 then some b.val else r) none
    let now := s.readByte (s.lakeReader s.curEng s.lakeWarp) (s.curEng / 96) p.1 p.2
    let old := if inside then c.before.get va else now
    match own with
    | some b => if s.choice (2 * (va / 8)) then b else old
    | none => if s.choice (2 * (va / 8) + 1) then now else old

/-- Bytes that a command reads; a poisoned line ends the command with ECC. -/
def State.lakeRead (s : State) (c : LakeCommand) (va : BitVec 64) (n : Nat) (inside : Nat → Bool) : Except (BitVec 8 × BitVec 64) (List Byte) :=
  let vas := (List.range n).map (fun i => va + BitVec.ofNat 64 i)
  match vas.find? (fun a => (c.blocks.get (a.toNat / 256)).isSome && s.poisoned (c.place a.toNat).1) with
  | some a => .error (9, a)
  | none => .ok (vas.map (fun a => s.lakeByte c a.toNat (inside a.toNat)))

/-- A byte lies in a row or the input range. -/
def LakeRec.reads (r : LakeRec) (va : Nat) : Bool := r.ranges.any (fun e => !e.2.2 && (BitVec.ofNat 64 va - e.1).toNat < e.2.1)

/-- NOP. -/
def execLakeNop (s : State) : Out := s.lakeWord (fun s c _ _ => .ok (s, c))

/-- XLD. -/
def execXld (s : State) : Out := s.lakeWord (fun s c r _ =>
  if c.cc.toNat % 16 != 0 then lakeRange
  else
    let n := min 4096 (r.inlen - c.cc.toNat)
    match s.lakeRead c (r.inva + c.cc.setWidth 64) n (fun _ => true) with
    | .error e => .error e
    | .ok bs => .ok (s, { c with ibb := c.cc, ib := bs ++ List.replicate (4096 - n) 0 }))

/-- The address of row `r`. -/
def LakeRec.row (r : LakeRec) (i : Nat) : BitVec 64 := r.rowva + BitVec.ofNat 64 (i * r.rstr)

/-- ROWRD n: the exponents of the k-groups are read with the row (R368). -/
def execRowrd (n : BitVec 16) (s : State) : Out := s.lakeWord (fun s c r slot =>
  let n := n.toNat
  let col := c.cc.toNat
  if r.nrow ≤ c.rc.toNat || r.rlen < col + n then lakeRange
  else match s.lakeRead c (r.row c.rc.toNat + BitVec.ofNat 64 col) n (fun _ => true) with
    | .error e => .error e
    | .ok bs =>
      let w := slWidth slot
      let q0 := col * 8 / w / 128
      let q1 := (col * 8 / w + n * 8 / w - 1) / 128
      match (if slScl slot = 2 then s.lakeRead c (r.row c.rc.toNat + BitVec.ofNat 64 (r.exoff + q0)) (q1 + 1 - q0)
        (fun va => decide (r.exoff + q1 < r.rlen) || r.reads va) else .ok []) with
      | .error e => .error e
      | .ok xs => .ok (s, { c with wl := bs, wx := xs, lr := c.rc, lcol := c.cc }))

/-- The lane of a row (R364). -/
def lakeLane (row : Word) : Nat := row.toNat % 256

/-- Mac (R368). -/
def State.lakeMac (s : State) (w : Nat) (sat : BitVec 1) : Out := s.lakeWord (fun s c r slot =>
  let int := slIsInt slot
  let kinds := if w = 8 then [0, 2] else if w = 4 then [1, 3] else [4, 5]
  let n := c.wl.length
  let col := c.lcol.toNat
  if !kinds.contains (slKind slot) || (sat == 1 && !int) then lakeFormat
  else if n == 0 || col % (4 * w) != 0 then lakeRange
  else if col < c.ibb.toNat || c.ibb.toNat + 4096 < col + n then lakeRange
  else
    let k0 := col * 8 / w
    let a := slotValues slot c.wl
    let q0 := k0 / 128
    let a := if slScl slot = 2 then scaleGroups (List.replicate q0 0 ++ c.wx.map BitVec.toInt) k0 a else a
    let b := slotValues slot ((c.ib.drop (col - c.ibb.toNat)).take n)
    let scale := if slScl slot = 1 then f32.decode r.scale.toNat else .fin false 1 0
    let i := lakeLane c.lr
    let x := addGroups int (sat == 1) scale ((a.length + 31) / 32) a b (c.acc.get i).toNat 0
    .ok (s, { c with acc := c.acc.set i (BitVec.ofNat 32 x.1), efl := c.efl ||| x.2, wl := [], wx := [] }))

/-- MAC8, MAC4, MACH. -/
def execMac8 (sat : BitVec 1) (s : State) : Out := s.lakeMac 8 sat
def execMac4 (sat : BitVec 1) (s : State) : Out := s.lakeMac 4 sat
def execMach (sat : BitVec 1) (s : State) : Out := s.lakeMac 16 sat

/-- ACCZ. -/
def execAccz (ea n1 : BitVec 4) (s : State) : Out := s.lakeWord (fun s c _ _ =>
  .ok (s, { c with acc := c.acc.setFrom (16 * ea.toNat) (List.replicate (16 * (n1.toNat + 1)) 0) }))

/-- The lanes of an accumulator. -/
def LakeCommand.lanes (c : LakeCommand) (e : BitVec 4) : List Word := c.acc.getFrom (16 * e.toNat) 16

/-- Results of the 16 lanes of an accumulator, with their flags. -/
def LakeCommand.setLanes (c : LakeCommand) (e : BitVec 4) (rs : List FRes) : LakeCommand :=
  { c with acc := c.acc.setFrom (16 * e.toNat) (rs.map (fun r => BitVec.ofNat 32 r.1)), efl := rs.foldl (fun f r => f ||| r.2) c.efl }

/-- ACCSC. -/
def execAccsc (ea : BitVec 4) (off : BitVec 16) (s : State) : Out := s.lakeWord (fun s c _ slot =>
  if slIsInt slot then lakeFormat
  else .ok (s, c.setLanes ea (((c.lanes ea).zip (List.range 16)).map (fun e => f32.mul 0 e.1.toNat (word c.ib (off.toNat + 4 * e.2))))))

/-- ACCADD. -/
def execAccadd (ea eb : BitVec 4) (s : State) : Out := s.lakeWord (fun s c _ slot =>
  let ps := (c.lanes ea).zip (c.lanes eb)
  .ok (s, c.setLanes ea (ps.map (fun e => if slIsInt slot then ((e.1 + e.2).toNat, 0) else f32.add 0 e.1.toNat e.2.toNat))))

/-- OUTW. -/
def execOutw (ea n1 : BitVec 4) (s : State) : Out := s.lakeWord (fun s c r _ =>
  let n := n1.toNat + 1
  if r.olen < c.oc.toNat + 64 * n then lakeRange
  else
    let bs := (c.acc.getFrom (16 * ea.toNat) (16 * n)).flatMap wordBytes
    let va := (r.outva + c.oc.setWidth 64).toNat
    let out := (bs.zip (List.range bs.length)).map (fun e => let p := c.place (va + e.2); ({ key := p.1, val := e.1, slot := p.2 } : WByte))
    .ok (s, { c with outputs := c.outputs ++ out, oc := c.oc + BitVec.ofNat 32 (64 * n) }))

/-- RCADD and CCADD. -/
def cursor (x : Word) (set : BitVec 1) (imm : BitVec 16) : Word := if set == 1 then imm.setWidth 32 else x + imm.signExtend 32
def execRcadd (set : BitVec 1) (imm : BitVec 16) (s : State) : Out :=
  s.lakeWord (fun s c _ _ => .ok (s, { c with rc := cursor c.rc set imm }))
def execCcadd (set : BitVec 1) (imm : BitVec 16) (s : State) : Out :=
  s.lakeWord (fun s c _ _ => .ok (s, { c with cc := cursor c.cc set imm }))

/-- LOOP. -/
def execLoop (l : BitVec 1) (n : BitVec 16) (s : State) : Out := s.lakeWord (fun s c r _ =>
  let n : Word := if n == 0 then BitVec.ofNat 32 r.nrow else n.setWidth 32
  .ok (s, if l == 0 then { c with lc0 := n, ls0 := c.pc.setWidth 10 } else { c with lc1 := n, ls1 := c.pc.setWidth 10 }))

/-- LEND. -/
def execLend (l : BitVec 1) (s : State) : Out := s.lakeWord (fun s c _ _ =>
  let n := if l == 0 then c.lc0 else c.lc1
  let at' := if l == 0 then c.ls0 else c.ls1
  if n == 0 then .error (7, 0)
  else
    let c := if l == 0 then { c with lc0 := n - 1 } else { c with lc1 := n - 1 }
    .ok (s, if n == 1 then c else { c with pc := at'.setWidth 11 }))

/-- What the command finds from now on where its writes have been performed. -/
def LakeCommand.performed (c : LakeCommand) : Map Byte :=
  c.outputs.foldl (fun m o => c.blocks.foldl (fun m e => match e.2 with
    | some (k, _) => if k ≤ o.key ∧ o.key < k + 256 then m.set (256 * e.1 + (o.key - k)) o.val else m
    | none => m) m) c.before

/-- The running command's writes wait for a SILENT die. -/
def State.outputsHeld (s : State) (eng : Nat) : Bool :=
  match (s.eng eng).run with
  | some c => s.ackSilent (eng / 96) (c.outputs.map (·.key))
  | none => false

/-- SYNC: the writes of every earlier OUTW are performed. -/
def execLakeSync (s : State) : Out :=
  if s.outputsHeld s.curEng then .next s
  else s.lakeWord (fun s c _ _ => .ok (s.performG c.outputs, { c with outputs := [], before := c.performed }))

/-- Some 8-byte part of a command's writes is performed before the rest, whichever the hardware takes (spec/08 R214). -/
def State.lakeLand (s : State) (eng : Nat) : State :=
  match (s.eng eng).run with
  | none => s
  | some c =>
    if c.outputs.isEmpty || s.outputsHeld eng then s
    else
      let part := (c.outputs.getD (Config.freeNat s.fresh 332 % c.outputs.length) default).key / 8
      let now := c.outputs.filter (fun b => b.key / 8 == part)
      (s.performG now).modEng eng (fun e => { e with run := some { c with
        outputs := c.outputs.filter (fun b => b.key / 8 != part), before := { c with outputs := now }.performed } })

/-- FLAGS.C and FLAGS.R. -/
def execFlagsC (mask : BitVec 5) (s : State) : Out := s.lakeWord (fun s c _ _ => .ok (s, { c with efl := c.efl &&& ~~~ mask }))
def execFlagsR (ea : BitVec 4) (s : State) : Out := s.lakeWord (fun s c _ slot =>
  let x := if slIsInt slot then c.efl.toNat else (f32.round 0 (.fin false c.efl.toNat 0)).1
  .ok (s, { c with acc := c.acc.setFrom (16 * ea.toNat) (List.replicate 16 (BitVec.ofNat 32 x)) }))

/-- TRAPL n and HALT end the command. -/
def execTrapl (n : BitVec 7) (s : State) : Out := s.lakeWord (fun _ _ _ _ => .error (0x80 + n.setWidth 8, 0))
def execHalt (s : State) : Out := s.lakeWord (fun _ _ _ _ => .error (0, 0))

/-! ### The engine's turn -/

/-- The instruction that the engine in turn executes next: the word at PC, if it is one of the command's context. -/
def State.fetchLake (s : State) : Option Instr :=
  match (s.eng s.curEng).run, (s.eng s.curEng).queue with
  | some c, x :: _ =>
    if c.status.isSome || 1024 ≤ c.pc.toNat then none
    else match (s.eng s.curEng).program.get c.pc.toNat with
      | some (ctx, w) => if ctx = x.ctx then decodeLake w else none
      | none => none
  | _, _ => none

/-- A word that cannot be executed ends the command with PROGRAM. -/
def State.lakeBadWord (s : State) : Out := s.lakeWord (fun _ _ _ _ => .error (4, 0))

/-- What a Lake instruction does. -/
def State.lakeRun (s : State) : Instr → Out
  | .lakeNop => execLakeNop s
  | .xld => execXld s
  | .rowrd n => execRowrd n s
  | .mac8 sat => execMac8 sat s
  | .mac4 sat => execMac4 sat s
  | .mach sat => execMach sat s
  | .accz ea n1 => execAccz ea n1 s
  | .accsc ea off => execAccsc ea off s
  | .accadd ea eb => execAccadd ea eb s
  | .outw ea n1 => execOutw ea n1 s
  | .rcadd set imm => execRcadd set imm s
  | .ccadd set imm => execCcadd set imm s
  | .loop l n => execLoop l n s
  | .lend l => execLend l s
  | .lakeSync => execLakeSync s
  | .flagsC mask => execFlagsC mask s
  | .flagsR ea => execFlagsR ea s
  | .trapl n => execTrapl n s
  | .halt => execHalt s
  | _ => .next s

/-- LAKE_TIMEOUT (R369): the command has run 10 ms. The word it stands at is checked first, and where that word ends the command, with whatever
status, that stands (R373). -/
def execLakeTimeout (eng : Nat) (s : State) : Out :=
  match (s.eng eng).run with
  | some c =>
    if c.status.isSome || decide (s.gtime < c.startedAt + 10000000) then .next s
    else
      let t : State := { s with curEng := eng }
      let word := match t.fetchLake with | some i => t.lakeRun i | none => t.lakeBadWord
      let timeout : Out := .next (s.modEng eng (fun e => { e with run := some { c with status := some 0x0A, statusPc := c.pc.setWidth 10 } }))
      match word with
      | .next u => if ((u.eng eng).run.bind (·.status)).isSome then word else timeout
      | _ => timeout
  | none => .next s

end Sys2Proof.Machine
end

