-- ==== Sys2Proof/Machine/Launch.lean ====
section
/-! DEFINITION. The launch processors and distributors: queues (spec/03 R62, R63), lot records and their checks (R64, R65,
spec/10 R242), gates (R66), completion (R67–R69), placement (spec/04 R82–R86), eviction victims and returns (spec/07 R180). -/

namespace Sys2Proof.Machine

/-! ### Accesses of the launch processors -/

/-- Bytes at a physical address of a partition, read under key slot 0; a byte that is not backed, or whose home is not
LIVE or SILENT, has a free value. -/
def State.physRead (s : State) (part pa n : Nat) : List Byte :=
  let mode := (s.part part).plcfg
  (List.range n).map (fun i =>
    let gone := match s.homeOf part (pa + i) with | some d => s.dieGone d | none => false
    if s.backed part mode (pa + i) && !gone then s.readByte none hubDie (s.memKey part (pa + i)) 0 else Config.freeByte s.fresh (64 + i))

/-- Such a read waits for a SILENT die (spec/01 R31). -/
def State.physHeld (s : State) (part pa n : Nat) : Bool := (List.range n).any (fun i => s.pathHeld hubDie (s.homeOf part (pa + i)))

/-- Bytes written at a physical address of a partition, those that are backed. -/
def State.physWrite (s : State) (part pa : Nat) (bs : List Byte) : State :=
  let mode := (s.part part).plcfg
  s.hubWrite (((wbytes pa 0 bs).filter (fun b => s.backed part mode b.key
    && !(match s.homeOf part b.key with | some d => s.dieGone d | none => false))).map (fun b => { b with key := s.memKey part b.key }))

/-- A translation of a launch processor: of its uses spec/01 R33 Table 8 lists the page walk alone. A walk that reaches a die
that is LOST or RESETTING faults the context (R36). -/
def State.launchXlat (s : State) (ctx : Nat) (va : BitVec 64) (acc : Access) (n : Nat) : State × Xlat :=
  let w := s.translate hubPlace ctx va acc n
  let s := s.noteWalk hubPlace ctx { w with home := 0 }
  match w.res with
  | .lost d =>
    if w.touched.getLsbD d then
      (s.faultContext ctx { (default : FaultRecord) with
        code := fDieLost, rung := 2, dies := dieBit d, vatnum := 0xFFFFFFFF, gtime := BitVec.ofNat 64 s.gtime }, w.res)
    else (s, w.res)
  | _ => (s, w.res)

/-- The same of a read: it waits for a SILENT home, too. -/
def State.launchLook (s : State) (ctx : Nat) (va : BitVec 64) (n : Nat) : State × Xlat :=
  let x := s.launchXlat ctx va .read n
  (x.1, match x.2 with
    | .ok pa _ _ => if s.pathHeld hubDie (s.homeOf (s.ctx ctx).part pa) then .held else x.2
    | r => r)

/-- A read of a virtual range by a launch processor: its bytes, or why it has none. -/
def State.launchPieces (s : State) (ctx n : Nat) : List (BitVec 64 × Nat) → List Byte → State × Except Xlat (List Byte)
  | [], acc => (s, .ok acc)
  | (va, k) :: rest, acc =>
    let x := s.launchLook ctx va n
    match x.2 with
    | .ok pa slot _ =>
      let s := x.1
      s.launchPieces ctx (n + 8) rest (acc ++ s.readBytes none hubDie (s.memKey (s.ctx ctx).part pa) slot k)
    | r => (x.1, .error r)

def State.launchRead (s : State) (ctx : Nat) (va : BitVec 64) (n k : Nat) : State × Except Xlat (List Byte) :=
  s.launchPieces ctx k (rangePieces va n) []

/-- A write by a launch processor, its parts in order, as .G; where a SILENT die holds it up it is sent, and performed later. False: the
address does not translate. -/
def State.launchWrite (s : State) (ctx : Nat) (va : BitVec 64) (parts : List (Nat × List Byte)) (n : Nat) : State × Bool :=
  let x := s.launchXlat ctx va .write n
  let sent : State := { x.1 with posted := s.posted ++ parts.map (fun p => .range hubPlace ctx (va + BitVec.ofNat 64 p.1) p.2) }
  match x.2 with
  | .ok pa slot _ =>
    let key := x.1.memKey (s.ctx ctx).part pa
    let ws := parts.map (fun p => wbytes (key + p.1) slot p.2)
    (if s.postedBehind ctx || s.ackSilent hubDie [key] then sent else ws.foldl (fun s w => s.performG w) x.1, true)
  | .held => (sent, true)
  | _ => (x.1, false)

/-! ### Queues -/

/-- The records of a ring, and the physical address of the next record of `size` bytes. -/
def Queue.ring (q : Queue) : Nat := 2 ^ (q.log2n.toNat + 4)
def Queue.recordPa (q : Queue) (size : Nat) : Nat := q.base.toNat * 4096 + size * (q.ri.toNat % q.ring)

/-- A write of WI (R63). -/
def Queue.doorbell (q : Queue) (wi : Word) : Queue :=
  let q := { q with wi := wi }
  if q.ring < (wi - q.ri).toNat then { q with err := true, en := false } else q

/-- EN is set (R62). -/
def Queue.enable (q : Queue) : Queue := if q.en then q else { q with en := true, ri := q.wi, shots := [] }

/-- The queue is stopped by an error. -/
def Queue.fail (q : Queue) : Queue := { q with err := true, en := false }

def State.modQueue (s : State) (ctx q : Nat) (f : Queue → Queue) : State :=
  s.modCtx ctx (fun c => { c with queues := c.queues.modify q f })

/-- The records that a doorbell covers for the first time are noted as they stand (R63). -/
def State.coverRecords (s : State) (ctx q : Nat) : State :=
  let part := (s.ctx ctx).part
  let d := (s.ctx ctx).queues.get q
  if !d.en then s
  else
    let at' (i : Nat) : Word := d.ri + BitVec.ofNat 32 i
    let fresh := ((List.range (d.wi - d.ri).toNat).map at').filter (fun i => d.shots.get i.toNat == [])
    s.modQueue ctx q (fun d => { d with
      shots := fresh.foldl (fun m i => m.set i.toNat (s.physRead part (({ d with ri := i } : Queue).recordPa 256) 256)) d.shots })

/-- A record as a launch processor reads it: where it has changed since its doorbell, each 64-byte part old or new. -/
def State.takeRecord (s : State) (ctx q : Nat) : List Byte :=
  let d := (s.ctx ctx).queues.get q
  let now := s.physRead (s.ctx ctx).part (d.recordPa 256) 256
  let old := d.shots.get d.ri.toNat
  if old = [] ∨ old = now then now
  else (List.range 4).flatMap (fun i => ((if s.choice (340 + i) then old else now).drop (64 * i)).take 64)

/-- Registers answer only once DEVST reads READY (R60). -/
def State.ready (s : State) : Bool := s.hub.devst == .ready

/-- SQ_DOORBELL. -/
def execSqDoorbell (ctx q : Nat) (wi : BitVec 32) (s : State) : Out :=
  if s.ready && (s.ctxs.get ctx).isSome && q < 16 then .next ((s.modQueue ctx q (·.doorbell wi)).coverRecords ctx q) else .next s

/-- SQ_ENABLE. -/
def execSqEnable (ctx q : Nat) (s : State) : Out :=
  if s.ready && (s.ctxs.get ctx).isSome && q < 16 then .next (s.modQueue ctx q Queue.enable) else .next s

/-! ### The lot record (R64) -/

def dwordAt (bs : List Byte) (o : Nat) : BitVec 64 := BitVec.ofNat 64 (bytesToNat ((bs.drop o).take 8))
def wordAt (bs : List Byte) (o : Nat) : Word := BitVec.ofNat 32 (word bs o)

/-- Eight consecutive words. -/
def eightWords (bs : List Byte) (o : Nat) : Map Word := (List.range 8).foldl (fun m i => m.set i (wordAt bs (o + 4 * i))) []

def lotRecord (bs : List Byte) : LotRecord :=
  let w := word bs
  { ver := BitVec.ofNat 8 (w 0), flags := BitVec.ofNat 16 (w 0 / 2 ^ 16), lottag := wordAt bs 4, codeva := dwordAt bs 8,
    entry := w 0x10 % 2 ^ 16, prio := BitVec.ofNat 2 (w 0x10 / 2 ^ 16), nvec := w 0x14 % 64, nmat := w 0x14 / 64 % 2,
    regs := w 0x14 / 256 % 32, scr := w 0x18 % 512, acc := w 0x18 / 2 ^ 16 % 512, gx := w 0x20, gy := w 0x24, gz := w 0x28,
    cplva := dwordAt bs 0x30, semva := dwordAt bs 0x38, semval := dwordAt bs 0x40, wsemva := dwordAt bs 0x48, wsemval := dwordAt bs 0x50,
    irqv := BitVec.ofNat 11 (w 0x58), fslot := eightWords bs 0x60, kinit := eightWords bs 0x80 }

/-- The reserved bits of the record, by word. -/
def lotReserved : List (Nat × Word) :=
  [(0x00, 0xFF80FF00), (0x10, 0xFFFC0000), (0x14, 0xFFFFE080), (0x18, 0xFE00FE00), (0x1C, 0xFFFFFFFF), (0x2C, 0xFFFFFFFF),
   (0x58, 0xFFFFF800), (0x5C, 0xFFFFFFFF)]
def reservedClear (bs : List Byte) : Bool :=
  lotReserved.all (fun e => wordAt bs e.1 &&& e.2 == 0) && (bs.drop 0xA0).all (· == 0)

def LotRecord.cohab (r : LotRecord) : Bool := r.flags.getLsbD 0
def LotRecord.fence (r : LotRecord) : Bool := r.flags.getLsbD 3
def LotRecord.wait (r : LotRecord) : Bool := r.flags.getLsbD 4
def LotRecord.sema (r : LotRecord) : Bool := r.flags.getLsbD 5
def LotRecord.irq (r : LotRecord) : Bool := r.flags.getLsbD 6
def LotRecord.total (r : LotRecord) : Nat := r.gx * r.gy * r.gz
def LotRecord.slots (r : LotRecord) : List Word := (List.range 8).map r.fslot.get

/-! ### The code object (spec/10 R240, R242) -/

def codeHeader (h : List Byte) : CodeHeader :=
  let w := word h
  { vmaj := BitVec.ofNat 8 (w 4), vmin := BitVec.ofNat 8 (w 4 / 2 ^ 8), step := BitVec.ofNat 8 (w 4 / 2 ^ 16), xuse := w 4 / 2 ^ 24 % 2 == 1,
    size := w 8, nfunc := w 0xC % 2 ^ 16, ftoff := w 0x10, hndoff := w 0x14, tvec := w 0x18, vvec := w 0x1C, svec := w 0x20,
    rvec := w 0x24, tvm := wordAt h 0x28, vvm := wordAt h 0x2C, featreq := BitVec.ofNat 128 (bytesToNat ((h.drop 0x30).take 16)),
    textoff := w 0x40, textlen := w 0x44, used := BitVec.ofNat 512 (bytesToNat ((h.drop 0x80).take 64)), funcs := [] }

def funcEntry (e : List Byte) : FuncEntry :=
  { eoff := word e 0, regs := word e 4 % 32, scr := word e 4 / 256 % 512, acc := word e 4 / 2 ^ 17 % 512,
    lote := word e 8 % 2 == 1, taske := word e 8 / 2 % 2 == 1 }

/-- The reserved fields of an entry are 0. -/
def entryClear (e : List Byte) : Bool := wordAt e 4 &&& 0xFC0000E0 == 0 && word e 8 < 4 && word e 12 == 0

/-- A code offset: 4-byte aligned and below SIZE. -/
def CodeHeader.offsetOk (c : CodeHeader) (o : Nat) : Bool := o % 4 == 0 && o < c.size

/-- Check 1, but for the function table's entries. -/
def CodeHeader.headerOk (c : CodeHeader) (h : List Byte) : Bool :=
  word h 0 == 0x4E484C42 && word h 4 / 2 ^ 25 == 0 && word h 0xC / 2 ^ 16 == 0
    && ((h.drop 0x48).take 0x38).all (· == 0) && (h.drop 0xC0).all (· == 0) && 1 ≤ c.nfunc
    && [c.ftoff, c.hndoff, c.tvec, c.vvec, c.svec, c.rvec, c.textoff].all c.offsetOk
    && c.ftoff + 16 * c.nfunc ≤ c.size && c.textlen % 4 == 0 && c.textoff + c.textlen ≤ c.size
    && c.hndoff % 512 == 0 && (c.hndoff == 0 || c.hndoff + 512 ≤ c.size)

/-- Check 1 of the function table. -/
def CodeHeader.tableOk (c : CodeHeader) (t : List Byte) : Bool :=
  (List.range c.nfunc).all (fun i => let e := t.drop (16 * i); entryClear e && c.offsetOk (word e 0))

/-- Checks 2 to 4: versions, stepping, slots. No slot is of class X at 4.2 (spec/11 R265). -/
def CodeHeader.versionOk (c : CodeHeader) (h : Hub) : Bool :=
  c.vmaj == 4 && c.vmin ≤ h.isaMin && (!c.xuse || c.step == Config.stepping)
    && (List.range 512).all (fun i => !c.used.getLsbD i || h.slotRuns i)

/-- Check 5. -/
def CodeHeader.entryOk (c : CodeHeader) (r : LotRecord) : Bool :=
  r.entry < c.nfunc && (let f := c.funcs.getD r.entry default; f.lote && f.regs ≤ r.regs && f.scr ≤ r.scr && f.acc ≤ r.acc)

/-- Reads a code object and makes checks 1 to 5: its header with the function table, if they pass; `.held` while a read of it waits. -/
def State.loadCode (s : State) (ctx : Nat) (r : LotRecord) : State × Except Xlat CodeHeader :=
  if r.codeva.toNat % 256 != 0 then (s, .error (xfault 0))
  else
    let h := s.launchRead ctx r.codeva 256 420
    match h.2 with
    | .error x => (h.1, .error x)
    | .ok bs =>
      let c := codeHeader bs
      if !c.headerOk bs then (h.1, .error (xfault 0))
      else
        let t := h.1.launchRead ctx (r.codeva + BitVec.ofNat 64 c.ftoff) (16 * c.nfunc) 450
        match t.2 with
        | .error x => (t.1, .error x)
        | .ok bs =>
          let c := { c with funcs := (List.range c.nfunc).map (fun i => funcEntry (bs.drop (16 * i))) }
          if c.tableOk bs && c.versionOk s.hub && c.entryOk r then (t.1, .ok c) else (t.1, .error (xfault 0))

/-- Check 6. -/
def State.featuresOk (s : State) (c : CodeHeader) : Bool := c.featreq &&& ~~~ s.hub.featacc == 0

/-! ### Acceptance (R65) -/

/-- A semaphore's address is aligned and translates. -/
def State.semaphoreOk (s : State) (ctx : Nat) (va : BitVec 64) (n : Nat) : State × Xlat :=
  if va.toNat % 8 != 0 then (s, xfault 0) else s.launchXlat ctx va .read n

def Xlat.isOk (x : Xlat) : Bool := match x with | .ok _ _ _ => true | _ => false

/-- DETAIL 1 to 5. -/
def LotRecord.shape (r : LotRecord) (bs : List Byte) : BitVec 8 :=
  if r.ver != 1 then 1
  else if !reservedClear bs then 2
  else if r.nvec + r.nmat == 0 || 32 < r.nvec + r.nmat then 3
  else if 256 < r.scr || 256 < r.acc || (r.nmat == 1 && r.acc == 0) then 4
  else if r.gx == 0 || r.gy == 0 || r.gz == 0 || 2 ^ 32 < r.total then 5
  else 0

/-- The checks of Table 1: the first DETAIL that applies, or 0, and the code object; nothing while a read or walk waits for a SILENT die. -/
def State.checkLot (s : State) (ctx : Nat) (r : LotRecord) (bs : List Byte) : State × Option (BitVec 8 × CodeHeader) :=
  let d := r.shape bs
  if d != 0 then (s, some (d, default))
  else
    let a := if r.sema then s.semaphoreOk ctx r.semva 402 else (s, .ok 0 0 0)
    let b := if r.wait then a.1.semaphoreOk ctx r.wsemva 410 else (a.1, .ok 0 0 0)
    if a.2 == .held || b.2 == .held then (b.1, none)
    else if !a.2.isOk || !b.2.isOk then (b.1, some (6, default))
    else
      let c := b.1.loadCode ctx r
      match c.2 with
      | .error .held => (c.1, none)
      | .error _ => (c.1, some (6, default))
      | .ok code =>
        if r.slots.any slotUnassigned then (c.1, some (7, code))
        else if !c.1.featuresOk code || (!c.1.hub.featacc.getLsbD 7 && r.slots.any (fun w => slKind w == 1 || slKind w == 3)) then
          (c.1, some (8, code))
        else (c.1, some (0, code))

/-- Vats of one shape that an empty core takes. -/
def Need.perCore (n : Need) : Nat → Room → Nat
  | 0, _ => 0
  | fuel + 1, r => match r.fits n with
    | some subs => 1 + n.perCore fuel (r.place n subs)
    | none => 0

/-- TOO_LARGE. -/
def State.tooLarge (s : State) (ctx : Nat) (r : LotRecord) : Bool :=
  let per := r.need.perCore 16 Room.empty
  let cores := ((s.liveDies (s.ctx ctx).part).flatMap s.coresOf).length
  per == 0 || (r.cohab && per * cores < r.total)

/-- An earlier lot of a queue has not passed its gates. -/
def State.gatedLot (s : State) (ctx q : Nat) : Bool :=
  (s.lotsOf ctx (· == .gated)).any (fun k => (s.lot k).queue == q)

/-! ### Completion (R67, R68) -/

/-- The completion record. -/
def Lot.completion (l : Lot) : List Byte :=
  let f := l.first.getD default
  let lane := match l.first with | some f => (lowest f.flm).getD 0 | none => 0
  let w0 := l.status.setWidth 32 ||| (if l.status == 3 then l.detail.setWidth 32 <<< 8 else 0) ||| f.code.setWidth 32 <<< 16 ||| 0x80000000
  wordBytes w0 ++ wordBytes l.record.lottag ++ natToBytes 8 l.tacc ++ natToBytes 8 l.tstart ++ natToBytes 8 l.tend
    ++ natToBytes 8 f.fva.toNat ++ natToBytes 8 l.firstPc.toNat ++ wordBytes f.vatnum
    ++ wordBytes (f.warp.setWidth 32 ||| BitVec.ofNat 32 (64 * lane) ||| f.rung.setWidth 32 <<< 11)
    ++ wordBytes (l.exc.setWidth 32) ++ wordBytes l.qseq ++ wordBytes (BitVec.ofNat 32 l.vatsDone) ++ wordBytes (l.dlost.setWidth 32)
    ++ zeros 56

/-- A lot completes: record, semaphore, interrupt (R68). A misaligned SEMVA is a store that faults. -/
def State.completeLot (s : State) (lot : Nat) : State :=
  let l := s.lot lot
  let part := (s.ctx l.ctx).part
  let s := s.setLot lot { l with phase := .complete }
  let bs := l.completion
  let x := s.launchWrite l.ctx l.record.cplva [(4, bs.drop 4), (0, bs.take 4)] 480
  let irq (s : State) : State := if l.record.irq then s.signalBehind l.ctx part l.record.irqv.toNat else s
  if !x.2 then x.1.modQueue l.ctx l.queue Queue.fail
  else if !l.record.sema then irq x.1
  else if l.record.semva.toNat % 8 != 0 then x.1.modQueue l.ctx l.queue Queue.fail
  else
    let y := x.1.launchWrite l.ctx l.record.semva [(0, natToBytes 8 l.record.semval.toNat)] 490
    if y.2 then irq y.1 else y.1.modQueue l.ctx l.queue Queue.fail

/-- LOT_ACCEPT. A gated lot holds its queue; a context that is faulted or being reset takes no record; a record whose reads wait for a SILENT
die stands in its queue. -/
def execLotAccept (ctx q : Nat) (s : State) : Out :=
  let c := s.ctx ctx
  let d := c.queues.get q
  if (s.ctxs.get ctx).isNone || !d.en || d.ri == d.wi || c.faulted || c.resetting || s.gatedLot ctx q
      || s.physHeld c.part (d.recordPa 256) 256 then .next s
  else
    let bs := s.takeRecord ctx q
    let s := s.modQueue ctx q (fun d => { d with ri := d.ri + 1, shots := d.shots.set d.ri.toNat [] })
    let r := lotRecord bs
    let x := if r.cplva.toNat % 128 != 0 then (s, xfault 0) else s.launchXlat ctx r.cplva .write 400
    match x.2 with
    | .ok _ _ _ =>
      let k := x.1.checkLot ctx r bs
      let s := k.1
      match k.2 with
      | none => .next (s.modQueue ctx q (fun x => { x with ri := d.ri, shots := d.shots }))
      | some (detail, code) =>
        let status : BitVec 8 := if detail != 0 then 3 else if s.tooLarge ctx r then 4 else 0
        let l : Lot := { (default : Lot) with
          ctx := ctx, queue := q, qseq := d.ri, record := r, code := code,
          entryOff := BitVec.ofNat 32 (code.funcs.getD r.entry default).eoff, phase := .gated, status := status, detail := detail, tacc := s.gtime }
        let n := s.nextLot
        let s := { s.setLot n l with nextLot := n + 1 }
        .next (if status == 0 then s else s.completeLot n)
    | .held => .next (x.1.modQueue ctx q (fun x => { x with ri := d.ri, shots := d.shots }))
    | _ =>
      let s := x.1.modQueue ctx q Queue.fail
      .next (if r.irq then s.signal c.part r.irqv.toNat else s)

/-! ### Gates (R66) -/

/-- WAIT_SEMAPHORE_READ: a failed read completes the lot FAULTED. -/
def execWaitSemaphoreRead (lot : Nat) (s : State) : Out :=
  let l := s.lot lot
  if (s.lots.get lot).isNone || l.phase != .gated || !l.record.wait || l.waitMet || (s.ctx l.ctx).faulted then .next s
  else
    let x := s.launchLook l.ctx l.record.wsemva 500
    match x.2 with
    | .ok pa slot _ =>
      let v := bytesToNat (x.1.readBytes none hubDie (x.1.memKey (s.ctx l.ctx).part pa) slot 8)
      .next (x.1.modLot lot (fun l => { l with waitMet := decide (l.record.wsemval.toNat ≤ v) }))
    | .fault code cause =>
      let fr : FaultRecord := { (default : FaultRecord) with
        code := code, cause := cause, rung := 2, fva := l.record.wsemva, vatnum := 0xFFFFFFFF, lottag := l.record.lottag, gtime := BitVec.ofNat 64 s.gtime }
      .next ((x.1.modLot lot (fun l => { l with status := 1, first := some fr, firstPc := 0 })).completeLot lot)
    | .lost _ => .next x.1
    | .held => .next x.1

/-- Every earlier lot of a lot's queue has written its record. -/
def State.fenceMet (s : State) (lot : Nat) : Bool :=
  let l := s.lot lot
  (s.lotsOf l.ctx (· != .complete)).all (fun k => decide (lot ≤ k) || (s.lot k).queue != l.queue)

/-- The gates of a lot are met. -/
def State.gatesMet (s : State) (lot : Nat) : Bool :=
  let l := s.lot lot
  l.phase == .gated && l.status == 0 && (!l.record.wait || l.waitMet) && (!l.record.fence || s.fenceMet lot) && !(s.ctx l.ctx).faulted

/-- LOT_GATE_OPEN. -/
def execLotGateOpen (lot : Nat) (s : State) : Out :=
  if (s.lots.get lot).isSome && s.gatesMet lot then .next (s.modLot lot (fun l => { l with phase := .running })) else .next s

/-! ### Victims (spec/07 R180, spec/21 R388) -/

/-- The room of a core without some warps and some whole vats. -/
def State.roomWithout (s : State) (core : Nat) (vats warps : List Nat) : Room :=
  let vs := (s.vatsOn core).filter (fun k => !vats.contains k)
  let ws := (s.warps.filterMap (fun e => if e.2.core = core ∧ e.2.resident ∧ ¬ vats.contains e.2.vat ∧ ¬ warps.contains e.1 then some e.2 else none))
  let sub (i : Nat) : List Warp := ws.filter (fun w => w.slot / 16 == i)
  let xs := vs.map s.vat
  { regs := (List.range 4).map (fun i => 16384 - ((sub i).map (fun w => regCost (s.vat w.vat).regs)).foldl (· + ·) 0),
    warps := (List.range 4).map (fun i => (sub i).length),
    vats := vs.length, mats := (ws.filter (·.mat)).length,
    scr := 256 - (xs.map (·.scr)).foldl (· + ·) 0, acc := 256 - (xs.map (fun v => v.acc + v.granted)).foldl (· + ·) 0 }

/-- The priority of a vat. -/
def State.prioOf (s : State) (vk : Nat) : Nat := (s.lot (s.vat vk).lot).record.prio.toNat

/-- A vat can be asked to leave for a requester of some priority: no warp of it is being evicted or restored already, or stands at a fault that
waits for room in the fault queue (R175). -/
def State.lowerVat (s : State) (prio vk : Nat) : Bool :=
  s.prioOf vk < prio && s.evictable vk && (s.vat vk).stop.isNone
    && (warpKeys vk (s.vat vk)).all (fun k => (s.warp k).evict == .running || (s.warp k).evict == .saved)
    && (warpKeys vk (s.vat vk)).any (fun k => (s.warp k).evict == .running)
    && (warpKeys vk (s.vat vk)).all (fun k => !s.unqueued k && !(s.warp k).faultWait)

/-- It is a victim if its image fits the save area (R177). -/
def State.isVictim (s : State) (prio vk : Nat) : Bool := s.lowerVat prio vk && (s.allotImage vk).isSome

/-- The order of victims: lowest PRIO, then highest launch sequence number. -/
def State.before (s : State) (a b : Nat) : Bool := s.prioOf a < s.prioOf b || (s.prioOf a == s.prioOf b && b < a)

/-- Inserts a vat in victim order. -/
def State.insertVictim (s : State) (v : Nat) : List Nat → List Nat
  | [] => [v]
  | x :: xs => if s.before v x then v :: x :: xs else x :: s.insertVictim v xs
def State.victims (s : State) (prio core : Nat) : List Nat :=
  ((s.vatsOn core).filter (s.isVictim prio)).foldl (fun l v => s.insertVictim v l) []

/-- What a core has asked back already: vats and warps on their way out. -/
def State.leavingVats (s : State) (core : Nat) : List Nat :=
  (s.vatsOn core).filter (fun vk => (s.vat vk).imageWhole && (warpKeys vk (s.vat vk)).any (fun k => [Evict.requested, .drain, .save].contains (s.warp k).evict))
def State.leavingWarps (s : State) (core : Nat) : List Nat :=
  s.warps.filterMap (fun e => if e.2.core = core ∧ e.2.resident ∧ [Evict.requested, .drain, .save].contains e.2.evict then some e.1 else none)

/-- What is asked back for a placement: whole vats, warps with their vats; and where the vats placed so far go. -/
structure Draw where
  whole : List Nat := []
  part : List (Nat × Nat) := []
  extra : List (Nat × List Nat) := []
  deriving DecidableEq, Repr, Inhabited

/-- The room of a core once all that leaves has left, and the vats placed so far, each of the same need, have come. -/
def State.drawRoom (s : State) (n : Need) (d : Draw) (core : Nat) : Room :=
  (d.extra.filter (·.1 == core)).foldl (fun r e => r.place n e.2)
    (s.roomWithout core (s.leavingVats core ++ d.whole) (s.leavingWarps core ++ d.part.map (·.2)))
def State.drawFits (s : State) (n : Need) (d : Draw) (core : Nat) : Option (List Nat) := (s.drawRoom n d core).fits n

/-- Warps of a vat taken in turn until the need is met. -/
def State.takeWarps (s : State) (n : Need) (core v : Nat) : List Nat → Draw → Draw
  | [], d => d
  | k :: ks, d => if (s.drawFits n d core).isSome then d else s.takeWarps n core v ks { d with part := d.part ++ [(v, k)] }

/-- One more victim of a core: whole for scratchpad, accumulator store, a MAT warp or a vat slot, else its warps from the highest number
down; whole too where that takes them all (spec/21 R388). -/
def State.takeVictim (s : State) (n : Need) (core v : Nat) (d : Draw) : Draw :=
  let room := s.drawRoom n d core
  let without : Draw := { d with whole := d.whole ++ [v], part := d.part.filter (·.1 != v) }
  if 16 ≤ room.vats || 4 < room.mats + n.nmat || room.scr < n.scr || room.acc < n.acc then without
  else
    let mine := ((warpKeys v (s.vat v)).filter (fun k => (s.warp k).evict == .running && !d.part.contains (v, k))).reverse
    let t := s.takeWarps n core v mine d
    if (t.part.filter (·.1 == v)).length == (s.vat v).nwarp then without else t

/-- Victims of a core in order until the need is met. -/
def State.takeVictims (s : State) (n : Need) (core : Nat) : List Nat → Draw → Draw
  | [], d => d
  | v :: vs, d => if (s.drawFits n d core).isSome then d else s.takeVictims n core vs (s.takeVictim n core v d)

/-- The core whose first victim comes first, among those where evicting vats of lower priority meets the need. -/
def State.victimCore (s : State) (prio : Nat) (n : Need) (d : Draw) (cores : List Nat) : Option (Nat × List Nat) :=
  cores.foldl (fun (r : Option (Nat × List Nat)) c =>
    let vs := (s.victims prio c).filter (fun v => !d.whole.contains v)
    match vs with
    | [] => r
    | v :: _ =>
      if (s.drawFits n { d with whole := d.whole ++ vs } c).isNone then r
      else match r with
        | some (_, b :: _) => if s.before v b then some (c, vs) else r
        | _ => some (c, vs)) none

/-- Room for one vat more: what is leaving leaves it, or victims do. -/
def State.drawOne (s : State) (prio start : Nat) (n : Need) (cores : List Nat) (d : Draw) : Option Draw :=
  match chooseCore n start (cores.map (fun c => (c, s.drawRoom n d c))) with
  | some p => some { d with extra := d.extra ++ [p] }
  | none => match s.victimCore prio n d cores with
    | none => none
    | some (c, vs) =>
      let t := s.takeVictims n c vs d
      (s.drawFits n t c).map (fun subs => { t with extra := t.extra ++ [(c, subs)] })

/-- Room for `m` vats: for all of them, or for none (spec/04 R84). -/
def State.drawAll (s : State) (prio start : Nat) (n : Need) (cores : List Nat) : Nat → Draw → Option Draw
  | 0, d => some d
  | m + 1, d => match s.drawOne prio start n cores d with
    | some d => s.drawAll prio start n cores m d
    | none => none

/-- The requests of a draw: pre-emptions, which their images' REASON says (spec/07 R178). -/
def State.requestDraw (s : State) (d : Draw) : State :=
  let s := d.whole.foldl (fun s v => (s.requestWhole v 0).getD s) s
  d.part.foldl (fun s e => match s.allotImage e.1 with
    | some s => (s.modVat e.1 (fun v => { v with imageReason := 0 })).modWarp e.2 (fun w => w.request false 0)
    | none => s) s

/-- The dies of a partition on which a lot's vats may be placed: LIVE, and not yet reached by its abort flag (R109). -/
def State.placeDies (s : State) (lot : Nat) : List Nat :=
  let l := s.lot lot
  (s.liveDies (s.ctx l.ctx).part).filter (fun d => !l.abortAtDie d s.gtime)

/-- A placement of `m` vats of a lot that finds no core draws evictions of vats of lower priority (spec/04 R83, R84), unless those under way
make room. A vat whose context's SIZE cannot be read is none of them: that fault is terminal for its context (spec/07 R177). The firmware's
reads of SIZE leave their traces (spec/01 R33). -/
def State.drawEvictions (s : State) (lot : Nat) (n : Need) (m : Nat) : State :=
  let prio := (s.lot lot).record.prio.toNat
  let cores := (s.placeDies lot).flatMap s.coresOf
  let low := (cores.flatMap s.vatsOn).filter (s.lowerVat prio)
  let asks := !(m = 1 ∧ cores.any (fun c => (s.drawFits n {} c).isSome))
  match (if asks then low.findSome? (fun v => (s.sizeMiss v).2.map (fun e => (v, e))) else none) with
  | some (v, e) => (s.sizeMiss v).1.saveMiss v e
  | none =>
    let t := if asks then low.foldl (fun s v => (s.sizeMiss v).1) s else s
    match s.drawAll prio (s.ringStart lot) n cores m {} with
    | some d => t.requestDraw d
    | none => t

/-! ### Returns -/

/-- A whole vat that may return: pre-empted, or its fault answered with RESUME. -/
def State.mayReturn (s : State) (vk : Nat) : Bool :=
  let v := s.vat vk
  let l := s.lot v.lot
  v.place == .saved && (v.imageReason == 0 || v.resumed) && l.status != 1 && l.status != 5 && !(s.ctx l.ctx).faulted && !(s.ctx l.ctx).resetting

/-- What a returning vat needs (R180). -/
def Vat.need (v : Vat) : Need := { nvec := v.nvec, nmat := v.nwarp - v.nvec, regs := v.regs, scr := v.scr, acc := v.acc + v.granted }

/-- Where a placement of a vat of a lot, new or returning, would go. -/
def State.placeFor (s : State) (lot : Nat) (n : Need) : Option (Nat × List Nat) :=
  chooseCore n (s.ringStart lot) (s.candidates (s.placeDies lot))

/-- The saved warps of a resident vat, in number order. -/
def State.awayWarps (s : State) (vk : Nat) : List Nat :=
  (warpKeys vk (s.vat vk)).filter (fun k => (s.warp k).evict == .saved && (s.warp k).masks.lmask != 0)

/-- A partially evicted vat whose warps may return. -/
def State.mayReturnPart (s : State) (vk : Nat) : Bool :=
  let v := s.vat vk
  v.place == .resident && !v.imageWhole && v.stop.isNone && !(s.awayWarps vk).isEmpty
    && (warpKeys vk v).all (fun k => (s.warp k).evict == .running || (s.warp k).evict == .saved)

/-- The sub-partitions that `n` more warps of a vat would take on its core. -/
def State.partRoom (s : State) (vk n : Nat) : Option (List Nat) :=
  let v := s.vat vk
  (s.room v.core).assign (regCost v.regs) n

/-- The image and code checks of a restore (R185, R242): FEATURE_ABSENT, terminal, with its INFO; or the image cannot be read. -/
def State.restoreFault (s : State) (vk : Nat) : State × Except Miss (Option Nat) :=
  let h := s.headerFault vk
  match h.2 with
  | .ok none =>
    let l := s.lot (s.vat vk).lot
    let c := h.1.loadCode l.ctx l.record
    match c.2 with
    | .ok code => (c.1, .ok (if c.1.featuresOk code then none else some 0x100))
    | .error .held => (c.1, .error .held)
    | .error _ => (c.1, .ok (some 0x100))
  | _ => h

/-- FEATURE_ABSENT of a restore. -/
def State.failRestore (s : State) (vk info : Nat) : State :=
  let v := s.vat vk
  s.faultContext (s.lot v.lot).ctx { (default : FaultRecord) with
    code := fFeatureAbsent, rung := 2, vatnum := v.vatnum, info := BitVec.ofNat 32 info, gtime := BitVec.ofNat 64 s.gtime,
    lottag := (s.lot v.lot).record.lottag }

/-- The invalidations that stores owe a die are delivered to it: its copies are gone. -/
def State.deliverInvals (s : State) (d : Nat) : State :=
  s.ops.foldl (fun s e => match e.2 with
    | some o => if o.owed &&& dieBit d != 0 then s.invalidate (dieBit d) (o.work.writeKeys.map (fun k => ⟨k, 0, 0⟩)) else s
    | none => s) s

/-- A vat that comes to a core reads there nothing older than what its warps have read and written where they were (spec/08 R195, R197): the
core's L1 is empty, and to a new die the invalidations that it is still owed come first. -/
def State.moveTo (s : State) (vk core : Nat) : State :=
  let die := dieOfCore core
  let s := s.modCore core (fun c => { c with l1 := [] })
  if die = dieOfCore (s.vat vk).core then s else s.deliverInvals die

/-- A whole vat returns to a core: its storage is allotted and its warps enter restore mode. VVMASK takes VVM and VBSTAT its
value at a restore placement (R178, spec/05 R132). -/
def State.returnVat (s : State) (vk core : Nat) (subs : List Nat) : State :=
  let v := s.vat vk
  let l := s.lot v.lot
  let slots := s.slotsFor core subs []
  let s := ((s.moveTo vk core).touch l.ctx (dieBit (dieOfCore core))).setVat vk { v with
    place := .resident, core := core, slot := s.freeVatSlot core, vvmask := l.code.vvm, vbstat := vbMake false v.firstLive 0 }
  let s := s.modLot v.lot (fun l => { l with lastDie := some (dieOfCore core) })
  let n := s.nextPlace
  (List.range v.nwarp).foldl (fun s i => s.enterRestore (warpKey vk i) core (slots.getD i 0) (n + i)) { s with nextPlace := n + v.nwarp }

/-- The saved warps of a vat return to their core. -/
def State.returnWarps (s : State) (vk : Nat) (subs : List Nat) : State :=
  let v := s.vat vk
  let ks := s.awayWarps vk
  let slots := s.slotsFor v.core subs []
  let n := s.nextPlace
  (ks.zip (List.range ks.length)).foldl (fun s e => s.enterRestore e.1 v.core (slots.getD e.2 0) (n + e.2)) { s with nextPlace := n + ks.length }

/-! ### Placement (spec/04 R82–R84) -/

/-- A lot has a vat still to place. -/
def State.placing (s : State) (lot : Nat) : Bool :=
  let l := s.lot lot
  (s.lots.get lot).isSome && l.phase == .running && l.status != 1 && l.status != 5 && l.nextVat < l.record.total
    && !(s.ctx l.ctx).faulted && !(s.ctx l.ctx).resetting

/-- The cores for all the vats of a COHAB lot at once, in vat order: places as many as fit, with what is left. -/
def State.cohabPlan (s : State) (lot : Nat) (need : Need) : Nat → Nat → List (Nat × Room) → List (Nat × List Nat) → List (Nat × List Nat) × List (Nat × Room)
  | 0, _, rooms, acc => (acc, rooms)
  | n + 1, start, rooms, acc => match chooseCore need start rooms with
    | none => (acc, rooms)
    | some (core, subs) =>
      s.cohabPlan lot need n ((dieOfCore core + 1) % 4)
        (rooms.map (fun r => if r.1 = core then (r.1, r.2.place need subs) else r)) (acc ++ [(core, subs)])

def State.cohabAll (s : State) (lot : Nat) : Option (List (Nat × List Nat)) :=
  let l := s.lot lot
  let n := l.record.total - l.nextVat
  let r := s.cohabPlan lot l.record.need n (s.ringStart lot) (s.candidates (s.placeDies lot)) []
  if r.1.length = n then some r.1 else none

/-- A lot's next placement finds room. -/
def State.canPlace (s : State) (lot : Nat) : Bool :=
  let l := s.lot lot
  if l.record.cohab then (s.cohabAll lot).isSome
  else (chooseCore l.record.need (s.ringStart lot) (s.candidates (s.placeDies lot))).isSome

/-- A vat, or the saved warps of a resident vat, may return and find room. -/
def State.returnsNow (s : State) (vk : Nat) : Bool :=
  let v := s.vat vk
  (s.mayReturn vk && (s.placeFor v.lot v.need).isSome) || (s.mayReturnPart vk && (s.partRoom vk (s.awayWarps vk).length).isSome)

/-- Another lot or return of the partition is served before a lot (R83, spec/07 R180). -/
def State.servedFirst (s : State) (lot : Nat) : Bool :=
  let l := s.lot lot
  let part := (s.ctx l.ctx).part
  let samePart (k : Nat) : Bool := (s.ctx (s.lot k).ctx).part == part
  s.lots.any (fun e => e.1 != lot && samePart e.1 && s.placing e.1 && s.canPlace e.1
      && (let p := (s.lot e.1).record.prio; l.record.prio < p || (p == l.record.prio && decide (e.1 < lot))))
    || s.vats.any (fun e => match e.2 with
      | some v => samePart v.lot && l.record.prio ≤ (s.lot v.lot).record.prio && s.returnsNow e.1
      | none => false)

/-- A lot of higher PRIO, or another return of higher PRIO or of an earlier lot, is served before a returning vat (R83, spec/07 R180). -/
def State.returnWaits (s : State) (vk : Nat) : Bool :=
  let k := (s.vat vk).lot
  let part := (s.ctx (s.lot k).ctx).part
  let prio := (s.lot k).record.prio
  let samePart (k : Nat) : Bool := (s.ctx (s.lot k).ctx).part == part
  s.lots.any (fun e => samePart e.1 && s.placing e.1 && s.canPlace e.1 && prio < (s.lot e.1).record.prio)
    || s.vats.any (fun e => match e.2 with
      | some v => e.1 != vk && samePart v.lot && s.returnsNow e.1
          && (let p := (s.lot v.lot).record.prio; prio < p || (p == prio && decide (v.lot < k ∨ (v.lot = k ∧ e.1 < vk))))
      | none => false)

/-- VAT_RESTORE_PLACE (R180, R181, R185). -/
def execVatRestorePlace (vat : Nat) (s : State) : Out :=
  let v := s.vat vat
  let go (back : State → State) : Out :=
    let r := s.restoreFault vat
    match r.2 with
    | .ok (some i) => .next (r.1.failRestore vat i)
    | .ok none => .next (back r.1)
    | .error .held => .next r.1
    | .error m => .next (r.1.saveMiss vat m)
  if (s.vats.get vat).isNone || s.returnWaits vat then .next s
  else if s.mayReturn vat then
    match s.placeFor v.lot v.need with
    | some (core, subs) => go (fun s => s.returnVat vat core subs)
    | none => .next (s.drawEvictions v.lot v.need 1)
  else if s.mayReturnPart vat then
    match s.partRoom vat (s.awayWarps vat).length with
    | some subs => go (fun s => s.returnWarps vat subs)
    | none => .next s
  else .next s

/-- A vat of a lot is placed; the die is touched. -/
def State.placeNext (s : State) (lot core : Nat) (subs : List Nat) : State :=
  (s.touch (s.lot lot).ctx (dieBit (dieOfCore core))).placeVat lot core subs

/-- VAT_PLACE. -/
def execVatPlace (lot : Nat) (s : State) : Out :=
  let l := s.lot lot
  if !s.placing lot || l.record.cohab || s.servedFirst lot then .next s
  else match chooseCore l.record.need (s.ringStart lot) (s.candidates (s.placeDies lot)) with
    | some (core, subs) => .next (s.placeNext lot core subs)
    | none => .next (s.drawEvictions lot l.record.need 1)

/-- COHAB_PLACE: every vat, or none. -/
def execCohabPlace (lot : Nat) (s : State) : Out :=
  let l := s.lot lot
  if !s.placing lot || !l.record.cohab || s.servedFirst lot then .next s
  else match s.cohabAll lot with
    | some ps => .next (ps.foldl (fun s p => s.placeNext lot p.1 p.2) s)
    | none => .next (s.drawEvictions lot l.record.need (l.record.total - l.nextVat))

/-! ### The end of a vat and of a lot -/

/-- A vat may leave its core (R86, spec/07 R395). One on a SILENT die does not (spec/20 R384). -/
def State.mayLeave (s : State) (vk : Nat) : Bool :=
  let v := s.vat vk
  let ks := warpKeys vk v
  (s.vats.get vk).isSome && v.place == .resident && (s.die (dieOfCore v.core)).state != .silent
    && (if v.stop.isSome then s.warpsStopped vk
        else ks.all (fun k => (s.warp k).masks.lmask == 0))
    && ks.all (fun k => (s.opsOf k).isEmpty) && !s.inBox vk

/-- Tasks that a stopped vat was still running leave the table with it, unretired. -/
def State.abandonTasks (s : State) (vk : Nat) : State :=
  let die := dieOfCore (s.vat vk).core
  (warpKeys vk (s.vat vk)).foldl (fun s k =>
    allLanes.foldl (fun s l => match (s.warp k).tasks.get l with
      | some n => if ((s.die die).tasks.get n).retiring.isSome then s else s.dropTask die n
      | none => s) s) s

/-- VAT_LEAVE. -/
def execVatLeave (vat : Nat) (s : State) : Out :=
  if !s.mayLeave vat then .next s
  else
    let v := s.vat vat
    let done := !v.task && (warpKeys vat v).all (fun k => (s.warp k).masks.lmask == 0)
    let s := (s.endVat vat).freeCore vat
    let s := if v.stop.isSome && v.task then s.abandonTasks vat else s
    .next (s.modLot v.lot (fun l => { l with vatsDone := if done then l.vatsDone + 1 else l.vatsDone }))

/-- The vats of a lot that have not left, and its tasks. -/
def State.lotVats (s : State) (lot : Nat) : Bool :=
  s.vats.any (fun e => match e.2 with | some v => v.lot == lot && v.place != .gone | none => false)
def State.lotTasks (s : State) (lot : Nat) : Bool :=
  [0, 1, 2, 3].any (fun d => (s.die d).tasks.any (fun e => e.2.lot == lot && e.2.place != .retired))

/-- The last vat and task of a lot have left, or will not be placed (R86). -/
def State.lotOver (s : State) (lot : Nat) : Bool :=
  let l := s.lot lot
  (s.lots.get lot).isSome && l.phase == .running && !s.lotVats lot
    && (l.status == 1 || l.status == 5
        || (!s.lotTasks lot && (l.record.total ≤ l.nextVat || (l.abort && (s.liveDies (s.ctx l.ctx).part).all (fun d => l.abortAtDie d s.gtime)))))

/-- LOT_COMPLETE: tasks that have not run are discarded with a lot that failed. -/
def execLotComplete (lot : Nat) (s : State) : Out :=
  if !s.lotOver lot then .next s
  else
    let s := if (s.lot lot).status == 0 then s else [0, 1, 2, 3].foldl (fun s d => s.discardTasks lot d) s
    .next (s.completeLot lot)

end Sys2Proof.Machine
end

