-- ==== Sys2Proof/Machine/Driver.lean ====
section
/-! DEFINITION. Driver commands (spec/03 R70–R72) and the host's answers to the fault queue (spec/07 R175). -/

namespace Sys2Proof.Machine

/-! ### The driver command ring -/

/-- DRIVER_DOORBELL. -/
def execDriverDoorbell (part : Nat) (wi : BitVec 32) (s : State) : Out :=
  if s.ready && !(s.part part).ldt.isEmpty then .next (s.modPart part (fun p => { p with dcdesc := p.dcdesc.doorbell wi })) else .next s

/-- The next command of a partition: its record's physical address and bytes. Commands run one at a time; while the read of the record, or of
the context descriptor that CTXNEW names, waits for a SILENT die none is taken (spec/01 R31). -/
def State.driverHead (s : State) (part : Nat) : Option (Nat × List Byte) :=
  let p := s.part part
  let d := p.dcdesc
  if !s.ready || !d.en || d.ri == d.wi || p.command.isSome then none
  else
    let pa := d.recordPa 64
    let bs := s.physRead part pa 64
    if s.physHeld part pa 64 || (bs.headD 0 == 1 && s.physHeld part (dwordAt bs 8).toNat 256) then none else some (pa, bs)

/-- A command ends: word 0x04 of its record. -/
def State.endCommand (s : State) (part pa : Nat) (status : Word) : State :=
  (s.physWrite part (pa + 4) (wordBytes (0x80000000 ||| status))).modPart part (fun p => { p with command := none })

/-- Takes the next command of a partition if its opcode passes a test. The effect answers with a status that ends the
command, or with none while it waits. -/
def State.driverCommand (s : State) (part : Nat) (is : Byte → Bool) (eff : State → DriverCommand → List Byte → State × Option Word) : Out :=
  match s.driverHead part with
  | none => .next s
  | some (pa, bs) =>
    if !is (bs.headD 0) then .next s
    else
      let s := s.modPart part (fun p => { p with dcdesc := { p.dcdesc with ri := p.dcdesc.ri + 1 } })
      let ctx := word bs 0 / 2 ^ 16
      let cmd : DriverCommand := {
        op := bs.headD 0, pa := pa, ctx := ctx, va := dwordAt bs 8, pages := (dwordAt bs 16).toNat, before := s.nextOp, lw := (s.ctx ctx).lwdesc }
      let r := eff s cmd bs
      match r.2 with
      | some st => .next (r.1.endCommand part pa st)
      | none => .next (r.1.modPart part (fun p => { p with command := some cmd }))

/-- A context that exists in a partition. -/
def State.ctxIn (s : State) (part ctx : Nat) : Bool := (s.ctxs.get ctx).isSome && (s.ctx ctx).part == part

/-- CTXNEW. One that ends with status 2 or 3 creates no context and does not freeze FEATACC (DESIGN CHOICE, log 91: spec/03 R73 says only "the
first CTXNEW"). -/
def execCtxnew (part : Nat) (s : State) : Out :=
  s.driverCommand part (· == 1) (fun s cmd bs =>
    if 512 ≤ cmd.ctx then (s, some 2)
    else if (s.ctxs.get cmd.ctx).isSome then (s, some 3)
    else
      let pa := (dwordAt bs 8).toNat
      let d := s.physRead part pa 256
      let q (o : Nat) : BitVec 64 := dwordAt d o
      if pa % 256 != 0 || (d.drop 0x30).any (· != 0) || (q 8).toNat % 65536 != 0 || (q 0x10).toNat % 4096 != 0 || (q 0x20).toNat % 65536 != 0 then
        (s, some 2)
      else
        let c : Context := { (default : Context) with
          part := part, root := q 0, saveVa := q 8, ovfVa := q 0x10, ovfPages := (q 0x18).toNat, poolVa := q 0x20, poolTiles := (q 0x28).toNat }
        ((s.setCtx cmd.ctx c).modHub (fun h => { h with featFrozen := true }), some 0))

/-- Cached translations and decoded words of a context in a range are discarded: `pages` of 4 KiB from `va` on, or all. -/
def State.dropCached (s : State) (ctx : Nat) (va : BitVec 64) (pages : Nat) : State :=
  let lo := va.toNat / 4096 * 4096
  let hi := lo + 4096 * pages
  let meets (at' size : Nat) : Bool := pages == 0 || (decide (at' < hi) && decide (lo < at' + size))
  { s with
    tlb := s.tlb.mapVals (fun _ es => es.filter (fun e => !(e.ctx == ctx && meets e.base (2 ^ e.shift)))),
    cores := s.cores.mapVals (fun _ c => { c with
      decoded := c.decoded.keep (fun k _ => !(decodedCtx k == ctx && meets (decodedVa k + 4 * (k % 16)) 4)) }) }

/-- Copies and their like are discarded (spec/07 R395): a copy leaves the bytes it has written, a stream engine stops at its next box
boundary. -/
def State.discardWork (s : State) (ctx : Nat) : State :=
  let mine := s.ops.filterMap (fun e => match e.2 with | some o => if o.ctx = ctx ∧ o.complete = false then some (e.1, o) else none | none => none)
  let s := mine.foldl (fun (s : State) (e : Nat × Op) => match e.2.work with
    | .copy _ _ _ _ => s.finish e.1 id
    | .dcopy _ _ _ _ _ => s.finish e.1 id
    | .histl _ _ => s.finish e.1 id
    | .sego n => if (s.engine (s.warp e.2.warp).core n).inBox then s else s.finish e.1 id
    | _ => s) s
  { s with cores := s.cores.mapVals (fun _ c => { c with engines := c.engines.mapVals (fun _ x =>
      match x.holder with
      | some vk =>
        if x.busy && (s.lot (s.vat vk).lot).ctx == ctx then (if x.inBox then { x with stopping := true } else { x with busy := false, flt := false, slot := none })
        else x
      | none => x) }) }

/-- CTXRESET begins (R72). -/
def State.resetContext (s : State) (ctx : Nat) : State :=
  let s := s.modCtx ctx (fun c => { c with resetting := true, services := [], queues := c.queues.mapVals (fun _ q => { q with en := false }) })
  let gated := s.lotsOf ctx (· == .gated)
  let running := s.lotsOf ctx (· == .running)
  let s := (gated ++ running).foldl (fun s l => s.modLot l (fun l => { l with status := 5 })) s
  let s := gated.foldl (fun s l => s.completeLot l) s
  let s := (s.vatsOf ctx).foldl (fun s v => s.stopVat v true) s
  let s := running.foldl (fun s l => [0, 1, 2, 3].foldl (fun s d => s.discardTasks l d) s) s
  let s := s.discardWork ctx
  s.lake.foldl (fun s e => s.lakeDiscard e.1 ctx) s

/-- The reset has ended: nothing of the context's work is left. -/
def State.resetOver (s : State) (ctx : Nat) : Bool := (s.vatsOf ctx).isEmpty && (s.lotsOf ctx (· != .complete)).isEmpty

/-- What a context is after its reset. Its histogram latches stand (DESIGN CHOICE, log 111: neither spec/03 R72 nor spec/04 R103 names them). -/
def Context.cleared (c : Context) : Context :=
  { c with
    resetting := false, faulted := false, terminal := none, tdmask := 0, lwOld := [], refillStopped := 0, waiting := default,
    ovf := (List.range 4).foldl (fun m d => m.set (2 * d) (m.get (2 * d + 1))) c.ovf }

/-- The end of a reset: the rename map is emptied in memory (spec/04 R92), and no record of the context is left in a table or a ring (R102). -/
def State.endReset (s : State) (ctx : Nat) : State :=
  let c := s.ctx ctx
  let s := if c.poolTiles = 0 then s else (s.agentWrite ctx c.poolVa (zeros 4096) 170).1
  let s := { s with dies := s.dies.mapVals (fun _ d => { d with tasks := d.tasks.keep (fun _ t => t.ctx != ctx) }) }
  (s.dropCached ctx 0 0).modCtx ctx Context.cleared

/-- CTXRESET: it ends with TLBINV_COMPLETE. -/
def execCtxreset (part : Nat) (s : State) : Out :=
  s.driverCommand part (· == 2) (fun s cmd _ =>
    if 512 ≤ cmd.ctx then (s, some 2)
    else if !s.ctxIn part cmd.ctx then (s, some 3)
    else (s.resetContext cmd.ctx, none))

/-- TLBINV (R71). -/
def execTlbinv (part : Nat) (s : State) : Out :=
  s.driverCommand part (· == 3) (fun s cmd _ =>
    if 512 ≤ cmd.ctx then (s, some 2)
    else if !s.ctxIn part cmd.ctx then (s, some 3)
    else (s.dropCached cmd.ctx cmd.va cmd.pages, none))

/-- An access translated at its issue, and not yet performed. -/
def Op.translated (o : Op) : Bool :=
  !o.complete && !o.performed && match o.work with
    | .load _ accs _ _ => !accs.isEmpty
    | .store _ bs => !bs.isEmpty
    | .atomic accs _ => !accs.isEmpty
    | .tileStore bs _ _ => !bs.isEmpty
    | _ => false

/-- Accesses translated before a command have been performed. A running Lake command translated its ranges at its start. -/
def State.translatedDone (s : State) (cmd : DriverCommand) : Bool :=
  s.ops.all (fun e => match e.2 with
      | some o => decide (cmd.before ≤ e.1) || o.ctx != cmd.ctx || !o.translated
      | none => true)
    && s.lake.all (fun e => match e.2.run, e.2.queue with
      | some c, x :: _ => x.ctx != cmd.ctx || decide (cmd.before ≤ x.op) || c.blocks.isEmpty
      | _, _ => true)

/-- Settings changed before a command apply from now on (spec/02 R48); a later change keeps the setting of the command as its
old one. -/
def Context.applyWindows (c : Context) (cmd : DriverCommand) : Context :=
  { c with lwOld := c.lwOld.mapVals (fun k w =>
      match w with | some _ => if c.lwdesc.get k = cmd.lw.get k then none else some (cmd.lw.get k) | none => none) }

/-- TLBINV_COMPLETE: the end of TLBINV, and of CTXRESET once its vats have left. -/
def execTlbinvComplete (part : Nat) (s : State) : Out :=
  match (s.part part).command with
  | none => .next s
  | some cmd =>
    if !s.translatedDone cmd || (cmd.op == 2 && !s.resetOver cmd.ctx) then .next s
    else
      let s := s.modCtx cmd.ctx (·.applyWindows cmd)
      let s := s.modPart part (fun p => { p with plOld := none })
      let s := if cmd.op == 2 then s.endReset cmd.ctx else s.dropCached cmd.ctx cmd.va cmd.pages
      .next (s.endCommand part cmd.pa 0)

/-- CTXFREE (R70). -/
def execCtxfree (part : Nat) (s : State) : Out :=
  s.driverCommand part (· == 4) (fun s cmd _ =>
    if 512 ≤ cmd.ctx then (s, some 2)
    else if !s.ctxIn part cmd.ctx || (s.ctx cmd.ctx).queues.any (fun q => q.2.en) || !(s.lotsOf cmd.ctx (· != .complete)).isEmpty then (s, some 3)
    else
      let s := s.dropCached cmd.ctx 0 0
      ({ s with ctxs := s.ctxs.set cmd.ctx none }, some 0))

/-- DRIVER_BAD_OPCODE. -/
def execDriverBadOpcode (part : Nat) (s : State) : Out :=
  s.driverCommand part (fun op => op == 0 || 4 < op) (fun s _ _ => (s, some 1))

/-! ### FSVC (spec/07 R175) -/

/-- Takes the outstanding record that an answer names. -/
def State.answer (s : State) (ctx : Nat) (seq : BitVec 16) (eff : State → Service → State) : State :=
  let c := s.ctx ctx
  if !s.ready || (s.ctxs.get ctx).isNone || c.faulted || c.resetting then s
  else match c.services.find? (fun x => x.seq == seq) with
    | none => s
    | some x => eff (s.modCtx ctx (fun c => { c with services := c.services.filter (fun x => x.seq != seq) })) x

/-- RESUME: a refill goes on; a warp that waited on its core replays, or, where an eviction has taken it, will once it runs again; a vat that
is swapped out may return once each of its records is answered. -/
def State.resumeRecord (s : State) (ctx : Nat) (x : Service) : State :=
  match x.refill with
  | some d => s.modCtx ctx (fun c => { c with refillStopped := c.refillStopped &&& ~~~ dieBit d })
  | none =>
    let w := s.warp x.warp
    if (s.vat x.vat).place == .gone || (s.vat x.vat).stop.isSome then s
    else if w.serviceWait && w.onCore then s.replaySwapped x.warp
    else
      let s := s.modWarp x.warp (fun w => { w with serviceWait := false })
      let more := (s.ctx ctx).services.any (fun y => y.refill.isNone && y.vat == x.vat)
      s.modVat x.vat (fun v => { v with resumed := !more })

/-- FAILLOT. -/
def State.failLot (s : State) (ctx : Nat) (x : Service) : State :=
  let s := s.noteFirst x.lot x.record
  let s := s.modLot x.lot (fun l => { l with
    status := if l.status == 0 || l.status == 2 then 1 else l.status, first := l.first.map (fun f => { f with rung := 2 }) })
  let all := x :: (s.ctx ctx).services.filter (fun y => y.lot == x.lot)
  let dies := all.foldl (fun m y => match y.refill with | some d => m ||| dieBit d | none => m) 0
  let s := s.modCtx ctx (fun c => { c with
    refillStopped := c.refillStopped &&& ~~~ dies, services := c.services.filter (fun y => y.lot != x.lot) })
  let s := [0, 1, 2, 3].foldl (fun s d => s.discardTasks x.lot d) s
  ((s.vatsOf ctx).filter (fun v => (s.vat v).lot == x.lot)).foldl (fun s v => s.stopVat v false) s

/-- FSVC_RESUME. -/
def execFsvcResume (ctx : Nat) (seq : BitVec 16) (s : State) : Out := .next (s.answer ctx seq (fun s x => s.resumeRecord ctx x))

/-- FSVC_FAILLOT. -/
def execFsvcFaillot (ctx : Nat) (seq : BitVec 16) (s : State) : Out := .next (s.answer ctx seq (fun s x => s.failLot ctx x))

/-- FAILCTX: the record stands in the queue already. -/
def State.failCtx (s : State) (ctx : Nat) (x : Service) : State :=
  (s.terminate ctx x.record).modCtx ctx (fun c => { c with terminal := some x.record })

/-- FSVC_FAILCTX. -/
def execFsvcFailctx (ctx : Nat) (seq : BitVec 16) (s : State) : Out := .next (s.answer ctx seq (fun s x => s.failCtx ctx x))

/-- A write of the upper word of FSVC. -/
def State.fsvc (s : State) (ctx : Nat) (upper : Word) : State :=
  let low := (s.ctx ctx).fsvcLow.setWidth 2
  s.answer ctx (upper.setWidth 16) (fun t x =>
    if low == (0 : BitVec 2) then t.resumeRecord ctx x
    else if low == (1 : BitVec 2) then t.failLot ctx x
    else if low == (2 : BitVec 2) then t.failCtx ctx x
    else s)

end Sys2Proof.Machine
end

