-- ==== Sys2Proof/Machine/Mgmt.lean ====
section
/-! DEFINITION. The management plane and the hub's registers: boot and manifest (spec/03 R75, R76, spec/01 R18, R24), SPDM (R77),
key slots (spec/02 R56), BAR0 (R59–R62), features (R73), power (R78), accesses from outside the device (R57, R58, R61, spec/08
R217). -/

namespace Sys2Proof.Machine

/-! ### The manifest (spec/01 R18, R24) -/

/-- Position key of a core at (x, y) of die `d` (Table 3). -/
def positionKey (d x y : Nat) : Nat :=
  match d with
  | 0 => 8 * y + x
  | 1 => 6 * x + (5 - y)
  | 2 => 8 * (5 - y) + (7 - x)
  | _ => 6 * (7 - x) + y

/-- Inserts a core in the order of its key. -/
def insertCore (d : Nat) (c : Nat × Nat) : List (Nat × Nat) → List (Nat × Nat)
  | [] => [c]
  | e :: es => if positionKey d c.1 c.2 < positionKey d e.1 e.2 then c :: e :: es else e :: insertCore d c es

/-- The enabled cores of a die in logical order. -/
def manifestCores (m : Manifest) (d : Nat) : List (Nat × Nat) :=
  (m.cores.filterMap (fun c => if c.1 = d then some c.2 else none)).foldl (fun l c => insertCore d c l) []

/-- A die is present: the manifest names its cores. -/
def manifestPresent (m : Manifest) (d : Nat) : Bool := !(manifestCores m d).isEmpty

/-- The die sets a partition may have; partitions of the four dies into such sets are those of Table 6. -/
def dieSets : List (List Nat) := [[0, 1, 2, 3], [0, 1], [1, 2], [2, 3], [0, 3], [0], [1], [2], [3]]

/-- The content checks of a manifest: an allowed split, each partition with a launch processor and a present die, 44 distinct
positions on each present die. -/
def manifestOk (m : Manifest) : Bool :=
  m.parts.all dieSets.contains && [0, 1, 2, 3].all (fun d => (m.parts.filter (·.contains d)).length == 1)
    && m.launchProcs.length == m.parts.length && m.launchProcs.all (1 ≤ ·)
    && m.parts.all (fun p => p.any (manifestPresent m))
    && m.cores.all (fun c => c.1 < 4 && c.2.1 < 8 && c.2.2 < 6) && decide m.cores.Nodup
    && [0, 1, 2, 3].all (fun d => !manifestPresent m d || (manifestCores m d).length == 44)

/-- What the manifest sets (R76). -/
def State.applyManifest (s : State) (m : Manifest) : State :=
  let part (i : Nat) : Partition := { (default : Partition) with
    ldt := (m.parts.getD i []).filter (manifestPresent m), launchProcs := m.launchProcs.getD i 0, plcfg := m.plcfg.getD i 0, ackto := 50 }
  let die (d : Nat) : Die := { (default : Die) with
    state := if manifestPresent m d then .live else .absent, part := m.parts.findIdx (·.contains d), cores := manifestCores m d, btim := 24, clock := 32 }
  { s with
    parts := (List.range m.parts.length).foldl (fun r i => r.set i (part i)) [],
    dies := [0, 1, 2, 3].foldl (fun r d => r.set d (die d)) [],
    hub := { s.hub with devnum := m.devnum, ports := m.ports, routes := m.routes, manifestDigest := m.digest } }

/-! ### Boot (R75, R76) -/

def State.bootFailed (s : State) (code : BitVec 16) : State :=
  s.modHub (fun h => { h with devst := .failed, devCode := code, retryAt := s.gtime })

/-- The image is fetched and verified, memory trained, the manifest verified and applied. -/
def State.boot (s : State) (b : Boot) : State :=
  if !b.fetchOk then s.bootFailed 2
  else if !b.imageSigOk then s.bootFailed 1
  else
    let s := s.modHub (fun h => { h with digests := b.stageDigests, isaMin := if b.minor ≤ 2 then 2 else b.minor, microcode := b.microcode })
    if !b.memoryOk then s.bootFailed 5
    else if !b.manifestSigOk then s.bootFailed 3
    else if !manifestOk b.manifest then s.bootFailed 4
    else (s.applyManifest b.manifest).modHub (fun h => { h with devst := .ready, devCode := 0 })

/-- The device after a reset, before its boot: memory and what was observed from outside stand. -/
def State.afterReset (s : State) : State :=
  { State.reset with
    mem := s.mem, lineKey := s.lineKey, lineSlot := s.lineSlot, poison := s.poison, agenda := s.agenda, fresh := s.fresh,
    hub := { Hub.reset with irqs := s.hub.irqs, reads := s.hub.reads, spdm := s.hub.spdm, log := s.hub.log, hostRanges := s.hub.hostRanges } }

/-- DEVICE_RESET. -/
def execDeviceReset (boot : Boot) (s : State) : Out := .next (s.afterReset.boot boot)

/-- The management cores keep fetching, every 10 s, after a failed fetch or signature (R75). -/
def State.retries (s : State) : Bool := s.hub.devst == .failed && (s.hub.devCode == 1 || s.hub.devCode == 2)
def State.retryTime (s : State) : Nat := s.hub.retryAt + 10000000000

/-- FIRMWARE_FETCH_RETRY. -/
def execFirmwareFetchRetry (boot : Boot) (s : State) : Out :=
  if s.retries && decide (s.retryTime ≤ s.gtime) then .next (s.boot boot) else .next s

/-! ### SPDM (R77) -/

/-- Mailbox 4 is MCTP; the others are those of the functions. -/
def State.mailbox (s : State) (mbox : Nat) : Bool := mbox == 4 || !(s.part mbox).ldt.isEmpty

def State.spdmReply (s : State) (mbox : Nat) (r : SpdmReply) : Out :=
  if s.mailbox mbox then .next (s.modHub (fun h => { h with spdm := h.spdm ++ [r] })) else .next s

/-- The seven requests and the session request. -/
def execGetVersion (mbox : Nat) (s : State) : Out := s.spdmReply mbox (.version 1 3)
def execGetCapabilities (mbox : Nat) (s : State) : Out := s.spdmReply mbox (.capabilities (Config.spdmBody 1 0))
def execNegotiateAlgorithms (mbox : Nat) (s : State) : Out := s.spdmReply mbox (.algorithms true true)
def execGetDigests (mbox : Nat) (s : State) : Out := s.spdmReply mbox (.digests (Config.spdmBody 3 0))
def execGetCertificate (mbox : Nat) (s : State) : Out := s.spdmReply mbox (.certificate (Config.spdmBody 4 0))
def execChallenge (mbox nonce : Nat) (s : State) : Out := s.spdmReply mbox (.challengeAuth (Config.spdmBody 5 nonce))
def execGetMeasurements (mbox : Nat) (s : State) : Out := s.spdmReply mbox (.measurements s.hub.digests s.hub.manifestDigest)
def execKeyExchange (mbox : Nat) (s : State) : Out := s.spdmReply mbox .unsupportedRequest

/-! ### Key slots (spec/02 R56) -/

/-- The caches of the cores keep no line that was read through a key slot. -/
def State.dropSlot (s : State) (slot : BitVec 10) : State :=
  let keep {α : Type} (m : Map α) : Map α := m.keep (fun k _ => k % 1024 != slot.toNat)
  { s with cores := s.cores.mapVals (fun _ c => { c with l1 := keep c.l1, icache := keep c.icache, tlrCache := keep c.tlrCache }) }

/-- KEY_SLOT_LOAD. Lines that were written under the slot's key before and are resident, or stored, are read as decrypted with the new key from
this moment on; no plaintext of them stays in a cache (DESIGN CHOICE, log 93: R56 speaks of KEY_SLOT_CLEAR alone). -/
def execKeySlotLoad (slot : BitVec 10) (key : Option (BitVec 512)) (s : State) : Out :=
  .next ((s.dropSlot slot).modHub (fun h => { h with keys := h.keys.set slot.toNat (match key with | some k => .xts k | none => .plain) }))

/-- The lines written through a key slot. -/
def State.slotLines (s : State) (slot : BitVec 10) : List Nat :=
  if slot != 0 then s.lineSlot.filterMap (fun e => if e.2 = slot then some e.1 else none)
  else ((s.mem.map (fun e => lineOf e.1)).filter (fun l => region (keyPa (128 * l)) < 8 && s.lineSlot.get l == 0)).eraseDups

/-- KEY_SLOT_CLEAR: lines that a cache holds under the slot are discarded without write-back; which ones, and what the memory
behind them holds, is open. -/
def execKeySlotClear (slot : BitVec 10) (s : State) : Out :=
  let s := (s.slotLines slot).foldl (fun s l =>
    if s.choice (1000 + l) then
      { s with mem := s.mem.setFrom (128 * l) ((List.range 128).map (fun i => Config.freeByte s.fresh (128 * l + i))) }
    else s) s
  .next ((s.dropSlot slot).modHub (fun h => { h with keys := h.keys.set slot.toNat .empty }))

/-! ### BAR0 (R59, R60, R62, R73, R78) -/

/-- A write of a function takes effect: the device is READY and the function exists. -/
def State.opens (s : State) (fn : Nat) : Bool := s.ready && !(s.part fn).ldt.isEmpty

/-- FEATACC: through partition 0, before the first CTXNEW; bits not in FEATURES are stored as 0. -/
def State.writeFeatacc (s : State) (fn : Nat) (value : BitVec 128) : State :=
  if s.opens fn && fn == 0 && !s.hub.featFrozen then s.modHub (fun h => { h with featacc := value &&& features }) else s

def State.writePwrlim (s : State) (fn : Nat) (value : Word) : State :=
  if s.opens fn && fn == 0 then s.modHub (fun h => { h with pwrlim := value.setWidth 11 }) else s

/-- PLCFG: while the partition has no context (spec/02 R40). -/
def State.writePlcfg (s : State) (fn : Nat) (value : Word) : State :=
  if s.opens fn && !s.ctxs.any (fun e => match e.2 with | some c => c.part == fn | none => false) then
    s.modPart fn (fun p => { p with plcfg := value.setWidth 2, plOld := some (p.plOld.getD p.plcfg) })
  else s

/-- FEATACC_WRITE, PWRLIM_WRITE, PLCFG_WRITE. -/
def execFeataccWrite (fn : Nat) (value : BitVec 128) (s : State) : Out := .next (s.writeFeatacc fn value)
def execPwrlimWrite (fn : Nat) (value : BitVec 32) (s : State) : Out := .next (s.writePwrlim fn value)
def execPlcfgWrite (fn : Nat) (value : BitVec 32) (s : State) : Out := .next (s.writePlcfg fn value)

/-- One 32-bit word of a wider register changed. -/
def putWord (x : Nat) (j : Nat) (v : Word) : Nat :=
  x % 2 ^ (32 * j) + v.toNat * 2 ^ (32 * j) + x / 2 ^ (32 * (j + 1)) * 2 ^ (32 * (j + 1))

/-- A write of word `j` of a queue descriptor (R62, R10). -/
def Queue.writeWord (q : Queue) (j : Nat) (v : Word) : Queue :=
  match j with
  | 0 =>
    let q := if q.en then q else { q with base := (q.base &&& ~~~ (0xFFFF : BitVec 40)) ||| (v >>> 16).setWidth 40, log2n := v.extractLsb' 8 4 }
    let q := if v.getLsbD 1 then { q with err := false } else q
    if v.getLsbD 0 then q.enable else { q with en := false }
  | 1 => if q.en then q else { q with base := (q.base &&& (0xFFFF : BitVec 40)) ||| ((v &&& 0xFFFFFF).setWidth 40 <<< 16) }
  | 3 => q.doorbell v
  | _ => q

/-- The bits of LWDESC that can be written (spec/02 R43). -/
def lwMask : BitVec 256 := ((BitVec.ofNat 256 (2 ^ 96 - 1)) <<< 128) ||| ((BitVec.ofNat 256 (2 ^ 24 - 1)) <<< 96) ||| ((BitVec.ofNat 256 (2 ^ 32 - 1)) <<< 64) ||| BitVec.ofNat 256 (2 ^ 41 - 1)

/-- A layout window changes; the value before changes that no TLBINV has covered is kept (spec/02 R48). -/
def Context.writeWindow (c : Context) (k j : Nat) (v : Word) : Context :=
  let old := c.lwdesc.get k
  let new := BitVec.ofNat 256 (putWord old.toNat j v) &&& lwMask
  { c with
    lwdesc := c.lwdesc.set k new,
    lwOld := match c.lwOld.get k with | some _ => c.lwOld | none => c.lwOld.set k (some old) }

/-- A write into a context's register block (Table 4); one of WI notes the records it covers (R63). -/
def State.writeBlock (s : State) (fn ctx off : Nat) (v : Word) : State :=
  if !s.ctxIn fn ctx then s
  else if off < 0x100 then
    let t := s.modQueue ctx (off / 16) (·.writeWord (off / 4 % 4) v)
    if off / 4 % 4 == 3 then t.coverRecords ctx (off / 16) else t
  else if off == 0x100 then s.modCtx ctx (fun c => { c with fsvcLow := v })
  else if off == 0x104 then s.fsvc ctx v
  else if 0x200 ≤ off && off < 0x300 then s.modCtx ctx (·.writeWindow ((off - 0x200) / 32) (off / 4 % 8) v)
  else s

/-- A write into the first 32 MiB (Table 5). -/
def State.writeDevice (s : State) (fn off : Nat) (v : Word) : State :=
  if 0x50 ≤ off && off < 0x60 then s.writeFeatacc fn (BitVec.ofNat 128 (putWord s.hub.featacc.toNat ((off - 0x50) / 4) v))
  else if off == 0x80 then s.writePwrlim fn v
  else if 0x100 ≤ off && off < 0x110 then s.modPart fn (fun p => { p with dcdesc := p.dcdesc.writeWord ((off - 0x100) / 4) v })
  else if off == 0x324 then s.writePlcfg fn v
  else if off == 0x328 then s.modPart fn (fun p => { p with ackto := v.setWidth 16 })
  else if 0x330 ≤ off && off < 0x340 && (s.die ((off - 0x330) / 4)).part == fn && (s.die ((off - 0x330) / 4)).state != .absent then
    s.modDie ((off - 0x330) / 4) (fun d => { d with btim := v.setWidth 8 })
  else s

/-- REGISTER_WRITE: a 32-bit write through BAR0, or of DLCFG by the management plane (spec/01 R23). -/
def execRegisterWrite (src : Option Nat) (offset : BitVec 26) (value : BitVec 32) (s : State) : Out :=
  let off := offset.toNat / 4 * 4
  match src with
  | none =>
    if off == 0x320 then .next (s.modHub (fun h => { h with dlto := value.extractLsb' 8 16, hbmiss := value.setWidth 8 })) else .next s
  | some fn =>
    if !s.opens fn then .next s
    else if off < 0x2000000 then .next (s.writeDevice fn off value)
    else .next (s.writeBlock fn ((off - 0x2000000) / 0x10000) (off % 0x10000) value)

/-! ### What BAR0 reads as (R59, R60) -/

/-- DEVST. -/
def Hub.devstWord (h : Hub) : Word :=
  h.devCode.setWidth 32 <<< 16 ||| (match h.devst with | .booting => 0 | .ready => 1 | .failed => 2)

/-- DIEST (spec/01 R30). -/
def Die.diest (d : Die) : Word :=
  d.stale.setWidth 32 <<< 16 ||| BitVec.ofNat 32 (d.part % 4) <<< 12 ||| d.inc.setWidth 32 <<< 4
    ||| (match d.state with | .absent => 0 | .live => 1 | .silent => 2 | .lost => 3 | .resetting => 4)

/-- Word `j` of a queue descriptor (R62). -/
def Queue.readWord (q : Queue) (j : Nat) : Word :=
  match j with
  | 0 => (q.base.setWidth 32 <<< 16) ||| q.log2n.setWidth 32 <<< 8 ||| (if q.err then 2 else 0) ||| (if q.en then 1 else 0)
  | 1 => (q.base >>> 16).setWidth 32
  | 2 => q.ri
  | _ => q.wi

/-- Word `j` of SLOTMAP (spec/10 R241): bit 8 × OP + F says that the slot executes. -/
def Hub.slotmapWord (h : Hub) (j : Nat) : Word :=
  (List.range 32).foldl (fun x b => if h.slotRuns (32 * j + b) then x ||| (1 : Word) <<< b else x) 0

/-- A register of the first 32 MiB (Table 5). ORIENT and TECFG of a die outside the partition read as 0, and so do those of an ABSENT die of its
die set (DESIGN CHOICE, log 94: spec/01 R16 names no value there). -/
def State.readDevice (s : State) (fn off : Nat) : Word :=
  let own (d : Nat) : Bool := (s.die d).part == fn && (s.die d).state != .absent
  if 0x10 ≤ off && off < 0x18 then wordOf (BitVec.ofNat 64 s.gtime) ((off - 0x10) / 4)
  else if off == 0x30 then s.hub.isaver
  else if 0x40 ≤ off && off < 0x50 then wordOf features ((off - 0x40) / 4)
  else if 0x50 ≤ off && off < 0x60 then wordOf s.hub.featacc ((off - 0x50) / 4)
  else if off == 0x80 then s.hub.pwrlim.setWidth 32
  else if 0x100 ≤ off && off < 0x110 then (s.part fn).dcdesc.readWord ((off - 0x100) / 4)
  else if 0x200 ≤ off && off < 0x240 then s.hub.slotmapWord ((off - 0x200) / 4)
  else if 0x300 ≤ off && off < 0x310 then (s.die ((off - 0x300) / 4)).diest
  else if 0x310 ≤ off && off < 0x320 && own ((off - 0x310) / 4) then BitVec.ofNat 32 ((off - 0x310) / 4 * 5)
  else if off == 0x320 then s.hub.dlto.setWidth 32 <<< 8 ||| s.hub.hbmiss.setWidth 32
  else if off == 0x324 then (s.part fn).plcfg.setWidth 32
  else if off == 0x328 then (s.part fn).ackto.setWidth 32
  else if 0x330 ≤ off && off < 0x340 && own ((off - 0x330) / 4) then (s.die ((off - 0x330) / 4)).btim.setWidth 32
  else 0

/-- A register of a context's block (Table 4). FSVC is write-only and reads as 0. -/
def State.readBlock (s : State) (fn ctx off : Nat) : Word :=
  if !s.ctxIn fn ctx then 0
  else if off < 0x100 then ((s.ctx ctx).queues.get (off / 16)).readWord (off / 4 % 4)
  else if 0x200 ≤ off && off < 0x300 then wordOf ((s.ctx ctx).lwdesc.get ((off - 0x200) / 32)) (off / 4 % 8)
  else 0

/-- A 32-bit read by the host through BAR0 of a function: until DEVST reads READY, everything but DEVST reads as 0 (R60). -/
def State.readBar0 (s : State) (fn off : Nat) : Word :=
  let off := off / 4 * 4
  if off == 0 then s.hub.devstWord
  else if !s.opens fn then 0
  else if off < 0x2000000 then s.readDevice fn off
  else s.readBlock fn ((off - 0x2000000) / 0x10000) (off % 0x10000)

/-- The host reads a register: nothing changes but the log of what was read. -/
def State.hostRead (s : State) (fn off : Nat) : State :=
  s.modHub (fun h => { h with reads := h.reads ++ [wordBytes (s.readBar0 fn off)] })

/-! ### Power (R78) -/

/-- The limit as the arbiter uses it. -/
def pwrClamp (w : BitVec 11) : Nat := min 1800 (max 600 w.toNat)

/-- POWER_GRANT_PERIOD. -/
def execPowerGrantPeriod (s : State) : Out :=
  if s.gtime < 10000 * (s.hub.periods + 1) then .next s
  else
    let n := s.hub.periods + 1
    let limit := pwrClamp s.hub.pwrlim
    let s := s.modHub (fun h => { h with periods := n, pwrNow := h.pwrlim })
    .next ([0, 1, 2, 3].foldl (fun s d =>
      if (s.die d).state == .live then
        s.modDie d (fun x => { x with clock := (Config.grantStep limit d n).val, lakeHeld := !Config.grantLake limit d n })
      else s) s)

/-! ### The peer fabric and accesses from outside -/

/-- PEER_PORT_LINK_LOSS (R61): the port leaves the route set. -/
def execPeerPortLinkLoss (port : Nat) (s : State) : Out :=
  .next (s.modHub (fun h => { h with ports := h.ports.filter (fun p => p.1 != port), routes := h.routes.filter (fun r => r.2 != port) }))

/-- The key under which operations that no warp issued are kept: no warp has it. -/
def outsideWarp : Nat := 2 ^ 64

/-- A store of another device (spec/08 R217): in the mode .E the device's other dies may read their copies old until they acknowledge. The
operation that keeps what they owe belongs to no warp and to no context. -/
def State.peerStore (s : State) (g : Bool) (bs : List WByte) : State :=
  if g then s.performG bs
  else
    let owed := bs.foldl (fun (m : BitVec 4) (b : WByte) => m ||| s.copyDies b.key hubDie) 0
    let t := s.performE hubDie bs
    if owed == 0 then t
    else
      let o : Op := { (default : Op) with
        warp := outsideWarp, cls := .st, work := .store false bs, complete := true, reported := true, performed := true, owed := owed, die := hubDie,
        ctx := 512, issuedAt := s.gtime }
      { t with ops := t.ops.set t.nextOp (some o), nextOp := t.nextOp + 1 }

/-- The bytes of a range of this device's hashed memory that another device reaches. -/
def State.peerBytes (s : State) (part pa : Nat) (bs : List Byte) : List WByte :=
  let mode := (s.part part).plcfg
  ((wbytes pa 0 bs).filter (fun b => s.backed part mode b.key
    && !(match s.homeOf part b.key with | some d => s.dieGone d | none => false))).map (fun b => { b with key := s.memKey part b.key })

/-- An access of another device, performed at its home: atomics at Mordant, but those of die scope or below (R206). -/
def State.peerAccess (s : State) (part pa : Nat) : DomainAccess → State
  | .read n => s.modHub (fun h => { h with reads := h.reads ++ [s.physRead part pa n] })
  | .store g bs => s.peerStore g (s.peerBytes part pa bs)
  | .atomic scope wide sub b c =>
    let n := if wide then 8 else 4
    if (s.peerBytes part pa (List.replicate n 0)).length < n then s
    else
      let r := s.performAtomic { (default : Op) with warp := outsideWarp, scope := scope } { lane := 0, key := s.memKey part pa, slot := 0, size := n, sub := sub, b := b, c := c, cell := none }
      r.1.modHub (fun h => { h with reads := h.reads ++ [natToBytes n r.2.toNat] })

/-- The same, or held while its home, or a die that holds a copy of what it writes, is SILENT, behind what is held before it (spec/01 R31). -/
def State.outside (s : State) (part pa : Nat) (acc : DomainAccess) : State :=
  let n := match acc with | .read n => n | .store _ bs => bs.length | .atomic _ wide _ _ _ => if wide then 8 else 4
  let reads := match acc with | .read _ => true | _ => false
  let keys := (s.peerBytes part pa (List.replicate n 0)).map (·.key)
  if s.bytesHeld || (if reads then s.physHeld part pa n else s.ackSilent hubDie keys) then { s with posted := s.posted ++ [.access part pa acc] }
  else s.peerAccess part pa acc

/-- An outside access to a partition's hashed memory: a write performed at its home as .G, or a read of 8 bytes. -/
def State.outsideAccess (s : State) (part pa : Nat) (data : Option (List Byte)) : State :=
  s.outside part pa (match data with | some bs => .store true bs | none => .read 8)

/-- HOST_BAR2_ACCESS (R58). -/
def execHostBar2Access (fn : Nat) (pa : BitVec 52) (data : Option (List (BitVec 8))) (s : State) : Out :=
  if s.opens fn && region pa.toNat == 0 then .next (s.outsideAccess fn pa.toNat data) else .next s

/-- HOST_CXL_MEM_ACCESS (R57, spec/08 R217): the range is offered with feature 10 accepted (R74). -/
def execHostCxlMemAccess (part : Nat) (pa : BitVec 52) (data : Option (List (BitVec 8))) (s : State) : Out :=
  if s.opens part && region pa.toNat == 0 && s.hub.featacc.getLsbD 10 then .next (s.outsideAccess part pa.toNat data) else .next s

/-- DOMAIN_ACCESS_RECEIVE (spec/08 R217): over a port of the partition that has a route to the device (spec/01 R25). -/
def execDomainAccessReceive (dev part : Nat) (pa : BitVec 40) (acc : DomainAccess) (s : State) : Out :=
  if s.opens part && s.routed part dev then .next (s.outside part pa.toNat acc) else .next s

/-- The pieces of a held write that still reach a die; the others are discarded with no effect (spec/01 R394). -/
def State.sendPieces (s : State) (pl ctx : Nat) : List (BitVec 64 × Nat) → List Byte → State
  | [], _ => s
  | (va, k) :: rest, bs =>
    let r := s.placeWrite pl ctx va (bs.take k) 240
    (if r.2 = none then r.1 else s).sendPieces pl ctx rest (bs.drop k)

/-- A write that was held goes on; one that fails now faults its context (spec/07 R177), but what a die that is gone would have taken is
discarded. -/
def State.sendOne (s : State) (p : Posted) : State :=
  match p with
  | .range pl ctx va bs =>
    let r := s.agentWrite ctx va bs 240 pl
    match r.2 with
    | some (.lost _ _) => s.sendPieces pl ctx (rangePieces va bs.length) bs
    | some m =>
      r.1.faultContext ctx (({ (default : FaultRecord) with rung := 2, vatnum := 0xFFFFFFFF, gtime := BitVec.ofNat 64 s.gtime }).missed m)
    | none => r.1
  | .bytes bs => s.hubWrite (bs.filter (fun b => match s.homeOfKey b.key with | some d => !s.dieGone d | none => true))
  | .irq ctx part v => s.signalBehind ctx part v
  | .access part pa acc => s.outside part pa acc

/-- The writes that were held for a SILENT die are performed, those that another one does not hold up still. -/
def State.sendPosted (s : State) : State := s.posted.foldl State.sendOne { s with posted := [] }

/-- Another device writes its own memory: copies in this device's L1 caches stay until an acquire discards them (spec/08 R217). -/
def State.peerWrite (s : State) (dev off : Nat) (bs : List Byte) : State :=
  if dev % 256 = s.hub.devnum.toNat then s
  else (wbytes (2 * 2 ^ 48 + dev % 256 * 2 ^ 40 + off % 2 ^ 40) 0 bs).foldl State.putByte s

end Sys2Proof.Machine
end

