-- ==== Sys2Proof/Machine/Package.lean ====
section
/-! DEFINITION. Where the parts of the package sit and how they are wired (spec/01 R14, R15, R17, R19): physical places from
logical numbers. Package edges are 0 north, 1 east, 2 south, 3 west; the rotation of logical die `d` is `d`. -/

namespace Sys2Proof.Machine

/-- The side of the hub that die `d` lies on: opposite package edge `d` (R14). -/
def dieSide (d : Nat) : Nat := (d + 2) % 4

/-- The package edge that physical edge `e` of die `d` faces (R14). -/
def edgeFaces (d e : Nat) : Nat := (e + d) % 4

/-- The neighbours of a die (R15 Table 1): behind its edge 3 and behind its edge 1. -/
def clockwiseOf (d : Nat) : Nat := (d + 1) % 4
def counterClockwiseOf (d : Nat) : Nat := (d + 3) % 4

/-- The die-to-die links of a compute die. -/
inductive LinkSide where
  | hub
  | clockwise
  | counterClockwise
  deriving DecidableEq, Repr

/-- The modules of a link (R15 Table 1, R20 Table 5). -/
def LinkSide.modules : LinkSide → Nat
  | .hub => 16
  | .clockwise => 8
  | .counterClockwise => 8

/-- What a physical edge of a compute die carries, and where on the edge. -/
inductive EdgeItem where
  | link (l : LinkSide)
  | stack (st : Nat)
  deriving DecidableEq, Repr
inductive EdgePart where
  | whole
  | nearHub
  | outer
  deriving DecidableEq, Repr

/-- What physical edge `e` of a compute die carries, whatever the die's rotation (R15 Table 1). -/
def edgeCarries (e : Nat) : List (EdgePart × EdgeItem) :=
  match e with
  | 0 => [(.whole, .link .hub)]
  | 1 => [(.nearHub, .link .counterClockwise), (.outer, .stack 0)]
  | 2 => [(.whole, .stack 1)]
  | 3 => [(.nearHub, .link .clockwise), (.outer, .stack 2)]
  | _ => []

/-- The link from one end to another, as the compute die at `die` sees it; 4 is the hub. Opposite dies have none (R21). -/
def linkTo (die other : Nat) : Option LinkSide :=
  if 4 ≤ die then none
  else if other = 4 then some .hub
  else if other = clockwiseOf die then some .clockwise
  else if other = counterClockwiseOf die then some .counterClockwise
  else none

/-- The physical module that carries logical module `m` of a link of die `d` (R17 Table 2). -/
def LinkSide.module (l : LinkSide) (d m : Nat) : Nat :=
  match l with
  | .hub => if d < 2 then m else 15 - m
  | _ => m

/-- The physical lane within a module that carries logical data lane `j` (R17 Table 2). -/
def LinkSide.lane (l : LinkSide) (d j : Nat) : Nat :=
  match l with
  | .hub => if d < 2 then j else 63 - j
  | .clockwise => j
  | .counterClockwise => 63 - j

/-- The package edge that HBM stack `st` of die `d` faces: that of physical edge `st` + 1 (R19). -/
def stackFaces (d st : Nat) : Nat := edgeFaces d (st + 1)

/-- The module site of HBM stack `st` of die `d` (R19). -/
def stackSite (d st : Nat) : Nat := (3 * d + st + 6) % 12

end Sys2Proof.Machine
end

