-- ==== Sys2Proof/Machine/Dies.lean ====
section
/-! DEFINITION. Dies: heartbeats and silence (spec/01 R23), packets and incarnations (R25–R29, R394), the states of a die (R31),
die loss (R34–R38), acknowledgement timeouts (spec/08 R205), Mordant's lines (R206), uncorrectable errors (spec/07 R186). -/

namespace Sys2Proof.Machine

/-! ### Acknowledgement timeouts (R205) -/

/-- ACKTO of a context's partition in nanoseconds; values below 5 act as 5. -/
def State.acktoNs (s : State) (ctx : Nat) : Nat := 1000 * max 5 (s.part (s.ctx ctx).part).ackto.toNat

/-- ACKLOSS of a warp at the context rung. Nothing that arises during a stop is raised (spec/07 R395). -/
def State.ackLoss (s : State) (k : Nat) (r : Raise) : State :=
  if (s.vat (s.warp k).vat).stop.isSome then s else s.offerContext k (s.record k r) .boundary

/-- A store or atomic is counted complete with the acknowledgements of some dies missing: it is performed at its home, and those
dies' copies may still be read old. -/
def State.completeLost (s : State) (n : Nat) (o : Op) (missing : BitVec 4) : State :=
  let keys := o.work.writeKeys
  let bytes : List WByte := keys.map (fun k => ⟨k, 0, 0⟩)
  let before := s.invalidate (15 &&& ~~~ missing) bytes
  let before := keys.foldl (fun s k => s.keepStale k (s.copyDies k o.die)) before
  let done (t : State) (w : Work) : State :=
    { t with copies := before.copies, stale := before.stale }.finish n (fun o => { o with work := w, performed := true, owed := missing, ackLost := true })
  match o.work with
  | .atomic accs ds =>
    let r := s.performAtomics o accs
    done (r.1.deliver o (r.2 ++ ds)) (.store true (keys.map (fun k => ⟨k, r.1.mem.get k, 0⟩)))
  | .store _ bs => done (s.performStore o true bs) (.store true bs)
  | _ => s

/-- What an operation waits for when it carries a release. -/
def Op.releaseScope (o : Op) : Option Nat :=
  match o.work with
  | .histl _ _ => some 3
  | _ => if o.release then some o.scope.toNat else none

/-- The dies whose acknowledgement of a store is missing: those it is owed by, or a SILENT home that holds an .E store back. -/
def State.missingAcks (s : State) (o : Op) : BitVec 4 :=
  if o.performed then o.owed
  else o.work.writeKeys.foldl (fun (m : BitVec 4) (k : Nat) => match s.homeOfKey k with
    | some h => if s.silentBut o.die &&& dieBit h != 0 then m ||| dieBit h else m
    | none => m) 0

/-- The stores whose acknowledgements hold back a release of a warp issued as operation `n` or now: of those that the release waits for
(`State.releaseReady`, `State.joins`) the ones with some missing (spec/08 R194). -/
def State.awaited (s : State) (warp scope n : Nat) : List (Nat × Op) :=
  if scope < 3 then []
  else
    let reached := (s.warp warp).reached ++ (match s.op n with | some o => s.joins o | none => [])
    s.ops.filterMap (fun e => match e.2 with
      | some o =>
        if o.owing && !o.ackLost && s.missingAcks o != 0 && ((o.warp == warp && decide (e.1 < n)) || reached.contains e.1) then some (e.1, o)
        else none
      | none => none)

/-- An .E store that a SILENT home has held back is performed, with the acknowledgements of the dies that hold a copy still owed. -/
def State.performHeld (s : State) (n : Nat) (o : Op) (f : Op → Op) : State :=
  match o.work with
  | .store false bs =>
    let owed := bs.foldl (fun (m : BitVec 4) (b : WByte) => m ||| s.copyDies b.key o.die) 0
    (s.performStore o false bs).finish n (fun o => f { o with performed := true, owed := owed })
  | _ => s

/-- No release waits for these stores any more. -/
def State.giveUp (s : State) (xs : List (Nat × Op)) : State :=
  xs.foldl (fun s e =>
    let f (o : Op) : Op := { o with ackLost := true }
    if e.2.performed then s.setOp e.1 (f e.2) else s.performHeld e.1 e.2 f) s

def State.owedOf (s : State) (xs : List (Nat × Op)) : BitVec 4 := xs.foldl (fun m e => m ||| s.missingAcks e.2) 0

/-- The dies that an atomic, or a store that has not been sent, waits for: those that are SILENT. -/
def State.silentAcks (s : State) (o : Op) : BitVec 4 := s.ackDies o.die o.work.writeKeys &&& s.silentBut o.die

/-- The .E stores that stand before an operation in the coherence order of its bytes, and that only a SILENT home holds back, are performed
before it. -/
def State.pushEarlier (s : State) (n : Nat) (o : Op) : State :=
  s.ops.foldl (fun s e => match e.2 with
    | some e2 =>
      if e.1 < n && !e2.performed && !e2.release && e2.work.overlaps o.work && e2.visibleTo (some o.warp) o.die 0 then s.performHeld e.1 e2 id else s
    | none => s) s

/-- A .G store or atomic whose own acknowledgements are missing. -/
def State.ackLossStore (s : State) (n : Nat) (o : Op) : State :=
  let missing := if o.owed != 0 then o.owed else s.silentAcks o
  let s' := if missing == 0 then s else s.pushEarlier n o
  if missing == 0 || !s'.coReady n o then s
  else
    let s := s'
    let lost := o.sites.filter (fun x => s.ackDies o.die [x.2.2] &&& missing != 0)
    (s.completeLost n o missing).ackLoss o.warp
      { code := fAckLoss, flm := maskOf (lost.map (·.1)), fpc := o.fpc, fva := ((lost.head?).map (·.2.1)).getD 0, dies := missing }

/-- A release or FENCE that a warp stalls at: its scope, and its own address in its lowest lane, 0 where it has none (R205). -/
def State.stalledRelease (s : State) (k : Nat) : Option (Nat × BitVec 64) :=
  let w := s.warp k
  let own (offset : Bool) (a : Code) (xa : Xa) (rel : Bool) : Option (Nat × BitVec 64) :=
    let va := match lowest w.clause.enabled with | some l => ({ s with cur := k } : State).laneVa offset a xa.off l | none => 0
    if rel then some (xa.sco.toNat, va) else none
  if w.hold != .stalled || w.phase != .word then none
  else match decodeWord (s.peek k w.clause.pc).2 (s.peek k (w.clause.pc + 4)).2 with
    | .ok (.fence _ a, _) => some ((a.extractLsb' 0 3).toNat, 0)
    | .ok (.spawn .., _) => some (3, 0)
    | .ok (.spawnR .., _) => some (3, 0)
    | .ok (.st _ a _ xa, _) => own false a xa (xa.ord == 2)
    | .ok (.sts _ a _ xa, _) => own true a xa (xa.ord == 2)
    | .ok (.atom _ _ a _ xa, _) => own false a xa (xa.ord.getLsbD 1)
    | .ok (.atoms _ _ a _ xa, _) => own true a xa (xa.ord.getLsbD 1)
    | .ok (.red _ a _ xa, _) => own false a xa (xa.ord.getLsbD 1)
    | _ => none

/-- The warps that stall at a release that waits for store `n` and has done so for ACKTO. -/
def State.expiredWaiters (s : State) (n : Nat) : List Nat :=
  s.warps.filterMap (fun e => match s.stalledRelease e.1 with
    | some r =>
      if (s.awaited e.1 r.1 s.nextOp).any (fun x => x.1 == n) && decide (e.2.holdSince + s.acktoNs (s.ctxOf e.1) ≤ s.gtime) then some e.1 else none
    | none => none)

/-- ACKTO_EXPIRY (R205, spec/01 R35): of a .G store or atomic; of a release that is an operation; or of a warp that stalls at
a release which waits for the .E store `op`. -/
def execAcktoExpiry (op : Nat) (s : State) : Out :=
  match s.op op with
  | none => .next s
  | some o =>
    let due := decide (o.issuedAt + s.acktoNs o.ctx ≤ s.gtime)
    let waits := match o.releaseScope with | some sc => s.awaited o.warp sc op | none => []
    if !o.complete && !waits.isEmpty then
      if !due then .next s
      else
        let owed := s.owedOf waits
        let s := s.giveUp waits
        let s := match o.work with
          | .store g _ =>
            if !s.performable op o then s
            else if g then s.completeLost op o (s.silentAcks o)
            else s.performHeld op o id
          | .atomic _ _ => if s.performable op o then s.completeLost op o (s.silentAcks o) else s
          | _ => s
        .next (s.ackLoss o.warp { code := fAckLoss, flm := o.issue, fpc := o.fpc, fva := o.va, dies := owed })
    else if !o.complete && o.work.isG && !o.work.writeKeys.isEmpty then
      if due then .next (s.ackLossStore op o) else .next s
    else
      .next ((s.expiredWaiters op).foldl (fun s k =>
        let w := s.warp k
        let r := (s.stalledRelease k).getD (0, 0)
        let xs := s.awaited k r.1 s.nextOp
        (s.giveUp xs).ackLoss k { code := fAckLoss, flm := w.clause.issue, fpc := w.clause.pc, fva := r.2, dies := s.owedOf xs }) s)

/-! ### A die is lost (R28, R34, R35, R394) -/

/-- A vat that was on a lost die is gone: its lot's TEND is now (spec/20 R386). -/
def State.loseVat (s : State) (vk : Nat) : State :=
  let v := s.vat vk
  let s := ((s.freeImage vk).modVat vk (fun v => { v with place := .gone })).modLot v.lot (fun l => { l with tend := s.gtime })
  (warpKeys vk v).foldl (fun s k => s.modWarp k (fun w => { w with resident := false, hold := .free })) s

/-- A byte is homed on one of some dies. -/
def State.homedOn (s : State) (dies : BitVec 4) (key : Nat) : Bool :=
  match s.homeOfKey key with | some h => dies &&& dieBit h != 0 | none => false

/-- What a declaration does to one operation: the hub supplies the acknowledgements; requests of the die, and those to memory
of the die, are discarded, and no reply is awaited (R394). -/
def State.loseOp (s : State) (dies : BitVec 4) (n : Nat) : State :=
  let s := s.acknowledge n dies
  match s.op n with
  | none => s
  | some o =>
    if dies &&& dieBit o.die != 0 then
      if o.performed && o.owed != 0 then s.setOp n { o with reported := true } else s.dropOp n
    else match o.work with
      | .store g bs =>
        let left := bs.filter (fun (b : WByte) => !s.homedOn dies b.key)
        if left.length = bs.length || o.performed then s
        else if left.isEmpty then s.finish n (fun o => { o with work := .done, performed := true, owed := 0 })
        else s.setOp n { o with work := .store g left }
      | .atomic accs ds => s.setOp n { o with work := .atomic (accs.filter (fun a => !s.homedOn dies a.key)) ds }
      | .tileStore bs scratch tiles => s.setOp n { o with work := .tileStore (bs.filter (fun b => !s.homedOn dies b.key)) scratch tiles }
      | .load ds accs split missing =>
        let gone := maskOf ((accs.filter (fun a => a.far && a.keys.any (s.homedOn dies))).map (·.lane))
        let left := missing &&& ~~~ gone
        if o.complete || gone == 0 then s
        else if o.reported && left == 0 then s.dropOp n
        else
          let keep (l : Nat) : Bool := !inMask gone l
          s.setOp n { o with work := .load (ds.filter (fun d => keep d.lane)) (accs.filter (fun a => keep a.lane)) split left }
      | _ => s

/-- The Lake commands and programs on a lost die are gone. -/
def State.loseLake (s : State) (dies : BitVec 4) : State :=
  let gone := s.lake.flatMap (fun e => if dies &&& dieBit (e.1 / 96) != 0 then e.2.queue.map (·.op) else [])
  gone.foldl (fun s n => s.finish n id) { s with lake := s.lake.keep (fun k _ => dies &&& dieBit (k / 96) == 0) }

/-- What the storage of a die held is gone. -/
def State.loseStorage (s : State) (dies : BitVec 4) : State :=
  { s with
    cores := s.cores.keep (fun k _ => dies &&& dieBit (dieOfCore k) == 0),
    copies := s.copies.mapVals (fun _ c => c &&& ~~~ dies),
    stale := s.stale.keep (fun k _ => dies &&& dieBit (k / 2 ^ 58) == 0),
    hub := { s.hub with
      held := s.hub.held.filter (fun p => dies &&& dieBit p.dst == 0 || p.dst == 4),
      hubOwned := s.hub.hubOwned.keep (fun l _ => !s.homedOn dies (64 * l)) } }

/-- The die's registers after the declaration: LOST, the incarnation one more (R28), its task engine empty. -/
def Die.lose (d : Die) : Die :=
  { d with state := .lost, inc := d.inc + 1, missed := 0, flit := false, tasks := [], bins := [], released := [] }

/-- The dies' registers and the hub's copies of their incarnations. -/
def State.declareLost (s : State) (dies : BitVec 4) : State :=
  (setBits dies).foldl (fun s d =>
    (s.modDie d Die.lose).modHub (fun h => { h with incCopies := h.incCopies.set (16 + d) ((s.die d).inc + 1) })) s

/-- DIE_LOST of every context whose mask names one of the dies (R34). -/
def State.lostContexts (s : State) (dies : BitVec 4) : State :=
  s.ctxs.foldl (fun s e => match e.2 with
    | some _ =>
      if (s.ctx e.1).tdmask &&& dies != 0 then
        s.faultContext e.1 { (default : FaultRecord) with
          code := fDieLost, rung := 2, dies := dies, vatnum := 0xFFFFFFFF, gtime := BitVec.ofNat 64 s.gtime }
      else s
    | none => s) s

/-- DLOST of the lots in progress (spec/03 R67). -/
def State.noteLost (s : State) (dies : BitVec 4) : State :=
  { s with lots := s.lots.mapVals (fun _ e => e.map (fun l => if l.phase == .complete then l else { l with dlost := l.dlost ||| dies })) }

/-- The resident vats on some dies. -/
def State.vatsOnDies (s : State) (dies : BitVec 4) : List Nat :=
  s.vats.filterMap (fun e => match e.2 with
    | some v => if v.place = .resident ∧ dies &&& dieBit (dieOfCore v.core) ≠ 0 then some e.1 else none
    | none => none)

/-- Some dies are declared LOST in one step. -/
def State.dieDown (s : State) (dies : BitVec 4) : State :=
  if dies == 0 then s
  else
    let s := s.declareLost dies
    let s := (s.ops.map (·.1)).foldl (fun s n => s.loseOp dies n) s
    let s := (s.loseLake dies).loseStorage dies
    let s := (s.vatsOnDies dies).foldl State.loseVat s
    ((s.noteLost dies).lostContexts dies).sendPosted

/-! ### The states of a die (R23, R31) -/

/-- HBMISS and DLTO as they act. -/
def Hub.missLimit (h : Hub) : Nat := max 1 h.hbmiss.toNat
def Hub.dltoNs (h : Hub) : Nat := 1000 * max 10 h.dlto.toNat

/-- A SILENT die whose DLTO has run out. -/
def State.dltoOver (s : State) (d : Nat) : Bool :=
  (s.die d).state == .silent && decide ((s.die d).silentAt + s.hub.dltoNs ≤ s.gtime)

/-- The end of one interval for one die. -/
def State.interval (s : State) (d : Nat) : State :=
  let x := s.die d
  if x.state != .live then s
  else
    let missed := if x.flit then 0 else x.missed + 1
    if s.hub.missLimit ≤ missed then
      (s.modDie d (fun x => { x with state := .silent, missed := missed, flit := false, silentAt := s.gtime })).modHub
        (fun h => { h with log := h.log ++ [.probe d] })
    else s.modDie d (fun x => { x with missed := missed, flit := false })

/-- HUB_INTERVAL_TICK (R23). -/
def execHubIntervalTick (s : State) : Out :=
  if s.gtime < 1000 * (s.hub.intervals + 1) then .next s
  else .next ([0, 1, 2, 3].foldl State.interval (s.modHub (fun h => { h with intervals := h.intervals + 1 })))

/-- DLTO_EXPIRY (R31): the named dies whose time has run out are declared LOST in one step. -/
def execDltoExpiry (dies : BitVec 4) (s : State) : Out :=
  .next (s.dieDown ((setBits dies).foldl (fun m d => if s.dltoOver d then m ||| dieBit d else m) 0))

/-- DIE_TAKE_DOWN (R31). -/
def execDieTakeDown (die : Nat) (s : State) : Out :=
  .next (s.dieDown (if (s.die die).state == .live then dieBit die else 0))

/-- DIE_RESET_START (R31): the die's memory is written to zero. -/
def execDieResetStart (die : Nat) (s : State) : Out :=
  if (s.die die).state != .lost then .next s
  else
    let on (key : Nat) : Bool := s.homeOfKey key == some die
    .next ({ s with
      mem := s.mem.keep (fun k _ => !on k),
      lineKey := s.lineKey.keep (fun l _ => !on (128 * l)), lineSlot := s.lineSlot.keep (fun l _ => !on (128 * l)),
      sync := s.sync.keep (fun k _ => 2 ^ 64 ≤ k || !on k), poison := s.poison.keep (fun l _ => !on (128 * l)), copies := s.copies.keep (fun l _ => !on (128 * l)),
      stale := s.stale.keep (fun k _ => !on (k % 2 ^ 58)) }.modDie die (fun d => { d with state := .resetting }))

/-- DIE_RESET_DONE (R28, R31): every die has acknowledged the new incarnation. TECFG.BTIM and the granted clock of the die stand as they were
(DESIGN CHOICE, log 96: R31 clears SRAMs, L2 and HBM and names no register). -/
def execDieResetDone (die : Nat) (s : State) : Out :=
  if (s.die die).state != .resetting then .next s
  else
    let inc := (s.die die).inc
    .next ((s.modDie die (fun d => { d with state := .live, missed := 0, flit := false })).modHub (fun h => { h with
      incCopies := [0, 1, 2, 3, 4].foldl (fun m holder => m.set (4 * holder + die) inc) h.incCopies }))

/-! ### Packets (R22, R25, R29, R394) -/

/-- One more packet dropped under R29; the count saturates. -/
def Die.stalePacket (d : Die) : Die := { d with stale := if d.stale == 0xFFFF then d.stale else d.stale + 1 }

/-- What an accepted packet does at its destination. -/
def State.accept (s : State) (p : Packet) : State :=
  match p.payload with
  | .inval op => match s.op op with
    | some o => s.invalidate (dieBit p.dst) (o.work.writeKeys.map (fun k => ⟨k, 0, 0⟩))
    | none => s
  | .invalAck op => s.acknowledge op (dieBit p.src)
  | .other => s

/-- R29 at the receiver. -/
def State.judge (s : State) (p : Packet) : State :=
  let x := s.die p.src
  if x.state == .lost || x.state == .resetting then s.modDie p.src Die.stalePacket
  else
    let delta := s.hub.incCopies.get (4 * p.dst + p.src) - p.inc
    if delta == 0 then s.accept p
    else if delta ≤ 128 then s.modDie p.src Die.stalePacket
    else s.modHub (fun h => { h with log := h.log ++ [.linkError p.src] })

/-- A packet at a die by that die's state (R394). -/
def State.deliverPacket (s : State) (p : Packet) : State :=
  if p.dst == 4 then s.judge p
  else match (s.die p.dst).state with
    | .absent => s.modHub (fun h => { h with log := h.log ++ [.absentDrop p] })
    | .silent => s.modHub (fun h => { h with held := h.held ++ [p] })
    | .live => s.judge p
    | _ => match p.payload with
      | .inval op => s.acknowledge op (dieBit p.dst)
      | _ => s

/-- A valid flit from a die has arrived at the hub: a SILENT die within DLTO is LIVE again, and what was held for it is
delivered (R31), invalidations among it (spec/08 R205). -/
def State.flitArrives (s : State) (d : Nat) : State :=
  match (s.die d).state with
  | .live => s.modDie d (fun x => { x with flit := true })
  | .silent =>
    if s.dltoOver d then s
    else
      let mine := s.hub.held.filter (fun p => p.dst == d)
      let s := (s.modDie d (fun x => { x with state := .live, missed := 0, flit := true })).modHub
        (fun h => { h with held := h.held.filter (fun p => p.dst != d) })
      (mine.foldl State.deliverPacket (s.deliverInvals d)).sendPosted
  | _ => s

/-- HEARTBEAT_SEND (R23). -/
def execHeartbeatSend (die : Nat) (s : State) : Out := .next (s.flitArrives die)

/-- The packet's path uses its source's hub link (R21, R22). -/
def State.viaHub (s : State) (p : Packet) : Bool :=
  p.dst == 4 || p.dst == (p.src + 2) % 4 || (p.dst == clockwiseOf p.src && s.hub.rerouted.contains p.src)
    || (p.src == clockwiseOf p.dst && s.hub.rerouted.contains p.dst)

/-- PACKET_RECEIVE. -/
def execPacketReceive (pkt : Packet) (s : State) : Out :=
  let x := s.die pkt.src
  if 4 ≤ pkt.src || x.state == .absent then .next s
  else
    let s := if s.viaHub pkt then s.flitArrives pkt.src else s
    if pkt.part != x.part || (pkt.dst < 4 && (s.die pkt.dst).state != .absent && (s.die pkt.dst).part != pkt.part) then
      .next (s.modHub (fun h => { h with log := h.log ++ [.partitionDrop pkt] }))
    else .next (s.deliverPacket pkt)

/-- FLIT_CRC_FAIL (R22): the flit is sent again. The error log reports the physical module and lane on the compute die's side, of a link of two
compute dies on the receiver's (R17). -/
def execFlitCrcFail (src : Nat) (dst : FlitEnd) (s : State) : Out :=
  let die := if dst.die < 4 then dst.die else src
  match linkTo die (if dst.die < 4 then src else dst.die) with
  | some l => .next (s.modHub (fun h => { h with log := h.log ++ [.flitError src dst.die (l.module die dst.m) (l.lane die dst.j)] }))
  | none => .next s

/-- NEIGHBOUR_LINK_RETRAIN_FAIL (R22): the pair's traffic goes through the hub from now on. -/
def execNeighbourLinkRetrainFail (die : Nat) (s : State) : Out :=
  let other := clockwiseOf die
  if 4 ≤ die || (s.die die).state != .live || (s.die other).state != .live || (s.die die).part != (s.die other).part
      || s.hub.rerouted.contains die then .next s
  else .next (s.modHub (fun h => { h with rerouted := h.rerouted ++ [die], log := h.log ++ [.reroute die] }))

/-! ### The hub -/

/-- MORDANT_LINE_RETURN (spec/08 R206): 2 µs after the line's last package-scope atomic, or before, when Mordant needs the room. -/
def execMordantLineReturn (line : Nat) (s : State) : Out :=
  .next (s.modHub (fun h => { h with hubOwned := h.hubOwned.set line none }))

/-- HUB_DIE_LOSS (R37): the device rung resets the device. -/
def execHubDieLoss (s : State) : Out := .next s.afterReset

/-! ### Uncorrectable errors (spec/07 R186) -/

/-- ECC_UNCORR outside any warp. -/
def State.eccRecord (s : State) : FaultRecord :=
  { (default : FaultRecord) with
    code := fEcc, vatnum := 0xFFFFFFFF, info := Config.freeWord s.fresh 0, gtime := BitVec.ofNat 64 s.gtime }

/-- An error in a vat's scratchpad, accumulator store, stage table or rings is taken at the vat rung, at the clause boundary of
its lowest live warp; where it has none, at the context rung (R171). -/
def State.vatEcc (s : State) (vk : Nat) : State :=
  let v := s.vat vk
  if v.place != .resident || v.stop.isSome then s
  else match s.liveWarp vk with
    | some k =>
      let fr := { s.record k { code := fEcc, flm := 0, fpc := 0, info := Config.freeWord s.fresh 0 } with rung := 1 }
      s.modWarp k (fun w => { w with async := w.async ++ [fr] })
    | none =>
      let l := s.lot v.lot
      let fr := { s.eccRecord with rung := 2, vatnum := v.vatnum, lottag := l.record.lottag }
      (s.noteFirst v.lot fr).faultContext l.ctx fr

/-- An entry of a TLB or walk cache of a die is discarded: of each of its caches one, or none. -/
def State.dropEntries (s : State) (d : Nat) : State :=
  { s with tlb := s.tlb.mapVals (fun k es =>
      if (if k < 256 then k / 44 else k % 256) = d ∧ s.choice (2000 + k) then es.eraseIdx (Config.freeNat s.fresh (3000 + k) % es.length) else es) }

/-- The partition rung takes a die down, and waits for it to be LIVE again (R176). -/
def State.takeDownFor (s : State) (part d : Nat) : State :=
  if (s.die d).state == .live then (s.modPart part (fun p => { p with rungDies := p.rungDies ||| dieBit d })).dieDown (dieBit d) else s

/-- The partition rung has done its work: every context of the partition is faulted, and the dies it took down are LIVE again (R164). -/
def State.rungDone (s : State) (part : Nat) : Bool :=
  s.ctxs.all (fun e => match e.2 with | some c => c.part != part || c.faulted || c.resetting | none => true)
    && (setBits (s.part part).rungDies).all (fun d => (s.die d).state == .live)

/-- The partition rung resolves its fault, or after 20 ms the device rung resets the device (R164, R176). -/
def State.partitionRung (s : State) (part : Nat) : State :=
  match (s.part part).rungAt with
  | none => s
  | some t =>
    if s.rungDone part then s.modPart part (fun p => { p with rungAt := none, rungDies := 0 })
    else if t + 20000000 ≤ s.gtime then s.afterReset
    else s

/-- UNCORRECTABLE_ERROR. -/
def execUncorrectableError (site : ErrSite) (s : State) : Out :=
  match site with
  | .laneRegister k n l => .next (s.modWarp k (fun w => { w with poisoned := w.poisoned ++ [cellV n l] }))
  | .predicate k n l => .next (s.modWarp k (fun w => { w with poisoned := w.poisoned ++ [cellPn n l] }))
  | .memoryLine line =>
    if (s.homeOfKey (128 * line)).isSome then .next { s with poison := s.poison.set line (BitVec.allOnes 128) } else .next s
  | .vatArray vk => .next (s.vatEcc vk)
  | .translation d => .next (s.dropEntries d)
  | .taskArray _ ctx => if (s.ctxs.get ctx).isSome then .next (s.faultContext ctx { s.eccRecord with rung := 2 }) else .next s
  | .distributor d =>
    .next ((s.faultPartition (s.die d).part s.eccRecord).takeDownFor (s.die d).part d)
  | .launchProcessor p => .next (s.faultPartition p s.eccRecord)
  | .mordant p => .next (s.faultPartition p s.eccRecord)
  | .incarnationTable => .next s.afterReset

end Sys2Proof.Machine
end

