-- ==== Sys2Proof/Machine/Uniform.lean ====
section
/-! DEFINITION. Uniform instructions (spec/12 R297): one k register, or a predicate, once per issue. -/

namespace Sys2Proof.Machine

/-- A two-source uniform instruction on k codes. -/
def State.uniR (s : State) (k : Nat) (st : BitVec 2) (d a b : Code) (op : Word → Word → Word) : Out :=
  s.issue { slot := k, stall := st, ok := isK d && isK a && isK b, uses := [(d, 1), (a, 1), (b, 1)] }
    (fun s => s.pendK d (op (s.readK a) (s.readK b)) (slotLatency k))

/-- KADD. -/
def execKadd (st : BitVec 2) (d a b : Code) (s : State) : Out := s.uniR (slot 0x20 0) st d a b (fun a b => a + b)

/-- KSUB. -/
def execKsub (st : BitVec 2) (d a b : Code) (s : State) : Out := s.uniR (slot 0x20 1) st d a b (fun a b => a - b)

/-- KMUL. -/
def execKmul (st : BitVec 2) (d a b : Code) (s : State) : Out := s.uniR (slot 0x20 2) st d a b (fun a b => a * b)

/-- KAND. -/
def execKand (st : BitVec 2) (d a b : Code) (s : State) : Out := s.uniR (slot 0x20 3) st d a b (fun a b => a &&& b)

/-- KOR. -/
def execKor (st : BitVec 2) (d a b : Code) (s : State) : Out := s.uniR (slot 0x20 4) st d a b (fun a b => a ||| b)

/-- KXOR. -/
def execKxor (st : BitVec 2) (d a b : Code) (s : State) : Out := s.uniR (slot 0x20 5) st d a b (fun a b => a ^^^ b)

/-- KSHL. -/
def execKshl (st : BitVec 2) (d a b : Code) (s : State) : Out := s.uniR (slot 0x20 6) st d a b (fun a b => shlW a b)

/-- KSHR. -/
def execKshr (st : BitVec 2) (d a b : Code) (s : State) : Out := s.uniR (slot 0x20 7) st d a b (fun a b => shrW a b)

/-- KMOV: a lane source gives the value of the lowest enabled lane. -/
def execKmov (st : BitVec 2) (d a : Code) (s : State) : Out :=
  s.issue { slot := slot 0x21 0, stall := st, ok := isK d, uses := [(d, 1), (a, 1)], reach := .low }
    (fun s => s.pendK d (s.readOp a s.lane0) (slotLatency (slot 0x21 0)))

/-- KMOVI: the sign-extended immediate. -/
def execKmovi (st : BitVec 2) (d : Code) (imm : BitVec 14) (s : State) : Out :=
  s.issue { slot := slot 0x21 1, stall := st, ok := isK d, uses := [(d, 1)] }
    (fun s => s.pendK d (imm.signExtend 32) (slotLatency (slot 0x21 1)))

/-- KCMPP: the comparison in every enabled lane's predicate. -/
def execKcmpp (st : BitVec 2) (a b : Code) (sub : BitVec 4) (pd ps : BitVec 3) (pn : BitVec 1) (imm7 : BitVec 7)
    (s : State) : Out :=
  s.issue { slot := slot 0x21 2, stall := st, ok := cmpOk 9 sub ps pn imm7 && isK a && isK b, dst := false, pdst := true, uses := [(a, 1), (b, 1)],
            preds := cmbPreds pd ps imm7 }
    (fun s => s.pendP pd (fun l => s.combine (intCmp sub (s.readK a) (s.readK b)) ps pn imm7 l) (slotLatency (slot 0x21 2)))

/-- A lane that supplies its register to a cross-lane read (R133): a live one. -/
def State.supplies (s : State) (l : Nat) : Bool := inMask s.w.masks.lmask l

/-- KLANE: a named lane's register; p7 says whether the lane is absent (R133). -/
def execKlane (st : BitVec 2) (d a b : Code) (s : State) : Out :=
  let from' := if b == 32 then s.lane0 else b.toNat
  -- every enabled lane reads the named lane's register (spec/07 R186)
  s.issue { slot := slot 0x21 3, stall := st, ok := isK d && isLane a && b ≤ 32, uses := [(d, 1), (a, 1)], preds := [7], pdst := true, reach := .nothing,
            others := if s.supplies from' then s.lanes.map (fun l => (l, s.w.cell a.toNat from')) else [] }
    (fun s =>
      let l := if b == 32 then s.lane0 else b.toNat
      let there := s.supplies l
      (s.pendK d (if there then s.readOp a l else 0) (slotLatency (slot 0x21 3))).pendP 7 (fun _ => !there)
        (slotLatency (slot 0x21 3)))

/-- KPOPM: the 1 bits of ka, of ka and ACTIVE, or of ka and LMASK. -/
def execKpopm (st : BitVec 2) (d a b : Code) (s : State) : Out :=
  s.issue { slot := slot 0x21 4, stall := st, ok := isK d && isK a && b ≤ 2, uses := [(d, 1), (a, 1)] }
    (fun s =>
      let m := if b == 1 then s.w.clause.enabled else if b == 2 then s.w.masks.lmask else 0xFFFFFFFF
      s.pendK d (popW (s.readK a &&& m)) (slotLatency (slot 0x21 4)))

end Sys2Proof.Machine
end

