-- ==== Sys2Proof/Machine/Lanes.lean ====
section
/-! DEFINITION. Cross-lane instructions (spec/13 R317–R324). -/

namespace Sys2Proof.Machine

/-! ### Lane exchange (R318) -/

/-- The lane that supplies lane `l` (R133), if any. -/
def State.lxchFrom (s : State) (b : Code) (src : Int → Int → Int) (l : Nat) : Option Nat :=
  let i := src l (s.readOp b l).toNat
  if 0 ≤ i ∧ i ≤ 31 ∧ s.supplies i.toNat then some i.toNat else none

/-- What the lanes of LXCH read (spec/07 R186): each its own count, and the source lane's register, or its own fill. -/
def State.lxchReads (s : State) (g : Sig) (a b c : Code) (fz : Bool) (src : Int → Int → Int) : Sig :=
  let own (x : Code) (l : Nat) : List (Nat × Nat) := if isLane x then [(l, s.w.cell x.toNat l)] else []
  { g with reach := .nothing, others := s.lanes.flatMap (fun l => own b l ++ (match s.lxchFrom b src l with
      | some i => [(l, s.w.cell a.toNat i)]
      | none => if fz then [] else own c l)) }

/-- LXCH with the source lane that the mode computes from the lane's own number and the count. -/
def State.lxch (s : State) (f : Nat) (st : BitVec 2) (d a b : Code) (sub : BitVec 4) (c : Code) (src : Int → Int → Int) : Out :=
  let fz := sub == 1
  let g : Sig := { slot := slot 0x30 f, stall := st, ok := isLane d && isLane a && (sub == 0 || fz && c == 0),
                   uses := [(d, 1), (a, 1), (b, 1)] ++ (if fz then [] else [(c, 1)]), preds := [7], pdst := true }
  s.issue (s.lxchReads g a b c fz src) (fun s =>
    (s.pendD d (fun l => match s.lxchFrom b src l with
      | some i => s.readOp a i
      | none => if fz then 0 else s.readOp c l) (slotLatency g.slot)).pendP 7 (fun l => (s.lxchFrom b src l).isNone) (slotLatency g.slot))

/-- LXCH.AT. -/
def execLxchAt (st : BitVec 2) (d a b : Code) (sub : BitVec 4) (c : Code) (s : State) : Out :=
  s.lxch 0 st d a b sub c (fun _ n => n)

/-- LXCH.BACK. -/
def execLxchBack (st : BitVec 2) (d a b : Code) (sub : BitVec 4) (c : Code) (s : State) : Out :=
  s.lxch 1 st d a b sub c (fun l n => l - n)

/-- LXCH.FWD. -/
def execLxchFwd (st : BitVec 2) (d a b : Code) (sub : BitVec 4) (c : Code) (s : State) : Out :=
  s.lxch 2 st d a b sub c (fun l n => l + n)

/-- LXCH.FLIP. -/
def execLxchFlip (st : BitVec 2) (d a b : Code) (sub : BitVec 4) (c : Code) (s : State) : Out :=
  s.lxch 3 st d a b sub c (fun l n => (l.toNat ^^^ n.toNat : Nat))

/-! ### Predicates (R319) -/

/-- LTEST. -/
def execLtest (st : BitVec 2) (sub : BitVec 4) (pd ps : BitVec 3) (pn : BitVec 1) (s : State) : Out :=
  s.issue { slot := slot 0x30 4, stall := st, ok := sub ≤ 2, preds := [pd, ps], pdst := true, reach := .every } (fun s =>
    let q (l : Nat) := s.readPX ps pn l
    let r := match sub.toNat with
      | 0 => s.lanes.all q
      | 1 => s.lanes.any q
      | _ => s.lanes.all q || s.lanes.all (fun l => !q l)
    s.pendP pd (fun _ => r) (slotLatency (slot 0x30 4)))

/-- PMASK (R319, spec/05 R134): A holds the predicate and its inversion. -/
def execPmask (st : BitVec 2) (d a : Code) (s : State) : Out :=
  s.issue { slot := slot 0x30 5, stall := st, ok := a < 16, uses := [(d, 1)], preds := [a.setWidth 3], reach := .every } (fun s =>
    let m := maskWhere (fun l => inMask s.w.clause.enabled l && s.readPX (a.setWidth 3) (a.extractLsb' 3 1) l)
    if isK d then s.pendK d m (slotLatency (slot 0x30 5)) else s.pendD d (fun _ => m) (slotLatency (slot 0x30 5)))

/-- LSAME (R320). -/
def execLsame (st : BitVec 2) (d a b : Code) (s : State) : Out :=
  let wide := b == 1
  s.issue { slot := slot 0x30 6, stall := st, ok := isLane d && isLane a && b ≤ 1 && (!wide || aligned a 2),
            uses := [(d, 1), (a, if wide then 2 else 1)], reach := .every } (fun s =>
    let v (l : Nat) : BitVec 64 := if wide then s.readPair a l else (s.readOp a l).setWidth 64
    s.pendD d (fun l => maskWhere (fun i => inMask s.w.clause.enabled i && v i == v l)) (slotLatency (slot 0x30 6)))

/-! ### Folds and scans (R321, R322) -/

/-- The operations of R321 Table 4. -/
def foldOp (op : Nat) (x y : Word) : Word × Flags :=
  let float (r : Nat × Flags) : Word × Flags := (BitVec.ofNat 32 r.1, r.2)
  match op with
  | 0 => (x + y, 0)
  | 1 => (minS x y, 0)
  | 2 => (maxS x y, 0)
  | 3 => (if x.ule y then x else y, 0)
  | 4 => (if x.ule y then y else x, 0)
  | 5 => (x &&& y, 0)
  | 6 => (x ||| y, 0)
  | 7 => (x ^^^ y, 0)
  | 8 => float (f32.add 0 x.toNat y.toNat)
  | 9 => float (fminmax false x.toNat y.toNat)
  | _ => float (fminmax true x.toNat y.toNat)

/-- The identities of the exclusive scan. -/
def foldIdentity (op : Nat) : Word :=
  match op with
  | 1 => 0x7FFFFFFF
  | 2 => 0x80000000
  | 3 | 5 => 0xFFFFFFFF
  | 8 => 0x80000000
  | 9 => 0x7F800000
  | 10 => 0xFF800000
  | _ => 0

/-- Canon: a float operation's NaN becomes the canonical one, a signalling one raises invalid. -/
def canonOf (op : Nat) (x : Word) : Word × Flags :=
  let v := f32.decode x.toNat
  if 8 ≤ op && v.isNan then (BitVec.ofNat 32 f32.nanCode, snanFlag [v]) else (x, 0)

/-- The fold of values in order, with the flags of every step; the identity of no value. -/
def foldList (op : Nat) : List Word → Word × Flags
  | [] => (foldIdentity op, 0)
  | x :: xs => xs.foldl (fun r y => let t := foldOp op r.1 y; (t.1, r.2 ||| t.2)) (canonOf op x)

/-- LFOLD. -/
def execLfold (st : BitVec 2) (d a : Code) (sub : BitVec 4) (s : State) : Out :=
  s.issue { slot := slot 0x31 0, stall := st, ok := isLane a && sub ≤ 10, uses := [(d, 1), (a, 1)], reach := .every } (fun s =>
    let r := foldList sub.toNat (s.lanes.map (s.readOp a))
    (if isK d then s.pendK d r.1 (slotLatency (slot 0x31 0)) else s.pendD d (fun _ => r.1) (slotLatency (slot 0x31 0))).addFlags r.2)

/-- SCANX. -/
def execScanx (st : BitVec 2) (d a : Code) (sub : BitVec 4) (imm7 : BitVec 7) (s : State) : Out :=
  s.issue { slot := slot 0x31 1, stall := st, ok := isLane d && isLane a && sub ≤ 10 && imm7 ≤ 1, uses := [(d, 1), (a, 1)], reach := .nothing,
            others := s.lanes.flatMap (fun l =>
              (s.lanes.filter (fun i => if imm7 == 1 then decide (i < l) else decide (i ≤ l))).map (fun i => (l, s.w.cell a.toNat i))) }
    (fun s =>
      let r (l : Nat) := foldList sub.toNat
        ((s.lanes.filter (fun i => if imm7 == 1 then decide (i < l) else decide (i ≤ l))).map (s.readOp a))
      (s.pendD d (fun l => (r l).1) (slotLatency (slot 0x31 1))).addFlags (s.laneFlags (fun l => (r l).2)))

/-! ### Sorted lists and bit maps (R323, R324) -/

/-- The merge of R323: the matches as positions in both lists, and the elements consumed. -/
def merge : Nat → List Word → List Word → Nat → Nat → List (Nat × Nat) × Nat × Nat
  | 0, _, _, i, j => ([], i, j)
  | _ + 1, [], _, i, j => ([], i, j)
  | _ + 1, _ :: _, [], i, j => ([], i, j)
  | fuel + 1, x :: xs, y :: ys, i, j =>
    if x.ult y then merge fuel xs (y :: ys) (i + 1) j
    else if y.ult x then merge fuel (x :: xs) ys i (j + 1)
    else
      let r := merge fuel xs ys (i + 1) (j + 1)
      ((i, j) :: r.1, r.2)

/-- The lane's rank among the enabled lanes. -/
def State.rank (s : State) (l : Nat) : Nat := (s.lanes.filter (· < l)).length

/-- Results by rank: the r-th match in the lane of rank r, all ones where there is none; and the two totals. -/
def State.matches (s : State) (d c : Code) (pd : BitVec 3) (ms : List Word) (k0 k1 : Word) : State :=
  let r (l : Nat) : Option Word := ms[s.rank l]?
  (((s.putD d (fun l => (r l).getD 0xFFFFFFFF)).putP pd (fun l => (r l).isSome)).putK c k0).putK (c + 1) k1

/-- ISECT (R323; class M, spec/10 R244). -/
def execIsect (st : BitVec 2) (d a b c : Code) (pd : BitVec 3) (s : State) : Out :=
  s.issue { slot := slot 0x31 2, stall := st, ok := isLane d && isLane a && isLane b && kPair c,
            uses := [(d, 1), (a, 1), (b, 1), (c, 2)], preds := [pd], pdst := true, reach := .every } (fun s =>
    let r := merge 64 (s.lanes.map (s.readOp a)) (s.lanes.map (s.readOp b)) 0 0
    s.matches d c pd (r.1.map (fun m => BitVec.ofNat 32 (m.1 + 65536 * m.2))) (BitVec.ofNat 32 r.2.1) (BitVec.ofNat 32 r.2.2))

/-- The 1 bits of a word below a position. -/
def popBelow (x : Word) (q : Nat) : Nat := countLanes (x &&& lowMask q)

/-- BMPOS (R324). -/
def execBmpos (st : BitVec 2) (d a b c : Code) (pd : BitVec 3) (s : State) : Out :=
  s.issue { slot := slot 0x31 3, stall := st, ok := isLane d && isK a && isK b && kPair c,
            uses := [(d, 1), (a, 1), (b, 1), (c, 2)], preds := [pd], pdst := true } (fun s =>
    let ka := s.readK a
    let kb := s.readK b
    s.matches d c pd ((lanesOf (ka &&& kb)).map (fun q => BitVec.ofNat 32 (popBelow ka q + 65536 * popBelow kb q)))
      (popW (ka &&& kb)) (BitVec.ofNat 32 (countLanes ka + 65536 * countLanes kb)))

end Sys2Proof.Machine
end

