-- ==== Sys2Proof/Machine/Dispatch.lean ====
section
/-! DEFINITION. One arm per constructor of `Instr`: its meaning. -/

namespace Sys2Proof.Machine

def exec (i : Instr) (s : State) : Host.Outcome State Fault Refusal :=
  match i with
  | .iadd st d a b => Sys2Proof.Machine.execIadd st d a b s
  | .isub st d a b => Sys2Proof.Machine.execIsub st d a b s
  | .imul st d a b => Sys2Proof.Machine.execImul st d a b s
  | .imulh st d a b => Sys2Proof.Machine.execImulh st d a b s
  | .imin st d a b => Sys2Proof.Machine.execImin st d a b s
  | .imax st d a b => Sys2Proof.Machine.execImax st d a b s
  | .iabs st d a => Sys2Proof.Machine.execIabs st d a s
  | .ineg st d a => Sys2Proof.Machine.execIneg st d a s
  | .imad st d a b sub c => Sys2Proof.Machine.execImad st d a b sub c s
  | .iadd64 st d a b => Sys2Proof.Machine.execIadd64 st d a b s
  | .isub64 st d a b => Sys2Proof.Machine.execIsub64 st d a b s
  | .bfi st d a b c imm7 => Sys2Proof.Machine.execBfi st d a b c imm7 s
  | .bfx st d a b sub imm7 => Sys2Proof.Machine.execBfx st d a b sub imm7 s
  | .sel st d a b ps pn => Sys2Proof.Machine.execSel st d a b ps pn s
  | .icmpp st a b sub pd ps pn imm7 => Sys2Proof.Machine.execIcmpp st a b sub pd ps pn imm7 s
  | .and st d a b => Sys2Proof.Machine.execAnd st d a b s
  | .or st d a b => Sys2Proof.Machine.execOr st d a b s
  | .xor st d a b => Sys2Proof.Machine.execXor st d a b s
  | .not st d a => Sys2Proof.Machine.execNot st d a s
  | .shl st d a b => Sys2Proof.Machine.execShl st d a b s
  | .shr st d a b => Sys2Proof.Machine.execShr st d a b s
  | .sar st d a b => Sys2Proof.Machine.execSar st d a b s
  | .rol st d a b => Sys2Proof.Machine.execRol st d a b s
  | .shl64 st d a b => Sys2Proof.Machine.execShl64 st d a b s
  | .shr64 st d a b => Sys2Proof.Machine.execShr64 st d a b s
  | .popc st d a => Sys2Proof.Machine.execPopc st d a s
  | .clz st d a => Sys2Proof.Machine.execClz st d a s
  | .brev st d a => Sys2Proof.Machine.execBrev st d a s
  | .mov st d a => Sys2Proof.Machine.execMov st d a s
  | .movi st d imm => Sys2Proof.Machine.execMovi st d imm s
  | .limm st d imm => Sys2Proof.Machine.execLimm st d imm s
  | .setwb st imm => Sys2Proof.Machine.execSetwb st imm s
  | .movxR st d a imm7 => Sys2Proof.Machine.execMovxR st d a imm7 s
  | .movxW st a b imm7 => Sys2Proof.Machine.execMovxW st a b imm7 s
  | .fadd st d a b => Sys2Proof.Machine.execFadd st d a b s
  | .fsub st d a b => Sys2Proof.Machine.execFsub st d a b s
  | .fmul st d a b => Sys2Proof.Machine.execFmul st d a b s
  | .fmin st d a b => Sys2Proof.Machine.execFmin st d a b s
  | .fmax st d a b => Sys2Proof.Machine.execFmax st d a b s
  | .fneg st d a => Sys2Proof.Machine.execFneg st d a s
  | .fabs st d a => Sys2Proof.Machine.execFabs st d a s
  | .fclass st d a => Sys2Proof.Machine.execFclass st d a s
  | .faddRm st d a b rm => Sys2Proof.Machine.execFaddRm st d a b rm s
  | .fsubRm st d a b rm => Sys2Proof.Machine.execFsubRm st d a b rm s
  | .fmulRm st d a b rm => Sys2Proof.Machine.execFmulRm st d a b rm s
  | .ffma st d a b rm c => Sys2Proof.Machine.execFfma st d a b rm c s
  | .fcmpp st a b sub pd ps pn imm7 => Sys2Proof.Machine.execFcmpp st a b sub pd ps pn imm7 s
  | .frint st d a rm => Sys2Proof.Machine.execFrint st d a rm s
  | .fdp2 st d a b rm sub c => Sys2Proof.Machine.execFdp2 st d a b rm sub c s
  | .hadd2 st d a b => Sys2Proof.Machine.execHadd2 st d a b s
  | .hmul2 st d a b => Sys2Proof.Machine.execHmul2 st d a b s
  | .hfma2 st d a b rm sub c => Sys2Proof.Machine.execHfma2 st d a b rm sub c s
  | .hadd2X st d a b rm sub => Sys2Proof.Machine.execHadd2X st d a b rm sub s
  | .hmul2X st d a b rm sub => Sys2Proof.Machine.execHmul2X st d a b rm sub s
  | .idp4 st d a b sub c => Sys2Proof.Machine.execIdp4 st d a b sub c s
  | .cvt st d a rm sub imm7 => Sys2Proof.Machine.execCvt st d a rm sub imm7 s
  | .cvtsTo st d a rm fs imm7 => Sys2Proof.Machine.execCvtsTo st d a rm fs imm7 s
  | .cvtsFrom st d a fs imm7 => Sys2Proof.Machine.execCvtsFrom st d a fs imm7 s
  | .frcp st d a => Sys2Proof.Machine.execFrcp st d a s
  | .frsq st d a => Sys2Proof.Machine.execFrsq st d a s
  | .fsqrt st d a => Sys2Proof.Machine.execFsqrt st d a s
  | .fexp2 st d a => Sys2Proof.Machine.execFexp2 st d a s
  | .flog2 st d a => Sys2Proof.Machine.execFlog2 st d a s
  | .fsin st d a => Sys2Proof.Machine.execFsin st d a s
  | .fcos st d a => Sys2Proof.Machine.execFcos st d a s
  | .tint st d a => Sys2Proof.Machine.execTint st d a s
  | .tintld st a => Sys2Proof.Machine.execTintld st a s
  | .tintsw st => Sys2Proof.Machine.execTintsw st s
  | .chld st d a => Sys2Proof.Machine.execChld st d a s
  | .chrun st d a b sub imm7 => Sys2Proof.Machine.execChrun st d a b sub imm7 s
  | .kadd st d a b => Sys2Proof.Machine.execKadd st d a b s
  | .ksub st d a b => Sys2Proof.Machine.execKsub st d a b s
  | .kmul st d a b => Sys2Proof.Machine.execKmul st d a b s
  | .kand st d a b => Sys2Proof.Machine.execKand st d a b s
  | .kor st d a b => Sys2Proof.Machine.execKor st d a b s
  | .kxor st d a b => Sys2Proof.Machine.execKxor st d a b s
  | .kshl st d a b => Sys2Proof.Machine.execKshl st d a b s
  | .kshr st d a b => Sys2Proof.Machine.execKshr st d a b s
  | .kmov st d a => Sys2Proof.Machine.execKmov st d a s
  | .kmovi st d imm => Sys2Proof.Machine.execKmovi st d imm s
  | .kcmpp st a b sub pd ps pn imm7 => Sys2Proof.Machine.execKcmpp st a b sub pd ps pn imm7 s
  | .klane st d a b => Sys2Proof.Machine.execKlane st d a b s
  | .kpopm st d a b => Sys2Proof.Machine.execKpopm st d a b s
  | .bra st off => Sys2Proof.Machine.execBra st off s
  | .braPred st ps pn off => Sys2Proof.Machine.execBraPred st ps pn off s
  | .brx st a => Sys2Proof.Machine.execBrx st a s
  | .call st off => Sys2Proof.Machine.execCall st off s
  | .ret st a => Sys2Proof.Machine.execRet st a s
  | .exit st => Sys2Proof.Machine.execExit st s
  | .nop st => Sys2Proof.Machine.execNop st s
  | .sleep st imm => Sys2Proof.Machine.execSleep st imm s
  | .enrol st d a => Sys2Proof.Machine.execEnrol st d a s
  | .jwait st d => Sys2Proof.Machine.execJwait st d s
  | .dret st a b => Sys2Proof.Machine.execDret st a b s
  | .park st => Sys2Proof.Machine.execPark st s
  | .yield st => Sys2Proof.Machine.execYield st s
  | .barv st => Sys2Proof.Machine.execBarv st s
  | .barn st d a => Sys2Proof.Machine.execBarn st d a s
  | .bleave st => Sys2Proof.Machine.execBleave st s
  | .stgbeg st a b => Sys2Proof.Machine.execStgbeg st a b s
  | .stgnext st d pd => Sys2Proof.Machine.execStgnext st d pd s
  | .stgadv st d a b => Sys2Proof.Machine.execStgadv st d a b s
  | .stgset st d a b => Sys2Proof.Machine.execStgset st d a b s
  | .stgwl st d a b => Sys2Proof.Machine.execStgwl st d a b s
  | .stgend st => Sys2Proof.Machine.execStgend st s
  | .lxchAt st d a b sub c => Sys2Proof.Machine.execLxchAt st d a b sub c s
  | .lxchBack st d a b sub c => Sys2Proof.Machine.execLxchBack st d a b sub c s
  | .lxchFwd st d a b sub c => Sys2Proof.Machine.execLxchFwd st d a b sub c s
  | .lxchFlip st d a b sub c => Sys2Proof.Machine.execLxchFlip st d a b sub c s
  | .ltest st sub pd ps pn => Sys2Proof.Machine.execLtest st sub pd ps pn s
  | .pmask st d a => Sys2Proof.Machine.execPmask st d a s
  | .lsame st d a b => Sys2Proof.Machine.execLsame st d a b s
  | .lfold st d a sub => Sys2Proof.Machine.execLfold st d a sub s
  | .scanx st d a sub imm7 => Sys2Proof.Machine.execScanx st d a sub imm7 s
  | .isect st d a b c pd => Sys2Proof.Machine.execIsect st d a b c pd s
  | .bmpos st d a b c pd => Sys2Proof.Machine.execBmpos st d a b c pd s
  | .ld st d a xa => Sys2Proof.Machine.execLd st d a xa s
  | .st st a b xa => Sys2Proof.Machine.execSt st a b xa s
  | .lds st d a xa => Sys2Proof.Machine.execLds st d a xa s
  | .sts st a b xa => Sys2Proof.Machine.execSts st a b xa s
  | .atom st d a b xa => Sys2Proof.Machine.execAtom st d a b xa s
  | .atoms st d a b xa => Sys2Proof.Machine.execAtoms st d a b xa s
  | .red st a b xa => Sys2Proof.Machine.execRed st a b xa s
  | .pref st a sub off => Sys2Proof.Machine.execPref st a sub off s
  | .fence st a => Sys2Proof.Machine.execFence st a s
  | .ifence st => Sys2Proof.Machine.execIfence st s
  | .lfence st => Sys2Proof.Machine.execLfence st s
  | .waitc st a b => Sys2Proof.Machine.execWaitc st a b s
  | .cctlIl1 st a off => Sys2Proof.Machine.execCctlIl1 st a off s
  | .cctlIrlc st a off => Sys2Proof.Machine.execCctlIrlc st a off s
  | .cctlWbl2 st a off => Sys2Proof.Machine.execCctlWbl2 st a off s
  | .copy st d a b sub => Sys2Proof.Machine.execCopy st d a b sub s
  | .dcopy st d a b sub c => Sys2Proof.Machine.execDcopy st d a b sub c s
  | .ctabld st d a => Sys2Proof.Machine.execCtabld st d a s
  | .secfg st d a b => Sys2Proof.Machine.execSecfg st d a b s
  | .sego st d => Sys2Proof.Machine.execSego st d s
  | .sestop st d => Sys2Proof.Machine.execSestop st d s
  | .sltake st d a => Sys2Proof.Machine.execSltake st d a s
  | .slgive st a b => Sys2Proof.Machine.execSlgive st a b s
  | .spawn st a => Sys2Proof.Machine.execSpawn st a s
  | .spawnR st a => Sys2Proof.Machine.execSpawnR st a s
  | .tdone st => Sys2Proof.Machine.execTdone st s
  | .hista st a => Sys2Proof.Machine.execHista st a s
  | .histl st d a => Sys2Proof.Machine.execHistl st d a s
  | .labort st => Sys2Proof.Machine.execLabort st s
  | .abchk st => Sys2Proof.Machine.execAbchk st s
  | .bkprog st a b c => Sys2Proof.Machine.execBkprog st a b c s
  | .bklaunch st a b fs => Sys2Proof.Machine.execBklaunch st a b fs s
  | .bkfence st => Sys2Proof.Machine.execBkfence st s
  | .tcfg st a b => Sys2Proof.Machine.execTcfg st a b s
  | .mma st d a b fs imm7 => Sys2Proof.Machine.execMma st d a b fs imm7 s
  | .mmas st d a b sub fs imm7 => Sys2Proof.Machine.execMmas st d a b sub fs imm7 s
  | .mzero st d => Sys2Proof.Machine.execMzero st d s
  | .mld st d a b => Sys2Proof.Machine.execMld st d a b s
  | .mst st d a b => Sys2Proof.Machine.execMst st d a b s
  | .mfill st d a b => Sys2Proof.Machine.execMfill st d a b s
  | .mdrain st d a b sub imm7 => Sys2Proof.Machine.execMdrain st d a b sub imm7 s
  | .acqa st d a => Sys2Proof.Machine.execAcqa st d a s
  | .rela st => Sys2Proof.Machine.execRela st s
  | .msync st => Sys2Proof.Machine.execMsync st s
  | .sysr st d num => Sys2Proof.Machine.execSysr st d num s
  | .sysw st d num => Sys2Proof.Machine.execSysw st d num s
  | .syswRingd st d num => Sys2Proof.Machine.execSyswRingd st d num s
  | .syswRingtag st d num => Sys2Proof.Machine.execSyswRingtag st d num s
  | .syswVbstat st d num => Sys2Proof.Machine.execSyswVbstat st d num s
  | .syswNbstat st d num => Sys2Proof.Machine.execSyswNbstat st d num s
  | .syswLstate st d num => Sys2Proof.Machine.execSyswLstate st d num s
  | .syswLpc st d num => Sys2Proof.Machine.execSyswLpc st d num s
  | .syswHistbin st d num => Sys2Proof.Machine.execSyswHistbin st d num s
  | .trap st b => Sys2Proof.Machine.execTrap st b s
  | .tret st => Sys2Proof.Machine.execTret st s
  | .tretSkip st => Sys2Proof.Machine.execTretSkip st s
  | .tretEsc st => Sys2Proof.Machine.execTretEsc st s
  | .bkpt st b => Sys2Proof.Machine.execBkpt st b s
  | .savew st a => Sys2Proof.Machine.execSavew st a s
  | .savewDone st => Sys2Proof.Machine.execSavewDone st s
  | .restw st a => Sys2Proof.Machine.execRestw st a s
  | .rep st count sd sa sb => Sys2Proof.Machine.execRep st count sd sa sb s
  | .lakeNop => Sys2Proof.Machine.execLakeNop s
  | .xld => Sys2Proof.Machine.execXld s
  | .rowrd n => Sys2Proof.Machine.execRowrd n s
  | .mac8 sat => Sys2Proof.Machine.execMac8 sat s
  | .mac4 sat => Sys2Proof.Machine.execMac4 sat s
  | .mach sat => Sys2Proof.Machine.execMach sat s
  | .accz ea n1 => Sys2Proof.Machine.execAccz ea n1 s
  | .accsc ea off => Sys2Proof.Machine.execAccsc ea off s
  | .accadd ea eb => Sys2Proof.Machine.execAccadd ea eb s
  | .outw ea n1 => Sys2Proof.Machine.execOutw ea n1 s
  | .rcadd set imm => Sys2Proof.Machine.execRcadd set imm s
  | .ccadd set imm => Sys2Proof.Machine.execCcadd set imm s
  | .loop l n => Sys2Proof.Machine.execLoop l n s
  | .lend l => Sys2Proof.Machine.execLend l s
  | .lakeSync => Sys2Proof.Machine.execLakeSync s
  | .flagsC mask => Sys2Proof.Machine.execFlagsC mask s
  | .flagsR ea => Sys2Proof.Machine.execFlagsR ea s
  | .trapl n => Sys2Proof.Machine.execTrapl n s
  | .halt => Sys2Proof.Machine.execHalt s
  | .deviceReset boot => Sys2Proof.Machine.execDeviceReset boot s
  | .firmwareFetchRetry boot => Sys2Proof.Machine.execFirmwareFetchRetry boot s
  | .getVersion mbox => Sys2Proof.Machine.execGetVersion mbox s
  | .getCapabilities mbox => Sys2Proof.Machine.execGetCapabilities mbox s
  | .negotiateAlgorithms mbox => Sys2Proof.Machine.execNegotiateAlgorithms mbox s
  | .getDigests mbox => Sys2Proof.Machine.execGetDigests mbox s
  | .getCertificate mbox => Sys2Proof.Machine.execGetCertificate mbox s
  | .challenge mbox nonce => Sys2Proof.Machine.execChallenge mbox nonce s
  | .getMeasurements mbox => Sys2Proof.Machine.execGetMeasurements mbox s
  | .keyExchange mbox => Sys2Proof.Machine.execKeyExchange mbox s
  | .keySlotLoad slot key => Sys2Proof.Machine.execKeySlotLoad slot key s
  | .keySlotClear slot => Sys2Proof.Machine.execKeySlotClear slot s
  | .sqDoorbell ctx q wi => Sys2Proof.Machine.execSqDoorbell ctx q wi s
  | .sqEnable ctx q => Sys2Proof.Machine.execSqEnable ctx q s
  | .lotAccept ctx q => Sys2Proof.Machine.execLotAccept ctx q s
  | .waitSemaphoreRead lot => Sys2Proof.Machine.execWaitSemaphoreRead lot s
  | .lotGateOpen lot => Sys2Proof.Machine.execLotGateOpen lot s
  | .vatPlace lot => Sys2Proof.Machine.execVatPlace lot s
  | .cohabPlace lot => Sys2Proof.Machine.execCohabPlace lot s
  | .warpDrainDone warp => Sys2Proof.Machine.execWarpDrainDone warp s
  | .vatRestorePlace vat => Sys2Proof.Machine.execVatRestorePlace vat s
  | .vatLeave vat => Sys2Proof.Machine.execVatLeave vat s
  | .lotComplete lot => Sys2Proof.Machine.execLotComplete lot s
  | .driverDoorbell part wi => Sys2Proof.Machine.execDriverDoorbell part wi s
  | .ctxnew part => Sys2Proof.Machine.execCtxnew part s
  | .ctxreset part => Sys2Proof.Machine.execCtxreset part s
  | .tlbinv part => Sys2Proof.Machine.execTlbinv part s
  | .tlbinvComplete part => Sys2Proof.Machine.execTlbinvComplete part s
  | .ctxfree part => Sys2Proof.Machine.execCtxfree part s
  | .driverBadOpcode part => Sys2Proof.Machine.execDriverBadOpcode part s
  | .fsvcResume ctx seq => Sys2Proof.Machine.execFsvcResume ctx seq s
  | .fsvcFaillot ctx seq => Sys2Proof.Machine.execFsvcFaillot ctx seq s
  | .fsvcFailctx ctx seq => Sys2Proof.Machine.execFsvcFailctx ctx seq s
  | .feataccWrite fn value => Sys2Proof.Machine.execFeataccWrite fn value s
  | .pwrlimWrite fn value => Sys2Proof.Machine.execPwrlimWrite fn value s
  | .plcfgWrite fn value => Sys2Proof.Machine.execPlcfgWrite fn value s
  | .registerWrite src offset value => Sys2Proof.Machine.execRegisterWrite src offset value s
  | .powerGrantPeriod => Sys2Proof.Machine.execPowerGrantPeriod s
  | .heartbeatSend die => Sys2Proof.Machine.execHeartbeatSend die s
  | .hubIntervalTick => Sys2Proof.Machine.execHubIntervalTick s
  | .dltoExpiry dies => Sys2Proof.Machine.execDltoExpiry dies s
  | .dieTakeDown die => Sys2Proof.Machine.execDieTakeDown die s
  | .dieResetStart die => Sys2Proof.Machine.execDieResetStart die s
  | .dieResetDone die => Sys2Proof.Machine.execDieResetDone die s
  | .packetReceive pkt => Sys2Proof.Machine.execPacketReceive pkt s
  | .flitCrcFail src dst => Sys2Proof.Machine.execFlitCrcFail src dst s
  | .neighbourLinkRetrainFail die => Sys2Proof.Machine.execNeighbourLinkRetrainFail die s
  | .acktoExpiry op => Sys2Proof.Machine.execAcktoExpiry op s
  | .gStoreAck op => Sys2Proof.Machine.execGStoreAck op s
  | .loadComplete op => Sys2Proof.Machine.execLoadComplete op s
  | .storePerformed op => Sys2Proof.Machine.execStorePerformed op s
  | .atomicComplete op => Sys2Proof.Machine.execAtomicComplete op s
  | .mordantLineReturn line => Sys2Proof.Machine.execMordantLineReturn line s
  | .prmPushRequest core warp => Sys2Proof.Machine.execPrmPushRequest core warp s
  | .splitDataArrive op lanes => Sys2Proof.Machine.execSplitDataArrive op lanes s
  | .copyComplete op => Sys2Proof.Machine.execCopyComplete op s
  | .dcopyComplete op => Sys2Proof.Machine.execDcopyComplete op s
  | .tableLoadComplete op => Sys2Proof.Machine.execTableLoadComplete op s
  | .histlComplete op => Sys2Proof.Machine.execHistlComplete op s
  | .matrixOperandComplete op => Sys2Proof.Machine.execMatrixOperandComplete op s
  | .matrixComplete op => Sys2Proof.Machine.execMatrixComplete op s
  | .streamBox core e => Sys2Proof.Machine.execStreamBox core e s
  | .acqaGrant core => Sys2Proof.Machine.execAcqaGrant core s
  | .taskEnter die ctx => Sys2Proof.Machine.execTaskEnter die ctx s
  | .taskRetire die task => Sys2Proof.Machine.execTaskRetire die task s
  | .binFormWarp die bin => Sys2Proof.Machine.execBinFormWarp die bin s
  | .overflowRefill die ctx => Sys2Proof.Machine.execOverflowRefill die ctx s
  | .abortFlagArrive lot die => Sys2Proof.Machine.execAbortFlagArrive lot die s
  | .clauseIssue => Sys2Proof.Machine.execClauseIssue s
  | .clauseBoundary => Sys2Proof.Machine.execClauseBoundary s
  | .rungServiceTimeout warp => Sys2Proof.Machine.execRungServiceTimeout warp s
  | .barrierTimeout warp => Sys2Proof.Machine.execBarrierTimeout warp s
  | .stageParkTimeout warp => Sys2Proof.Machine.execStageParkTimeout warp s
  | .slotParkTimeout warp => Sys2Proof.Machine.execSlotParkTimeout warp s
  | .presenceTimeout warp => Sys2Proof.Machine.execPresenceTimeout warp s
  | .secfgParkTimeout warp => Sys2Proof.Machine.execSecfgParkTimeout warp s
  | .acqaWaitTimeout warp => Sys2Proof.Machine.execAcqaWaitTimeout warp s
  | .ovfStall warp => Sys2Proof.Machine.execOvfStall warp s
  | .vatStopForce warp => Sys2Proof.Machine.execVatStopForce warp s
  | .evictForce warp => Sys2Proof.Machine.execEvictForce warp s
  | .saveRestoreTimeout warp => Sys2Proof.Machine.execSaveRestoreTimeout warp s
  | .hostCxlMemAccess part pa data => Sys2Proof.Machine.execHostCxlMemAccess part pa data s
  | .lakeProgramLoad eng => Sys2Proof.Machine.execLakeProgramLoad eng s
  | .lakeCommandStart eng => Sys2Proof.Machine.execLakeCommandStart eng s
  | .lakeTimeout eng => Sys2Proof.Machine.execLakeTimeout eng s
  | .lakeCommandEnd eng => Sys2Proof.Machine.execLakeCommandEnd eng s
  | .peerPortLinkLoss port => Sys2Proof.Machine.execPeerPortLinkLoss port s
  | .domainAccessReceive dev part pa acc => Sys2Proof.Machine.execDomainAccessReceive dev part pa acc s
  | .hostBar2Access fn pa data => Sys2Proof.Machine.execHostBar2Access fn pa data s
  | .hubDieLoss => Sys2Proof.Machine.execHubDieLoss s
  | .uncorrectableError site => Sys2Proof.Machine.execUncorrectableError site s

end Sys2Proof.Machine
end

