-- ==== Sys2Proof/Machine/Auto.lean ====
section
/-! DEFINITION. What goes on by itself when the agenda is empty: the model's own order of the turns (the spec fixes none: DESIGN CHOICE, log 1), and
what a warp and a Lake engine do in a turn. -/

namespace Sys2Proof.Machine

/-! ### A turn of a warp (spec/11 R249) -/

/-- The word in turn of the warp in turn: fetched, decoded, executed. -/
def State.runWord (s : State) : Out :=
  match s.fetchInstr with
  | (t, .instr i) => exec i t
  | (t, .reject r w x) => t.rejectWord r w x
  | (t, .miss x) => t.fetchMiss x

/-- A safe point before a word or a header: an eviction that drains the warp, or a stop, takes it there (spec/07 R397, R395). A warp that
waits before a header stands at the boundary still, so a fault found by an engine is raised there (spec/14 R336). -/
def State.heldAtSafePoint (s : State) : Option State :=
  let w := s.w
  if !w.safePoint || w.phase == .boundary then none
  else if s.v.stop.isSome then some (s.setW { w with stopped := true, hold := .free })
  else if w.drains then some (s.setW w.toDrain)
  else if w.phase == .header then match w.async with
    | fr :: rest => some ((s.setW { w with async := rest }).raiseAsync fr)
    | [] => none
  else none

/-- The boundary, the header or the next word. -/
def State.issueTurn (s : State) : Out :=
  if s.mayIssue then
    match s.heldAtSafePoint with
    | some t => .next t
    | none => match s.w.phase with
      | .boundary => execClauseBoundary s
      | .header => execClauseIssue s.markStart
      | .word => s.markStart.runWord
  else .next s

/-- A warp's turn: a fault that waits for room in the fault queue (spec/07 R175), or its issue. A warp that may not
issue does nothing. -/
def State.warpTurn (s : State) : Out :=
  match s.w.swapFault with
  | some fr => if s.faultWaits s.cur then .next (s.queueService s.cur fr) else s.issueTurn
  | none => s.issueTurn

/-! ### Which warps are ready (spec/04 R88) -/

/-- A warp is not held, or would not be after its turn. -/
def State.wakes (s : State) (k : Nat) : Bool :=
  (s.warp k).hold == .free || (match State.warpTurn { s with cur := k } with
    | .next t => (t.warp k).hold == .free
    | _ => true)

/-- Nothing stops a warp, and it does not sleep. -/
def State.mayTurn (s : State) (k : Nat) (w : Warp) : Bool := w.canTurn && !s.vatTrapHolds k && !s.asleep w

/-- A warp may issue, or goes on towards its next word. -/
def State.issuable (s : State) (k : Nat) (w : Warp) : Bool := s.mayTurn k w && s.wakes k

/-- A warp's next turn takes an issue slot, or shows that the waits of its header hold. -/
def State.readyWarp (s : State) (k : Nat) (w : Warp) : Bool :=
  s.mayTurn k w && (match w.phase with
    | .boundary => false
    | .header => (match State.warpTurn { s with cur := k } with | .next t => (t.warp k).hold == .free | _ => true)
    | .word => s.wakes k)

/-- The wait of a warp that has become ready since the last step begins (R88). -/
def State.noteReady (s : State) : State :=
  { s with warps := s.warps.mapVals (fun k w =>
      let r := s.issuable k w
      if r && !w.wasReady then { w with wasReady := true, since := (s.core w.core).slots.get w.sub } else { w with wasReady := r }) }

/-- No other warp of its sub-partition issues before a warp that stands at a word. -/
def State.chosen (s : State) (k : Nat) : Bool :=
  let w := s.warp k
  w.phase != .word || s.warps.all (fun e =>
    e.1 == k || e.2.core != w.core || e.2.sub != w.sub || !s.readyWarp e.1 e.2 || s.issuesBefore w e.2)

/-! ### A turn of a Lake engine (spec/16 R363) -/

/-- What an engine does whose next word is no instruction of its command: a command that has ended is reported, an idle engine
takes the next entry of its arrival order, a word that cannot be executed ends the command. -/
def State.lakeMiss (s : State) : Out :=
  match (s.eng s.curEng).run with
  | some c => if c.status.isSome then execLakeCommandEnd s.curEng s else s.lakeBadWord
  | none =>
    if !s.lakeStarts s.curEng (s.eng s.curEng) then .next s
    else match s.lakeHead s.curEng with
      | some x => match x.job with
        | .program _ _ => execLakeProgramLoad s.curEng s
        | .command _ _ => execLakeCommandStart s.curEng s
      | none => .next s

/-- The next word of the running command. -/
def State.engineTurn (s : State) : Out :=
  match s.fetchLake with
  | some i => exec i s
  | none => s.lakeMiss

/-! ### Turns that nobody has placed in the agenda -/

/-- The events of the table that the device brings about by itself. -/
inductive Own where
  | loadComplete (op : Nat)
  | storePerformed (op : Nat)
  | gStoreAck (op : Nat)
  | atomicComplete (op : Nat)
  | copyComplete (op : Nat)
  | dcopyComplete (op : Nat)
  | tableLoadComplete (op : Nat)
  | histlComplete (op : Nat)
  | matrixOperandComplete (op : Nat)
  | matrixComplete (op : Nat)
  | warpDrainDone (warp : Nat)
  | prmPushRequest (core warp : Nat)
  | acqaGrant (core : Nat)
  | streamBox (core e : Nat)
  | vatLeave (vat : Nat)
  | vatRestorePlace (vat : Nat)
  | abortFlagArrive (lot die : Nat)
  | lotComplete (lot : Nat)
  | waitSemaphoreRead (lot : Nat)
  | lotGateOpen (lot : Nat)
  | cohabPlace (lot : Nat)
  | vatPlace (lot : Nat)
  | taskRetire (die task : Nat)
  | binFormWarp (die bin : Nat)
  | taskEnter (die ctx : Nat)
  | overflowRefill (die ctx : Nat)
  | lotAccept (ctx q : Nat)
  | tlbinvComplete (part : Nat)
  | ctxnew (part : Nat)
  | ctxreset (part : Nat)
  | tlbinv (part : Nat)
  | ctxfree (part : Nat)
  | driverBadOpcode (part : Nat)
  | rungServiceTimeout (warp : Nat)
  | barrierTimeout (warp : Nat)
  | stageParkTimeout (warp : Nat)
  | slotParkTimeout (warp : Nat)
  | presenceTimeout (warp : Nat)
  | secfgParkTimeout (warp : Nat)
  | acqaWaitTimeout (warp : Nat)
  | ovfStall (warp : Nat)
  | vatStopForce (warp : Nat)
  | evictForce (warp : Nat)
  | saveRestoreTimeout (warp : Nat)
  | lakeTimeout (eng : Nat)
  | acktoExpiry (op : Nat)
  | dltoExpiry (dies : BitVec 4)
  | mordantReturn (line : Nat)
  | firmwareRetry
  /-- Beside the table: a fault of a context that waited for room in its fault queue is taken (spec/07 R175). -/
  | faultRoom (ctx : Nat)
  /-- Beside the table: the partition rung resolves its fault, or is timed out (spec/07 R164, R176). -/
  | partitionRung (part : Nat)
  /-- Beside the table: a warp without live lanes ends the iteration it holds (spec/04 R107), and writes that a SILENT die held up are performed
  (spec/01 R31). -/
  | stageEnd (warp : Nat)
  | send
  /-- Beside the table: part of a copy, or of a Lake command's writes, is performed before the rest (spec/08 R214, R216). -/
  | copyPiece (op : Nat)
  | lakeLand (eng : Nat)
  deriving DecidableEq, Repr

/-- What such an event does. -/
def State.own (s : State) : Own → Out
  | .loadComplete op => execLoadComplete op s
  | .storePerformed op => execStorePerformed op s
  | .gStoreAck op => execGStoreAck op s
  | .atomicComplete op => execAtomicComplete op s
  | .copyComplete op => execCopyComplete op s
  | .dcopyComplete op => execDcopyComplete op s
  | .tableLoadComplete op => execTableLoadComplete op s
  | .histlComplete op => execHistlComplete op s
  | .matrixOperandComplete op => execMatrixOperandComplete op s
  | .matrixComplete op => execMatrixComplete op s
  | .warpDrainDone warp => execWarpDrainDone warp s
  | .prmPushRequest core warp => execPrmPushRequest core warp s
  | .acqaGrant core => execAcqaGrant core s
  | .streamBox core e => execStreamBox core e s
  | .vatLeave vat => execVatLeave vat s
  | .vatRestorePlace vat => execVatRestorePlace vat s
  | .abortFlagArrive lot die => execAbortFlagArrive lot die s
  | .lotComplete lot => execLotComplete lot s
  | .waitSemaphoreRead lot => execWaitSemaphoreRead lot s
  | .lotGateOpen lot => execLotGateOpen lot s
  | .cohabPlace lot => execCohabPlace lot s
  | .vatPlace lot => execVatPlace lot s
  | .taskRetire die task => execTaskRetire die task s
  | .binFormWarp die bin => execBinFormWarp die bin s
  | .taskEnter die ctx => execTaskEnter die ctx s
  | .overflowRefill die ctx => execOverflowRefill die ctx s
  | .lotAccept ctx q => execLotAccept ctx q s
  | .tlbinvComplete part => execTlbinvComplete part s
  | .ctxnew part => execCtxnew part s
  | .ctxreset part => execCtxreset part s
  | .tlbinv part => execTlbinv part s
  | .ctxfree part => execCtxfree part s
  | .driverBadOpcode part => execDriverBadOpcode part s
  | .rungServiceTimeout warp => execRungServiceTimeout warp s
  | .barrierTimeout warp => execBarrierTimeout warp s
  | .stageParkTimeout warp => execStageParkTimeout warp s
  | .slotParkTimeout warp => execSlotParkTimeout warp s
  | .presenceTimeout warp => execPresenceTimeout warp s
  | .secfgParkTimeout warp => execSecfgParkTimeout warp s
  | .acqaWaitTimeout warp => execAcqaWaitTimeout warp s
  | .ovfStall warp => execOvfStall warp s
  | .vatStopForce warp => execVatStopForce warp s
  | .evictForce warp => execEvictForce warp s
  | .saveRestoreTimeout warp => execSaveRestoreTimeout warp s
  | .lakeTimeout eng => execLakeTimeout eng s
  | .acktoExpiry op => execAcktoExpiry op s
  | .dltoExpiry dies => execDltoExpiry dies s
  | .mordantReturn line => execMordantLineReturn line s
  | .firmwareRetry => execFirmwareFetchRetry (Config.fetchedImage s.fresh) s
  | .partitionRung part => .next (s.partitionRung part)
  | .stageEnd warp => .next (s.endStage warp)
  | .send => .next s.sendPosted
  | .copyPiece op => .next (s.copyPiece op)
  | .lakeLand eng => .next (s.lakeLand eng)
  | .faultRoom ctx => .next (if s.roomCame ctx then s.takeWaiting ctx else s)

/-- What acts: a warp, a Lake engine, such an event, or nothing until a GTIME. -/
inductive Due where
  | warp (k : Nat)
  | engine (e : Nat)
  | own (e : Own)
  | pass (t : Nat)
  deriving DecidableEq, Repr

/-- The event that an outstanding operation waits for. -/
def Op.event (n : Nat) (o : Op) : Option Own :=
  if o.complete then (if o.owed != 0 then some (.gStoreAck n) else none)
  else match o.work with
    | .load _ _ _ _ => some (.loadComplete n)
    | .store g _ => some (if o.performed || (g && o.owed != 0) then .gStoreAck n else .storePerformed n)
    | .done => some (.storePerformed n)
    | .atomic _ _ => some (.atomicComplete n)
    | .copy _ _ _ _ => some (.copyComplete n)
    | .dcopy _ _ _ _ _ => some (.dcopyComplete n)
    | .table _ _ _ => some (.tableLoadComplete n)
    | .histl _ _ => some (.histlComplete n)
    | .matrix _ _ _ _ _ _ _ _ => some (.matrixOperandComplete n)
    | .tileStore _ _ _ => some (.matrixComplete n)
    | .drain _ _ => some (.matrixComplete n)
    | .sego _ => none
    | .lake _ _ => none
    | .lakeEnded _ _ => none

/-- Events of the operations, the oldest first; a copy moves a piece or all that is left of it, as the hardware chooses. -/
def State.opEvents (s : State) : List Own :=
  s.ops.filterMap (fun e => match e.2 with
    | some o => match o.event e.1 with
      | some (.copyComplete n) => some (if s.choice 333 then .copyPiece n else .copyComplete n)
      | x => x
    | none => none)

/-- Events of the cores and the warps on them. -/
def State.coreEvents (s : State) : List Own :=
  s.warps.flatMap (fun e =>
      (if e.2.evict == .drain || (e.2.evict == .requested && e.2.masks.lmask == 0) then [Own.warpDrainDone e.1] else [])
        ++ (if e.2.resident && e.2.masks.lmask == 0 then [Own.stageEnd e.1] else [])
        ++ (match e.2.prmWait with | some cs => cs.map (fun c => .prmPushRequest c e.1) | none => []))
    ++ s.lake.filterMap (fun e => match e.2.run with
      | some c => if !c.outputs.isEmpty && s.choice 334 then some (Own.lakeLand e.1) else none
      | none => none)
    ++ s.cores.flatMap (fun e => .acqaGrant e.1 :: e.2.engines.filterMap (fun x => if x.2.busy then some (.streamBox e.1 x.1) else none))

/-- Events of the vats, the lots and their gates (spec/03 R65–R69, spec/04 R84–R86). -/
def State.lotEvents (s : State) : List Own :=
  s.vats.flatMap (fun e => match e.2 with
    | some v => if v.place == .gone then [] else [.vatLeave e.1, .vatRestorePlace e.1]
    | none => [])
  ++ s.lots.flatMap (fun e => match e.2 with
    | some l =>
      if l.phase == .complete then [] else
        [Own.abortFlagArrive e.1 0, .abortFlagArrive e.1 1, .abortFlagArrive e.1 2, .abortFlagArrive e.1 3, .lotComplete e.1,
          .waitSemaphoreRead e.1, .lotGateOpen e.1, .cohabPlace e.1, .vatPlace e.1]
    | none => [])

/-- Events of the task engines (spec/04 R90–R102). -/
def State.taskEvents (s : State) : List Own :=
  s.dies.flatMap (fun e =>
    e.2.tasks.map (fun t => Own.taskRetire e.1 t.1) ++ e.2.bins.map (fun b => .binFormWarp e.1 b.1)
      ++ s.ctxs.flatMap (fun c => [.taskEnter e.1 c.1, .overflowRefill e.1 c.1]))

/-- Events of the queues and the driver's commands (spec/03 R62, R70). -/
def State.queueEvents (s : State) : List Own :=
  (if s.posted.isEmpty then [] else [Own.send]) ++ s.ctxs.flatMap (fun e => .faultRoom e.1 :: (List.range 16).map (Own.lotAccept e.1))
  ++ s.parts.flatMap (fun e => [Own.partitionRung e.1, .tlbinvComplete e.1, .ctxnew e.1, .ctxreset e.1, .tlbinv e.1, .ctxfree e.1, .driverBadOpcode e.1])

/-- Limits of time of a warp, each with the GTIME at which it runs out (spec/07 R164, R171, R181, R182, R395, R396, spec/05 R132, spec/04
R102). -/
def State.warpLimits (s : State) (k : Nat) (w : Warp) : List (Own × Nat) :=
  (if s.atFirmware k then [(.rungServiceTimeout k, w.trap.offeredAt + 2000000)] else [])
  ++ if !w.resident then []
  else
    let park : List (Own × Nat) := match w.hold with
      | .parked .stgnext => [(.stageParkTimeout k, 200000)]
      | .parked .stgwl => [(.stageParkTimeout k, 200000)]
      | .parked (.slot _) => [(.slotParkTimeout k, 200000)]
      | .parked .presence => [(.presenceTimeout k, 200000)]
      | .parked (.secfg _) => [(.secfgParkTimeout k, 200000)]
      | .parked (.acqa _) => [(.acqaWaitTimeout k, 200000)]
      | .parked .spawn => [(.ovfStall k, 2000000)]
      | _ => []
    park.map (fun e => (e.1, w.holdSince + e.2))
      ++ (match (s.vat w.vat).stop with | some t => [(.vatStopForce k, t + 2000000)] | none => [])
      ++ (if w.saving then [(.saveRestoreTimeout k, w.modeAt + 2000000)]
          else if w.trap.tmode then
            [(.rungServiceTimeout k, w.trap.offeredAt + rungTimeout w.trap.frec.rung), (.evictForce k, w.trap.offeredAt + rungTimeout w.trap.frec.rung)]
          else [])
      ++ (if w.onCore then (lanesOf (w.lanesIn waitBar)).map (fun l => (.barrierTimeout k, w.barSince.get l + 200000)) else [])

/-- Limits of time of an operation: its acknowledgements (spec/08 R205), and an answer where its route is gone (spec/03 R61). -/
def State.opLimits (s : State) (n : Nat) (o : Op) : List (Own × Nat) :=
  (.acktoExpiry n, o.issuedAt + s.acktoNs o.ctx)
    :: (if !o.complete && s.routeLost (s.ctx o.ctx).part o.work.touchedKeys then [(.rungServiceTimeout o.warp, o.issuedAt + 2000000)] else [])

/-- Limits of time of a lot: its abort flag reaches the dies of its partition within 1 µs (spec/04 R109). -/
def State.abortLimits (s : State) (n : Nat) (l : Lot) : List (Own × Nat) :=
  if l.abort && l.phase != .complete then
    ((s.part (s.ctx l.ctx).part).ldt.filter (fun d => !l.abortDies.getLsbD d)).map (fun d => (.abortFlagArrive n d, l.abortAt + 1000))
  else []

/-- Limits of time of the device: the partition rung (spec/07 R164), the lines of Mordant (spec/08 R206), a repeated fetch of the firmware
(spec/03 R75). -/
def State.deviceLimits (s : State) : List (Own × Nat) :=
  s.parts.filterMap (fun e => e.2.rungAt.map (fun t => (.partitionRung e.1, t + 20000000)))
    ++ s.hub.hubOwned.filterMap (fun e => e.2.map (fun t => (.mordantReturn e.1, t + 2000)))
    ++ (if s.retries then [(.firmwareRetry, s.retryTime)] else [])

/-- All limits: beside those the Lake commands (spec/16 R369) and the silent dies (spec/01 R31). -/
def State.limits (s : State) : List (Own × Nat) :=
  s.warps.flatMap (fun e => s.warpLimits e.1 e.2)
    ++ s.ops.flatMap (fun e => match e.2 with | some o => s.opLimits e.1 o | none => [])
    ++ s.lots.flatMap (fun e => match e.2 with | some l => s.abortLimits e.1 l | none => [])
    ++ s.deviceLimits
    ++ s.lake.filterMap (fun e => match e.2.run with | some c => some (.lakeTimeout e.1, c.startedAt + 10000000) | none => none)
    ++ s.dies.filterMap (fun e => if e.2.state == .silent then some (.dltoExpiry (dieBit e.1), e.2.silentAt + s.hub.dltoNs) else none)

/-- The ends of waits that are no events: sleeps, releases that wait for acknowledgements, and task bins (spec/13 R307, spec/08 R205, spec/04
R97). -/
def State.waitEnds (s : State) : List Nat :=
  s.warps.filterMap (fun e => s.sleepsUntil e.2)
    ++ s.warps.filterMap (fun e => match s.stalledRelease e.1 with | some _ => some (e.2.holdSince + s.acktoNs (s.ctxOf e.1)) | none => none)
    ++ s.dies.flatMap (fun e => e.2.bins.filterMap (fun b => match b.2 with
      | some b => some (b.since + binTime e.2.btim)
      | none => none))

/-- An event that has an effect now. -/
def State.happens (s : State) (e : Own) : Bool := match s.own e with | .next t => decide (t ≠ s) | _ => false

/-- What may follow when the agenda is empty: a warp that is not held issues, as R88 chooses; a limit of time has
run out, the oldest outstanding operation that can, completes, or another event of the device happens; a Lake engine runs on; a held warp tries again. -/
def State.readyDue (s : State) : Option Due := (s.firstWarp s.issuable s.issuesBefore).map .warp
def State.eventDue (s : State) : Option Due :=
  match ((s.limits.filter (fun e => e.2 ≤ s.gtime)).map (·.1)).find? s.happens with
  | some e => some (.own e)
  | none => match s.opEvents.find? s.happens with
    | some e => some (.own e)
    | none => ((s.coreEvents ++ s.lotEvents ++ s.taskEvents ++ s.queueEvents).find? s.happens).map .own
def State.engineDue (s : State) : Option Due := (s.lake.firstKey (fun k e => e.run.isSome || s.lakeStarts k e)).map .engine
def State.heldDue (s : State) : Option Due :=
  (s.firstWarp (fun k w => s.mayTurn k w && !s.issuable k w) (fun a b => s.waited b ≤ s.waited a)).map .warp

/-- Nothing acts until the first limit of time or the first end of a wait that is still to come. -/
def State.passDue (s : State) : Option Due :=
  (((s.limits.map (·.2) ++ s.waitEnds).filter (s.gtime < ·)).foldl (fun (r : Option Nat) t =>
    match r with | some m => some (min m t) | none => some t) none).map .pass

/-- The time that passes before a turn: 1 ns, the model's own pace (DESIGN CHOICE, log 2), or until a GTIME. -/
def State.dueTime (s : State) : Due → Nat
  | .pass t => t - s.gtime
  | _ => 1

/-- What follows when the agenda is empty: a fault that waited for room is queued; else most often a warp, and now and then the others
first, so that nothing waits for ever; last of all
time passes. `none`: nothing in the device can act before the outside world does. -/
def State.nextDue (s : State) : Option Due :=
  match s.warps.firstKey (fun k _ => s.faultWaits k) with
  | some k => some (.warp k)
  | none => match s.fresh % 8 with
    | 7 => s.eventDue <|> s.engineDue <|> s.heldDue <|> s.readyDue <|> s.passDue
    | 5 => s.engineDue <|> s.heldDue <|> s.readyDue <|> s.eventDue <|> s.passDue
    | 3 => s.heldDue <|> s.readyDue <|> s.eventDue <|> s.engineDue <|> s.passDue
    | _ => s.readyDue <|> s.eventDue <|> s.engineDue <|> s.heldDue <|> s.passDue

end Sys2Proof.Machine
end

