-- ==== Sys2Proof/Machine/Place.lean ====
section
/-! DEFINITION. One instruction placed where the next step fetches it: what the boot, the driver, a lot's acceptance and its
placement would have set up for a one-warp vat on core 0 of die 0, and that warp's turn. -/

namespace Sys2Proof.Machine

/-- Words of memory, by physical address. -/
def putWords (m : Map Byte) : List (Nat × Nat × Nat) → Map Byte
  | [] => m
  | (pa, n, v) :: rest => putWords (m.setFrom pa (natToBytes n v)) rest

/-- Page tables at 0x1000, 0x2000 and 0x3000 with one page of 1 GiB at address 0; a clause of two words at 0x10080. -/
def placedWords (w : Nat) : List (Nat × Nat × Nat) :=
  [(0x1000, 8, 0x2001), (0x2000, 8, 0x3001), (0x3000, 8, 0xF), (0x10080, 4, 2), (0x10084, 4, w % 2 ^ 32), (0x10088, 4, w / 2 ^ 32 % 2 ^ 32)]

def placedLot : Lot :=
  { (default : Lot) with
    record := { (default : LotRecord) with codeva := 0x10000, nvec := 1, gx := 1, gy := 1, gz := 1, regs := 31 },
    code := { (default : CodeHeader) with size := 0x100, textoff := 0x80, textlen := 0x80 },
    entryOff := 0x80, phase := .running, nextVat := 1, tstart := 1 }

def placedVat : Vat := { (default : Vat) with place := .resident, gridX := 0, nwarp := 1, nvec := 1, regs := 31, firstLive := 32 }

def placedWarp : Warp :=
  { (default : Warp) with
    resident := true, phase := .word,
    masks := { (default : Masks) with amask := 0xFFFFFFFF, lmask := 0xFFFFFFFF },
    lpc := (List.range 32).map (fun l => (l, 0x80)),
    clause := { hdr := 0x80, word := 2, idx := 1, issue := 0xFFFFFFFF, enabled := 0xFFFFFFFF, rep := none } }

/-- A lot of one vat of one warp, resident and inside a clause, with the words of an instruction next. -/
def State.placeCode (s : State) (w : Nat) : State :=
  { s with
    hub := { s.hub with devst := .ready, keys := s.hub.keys.set 0 .plain },
    parts := s.parts.set 0 { (default : Partition) with ldt := [0], launchProcs := 1, ackto := 50 },
    dies := s.dies.set 0 { (default : Die) with state := .live, cores := [(0, 0)], btim := 24 },
    cores := s.cores.set 0 default,
    ctxs := s.ctxs.set 0 (some { (default : Context) with root := 0x1000, saveVa := 0x100000, tdmask := 1 }),
    lots := s.lots.set 0 (some placedLot), vats := s.vats.set 0 (some placedVat), warps := s.warps.set 0 placedWarp,
    mem := putWords s.mem (placedWords w), tlb := [], stale := [], ops := [], poison := [], lineKey := [],
    agenda := [{ dt := 1, who := .warp 0 }] }

/-- A Lake engine with a running command whose next word is given. -/
def State.placeLake (s : State) (w : Nat) : State :=
  let s := s.placeCode 0
  { s with
    lake := s.lake.set 0 {
      program := [(0, some (0, BitVec.ofNat 32 w))],
      queue := [{ job := .command (List.replicate 128 0) 0, op := 0, warp := 0, ctx := 0, after := [] }],
      run := some (LakeCommand.fresh 0 0 []) },
    agenda := [{ dt := 1, who := .engine 0 }] }

/-- A word taken as Lake's stands in the program of a Lake engine, any other in the code of a warp, as `decodeTableWord` reads
them. -/
def State.placeWord (s : State) (_nbits w : Nat) : State :=
  if (lakeReading w).isSome then s.placeLake w else s.placeCode w

end Sys2Proof.Machine
end

