-- ==== Sys2Proof/Machine/Step.lean ====
section
/-! DEFINITION. One step of the device: the next turn of the agenda, or the turn that follows by itself. -/

namespace Sys2Proof.Machine

/-- What an actor of the agenda does. A warp that R88 (spec/04) does not choose does not issue. -/
def act (s : State) : Actor → Out
  | .warp k => if s.chosen k then (State.takeSlot { s with cur := k }).warpTurn else .next s
  | .engine e => State.engineTurn { s with curEng := e }
  | .event i => if isEvent i then exec i s else .next s
  | .hostWrite pa bs => .next (s.hostStore pa bs)
  | .hostAccept pa n => .next (s.hostAccept pa n)
  | .hostRead fn off => .next (s.hostRead fn off)
  | .peerWrite dev off bs => .next (s.peerWrite dev off bs)

/-- What goes on by itself. -/
def actDue (s : State) : Due → Out
  | .warp k => (State.takeSlot { s with cur := k }).warpTurn
  | .engine e => State.engineTurn { s with curEng := e }
  | .own e => s.own e
  | .pass _ => .next s

/-- Time passes and the free values advance; the waits of the warps that have become ready begin (spec/04 R88). -/
def State.elapse (s : State) (dt : Nat) : State := { s.noteReady with gtime := s.gtime + dt, fresh := s.fresh + 1 }

/-- One step of the device. -/
def step (s : State) : Host.Outcome State Fault Refusal :=
  match s.agenda with
  | t :: rest => act ({ s with agenda := rest }.elapse t.dt) t.who
  | [] => match s.nextDue with
    | some d => actDue (s.elapse (s.dueTime d)) d
    | none => .fault .idle

/-- The state with one instruction placed where the next step fetches it. -/
def State.withFetchWord (s : State) (nbits w : Nat) : State := s.placeWord nbits w

end Sys2Proof.Machine
end

