-- ==== Sys2Proof/Safety.lean ====
section
/-! DEFINITION. The terms in which claims speak: what a run keeps, when an instruction issues normally, what an instruction
leaves in registers and what it leaves alone. -/

namespace Sys2Proof.Machine

/-! ### What every step keeps -/

/-- Memory is in its canonical form, and FEATACC names no feature that FEATURES does not (spec/03 R73). -/
def State.Inv (s : State) : Prop := s.mem.wf = true ∧ s.hub.featacc &&& ~~~ features = 0

/-! ### Normal issue -/

/-- The instruction has no fault of the whole instruction (spec/07 R167), a lane is enabled (spec/11 R252), and no enabled lane
reads an uncorrectable error (spec/07 R186). -/
def State.clear (s : State) (g : Sig) : Bool :=
  (s.wholeFault g).isNone && s.w.clause.enabled != 0 && s.eccLanes g == 0

/-! ### Registers -/

/-- The value of a register cell once every result on its way is in. -/
def Warp.final (w : Warp) (c : Nat) : Word := w.flush.regs.get c

/-- The last value of a list of writes to a cell. -/
def lastOf : List (Nat × Word) → Nat → Option Word
  | [], _ => none
  | e :: es, c => match lastOf es c with
    | some v => some v
    | none => if e.1 = c then some e.2 else none

/-- The same for bytes. -/
def lastOf8 : List (Nat × Byte) → Nat → Option Byte
  | [], _ => none
  | e :: es, c => match lastOf8 es c with
    | some v => some v
    | none => if e.1 = c then some e.2 else none

/-- Values for the register of a code in the enabled lanes, for a predicate, for a k register. -/
def State.toLanes (s : State) (d : Code) (v : Nat → Word) : List (Nat × Word) :=
  s.lanes.map (fun l => (s.w.cell d.toNat l, v l))
def State.toPred (s : State) (p : BitVec 3) (v : Nat → Bool) : List (Nat × Word) :=
  s.lanes.map (fun l => (s.w.predCell p.toNat l, if v l then 1 else 0))
def State.toK (s : State) (d : Code) (v : Word) : List (Nat × Word) := [(s.w.cell d.toNat 0, v)]
/-- A 64-bit value for a register pair, the low word in the lower code (spec/11 R257). -/
def State.toPair (s : State) (d : Code) (v : Nat → BitVec 64) : List (Nat × Word) :=
  s.toLanes d (fun l => (v l).setWidth 32) ++ s.toLanes (d + 1) (fun l => (v l >>> 32).setWidth 32)
/-- A value for every enabled lane's register, or once for a k register. -/
def State.toAny (s : State) (d : Code) (v : Word) : List (Nat × Word) :=
  if isK d then s.toK d v else s.toLanes d (fun _ => v)

/-! ### What an instruction leaves alone -/

/-- Only the warp in turn has changed. -/
def State.OnlyWarp (s t : State) : Prop := t = { s with warps := s.warps.set s.cur t.w }

/-- What no issue changes by being one: all of the warp but its registers, what an issue counts (spec/05 R123, R125, spec/11
R258), its place and its program counters, and what the return from a replay's trap changes (spec/07 R173). -/
def Warp.rest (w : Warp) : Warp :=
  { w with
    regs := [], pending := [], poisoned := [], dist := 0, pkage := [], sgrem := 0, started := true, hold := .free, matrixOp := none,
    spawnDone := 0, acqAnswer := none, phase := .boundary, clause := default, replay := none, lpc := [], hpc1 := [], hpc2 := [],
    tlpc := [], mpc := [], masks := default, wpark := false, cause := none }

/-- Sticky flags set. -/
def Warp.flagged (w : Warp) (f : Flags) : Warp := { w with fstat := w.fstat ||| f.setWidth 32 }

/-- The warp after an issue that writes registers and the sticky flags `f`; the masks change only with a replay in progress. -/
def Warp.Issued (w x : Warp) (f : Flags) : Prop :=
  x.rest = (w.flagged f).rest ∧
  (w.replay = none → x.masks = w.masks ∧ x.wpark = w.wpark ∧ x.cause = w.cause)

/-- An instruction has written the registers `ws` (a later value stands) and the flags `f`, and nothing else. -/
def State.Wrote (s t : State) (ws : List (Nat × Word)) (f : Flags) : Prop :=
  s.OnlyWarp t ∧ s.w.Issued t.w f ∧ ∀ c, t.w.final c = (lastOf ws c).getD (s.w.final c)

/-- Where an instruction issues normally it completes, having written just so. -/
def Writes (s : State) (g : Sig) (i : Instr) (ws : List (Nat × Word)) (f : Flags) : Prop :=
  s.clear g = true → ∃ t, exec i s = .next t ∧ s.Wrote t ws f

/-- Only the warp in turn has changed, and of it only its registers, by `ws`, and what `rest` passes over. -/
def State.Went (s t : State) (ws : List (Nat × Word)) : Prop :=
  s.OnlyWarp t ∧ t.w.rest = s.w.rest ∧ ∀ c, t.w.final c = (lastOf ws c).getD (s.w.final c)

/-- A result with its flags in every enabled lane (spec/12 R276). -/
def FloatWrites (s : State) (g : Sig) (i : Instr) (d : Code) (r : Nat → FRes) : Prop :=
  Writes s g i (s.toLanes d (fun l => BitVec.ofNat 32 (r l).1)) (s.laneFlags (fun l => (r l).2))

/-- An instruction of slot `k` that names the lane register `d` and the registers `srcs`; one that names the k register `d`. -/
def laneSig (k : Nat) (st : BitVec 2) (d : Code) (srcs : List Code) : Sig :=
  { slot := k, stall := st, ok := isLane d, uses := (d, 1) :: srcs.map (fun c => (c, 1)) }
def kSig (k : Nat) (st : BitVec 2) (d : Code) (srcs : List Code) : Sig :=
  { slot := k, stall := st, ok := isK d, uses := (d, 1) :: srcs.map (fun c => (c, 1)) }

end Sys2Proof.Machine
end

