-- ==== Sys2Proof/Certificates/Slice0/Obligations.lean ====
section
/-! DEFINITION. The statements for the provers. -/

open Sys2Proof Sys2Proof.Machine

/-! ### Registers -/

/-- Table 1 of spec/12 R278: where such an instruction issues normally it completes, each enabled lane's `d` holds the table's
operation of the operands as read at issue, and nothing else changes; its word is S, OP, F, D, A, B. -/
def Obligations.IntegerTable : Prop := ∀ (s : State) (st : BitVec 2) (d a b : Code),
  let is (k : Nat) (i : Instr) (srcs : List Code) (op : Word → Word → Word) : Prop :=
    Writes s (laneSig k st d srcs) i (s.toLanes d (fun l => op (s.readOp a l) (s.readOp b l))) 0 ∧
      encode i = [packR st (BitVec.ofNat 6 (k / 8)) (BitVec.ofNat 3 (k % 8)) d a (if srcs.length = 2 then b else 0)]
  is 0x00 (.iadd st d a b) [a, b] (fun x y => x + y) ∧
  is 0x01 (.isub st d a b) [a, b] (fun x y => x - y) ∧
  is 0x02 (.imul st d a b) [a, b] (fun x y => x * y) ∧
  is 0x03 (.imulh st d a b) [a, b] (fun x y => ((x.signExtend 64 * y.signExtend 64) >>> 32).setWidth 32) ∧
  is 0x04 (.imin st d a b) [a, b] (fun x y => if x.toInt ≤ y.toInt then x else y) ∧
  is 0x05 (.imax st d a b) [a, b] (fun x y => if x.toInt ≤ y.toInt then y else x) ∧
  is 0x06 (.iabs st d a) [a] (fun x _ => if x.toInt < 0 then 0 - x else x) ∧
  is 0x07 (.ineg st d a) [a] (fun x _ => 0 - x) ∧
  is 0x10 (.and st d a b) [a, b] (fun x y => x &&& y) ∧
  is 0x11 (.or st d a b) [a, b] (fun x y => x ||| y) ∧
  is 0x12 (.xor st d a b) [a, b] (fun x y => x ^^^ y) ∧
  is 0x13 (.not st d a) [a] (fun x _ => ~~~ x) ∧
  is 0x14 (.shl st d a b) [a, b] (fun x y => if 32 ≤ y.toNat then 0 else x <<< y.toNat) ∧
  is 0x15 (.shr st d a b) [a, b] (fun x y => if 32 ≤ y.toNat then 0 else x >>> y.toNat) ∧
  is 0x16 (.sar st d a b) [a, b] (fun x y => x.sshiftRight (min y.toNat 31)) ∧
  is 0x17 (.rol st d a b) [a, b] (fun x y => x.rotateLeft (y.toNat % 32)) ∧
  is 0x1A (.popc st d a) [a] (fun x _ => BitVec.ofNat 32 ((List.range 32).countP (fun i => x.getLsbD i))) ∧
  is 0x1B (.clz st d a) [a] (fun x _ => if x = 0 then 32 else BitVec.ofNat 32 (31 - Nat.log2 x.toNat)) ∧
  is 0x1C (.brev st d a) [a] (fun x _ => x.reverse) ∧
  is 0x1D (.mov st d a) [a] (fun x _ => x)

/-- The 64-bit instructions on register pairs (spec/12 R279) and the X-format integer instructions (R280 Table 2): the operands each
allows, and its result. -/
def Obligations.IntegerExtended : Prop :=
  (∀ (s : State) (st : BitVec 2) (d a b : Code),
    let g (k nb : Nat) : Sig :=
      { slot := k, stall := st, ok := lanePair d && aligned a 2 && aligned b nb, uses := [(d, 2), (a, 2), (b, nb)] }
    Writes s (g 0x09 2) (.iadd64 st d a b) (s.toPair d (fun l => s.readPair a l + s.readPair b l)) 0 ∧
    Writes s (g 0x0A 2) (.isub64 st d a b) (s.toPair d (fun l => s.readPair a l - s.readPair b l)) 0 ∧
    Writes s (g 0x18 1) (.shl64 st d a b)
      (s.toPair d (fun l => if 64 ≤ (s.readOp b l).toNat then 0 else s.readPair a l <<< (s.readOp b l).toNat)) 0 ∧
    Writes s (g 0x19 1) (.shr64 st d a b)
      (s.toPair d (fun l => if 64 ≤ (s.readOp b l).toNat then 0 else s.readPair a l >>> (s.readOp b l).toNat)) 0) ∧
  (∀ (s : State) (st : BitVec 2) (d a b c : Code) (sub : BitVec 4) (imm7 : BitVec 7)
      (pd ps : BitVec 3) (pn : BitVec 1),
    Writes s { laneSig 0x08 st d [a, b, c] with ok := isLane d && decide (sub ≤ 2) } (.imad st d a b sub c)
      (s.toLanes d (fun l => imadW sub (s.readOp a l) (s.readOp b l) (s.readOp c l))) 0 ∧
    Writes s { laneSig 0x0B st d [a, b, c] with ok := isLane d && (decide (1 ≤ imm7) && decide (imm7 ≤ 32)) } (.bfi st d a b c imm7)
      (s.toLanes d (fun l => bfiW imm7.toNat (s.readOp a l) (s.readOp b l) (s.readOp c l))) 0 ∧
    Writes s { laneSig 0x0C st d [a, b] with ok := isLane d && decide (sub ≤ 1) && decide (1 ≤ imm7) && decide (imm7 ≤ 32) } (.bfx st d a b sub imm7)
      (s.toLanes d (fun l => bfxW (sub == 1) imm7.toNat (s.readOp a l) (s.readOp b l))) 0 ∧
    Writes s { laneSig 0x0D st d [a, b] with preds := [ps] } (.sel st d a b ps pn)
      (s.toLanes d (fun l => if s.readPX ps pn l then s.readOp a l else s.readOp b l)) 0 ∧
    Writes s { slot := 0x0E, stall := st, ok := cmpOk 9 sub ps pn imm7, dst := false, pdst := true, uses := [(a, 1), (b, 1)],
               preds := cmbPreds pd ps imm7 } (.icmpp st a b sub pd ps pn imm7)
      (s.toPred pd (fun l => intCmp sub (s.readOp a l) (s.readOp b l) && (!imm7.getLsbD 0 || s.readPX ps pn l))) 0)

/-- What the operations of R280's table give, bit for bit. -/
def Obligations.IntegerOperations : Prop := ∀ (a b c : Word) (len : Nat), 1 ≤ len → len ≤ 32 →
  imadW 0 a b c = a * b + c ∧
  imadW 1 a b c = ((a.signExtend 64 * b.signExtend 64) >>> 32).setWidth 32 + c ∧
  imadW 2 a b c = ((a.setWidth 64 * b.setWidth 64) >>> 32).setWidth 32 + c ∧
  (∀ i < 32, (bfiW len a b c).getLsbD i =
    if b.toNat ≤ i ∧ i < min (b.toNat + len) 32 then a.getLsbD (i - b.toNat) else c.getLsbD i) ∧
  (∀ i < 32, b.toNat < 32 → (bfxW false len a b).getLsbD i = (decide (i < min len (32 - b.toNat)) && a.getLsbD (b.toNat + i))) ∧
  (∀ i < 32, b.toNat < 32 → (bfxW true len a b).getLsbD i =
    if i < min len (32 - b.toNat) then a.getLsbD (b.toNat + i) else a.getLsbD (b.toNat + min len (32 - b.toNat) - 1)) ∧
  (32 ≤ b.toNat → bfiW len a b c = c ∧ bfxW false len a b = 0 ∧ bfxW true len a b = 0)

/-- The moves (spec/12 R281, spec/06 R137, R138): MOVI, LIMM, SETWB, and MOVX where every enabled lane's index lies within the
allotment and, with CHECK, no named register is still on its way, and none holds an uncorrectable error. -/
def Obligations.Moves : Prop := ∀ (s : State) (st : BitVec 2) (d a b : Code) (imm : BitVec 14) (imm32 : BitVec 32) (imm8 : BitVec 8)
    (imm7 : BitVec 7),
  let setwb : Sig := { slot := 0x22, stall := st, ok := imm8.toNat % 32 == 0 && decide (imm8 ≤ 224) }
  let within : Prop := (∀ l ∈ s.lanes, s.movxIndex a imm7 l < s.laneRegs) ∧
    (s.checked = true → ∀ l ∈ s.lanes, ∀ p ∈ s.w.pending, s.w.dist < p.due → p.cell / 32 ≠ s.movxIndex a imm7 l) ∧
    ∀ l ∈ s.lanes, cellV (s.movxIndex a imm7 l) l ∉ s.w.poisoned
  Writes s (laneSig 0x20 st d []) (.movi st d imm) (s.toLanes d (fun _ => imm.signExtend 32)) 0 ∧
  Writes s { slot := 0x21, stall := st, uses := [(d, 1)] } (.limm st d imm32) (s.toAny d imm32) 0 ∧
  (s.clear setwb = true → exec (.setwb st imm8) s = .next ((s.modW (fun w => { w with vwb := imm8 })).retire setwb)) ∧
  (within → Writes s (laneSig 0x23 st d [a]) (.movxR st d a imm7)
    (s.toLanes d (fun l => s.readCell (cellV (s.movxIndex a imm7 l) l))) 0) ∧
  (within → Writes s { slot := 0x24, stall := st, dst := false, uses := [(a, 1), (b, 1)] } (.movxW st a b imm7)
    (s.lanes.map (fun l => (cellV (s.movxIndex a imm7 l) l, s.readOp b l))) 0)

/-- binary32 arithmetic (spec/12 R282–R286): FRES pairs of a code and its flags are those of the model's rounding. -/
def Obligations.FloatResults : Prop := ∀ (s : State) (st : BitVec 2) (d a b c : Code) (rm : BitVec 2) (sub : BitVec 4) (imm7 : BitVec 7)
    (pd ps : BitVec 3) (pn : BitVec 1),
  let x (l : Nat) : Nat := (s.readOp a l).toNat
  let y (l : Nat) : Nat := (s.readOp b l).toNat
  let z (l : Nat) : Nat := (s.readOp c l).toNat
  FloatWrites s (laneSig 0x80 st d [a, b]) (.fadd st d a b) d (fun l => f32.add 0 (x l) (y l)) ∧
  FloatWrites s (laneSig 0x81 st d [a, b]) (.fsub st d a b) d (fun l => f32.sub 0 (x l) (y l)) ∧
  FloatWrites s (laneSig 0x82 st d [a, b]) (.fmul st d a b) d (fun l => f32.mul 0 (x l) (y l)) ∧
  FloatWrites s (laneSig 0x83 st d [a, b]) (.fmin st d a b) d (fun l => fminmax false (x l) (y l)) ∧
  FloatWrites s (laneSig 0x84 st d [a, b]) (.fmax st d a b) d (fun l => fminmax true (x l) (y l)) ∧
  FloatWrites s (laneSig 0x85 st d [a]) (.fneg st d a) d (fun l => fneg (x l)) ∧
  FloatWrites s (laneSig 0x86 st d [a]) (.fabs st d a) d (fun l => fabs (x l)) ∧
  FloatWrites s (laneSig 0x87 st d [a]) (.fclass st d a) d (fun l => (fclassOf (x l), 0)) ∧
  FloatWrites s (laneSig 0x88 st d [a, b]) (.faddRm st d a b rm) d (fun l => f32.add rm (x l) (y l)) ∧
  FloatWrites s (laneSig 0x89 st d [a, b]) (.fsubRm st d a b rm) d (fun l => f32.sub rm (x l) (y l)) ∧
  FloatWrites s (laneSig 0x8A st d [a, b]) (.fmulRm st d a b rm) d (fun l => f32.mul rm (x l) (y l)) ∧
  FloatWrites s { laneSig 0x8B st d [a, b, c] with ok := isLane d && true } (.ffma st d a b rm c) d (fun l => f32.fma rm (x l) (y l) (z l)) ∧
  Writes s { slot := 0x8C, stall := st, ok := cmpOk 7 sub ps pn imm7, dst := false, pdst := true, uses := [(a, 1), (b, 1)],
             preds := cmbPreds pd ps imm7 } (.fcmpp st a b sub pd ps pn imm7)
    (s.toPred pd (fun l => (floatCmp sub (x l) (y l)).1 && (!imm7.getLsbD 0 || s.readPX ps pn l)))
    (s.laneFlags (fun l => (floatCmp sub (x l) (y l)).2)) ∧
  FloatWrites s (laneSig 0x8D st d [a]) (.frint st d a rm) d (fun l => frintOf rm (x l)) ∧
  FloatWrites s { laneSig 0x8E st d [a, b, c] with ok := isLane d && decide (sub ≤ 1) } (.fdp2 st d a b rm sub c) d
    (fun l => fdp2Of (packedFmt sub) rm (x l) (y l) (z l))

/-- What rounding and the sign operations do (spec/09 R219, R221, spec/12 R282): a finite binary32 number is its own rounding in
every mode, FNEG inverts and FABS clears bit 31 of what is no NaN, a NaN gives the canonical one, and a quiet one no flag. -/
def Obligations.FloatSigns : Prop := ∀ (rm : BitVec 2) (a : Word),
  ((f32.decode a.toNat).isNan = false → f32.round rm (f32.decode a.toNat) = (a.toNat, 0)) ∧
  ((f32.decode a.toNat).isNan = false → fneg a.toNat = ((a ^^^ 0x80000000).toNat, 0) ∧ fabs a.toNat = ((a &&& 0x7FFFFFFF).toNat, 0)) ∧
  ((f32.decode a.toNat).isNan = true → (fneg a.toNat).1 = 0x7FC00000 ∧ (fabs a.toNat).1 = 0x7FC00000 ∧
    ((f32.decode a.toNat).isSnan = false → (fneg a.toNat).2 = 0 ∧ (fabs a.toNat).2 = 0))

/-- Packed, dot-product, conversion and special-function instructions (spec/12 R287–R291). -/
def Obligations.FloatOther : Prop := ∀ (s : State) (st : BitVec 2) (d a b c : Code) (rm : BitVec 2) (sub : BitVec 4) (fs : BitVec 3)
    (imm7 : BitVec 7),
  let x (l : Nat) : Nat := (s.readOp a l).toNat
  let y (l : Nat) : Nat := (s.readOp b l).toNat
  let z (l : Nat) : Nat := (s.readOp c l).toNat
  let f := s.fslot fs
  let dst := imm7.toNat
  let na := if cvtWide sub.toNat then 2 else 1
  let nd := if cvtWide dst then 2 else 1
  let r (l : Nat) := cvtOf rm sub.toNat dst (if cvtWide sub.toNat then s.readPair a l else (s.readOp a l).setWidth 64)
  FloatWrites s (laneSig 0x90 st d [a, b]) (.hadd2 st d a b) d (fun l => halves (f16.add 0) (x l) (y l)) ∧
  FloatWrites s (laneSig 0x91 st d [a, b]) (.hmul2 st d a b) d (fun l => halves (f16.mul 0) (x l) (y l)) ∧
  FloatWrites s { laneSig 0x92 st d [a, b, c] with ok := isLane d && decide (sub ≤ 1) } (.hfma2 st d a b rm sub c) d
    (fun l => halves3 ((packedFmt sub).fma rm) (x l) (y l) (z l)) ∧
  FloatWrites s { laneSig 0x93 st d [a, b] with ok := isLane d && decide (sub ≤ 1) } (.hadd2X st d a b rm sub) d
    (fun l => halves ((packedFmt sub).add rm) (x l) (y l)) ∧
  FloatWrites s { laneSig 0x94 st d [a, b] with ok := isLane d && decide (sub ≤ 1) } (.hmul2X st d a b rm sub) d
    (fun l => halves ((packedFmt sub).mul rm) (x l) (y l)) ∧
  Writes s { laneSig 0x95 st d [a, b, c] with ok := isLane d && decide (sub ≤ 3) } (.idp4 st d a b sub c)
    (s.toLanes d (fun l => idp4W sub (s.readOp a l) (s.readOp b l) (s.readOp c l))) 0 ∧
  Writes s { slot := 0x98, stall := st, ok := isLane d && !cvtReserved sub.toNat && !cvtReserved dst && aligned a na && aligned d nd,
             uses := [(d, nd), (a, na)] } (.cvt st d a rm sub imm7)
    (if cvtWide dst then s.toPair d (fun l => (r l).1) else s.toLanes d (fun l => (r l).1.setWidth 32)) (s.laneFlags (fun l => (r l).2)) ∧
  Writes s { laneSig 0x99 st d [d, a] with ok := isLane d && elementOk f dst } (.cvtsTo st d a rm fs imm7)
    (s.toLanes d (fun l => setElement f (s.readOp d l) dst (toSlot f rm (x l)).1)) (s.laneFlags (fun l => (toSlot f rm (x l)).2)) ∧
  Writes s { laneSig 0x9A st d [a] with ok := isLane d && elementOk f dst } (.cvtsFrom st d a fs imm7)
    (s.toLanes d (fun l => BitVec.ofNat 32 (fromSlot f (element f (s.readOp a l) dst)))) 0 ∧
  FloatWrites s (laneSig 0xE0 st d [a]) (.frcp st d a) d (fun l => frcpOf (x l)) ∧
  FloatWrites s (laneSig 0xE1 st d [a]) (.frsq st d a) d (fun l => frsqOf (x l)) ∧
  FloatWrites s (laneSig 0xE2 st d [a]) (.fsqrt st d a) d (fun l => fsqrtOf (x l)) ∧
  FloatWrites s (laneSig 0xE3 st d [a]) (.fexp2 st d a) d (fun l => fexp2Of (x l)) ∧
  FloatWrites s (laneSig 0xE4 st d [a]) (.flog2 st d a) d (fun l => flog2Of (x l)) ∧
  FloatWrites s (laneSig 0xE5 st d [a]) (.fsin st d a) d (fun l => fsinOf (x l)) ∧
  FloatWrites s (laneSig 0xE6 st d [a]) (.fcos st d a) d (fun l => fcosOf (x l))

/-- The uniform instructions (spec/12 R297). -/
def Obligations.UniformResults : Prop := ∀ (s : State) (st : BitVec 2) (d a b : Code) (imm : BitVec 14) (sub : BitVec 4) (imm7 : BitVec 7)
    (pd ps : BitVec 3) (pn : BitVec 1),
  let is (k : Nat) (i : Instr) (op : Word → Word → Word) : Prop :=
    Writes s { kSig k st d [a, b] with ok := isK d && isK a && isK b } i (s.toK d (op (s.readK a) (s.readK b))) 0
  let l := if b == 32 then s.lane0 else b.toNat
  is 0x100 (.kadd st d a b) (fun x y => x + y) ∧
  is 0x101 (.ksub st d a b) (fun x y => x - y) ∧
  is 0x102 (.kmul st d a b) (fun x y => x * y) ∧
  is 0x103 (.kand st d a b) (fun x y => x &&& y) ∧
  is 0x104 (.kor st d a b) (fun x y => x ||| y) ∧
  is 0x105 (.kxor st d a b) (fun x y => x ^^^ y) ∧
  is 0x106 (.kshl st d a b) (fun x y => if 32 ≤ y.toNat then 0 else x <<< y.toNat) ∧
  is 0x107 (.kshr st d a b) (fun x y => if 32 ≤ y.toNat then 0 else x >>> y.toNat) ∧
  Writes s { kSig 0x108 st d [a] with reach := .low } (.kmov st d a) (s.toK d (s.readOp a s.lane0)) 0 ∧
  Writes s (kSig 0x109 st d []) (.kmovi st d imm) (s.toK d (imm.signExtend 32)) 0 ∧
  Writes s { slot := 0x10A, stall := st, ok := cmpOk 9 sub ps pn imm7 && isK a && isK b, dst := false, pdst := true, uses := [(a, 1), (b, 1)],
             preds := cmbPreds pd ps imm7 } (.kcmpp st a b sub pd ps pn imm7)
    (s.toPred pd (fun l => intCmp sub (s.readK a) (s.readK b) && (!imm7.getLsbD 0 || s.readPX ps pn l))) 0 ∧
  Writes s { slot := 0x10B, stall := st, ok := isK d && isLane a && decide (b ≤ 32), uses := [(d, 1), (a, 1)], preds := [7], pdst := true,
             reach := .nothing, others := if s.supplies l then s.lanes.map (fun j => (j, s.w.cell a.toNat l)) else [] }
    (.klane st d a b)
    (s.toK d (if inMask s.w.masks.lmask l then s.readOp a l else 0) ++ s.toPred 7 (fun _ => !inMask s.w.masks.lmask l)) 0 ∧
  Writes s { slot := 0x10C, stall := st, ok := isK d && isK a && decide (b ≤ 2), uses := [(d, 1), (a, 1)] } (.kpopm st d a b)
    (s.toK d (popW (s.readK a &&& (if b == 1 then s.w.clause.enabled else if b == 2 then s.w.masks.lmask else 0xFFFFFFFF)))) 0

/-- The cross-lane instructions (spec/13 R317–R324). -/
def Obligations.CrossLaneResults : Prop := ∀ (s : State) (st : BitVec 2) (d a b c : Code) (sub : BitVec 4) (imm7 : BitVec 7)
    (pd ps : BitVec 3) (pn : BitVec 1),
  let lxch (k : Nat) (i : Instr) (from' : Int → Int → Int) : Prop :=
    let src (l : Nat) : Int := from' l (s.readOp b l).toNat
    let there (l : Nat) : Bool := decide (0 ≤ src l) && decide (src l ≤ 31) && inMask s.w.masks.lmask (src l).toNat
    let g : Sig := { slot := k, stall := st, ok := isLane d && isLane a && (sub == 0 || sub == 1 && c == 0),
                     uses := [(d, 1), (a, 1), (b, 1)] ++ (if sub == 1 then [] else [(c, 1)]), preds := [7], pdst := true }
    Writes s (s.lxchReads g a b c (sub == 1) from') i
      (s.toLanes d (fun l => if there l then s.readOp a (src l).toNat else if sub == 1 then 0 else s.readOp c l) ++
        s.toPred 7 (fun l => !there l)) 0
  let below (l : Nat) : List Nat := s.lanes.filter (fun i => if imm7 == 1 then decide (i < l) else decide (i ≤ l))
  let scan (l : Nat) := foldList sub.toNat ((below l).map (s.readOp a))
  let fold := foldList sub.toNat (s.lanes.map (s.readOp a))
  let m := merge 64 (s.lanes.map (s.readOp a)) (s.lanes.map (s.readOp b)) 0 0
  let byRank (ms : List Word) (k0 k1 : Word) : List (Nat × Word) :=
    s.toLanes d (fun l => (ms[s.rank l]?).getD 0xFFFFFFFF) ++ s.toPred pd (fun l => (ms[s.rank l]?).isSome) ++ s.toK c k0 ++ s.toK (c + 1) k1
  lxch 0x180 (.lxchAt st d a b sub c) (fun _ n => n) ∧
  lxch 0x181 (.lxchBack st d a b sub c) (fun l n => l - n) ∧
  lxch 0x182 (.lxchFwd st d a b sub c) (fun l n => l + n) ∧
  lxch 0x183 (.lxchFlip st d a b sub c) (fun l n => (l.toNat ^^^ n.toNat : Nat)) ∧
  Writes s { slot := 0x184, stall := st, ok := decide (sub ≤ 2), preds := [pd, ps], pdst := true, reach := .every } (.ltest st sub pd ps pn)
    (s.toPred pd (fun _ => if sub == 0 then s.lanes.all (s.readPX ps pn) else if sub == 1 then s.lanes.any (s.readPX ps pn)
      else s.lanes.all (s.readPX ps pn) || s.lanes.all (fun l => !s.readPX ps pn l))) 0 ∧
  Writes s { slot := 0x185, stall := st, ok := decide (a < 16), uses := [(d, 1)], preds := [a.setWidth 3], reach := .every } (.pmask st d a)
    (s.toAny d (maskWhere (fun l => inMask s.w.clause.enabled l && s.readPX (a.setWidth 3) (a.extractLsb' 3 1) l))) 0 ∧
  Writes s { slot := 0x186, stall := st, ok := isLane d && isLane a && decide (b ≤ 1) && (!(b == 1) || aligned a 2),
             uses := [(d, 1), (a, if b == 1 then 2 else 1)], reach := .every } (.lsame st d a b)
    (s.toLanes d (fun l => maskWhere (fun i => inMask s.w.clause.enabled i &&
      (if b == 1 then s.readPair a i == s.readPair a l else s.readOp a i == s.readOp a l)))) 0 ∧
  Writes s { slot := 0x188, stall := st, ok := isLane a && decide (sub ≤ 10), uses := [(d, 1), (a, 1)], reach := .every } (.lfold st d a sub)
    (s.toAny d fold.1) fold.2 ∧
  Writes s { slot := 0x189, stall := st, ok := isLane d && isLane a && decide (sub ≤ 10) && decide (imm7 ≤ 1), uses := [(d, 1), (a, 1)], reach := .nothing,
             others := s.lanes.flatMap (fun l => (below l).map (fun i => (l, s.w.cell a.toNat i))) }
    (.scanx st d a sub imm7) (s.toLanes d (fun l => (scan l).1)) (s.laneFlags (fun l => (scan l).2)) ∧
  Writes s { slot := 0x18A, stall := st, ok := isLane d && isLane a && isLane b && kPair c, uses := [(d, 1), (a, 1), (b, 1), (c, 2)],
             preds := [pd], pdst := true, reach := .every } (.isect st d a b c pd)
    (byRank (m.1.map (fun e => BitVec.ofNat 32 (e.1 + 65536 * e.2))) (BitVec.ofNat 32 m.2.1) (BitVec.ofNat 32 m.2.2)) 0 ∧
  Writes s { slot := 0x18B, stall := st, ok := isLane d && isK a && isK b && kPair c, uses := [(d, 1), (a, 1), (b, 1), (c, 2)],
             preds := [pd], pdst := true } (.bmpos st d a b c pd)
    (byRank ((lanesOf (s.readK a &&& s.readK b)).map (fun q => BitVec.ofNat 32 (popBelow (s.readK a) q + 65536 * popBelow (s.readK b) q)))
      (popW (s.readK a &&& s.readK b)) (BitVec.ofNat 32 (countLanes (s.readK a) + 65536 * countLanes (s.readK b)))) 0


/-! ### Control flow -/

/-- The transfers (spec/13 R301–R305): where one issues, no abort is due and its targets are clause headers, it completes;
enabled lanes stand at their targets, the other issuing lanes at the fall-through; lanes that disagree cause DIVERGE. The link
register of CALL (R304). A target that is no clause header (spec/11 R250): ILLEGAL_TARGET for the lanes that take it
(spec/10 R242), and no lane moves. -/
def Obligations.Transfers : Prop :=
  (∀ (s : State) (st : BitVec 2) (a : Code) (off : BitVec 17) (ps : BitVec 3) (pn : BitVec 1),
    let c := s.w.clause
    let fall := c.hdr + BitVec.ofNat 32 (4 * (hdrN c.word + 1))
    let label := c.hdr + 4 * off.signExtend 32
    let goes (g : Sig) (i : Instr) (target : Nat → Word) (kind evt evf : Word) (ws : List (Nat × Word)) : Prop :=
      let npc (l : Nat) : Word := if inMask c.enabled l then target l else fall
      s.clear g = true → s.abortDue s.cur = false → ∃ t, exec i s = .next t ∧ s.Went t ws ∧ t.w.phase = .boundary ∧
        t.w.masks = s.w.masks ∧ (∀ l < 32, t.w.modePc l = if inMask c.issue l then npc l else s.w.modePc l) ∧
        ((∀ l ∈ lanesOf c.issue, ∀ m ∈ lanesOf c.issue, npc l = npc m) → t.w.cause = s.w.cause) ∧
        (s.w.diverges = false → t.w.cause = s.w.cause) ∧
        ((∃ l ∈ lanesOf c.issue, ∃ m ∈ lanesOf c.issue, npc l ≠ npc m) → s.w.diverges = true →
          t.w.cause = some { evrec := 1 ||| kind <<< 11, evpc := c.hdr + BitVec.ofNat 32 (4 * c.idx), evt := evt, evf := evf,
                             evtk := maskWhere (fun l => inMask c.issue l && npc l == evt), evm := c.issue })
    let indirect : Prop := ∀ l ∈ s.lanes, s.isHeader s.cur (s.readOp a l) = true
    ((∀ l ∈ s.lanes, s.readPX ps pn l = false) ∨ s.isHeader s.cur label = true →
      goes { slot := 0x141, stall := st, preds := [ps] } (.braPred st ps pn off) (fun l => if s.readPX ps pn l then label else fall)
        0 label fall []) ∧
    (s.isHeader s.cur label = true →
      goes { slot := 0x140, stall := st } (.bra st off) (fun _ => label) 0 label fall [] ∧
      goes { slot := 0x143, stall := st, uses := [(s.w.linkCode, 1)] } (.call st off) (fun _ => label) 0 label fall
        (s.toLanes s.w.linkCode (fun _ => fall))) ∧
    (indirect →
      goes { slot := 0x142, stall := st, dst := false, uses := [(a, 1)] } (.brx st a) (s.readOp a) 1 (s.readOp a s.lane0) 0 [] ∧
      goes { slot := 0x144, stall := st, dst := false, uses := [(a, 1)] } (.ret st a) (s.readOp a) 1 (s.readOp a s.lane0) 0 [])) ∧
  (∀ w : Warp,
    (w.hdep = 0 → w.linkCode = 91) ∧ (w.bank = 1 ∨ w.bank = 2 → w.linkCode = 95) ∧ (3 ≤ w.bank → w.linkCode = 91)) ∧
  (∀ (s : State) (st : BitVec 2) (a : Code) (off : BitVec 17) (ps : BitVec 3) (pn : BitVec 1),
    let label := s.w.clause.hdr + 4 * off.signExtend 32
    let bad := maskWhere (fun l => inMask s.w.clause.enabled l && !s.isHeader s.cur (s.readOp a l))
    let faults (g : Sig) (i : Instr) (lanes : Lanes) : Prop :=
      s.clear g = true → exec i s = .next ((s.modW (·.countIssue 0)).raise s.cur
        { code := 0x04, flm := lanes, fpc := s.w.clause.hdr + BitVec.ofNat 32 (4 * s.w.clause.idx) } .after)
    let taken := maskWhere (fun l => inMask s.w.clause.enabled l && s.readPX ps pn l)
    (s.isHeader s.cur label = false →
      faults { slot := 0x140, stall := st } (.bra st off) s.w.clause.enabled ∧
      (taken ≠ 0 → faults { slot := 0x141, stall := st, preds := [ps] } (.braPred st ps pn off) taken) ∧
      faults { slot := 0x143, stall := st, uses := [(s.w.linkCode, 1)] } (.call st off) s.w.clause.enabled) ∧
    (bad ≠ 0 →
      faults { slot := 0x142, stall := st, dst := false, uses := [(a, 1)] } (.brx st a) bad ∧
      faults { slot := 0x144, stall := st, dst := false, uses := [(a, 1)] } (.ret st a) bad))

/-- NOP, SLEEP, ENROL and BLEAVE (spec/11 R266, spec/13 R307, R308, R312, spec/05 R132). SLEEP's cycles are those of R9 (spec/00), of
1.4 GHz; that its end is the next whole nanosecond is the model's choice (log 17). -/
def Obligations.PlainControl : Prop := ∀ (s : State) (st : BitVec 2) (d a : Code) (imm : BitVec 14),
  let enrol : Sig := { slot := 0x148, stall := st, ok := decide (d < 8) && isK a, uses := [(a, 1)] }
  let leave : Sig := { slot := 0x152, stall := st }
  let new := s.w.clause.enabled &&& ~~~ s.w.masks.blmask
  let vb := s.v.vbstat
  Writes s { slot := 0x146, stall := st } (.nop st) [] 0 ∧
  Writes s { slot := 0x147, stall := st } (.sleep st 0) [] 0 ∧
  (imm ≠ 0 → s.clear { slot := 0x147, stall := st } = true →
    ∃ t, s.Wrote t [] 0 ∧ t.w.hold = .free ∧ exec (.sleep st imm) s = .next (t.park (.sleep (s.gtime + (imm.toNat * 10 + 13) / 14)))) ∧
  (s.clear enrol = true → s.w.replay = none → ∃ t, exec (.enrol st d a) s = .next t ∧ s.Went t [] ∧
    t.w.masks = { s.w.masks with jm := s.w.masks.jm.set d.toNat (s.w.masks.jm.get d.toNat ||| (s.readK a &&& s.w.masks.lmask)) }) ∧
  (s.clear leave = true → s.w.replay = none → ∃ t, exec (.bleave st) s = .next t ∧ t.w.masks.blmask = s.w.masks.blmask ||| new ∧
    (∀ c, t.w.final c = s.w.final c) ∧ t.mem = s.mem ∧
    (new = 0 → t.v.vbstat = vb) ∧
    (new ≠ 0 → t.v.vbstat = if vbExpect vb - countLanes new ≤ vbArrived vb then vbMake (!vb.getLsbD 31) (vbExpect vb - countLanes new) 0
      else vbMake (vb.getLsbD 31) (vbExpect vb - countLanes new) (vbArrived vb)))

/-- EXIT (spec/13 R306, spec/05 R112): the enabled lanes become EXITED and leave every mask, the other issuing lanes stand at
the successor. The clauses: a READY lane remains; no live lane remains, and the warp holds no trap and no engine's fault: then its
iteration ends too (spec/04 R107), where the release that ends it may be performed (R106), or else later. PARK and YIELD at depth 0 outside a quantum, with the handler enabled (spec/13 R311, spec/05
R113, R114). -/
def Obligations.LanesLeave : Prop :=
  (∀ (s : State) (st : BitVec 2),
    let c := s.w.clause
    let gone := c.enabled &&& s.w.masks.lmask
    let g : Sig := { slot := 0x145, stall := st }
    let left (t : State) : Prop := t.w.masks.lmask = s.w.masks.lmask &&& ~~~ gone ∧ t.w.masks.amask = s.w.masks.amask &&& ~~~ gone ∧
      (∀ l ∈ lanesOf gone, t.w.lstate.get l = 4) ∧ (∀ r, t.w.final r = s.w.final r) ∧ t.mem = s.mem ∧ t.w.phase = .boundary
    s.clear g = true → s.w.hdep = 0 → s.w.trap.tmode = false → s.w.saveRestore = false → gone ≠ 0 →
    (s.w.readyIn (s.w.masks.lmask &&& ~~~ gone) ≠ 0 → s.w.wpark = false →
      ∃ t, exec (.exit st) s = .next t ∧ left t ∧
        ∀ l ∈ lanesOf (c.issue &&& ~~~ c.enabled), t.w.lpc.get l = c.hdr + BitVec.ofNat 32 (4 * (hdrN c.word + 1))) ∧
    (s.w.masks.lmask &&& ~~~ gone = 0 → s.w.async = [] → s.v.trapWarp ≠ some s.cur →
      (∀ i < 64, ∀ j < 64, slotRun (s.v.stgslot.get i) → slotOwner (s.v.stgslot.get i) = s.w.num → slotRun (s.v.stgslot.get j) →
        slotOwner (s.v.stgslot.get j) = s.w.num → i = j) →
      ∃ t, exec (.exit st) s = .next t ∧ left t ∧
        (s.releaseReady s.cur 1 s.nextOp = true → t.v.currentSlot s.w.num = none) ∧
        ((∃ n o, (n, some o) ∈ s.ops ∧ o.warp = s.cur ∧ n < s.nextOp ∧ o.releasedAt 1 = false) →
          t.v.currentSlot s.w.num = s.v.currentSlot s.w.num))) ∧
  (∀ (s : State) (st : BitVec 2),
    let c := s.w.clause
    let next := c.hdr + BitVec.ofNat 32 (4 * (hdrN c.word + 1))
    let pc := c.hdr + BitVec.ofNat 32 (4 * c.idx)
    let amask := s.w.masks.amask &&& ~~~ c.enabled
    let stands (t : State) : Prop := s.Went t [] ∧ t.w.phase = .boundary ∧
      ∀ l < 32, t.w.lpc.get l = if inMask c.issue l then next else s.w.lpc.get l
    s.w.hdep = 0 → s.w.trap.tmode = false → s.w.saveRestore = false → s.w.sgact = false → s.w.dhvEn = true → s.w.cause = none →
    s.w.lanesIn 0 ≠ 0 →
    (s.clear { slot := 0x14B, stall := st } = true → ∃ t, exec (.park st) s = .next t ∧ stands t ∧
      t.w.masks = { s.w.masks with amask := amask, wset := if s.w.wpark then 0 else s.w.masks.wset } ∧
      (amask ≠ 0 → t.w.cause = none) ∧
      (amask = 0 → t.w.cause = some { evrec := 2, evpc := pc, evt := 0, evf := next, evtk := 0, evm := c.enabled })) ∧
    (s.clear { slot := 0x14C, stall := st } = true → ∃ t, exec (.yield st) s = .next t ∧ stands t ∧ t.w.masks = s.w.masks ∧
      t.w.cause = some { evrec := 6, evpc := pc, evt := next, evf := next, evtk := 0, evm := c.issue }))

/-- JWAIT (spec/13 R309, spec/05 R121, R122), with no join barrier complete before: enrolled lanes wait at the successor, or,
where they complete barrier `d`, its waiting lanes become READY and it clears. DRET (spec/13 R310, spec/05 R116, R119): at depth 1
the READY lanes of the mask whose LPC is the offset given go on there; at depth 2 the group waits. -/
def Obligations.JoinsAndReturns : Prop :=
  (∀ (s : State) (st : BitVec 2) (d : Code),
    let c := s.w.clause
    let next := c.hdr + BitVec.ofNat 32 (4 * (hdrN c.word + 1))
    let n := d.toNat
    let made := c.enabled &&& s.w.masks.jm.get n
    let ja := s.w.masks.ja.get n ||| made
    s.clear { slot := 0x149, stall := st, ok := decide (d < 8) } = true → s.w.hdep = 0 → s.w.trap.tmode = false → s.w.saveRestore = false →
    (∀ j < 8, s.w.masks.jm.get j ≠ 0 → s.w.masks.jm.get j ≠ s.w.masks.ja.get j) → s.w.wpark = false →
    (ja ≠ s.w.masks.jm.get n → s.w.readyIn (s.w.masks.lmask &&& ~~~ made) ≠ 0 → ∃ t, exec (.jwait st d) s = .next t ∧
      s.OnlyWarp t ∧ (∀ r, t.w.final r = s.w.final r) ∧ t.w.masks.ja.get n = ja ∧ t.w.masks.jm = s.w.masks.jm ∧
      t.w.masks.amask = s.w.masks.amask &&& ~~~ made ∧ t.w.masks.lmask = s.w.masks.lmask ∧
      (∀ l < 32, t.w.lstate.get l = if inMask made l then 1 else s.w.lstate.get l) ∧
      (∀ l < 32, t.w.lpc.get l = if inMask c.issue l then next else s.w.lpc.get l)) ∧
    (ja = s.w.masks.jm.get n → made ≠ 0 → ∃ t, exec (.jwait st d) s = .next t ∧
      s.OnlyWarp t ∧ (∀ r, t.w.final r = s.w.final r) ∧ t.w.masks.ja.get n = 0 ∧ t.w.masks.jm.get n = 0 ∧
      (∀ l < 32, inMask ja l → s.w.lstate.get l = 1 ∨ inMask made l → t.w.lstate.get l = 0) ∧
      (∀ l < 32, t.w.lpc.get l = if inMask c.issue l then next else s.w.lpc.get l))) ∧
  (∀ (s : State) (st : BitVec 2) (a b : Code),
    let c := s.w.clause
    let pc := s.readK a
    let new := maskWhere (fun l => inMask (s.readK b) l && inMask s.w.masks.lmask l && s.w.lstate.get l == 0 && s.w.lpc.get l == pc)
    s.clear { slot := 0x14A, stall := st, ok := isK a && isK b, uses := [(a, 1), (b, 1)] } = true → s.isHeader s.cur pc = true →
    (s.w.hdep = 1 → new ≠ 0 → s.w.wpark = false → ∃ t, exec (.dret st a b) s = .next t ∧ s.OnlyWarp t ∧ t.w.hdep = 0 ∧
      t.w.masks = { s.w.masks with amask := new } ∧ t.w.cause = none ∧ t.w.pending = [] ∧ t.w.lpc = s.w.lpc ∧
      (∀ r, t.w.final r = s.w.final r) ∧ t.w.phase = .boundary) ∧
    (s.w.hdep = 2 → ∃ t, exec (.dret st a b) s = .next t ∧ s.OnlyWarp t ∧ t.w.hdep = 2 ∧ t.w.masks = s.w.masks ∧
      t.w.dretWait = s.w.dretWait ||| c.enabled ∧ (∀ l ∈ s.lanes, t.w.dretPc.get l = pc ∧ t.w.dretMask.get l = s.readK b) ∧
      (∀ r, t.w.final r = s.w.final r) ∧ t.w.phase = .boundary))

/-- BARV and BARN (spec/13 R312, R313, spec/05 R132, spec/08 R211), the arrivals counted where the release they make may be
performed: the lanes that arrive wait, or, where the barrier is complete, every lane of the vat that waits at it becomes READY, but for
those of warps that are away (spec/05 R136). -/
def Obligations.Barriers : Prop := ∀ (s : State) (st : BitVec 2) (d a : Code),
  let c := s.w.clause
  let arr := c.enabled &&& ~~~ s.w.masks.blmask
  let vb := s.v.vbstat
  let total := vbArrived vb + countLanes arr
  let n := (s.readK a).toNat
  let nb := s.v.nbstat.get d.toNat
  let ntotal := vbArrived nb + countLanes c.enabled
  let gv : Sig := { slot := 0x150, stall := st }
  let gn : Sig := { slot := 0x151, stall := st, ok := decide (d < 16) && isK a, uses := [(a, 1)] }
  let kept (t : State) : Prop := t.mem = s.mem ∧ (∀ r, t.w.final r = s.w.final r)
  let here (k : Nat) : Prop := (s.warp k).evict = .running ∨ (s.warp k).evict = .requested ∨ (s.warp k).evict = .drain
  let woken (t : State) (id : BitVec 5) : Prop := ∀ k ∈ warpKeys s.w.vat s.v, ∀ l < 32, inMask (s.warp k).masks.lmask l = true →
    (s.warp k).lstate.get l = 2 → (s.warp k).barid.get l = id → here k → (t.warp k).lstate.get l = 0
  (s.w.clause.enabled &&& ~~~ s.w.masks.lmask = 0) → s.w.hdep = 0 → s.w.trap.tmode = false → s.w.saveRestore = false → s.w.num < s.v.nwarp →
  s.cur = warpKey s.w.vat s.w.num → here s.cur →
  (s.releaseReady s.cur 1 s.nextOp = false →
    (s.clear gv = true → s.abortDue s.cur = false → exec (.barv st) s = .next s.stall) ∧
    (s.clear gn = true → 1 ≤ n → n ≤ 1024 → vbExpect nb = 0 ∨ vbExpect nb = n → exec (.barn st d a) s = .next s.stall)) ∧
  (s.releaseReady s.cur 1 s.nextOp = true → s.clear gv = true → s.abortDue s.cur = false → ∃ t, exec (.barv st) s = .next t ∧ kept t ∧
    (arr = 0 ∨ total < vbExpect vb → t.v.vbstat = vbMake (vb.getLsbD 31) (vbExpect vb) total ∧
      ∀ l ∈ lanesOf arr, t.w.lstate.get l = 2 ∧ t.w.barid.get l = 0 ∧ inMask t.w.masks.amask l = false) ∧
    (arr ≠ 0 → vbExpect vb ≤ total → total < 2048 → t.v.vbstat = vbMake (!vb.getLsbD 31) (vbExpect vb) 0 ∧ woken t 0 ∧
      ∀ l ∈ lanesOf arr, t.w.lstate.get l = 0)) ∧
  (s.releaseReady s.cur 1 s.nextOp = true → s.clear gn = true → 1 ≤ n → n ≤ 1024 → vbExpect nb = 0 ∨ vbExpect nb = n →
    ∃ t, exec (.barn st d a) s = .next t ∧ kept t ∧
    (ntotal < n → t.v.nbstat.get d.toNat = vbMake (nb.getLsbD 31) n ntotal ∧
      ∀ l ∈ lanesOf c.enabled, t.w.lstate.get l = 2 ∧ t.w.barid.get l = BitVec.ofNat 5 (16 + d.toNat) ∧ inMask t.w.masks.amask l = false) ∧
    (n ≤ ntotal → ntotal < 2048 → t.v.nbstat.get d.toNat = vbMake (!nb.getLsbD 31) 0 0 ∧ woken t (BitVec.ofNat 5 (16 + d.toNat)) ∧
      ∀ l ∈ lanesOf c.enabled, t.w.lstate.get l = 0 ∧ t.w.barid.get l = 0))

/-! ### Staged loops -/

/-- The transitions of spec/04 R105 Table 8: where an instruction acts, the stage table it leaves and the registers it writes;
where it parks, waits for its release, or faults with the table unchanged; a release also hands on the stores it covers, and STGWL takes
them over (R106, spec/08 R193). The end of an iteration: its slot stops running, OLDEST
becomes the lowest unended index or NEXT, and with every index handed out and no slot running the table is DONE. -/
def Obligations.StageTable : Prop :=
  (∀ (s : State) (st : BitVec 2) (d a b : Code) (pd : BitVec 3),
    let v := s.v
    let h := v.stage
    let value : Nat := if d = 1 then b.toNat else (s.readK a).toNat
    let opnd : Bool := if d == 1 then a == 0 else d == 0 && isK a && b == 0
    let g (k : Nat) (ok : Bool) (uses : List (Code × Nat)) : Sig := { slot := k, stall := st, ok := ok, uses := uses }
    let gbeg := g 0x158 (isK a && isK b) [(a, 1), (b, 1)]
    let gnext : Sig := { slot := 0x159, stall := st, ok := isK d, uses := [(d, 1)], preds := [pd], pdst := true }
    let gv (k : Nat) := g k opnd (if d = 0 then [(a, 1)] else [])
    let leaves (i : Instr) (v' : Vat) (ws : List (Nat × Word)) : Prop := ∃ u, s.Wrote u ws 0 ∧ exec i s = .next (u.setVat s.w.vat v')
    let gives (i : Instr) (v' : Vat) : Prop := ∃ u, s.Wrote u [] 0 ∧ let r := u.noteRelease s.cur 1
      exec i s = .next (r.setVat s.w.vat { v' with carried := r.v.carried })
    let order (i : Instr) : Prop := exec i s = .next (s.raiseHere 0x0D 0)
    let setCnt (k n : Nat) : Vat := { v with stgslot := v.stgslot.set k (slotMake s.w.num n) }
    let livePred (x : Word) : List (Nat × Word) := (lanesOf s.w.masks.lmask).map (fun l => (s.w.predCell pd.toNat l, x))
    (s.clear gbeg = true →
      (h.state ≠ 1 → 1 ≤ (s.readK b).toNat → (s.readK b).toNat ≤ 64 → leaves (.stgbeg st a b) { v with
        stage := { next := 0, oldest := 0, n := s.readK a, xh := false, wm1 := BitVec.ofNat 6 ((s.readK b).toNat - 1), state := 1 },
        stgslot := [] } []) ∧
      (h.state = 1 ∨ (s.readK b).toNat = 0 ∨ 64 < (s.readK b).toNat → order (.stgbeg st a b))) ∧
    (s.clear gnext = true → s.abortDue s.cur = false →
      (h.state = 0 ∨ h.state = 3 ∨ v.currentSlot s.w.num ≠ none → order (.stgnext st d pd)) ∧
      (h.state = 1 ∨ h.state = 2 → v.currentSlot s.w.num = none →
        (h.state = 2 ∨ h.xh = true → ∃ u, s.Wrote u (s.toK d 0xFFFFFFFF ++ livePred 0) 0 ∧ exec (.stgnext st d pd) s = .next u) ∧
        (h.state = 1 → h.xh = false → v.window ≤ (h.next - h.oldest).toNat → exec (.stgnext st d pd) s = .next (s.park .stgnext)) ∧
        (h.state = 1 → h.xh = false → (h.next - h.oldest).toNat < v.window → leaves (.stgnext st d pd) { v with
          stgslot := v.stgslot.set (h.next % 64).toNat (slotMake s.w.num 0), stage := { h with next := h.next + 1, xh := h.next + 1 == h.n } }
          (s.toK d h.next ++ livePred 1)))) ∧
    (v.currentSlot s.w.num = none →
      (s.clear (gv 0x15A) = true → order (.stgadv st d a b)) ∧ (s.clear (gv 0x15B) = true → order (.stgset st d a b)) ∧
      (s.clear (gv 0x15C) = true → order (.stgwl st d a b)) ∧ (s.clear (g 0x15D true []) = true → order (.stgend st))) ∧
    (∀ k, v.currentSlot s.w.num = some k → let cnt := slotCnt (v.stgslot.get k)
      (s.clear (gv 0x15A) = true → if s.releaseReady s.cur 1 s.nextOp then gives (.stgadv st d a b) (setCnt k (min (cnt + value) 255))
        else exec (.stgadv st d a b) s = .next s.stall) ∧
      (s.clear (gv 0x15B) = true → if s.releaseReady s.cur 1 s.nextOp then gives (.stgset st d a b) (setCnt k (max cnt (min value 255)))
        else exec (.stgset st d a b) s = .next s.stall) ∧
      (s.clear (gv 0x15C) = true → if v.stageReached k value then ∃ u, s.Wrote u [] 0 ∧ exec (.stgwl st d a b) s = .next (u.takeOver s.cur)
        else exec (.stgwl st d a b) s = .next (s.park .stgwl)) ∧
      (s.clear (g 0x15D true []) = true → if s.releaseReady s.cur 1 s.nextOp then gives (.stgend st) (v.endSlot k)
        else exec (.stgend st) s = .next s.stall))) ∧
  (∀ (v : Vat) (k : Nat), k < 64 →
    let x := v.stgslot.get k &&& 0xFFFF7FFF
    let v1 := { v with stgslot := v.stgslot.set k x }
    let t := v.endSlot k
    (∀ i, t.stgslot.get i = if i = k then x else v.stgslot.get i) ∧
    t.stage.next = v.stage.next ∧ t.stage.n = v.stage.n ∧ t.stage.xh = v.stage.xh ∧ t.stage.wm1 = v.stage.wm1 ∧
    (∀ j < 64, (∀ m < j, v1.unended (v.stage.oldest + BitVec.ofNat 32 m) = false) → v1.unended (v.stage.oldest + BitVec.ofNat 32 j) = true →
      t.stage.oldest = v.stage.oldest + BitVec.ofNat 32 j) ∧
    ((∀ m < 64, v1.unended (v.stage.oldest + BitVec.ofNat 32 m) = false) → t.stage.oldest = v.stage.next) ∧
    (v.stage.xh = true → (∀ i < 64, slotRun (v1.stgslot.get i) = false) → t.stage.state = 2) ∧
    (v.stage.xh = false ∨ (∃ i < 64, slotRun (v1.stgslot.get i) = true) → t.stage.state = v.stage.state))


/-! ### Memory -/

/-- LD and LDS (spec/14 R327–R329): nothing holds the access back and no lane faults. The load is counted in LD with what its
lanes read; its registers are written when it completes. The warp has heard what the writes that were read carry (spec/08 R193). -/
def Obligations.Loads : Prop := ∀ (s : State) (st : BitVec 2) (d a : Code) (xa : Xa),
  let n := szRegs xa.sz
  let loads (offset : Bool) (g : Sig) (i : Instr) : Prop :=
    let r := s.lanesAt offset a xa.off (szBytes xa.sz) .read true
    let keys := accessKeys (szBytes xa.sz) r.2
    let from' := (r.1.bindLoads keys).discardL1 s.w.core (xa.ord == 1) xa.sco.toNat
    let after := (from'.readLanes d xa.sz r.2).1
    let reads := (from'.readLanes d xa.sz r.2).2
    let heard := after.heardBy s.cur (xa.ord == 1 && !reads.2.any (s.loadHeld (s.dieOf s.cur))) xa.sco.toNat
      (from'.loadCarries s.cur reads.2 ++ (windowKeys s.w.vat (szBytes xa.sz) r.2).flatMap from'.sync.get)
    let split := xa.spl == 1 && s.w.bank == 0 && s.w.dhvEn && !s.w.sgact
    s.clear g = true → s.countFull .ld = false → s.lakeFenced = false → s.acquiring = false → xa.prm = 0 →
    s.touchesAbsent r.2 = false → s.atomicOn keys = false → (∀ x ∈ r.2, x.committed = true) → anyHeld r.2 = false →
    ∃ t o, exec i s = .next t ∧ t.nextOp = s.nextOp + 1 ∧ t.op s.nextOp = some o ∧
      o.warp = s.cur ∧ o.cls = .ld ∧ o.lanes = s.w.clause.enabled ∧ o.complete = false ∧ o.reported = false ∧
      o.acquire = (xa.ord == 1) ∧ o.work = .load reads.1 reads.2 split (if split then s.w.clause.enabled else 0) ∧
      t.mem = s.mem ∧ t.vats = s.vats ∧ t.w.rest = { s.w.rest with reached := heard.w.reached, heard := heard.w.heard } ∧
      (∀ c, t.w.final c = s.w.final c)
  loads false { slot := 0x1A0, stall := st, ok := isLane d && aligned d n && aligned a 2 && loadXaOk false xa, uses := [(d, n), (a, 2)],
                legal := xa.spl == 0 || s.w.bank == 0 || s.w.bank == 3 } (.ld st d a xa) ∧
  loads true { slot := 0x1A2, stall := st, ok := isLane d && aligned d n && loadXaOk true xa, uses := [(d, n), (a, 1)] } (.lds st d a xa)

/-- Where the lanes of LDS, STS and ATOMS access the window, and that an offset beyond SCR or misaligned faults (spec/14 R327,
spec/06 R139). What a lane loads (spec/14 R328 Table 3): the bytes in rising order, the first the lowest, extended by sign or with
zeros; and the bytes a lane stores. -/
def Obligations.LaneAccess : Prop :=
  (∀ (s : State) (a : Code) (off : BitVec 16) (size l : Nat) (acc : Access) (consumes : Bool),
    let o : Int := (s.readOp a l).toNat + off.toInt
    let p := (s.laneAt true a off size acc consumes l).2.place
    0 < size →
    (o % size ≠ 0 → p = .fault 0x0A 0 0) ∧
    (o % size = 0 → 0 ≤ o → o + size ≤ 1024 * s.v.scr → p = .window o.toNat) ∧
    (o % size = 0 → o < 0 ∨ 1024 * s.v.scr < o + size → p = .fault 0x08 5 0) ∧
    (s.laneAt true a off size acc consumes l).1 = s) ∧
  (∀ (s : State) (b : Code) (l : Nat) (b0 b1 b2 b3 b4 b5 b6 b7 : Byte),
    let word (w x y z : Byte) : Word := w.setWidth 32 ||| x.setWidth 32 <<< 8 ||| y.setWidth 32 <<< 16 ||| z.setWidth 32 <<< 24
    let byte (r i : Nat) : Byte := (s.readOp (b + BitVec.ofNat 7 r) l).extractLsb' (8 * i) 8
    extendSz 0 [b0] = [b0.signExtend 32] ∧ extendSz 1 [b0] = [b0.setWidth 32] ∧
    extendSz 2 [b0, b1] = [(b1 ++ b0).signExtend 32] ∧ extendSz 3 [b0, b1] = [word b0 b1 0 0] ∧
    extendSz 4 [b0, b1, b2, b3] = [word b0 b1 b2 b3] ∧
    extendSz 5 [b0, b1, b2, b3, b4, b5, b6, b7] = [word b0 b1 b2 b3, word b4 b5 b6 b7] ∧
    s.dataBytes b 1 l = [byte 0 0] ∧ s.dataBytes b 3 l = [byte 0 0, byte 0 1] ∧
    s.dataBytes b 4 l = [byte 0 0, byte 0 1, byte 0 2, byte 0 3] ∧
    s.dataBytes b 5 l = [byte 0 0, byte 0 1, byte 0 2, byte 0 3, byte 1 0, byte 1 1, byte 1 2, byte 1 3] ∧
    s.dataBytes b 6 l = (List.range 4).flatMap (fun r => (List.range 4).map (byte r)))

/-- ST and STS (spec/14 R330): nothing holds the access back and no lane faults. Scratchpad bytes are written at once and no
others; bytes of memory are unchanged until the store counted in ST is performed. A release of vat scope hands on the stores it covers
(spec/08 R193). -/
def Obligations.Stores : Prop := ∀ (s : State) (st : BitVec 2) (a b : Code) (xa : Xa),
  let n := szRegs xa.sz
  let size := szBytes xa.sz
  let stores (offset : Bool) (g : Sig) (i : Instr) : Prop :=
    let xs := (s.lanesAt offset a xa.off size .write false).2
    let bs := s.memStores b xa.sz xs
    let apart (x y : LaneAt) : Prop := ∀ p q, x.place = .window p → y.place = .window q → p + size ≤ q ∨ q + size ≤ p
    s.clear g = true → s.countFull .st = false → s.acquiring = false → (∀ x ∈ xs, x.committed = true) → anyHeld xs = false →
    (xa.ord = 2 → (∃ x ∈ xs, ∃ p, x.place = .window p) → s.releaseReady s.cur xa.sco.toNat s.nextOp = true) →
    ∃ t o, exec i s = .next t ∧ t.nextOp = s.nextOp + 1 ∧ t.op s.nextOp = some o ∧
      o.warp = s.cur ∧ o.cls = .st ∧ o.lanes = s.w.clause.enabled ∧ o.complete = false ∧ o.scope = xa.sco ∧
      o.work = (if bs = [] then .done else .store (storesG xa.md bs) bs) ∧ o.release = (xa.ord == 2 && !bs.isEmpty && !s.releaseReady s.cur xa.sco.toNat s.nextOp) ∧
      t.mem = s.mem ∧ t.w.rest = s.w.rest ∧ (∀ c, t.w.final c = s.w.final c) ∧
      (∃ m, t.v = { s.v with scratch := m, carried := t.v.carried }) ∧ (xa.ord ≠ 2 ∨ xa.sco ≠ 1 → t.v.carried = s.v.carried) ∧
      (∀ q, (∀ x ∈ xs, ∀ p, x.place = .window p → q < p ∨ p + size ≤ q) → t.v.scratch.get q = s.v.scratch.get q) ∧
      (xs.Pairwise apart → ∀ x ∈ xs, ∀ p, x.place = .window p → t.v.scratch.getFrom p size = s.dataBytes b xa.sz x.lane)
  stores false { slot := 0x1A1, stall := st, ok := aligned a 2 && aligned b n && storeXaOk false xa, dst := false, uses := [(a, 2), (b, n)] }
    (.st st a b xa) ∧
  stores true { slot := 0x1A3, stall := st, ok := aligned b n && storeXaOk true xa, dst := false, uses := [(a, 1), (b, n)] } (.sts st a b xa)

/-- ATOM, ATOMS and RED (spec/14 R331): accesses to the scratchpad are performed at once, those to memory when the atomic
counted in AT completes; no register changes before. The warp has heard what the scratchpad's bytes carry (spec/08 R193). -/
def Obligations.Atomics : Prop := ∀ (s : State) (st : BitVec 2) (d a b : Code) (xa : Xa),
  let n := szRegs xa.sz
  let m := atomRegs xa
  let size := szBytes xa.sz
  let acts (offset : Bool) (dst : Option Code) (g : Sig) (i : Instr) : Prop :=
    let xs := (s.lanesAt offset a xa.off size .write true).2
    let apart (x y : LaneAt) : Prop := ∀ p q, x.place = .window p → y.place = .window q → p + size ≤ q ∨ q + size ≤ p
    let opnd (l : Nat) := s.readGroup b n l
    let opnd2 (l : Nat) := if xa.sub = 9 then s.readGroup (b + BitVec.ofNat 7 n) n l else 0
    let cells (l : Nat) := match dst with | some d => s.w.cells d n l | none => []
    s.clear g = true → s.countFull .at = false → s.acquiring = false → s.touchesAbsent xs = false → (∀ x ∈ xs, x.committed = true) → anyHeld xs = false →
    (xa.ord.getLsbD 1 = true → (∃ x ∈ xs, ∃ p, x.place = .window p) → s.releaseReady s.cur xa.sco.toNat s.nextOp = true) →
    ∃ t o accs ds, exec i s = .next t ∧ t.nextOp = s.nextOp + 1 ∧ t.op s.nextOp = some o ∧ o.work = .atomic accs ds ∧
      o.warp = s.cur ∧ o.cls = .at ∧ o.lanes = s.w.clause.enabled ∧ o.complete = false ∧ o.scope = xa.sco ∧
      o.acquire = xa.ord.getLsbD 0 ∧ o.release = (xa.ord.getLsbD 1 && !accs.isEmpty) ∧
      accs = xs.filterMap (fun x => match x.place with
        | .mem key slot _ => some { lane := x.lane, key := key, slot := slot, size := size, sub := xa.sub, b := opnd x.lane, c := opnd2 x.lane,
                                    cell := (cells x.lane).head? }
        | _ => none) ∧
      t.mem = s.mem ∧ t.w.rest = { s.w.rest with reached := t.w.reached, heard := t.w.heard } ∧ (∀ c, t.w.final c = s.w.final c) ∧
      (∀ q, (∀ x ∈ xs, ∀ p, x.place = .window p → q < p ∨ p + size ≤ q) → t.v.scratch.get q = s.v.scratch.get q) ∧
      (xs.Pairwise apart → ∀ x ∈ xs, ∀ p, x.place = .window p →
        let old := BitVec.ofNat 64 (bytesToNat (s.v.scratch.getFrom p size))
        t.v.scratch.getFrom p size = natToBytes size (atomValue size xa.sub old (opnd x.lane) (opnd2 x.lane)).toNat ∧
        ∀ e ∈ (cells x.lane).zip (valueWords n old), (⟨x.lane, e.1, e.2⟩ : Dest) ∈ ds)
  acts false (some d) { slot := 0x1A4, stall := st,
                          ok := isLane d && aligned d n && aligned a 2 && aligned b m && !groupsOverlap d n b m && atomXaOk false xa,
                          uses := [(d, n), (a, 2), (b, m)] } (.atom st d a b xa) ∧
  acts true (some d) { slot := 0x1A5, stall := st,
                         ok := isLane d && aligned d n && aligned b m && !groupsOverlap d n b m && atomXaOk false xa,
                         uses := [(d, n), (a, 1), (b, m)] } (.atoms st d a b xa) ∧
  acts false none { slot := 0x1A6, stall := st, ok := aligned a 2 && aligned b m && atomXaOk true xa, dst := false, uses := [(a, 2), (b, m)] }
    (.red st a b xa)

/-- The atomic operations (spec/14 R331 Table 4): the new value of a location of 4 or 8 bytes; one access to memory, by which
the location is read and replaced in one indivisible step, and of the warps only what its own has heard changes (spec/08 R193). -/
def Obligations.AtomicOperations : Prop :=
  (∀ (w : Nat) (m b c : BitVec w), 0 < w →
    atomNew 0 m b c = m + b ∧
    atomNew 1 m b c = (if m.toInt ≤ b.toInt then m else b) ∧
    atomNew 2 m b c = (if m.toInt ≤ b.toInt then b else m) ∧
    (atomNew 3 m b c).toNat = min m.toNat b.toNat ∧
    (atomNew 4 m b c).toNat = max m.toNat b.toNat ∧
    atomNew 5 m b c = m &&& b ∧ atomNew 6 m b c = m ||| b ∧ atomNew 7 m b c = m ^^^ b ∧ atomNew 8 m b c = b ∧
    (m = b → atomNew 9 m b c = c) ∧ (m ≠ b → atomNew 9 m b c = m) ∧
    (atomNew 10 m b c).toNat = (if b.toNat ≤ m.toNat then 0 else m.toNat + 1) ∧
    (atomNew 11 m b c).toNat = (if m.toNat = 0 ∨ b.toNat < m.toNat then b.toNat else m.toNat - 1) ∧
    (∀ (x y z : Word), atomNew 12 x y z = BitVec.ofNat 32 (f32.add 0 x.toNat y.toNat).1) ∧
    (∀ (x y z : BitVec 64) (sub : BitVec 4), atomValue 8 sub x y z = atomNew sub x y z ∧
      atomValue 4 sub x y z = (atomNew sub (x.setWidth 32) (y.setWidth 32) (z.setWidth 32)).setWidth 64)) ∧
  (∀ (s : State) (o : Op) (a : AtomAcc),
    let old := bytesToNat ((List.range a.size).map (fun i => s.decrypted (a.key + i) a.slot))
    let r := s.performAtomic o a
    r.2 = BitVec.ofNat 64 old ∧
    r.1.mem = (s.performG (wbytes a.key a.slot (natToBytes a.size (atomValue a.size a.sub (BitVec.ofNat 64 old) a.b a.c).toNat))).mem ∧
    ∀ k, r.1.warp k = if k = o.warp then { s.warp k with reached := (r.1.warp k).reached, heard := (r.1.warp k).heard } else s.warp k)

/-- PREF, CCTL, FENCE, IFENCE, LFENCE and WAITC (spec/14 R332–R335): where nothing holds them back they complete and change no
register and no byte of memory; a FENCE takes up what its warp's reads carry and gives what it covers to its later stores (spec/08 R193).
LFENCE empties the TLR cache of every core, where R334 names the issuing core's: the model's choice (log 88). A PRM push (spec/08 R208): a
core answers when the data of its vat-scope releases are out. -/
def Obligations.FencesAndCaches : Prop :=
  (∀ (s : State) (st : BitVec 2) (a b : Code) (sub : BitVec 4) (off : BitVec 16),
    let keeps (t : State) : Prop := t.mem = s.mem ∧ t.vats = s.vats ∧ t.w.rest = s.w.rest ∧ ∀ c, t.w.final c = s.w.final c
    let uses : Prop := ∀ x ∈ (s.lanesAt false a off 1 .read false).2, x.code ≠ some 0x14 ∧ x.code ≠ some 0x15 ∧ x.place ≠ .held
    let cctl (k : Nat) (i : Instr) (done : State → Nat → Prop) : Prop :=
      s.clear { slot := k, stall := st, ok := aligned a 2, dst := false, uses := [(a, 2)] } = true → s.countFull .st = false → uses →
      ∃ t o, exec i s = .next t ∧ keeps t ∧ t.op s.nextOp = some o ∧ o.cls = .st ∧ o.work = .done ∧ o.warp = s.cur ∧
        ∀ x ∈ (s.lanesAt false a off 1 .read false).2, ∀ key slot ca, x.place = .mem key slot ca → done t (lineOf key)
    let scope := (a.extractLsb' 0 3).toNat
    let fence : Sig := { slot := 0x1A8, stall := st, ok := decide (a < 16) && decide (scope ≤ 5) && (!a.getLsbD 3 || decide (3 ≤ scope)) }
    let waitc : Sig := { slot := 0x1AB, stall := st, ok := (classOf a.toNat).isSome && decide (b < 64) }
    (s.clear { slot := 0x1A7, stall := st, ok := aligned a 2 && decide (sub ≤ 1), dst := false, uses := [(a, 2)] } = true → uses →
      ∃ t, exec (.pref st a sub off) s = .next t ∧ keeps t ∧ t.ops = s.ops) ∧
    cctl 0x1AC (.cctlIl1 st a off) (fun t line => ∀ j, j / 1024 = line → (t.cores.get s.w.core).l1.get j = []) ∧
    cctl 0x1AC (.cctlIrlc st a off) (fun t line => s.dieOf s.cur < 4 → (t.copies.get line).getLsbD (s.dieOf s.cur) = false) ∧
    cctl 0x1AC (.cctlWbl2 st a off) (fun t line => t.copies.get line = s.copies.get line) ∧
    (s.clear fence = true → s.fenceReady scope = true → a.getLsbD 3 = false → (s.takeFence s.cur scope).releaseReady s.cur scope s.nextOp = true →
      ∃ u, s.Wrote u [] 0 ∧
        exec (.fence st a) s = .next ((((u.takeFence s.cur scope).giveFence s.cur scope).noteRelease s.cur scope).discardL1 s.w.core true scope)) ∧
    (s.clear fence = true → s.fenceReady scope = true → (s.takeFence s.cur scope).releaseReady s.cur scope s.nextOp = false →
      exec (.fence st a) s = .next (s.takeFence s.cur scope).stall) ∧
    (s.clear fence = true → s.fenceReady scope = false → exec (.fence st a) s = .next s.stall) ∧
    (s.clear { slot := 0x1A9, stall := st } = true → ∃ t, exec (.ifence st) s = .next t ∧ keeps t ∧ t.ops = s.ops ∧
      (t.cores.get s.w.core).icache = [] ∧ ∀ k, (t.cores.get s.w.core).decoded.get k = if k / 2 ^ 84 = s.l.ctx then none else (s.cores.get s.w.core).decoded.get k) ∧
    (s.clear { slot := 0x1AA, stall := st } = true → (∀ e ∈ s.opsOf s.cur, e.2.cls = .st → e.2.complete = true) →
      ∃ t, exec (.lfence st) s = .next t ∧ keeps t ∧ t.ops = s.ops ∧ ∀ c, (t.cores.get c).tlrCache = []) ∧
    (s.clear { slot := 0x1AA, stall := st } = true → (∃ e ∈ s.opsOf s.cur, e.2.cls = .st ∧ e.2.complete = false) →
      exec (.lfence st) s = .next s.stall) ∧
    (∀ c, classOf a.toNat = some c → s.clear waitc = true →
      if s.count s.cur c ≤ b.toNat then ∃ t, exec (.waitc st a b) s = .next t ∧ s.Wrote t [] 0 else exec (.waitc st a b) s = .next s.stall)) ∧
  (∀ (s : State) (core warp : Nat) (cs : List Nat), (s.warp warp).prmWait = some cs → core ∈ cs →
    (s.die (dieOfCore core)).state ≠ .silent →
    (∀ e ∈ s.ops, ∀ o, e.2 = some o → (s.warp o.warp).core = core → o.released = true ∨ (s.warp o.warp).evict = .save →
      ∀ g bs, o.work = .store g bs → o.performed = true ∧ (o.owed = 0 ∨ o.ackLost = true)) →
    exec (.prmPushRequest core warp) s = .next (s.modWarp warp (fun w => { w with prmWait := some (cs.filter (· != core)) })))

/-- Performing the bytes of a store (spec/08 R201, R204, spec/02 R56): read under the keys they were written under, the bytes
hold their values, the last of a byte standing, and no other byte has changed. -/
def Obligations.PerformedBytes : Prop := ∀ (s : State) (die : Nat) (bs : List WByte) (key : Nat) (slot : BitVec 10),
  (∀ b ∈ bs, lineOf b.key = lineOf key → s.hub.keys.get b.slot.toNat = s.hub.keys.get slot.toNat) →
  let want := (lastOf8 (bs.map (fun b => (b.key, b.val))) key).getD (s.decrypted key slot)
  (s.performE die bs).decrypted key slot = want ∧ (s.performG bs).decrypted key slot = want

/-- A load, a store or an atomic completes (spec/11 R261, spec/08 R201, R209, spec/14 R331, spec/05 R131). That it drops a result of fixed
latency that was issued before it and is still on its way is the model's choice (log 21), and so is when a pending lane of LD.SPLIT makes its
access (log 87). -/
def Obligations.Completions : Prop := ∀ (s : State) (n : Nat) (o : Op) (lanes : BitVec 32), s.op n = some o → o.complete = false →
  let writes (t : State) (ds : List Dest) : Prop :=
    (t.warp o.warp).pending = (s.warp o.warp).pending.filter (fun p => !ds.any (fun d => d.cell == p.cell) || decide (o.born ≤ p.born)) ∧
    ∀ c, (t.warp o.warp).regs.get c = (lastOf (ds.map (fun d => (d.cell, d.value))) c).getD ((s.warp o.warp).regs.get c)
  let others (t : State) : Prop := ∀ k, k ≠ o.warp → t.warp k = s.warp k
  (∀ ds accs m, o.work = .load ds accs false m → o.reported = false → s.waitingLanes n o accs = 0 → ∃ t, exec (.loadComplete n) s = .next t ∧
    writes t ((s.discardLate o).loadValues o ds accs) ∧ others t ∧ t.mem = s.mem) ∧
  (∀ ds accs m, o.work = .load ds accs true m → s.waitingLanes n o accs = 0 →
    (o.reported = false → ∃ t, exec (.splitDataArrive n lanes) s = .next t ∧
      writes t ((s.loadValues o ds accs).filter (fun d => inMask (lanes &&& m) d.lane)) ∧ others t ∧ t.mem = s.mem) ∧
    (o.reported = true → (∀ l, s.laneReported o l = false ∧ ((s.warp o.warp).evict = .running → o.late = true → s.choice (400 + l) = false)) →
      ∃ t, exec (.splitDataArrive n lanes) s = .next t ∧ others t ∧ t.mem = s.mem ∧
        writes t ((lanesOf (lanes &&& m)).flatMap (fun l => (s.loadValues o ds accs).filter (fun d => d.lane == l))))) ∧
  (∀ bs, o.work = .store false bs → o.performed = false → s.performable n o = true → o.release = true →
    exec (.storePerformed n) s = .next (s.setOp n { o with release := false })) ∧
  (∀ bs, o.work = .store false bs → o.performed = false → s.performable n o = true → o.release = false →
    s.homeSilent o.die (bs.map (·.key)) = false → s.unanswered (s.ctx o.ctx).part (bs.map (·.key)) = false → ∃ t, exec (.storePerformed n) s = .next t ∧
    t.mem = (s.performE o.die bs).mem ∧ t.lineKey = (s.performE o.die bs).lineKey ∧ t.warps = s.warps) ∧
  (∀ bs, o.work = .store true bs → o.performed = false → o.owed = 0 → s.performable n o = true → s.unanswered (s.ctx o.ctx).part (bs.map (·.key)) = false →
    s.sendHeld o (bs.map (·.key)) = false → ∃ t, exec (.storePerformed n) s = .next t ∧ t.warps = s.warps ∧
      if s.ackDies o.die (bs.map (·.key)) = 0 then t.mem = (s.performG bs).mem
      else t = s.setOp n { o with owed := s.ackDies o.die (bs.map (·.key)) }) ∧
  (∀ bs, o.work = .store true bs → o.performed = false → o.owed ≠ 0 → o.owed &&& s.silentBut o.die = 0 → (s.die o.die).state ≠ .silent →
    ∃ t, exec (.gStoreAck n) s = .next t ∧ t.mem = (s.performG bs).mem ∧ t.warps = s.warps) ∧
  (∀ accs ds, o.work = .atomic accs ds → (accs ≠ [] → s.performable n o = true ∧ s.ackSilent o.die o.work.writeKeys = false ∧
      s.unanswered (s.ctx o.ctx).part o.work.writeKeys = false) →
    let r := s.performAtomics o accs
    ∃ t, exec (.atomicComplete n) s = .next t ∧ writes t (r.2 ++ ds) ∧ others t ∧ t.mem = r.1.mem)


/-! ### Engines of a core -/

/-- COPY and DCOPY at issue (spec/14 R336, R337): with operands that pass their checks and nothing holding them back, the copy is
counted in CP, the lines of its destination in the window become absent, and no byte has moved yet. -/
def Obligations.CopiesIssue : Prop := ∀ (s : State) (st : BitVec 2) (d a b c : Code) (sub : BitVec 4),
  let dst := s.readPair d 0
  let src := s.readPair a 0
  let n := (s.readK b).toNat
  let tab := s.myCore.tables.get sub.toNat
  let size := if tab.wide then n else (n + 1) / 2
  let counted (i : Instr) (lines : List Nat) (work : Work) : Prop :=
    ∃ t o, exec i s = .next t ∧ t.nextOp = s.nextOp + 1 ∧ t.op s.nextOp = some o ∧ o.work = work ∧ o.cls = .cp ∧ o.warp = s.cur ∧
      o.complete = false ∧ t.v = { s.v with absent := t.v.absent } ∧
      (∀ l, t.v.absent.get l = s.v.absent.get l + if l ∈ lines then 1 else 0) ∧
      t.mem = s.mem ∧ t.w.rest = s.w.rest ∧ (∀ r, t.w.final r = s.w.final r)
  s.countFull .cp = false → s.acquiring = false → s.w.replay = none →
  (s.clear { slot := 0x1B0, stall := st, ok := kPair d && kPair a && isK b && decide (sub ≤ 1), dst := false, uses := [(d, 2), (a, 2), (b, 1)] } = true →
    4 ≤ n → n % 4 = 0 → n ≤ 2 ^ 24 → dst.toNat % 4 = 0 → src.toNat % 4 = 0 → s.badWindow dst n = false → s.badWindow src n = false →
    s.linesBusy (windowLines dst n) = false → counted (.copy st d a b sub) (windowLines dst n) (.copy dst src n [])) ∧
  (s.clear { slot := 0x1B1, stall := st, ok := kPair d && kPair a && isK b && isK c && decide (sub < 8), dst := false,
             uses := [(d, 2), (a, 2), (b, 1), (c, 1)] } = true →
    inWindow dst = true → 1 ≤ n → n ≤ 2 ^ 24 → s.readK c ≠ 0 → tab.owner = some s.w.vat → tab.counts ≠ [] →
    s.tableLoading s.w.core 2 sub.toNat = false → s.badWindow dst size = false → s.linesBusy (windowLines dst size) = false →
    counted (.dcopy st d a b sub c) (windowLines dst size) (.dcopy dst src n (s.readK c).toNat sub.toNat))

/-- A copy within the window (spec/14 R336), of ranges that do not overlap: each destination byte becomes its source byte, every
other byte of the scratchpad and all of memory stay as they are, and the destination's lines are present again. -/
def Obligations.CopyWindow : Prop := ∀ (s : State) (op : Nat) (o : Op) (dst src : BitVec 64) (n : Nat),
  let vk := (s.warp o.warp).vat
  let v := s.vat vk
  let x := windowOff src
  let y := windowOff dst
  s.op op = some o → o.work = .copy dst src n [] → o.complete = false → inWindow src = true → inWindow dst = true → 0 < n →
  v.inScratch x n = true → v.inScratch y n = true → x + n ≤ y ∨ y + n ≤ x →
  (∀ l ∈ windowLines dst n, 0 < v.absent.get l) → v.scr ≤ 2 ^ 14 →
  ∃ t, exec (.copyComplete op) s = .next t ∧ t.mem = s.mem ∧ t.warps = s.warps ∧
    (∀ q, (t.vat vk).scratch.get q = if y ≤ q ∧ q < y + n then v.scratch.get (x + (q - y)) else v.scratch.get q) ∧
    (∀ l, (t.vat vk).absent.get l = v.absent.get l - if l ∈ windowLines dst n then 1 else 0)

/-- DCOPY completes (spec/14 R337, spec/06 R153–R155): the symbols of the table decoded from the source's bits, packed two to a
byte where they have 4 bits, then zeros where the bits ran out, and DCERR set just then. -/
def Obligations.Decompression : Prop := ∀ (s : State) (op : Nat) (o : Op) (dst src : BitVec 64) (n len tab : Nat),
  let core := (s.warp o.warp).core
  let vk := (s.warp o.warp).vat
  let t := (s.core core).tables.get tab
  let r := s.readSome core o.ctx vk (.loose o.warp) (rangePieces src len) []
  let x := decodeSyms t s.fresh n (bitsOf r.2.1)
  let size := if t.wide then n else (n + 1) / 2
  let y := windowOff dst
  s.op op = some o → o.work = .dcopy dst src n len tab → o.complete = false → s.decoding core (fun k _ => k < op) = false →
  r.2.2 = none →
  ∃ u, exec (.dcopyComplete op) s = .next u ∧ u.mem = s.mem ∧
    (u.warp o.warp).dcerr = ((s.warp o.warp).dcerr || x.2) ∧
    (∀ i < size, (u.vat vk).scratch.get (y + i) = ((if t.wide then x.1 else packNibbles x.1)[i]?).getD 0) ∧
    (∀ q, q < y ∨ y + size ≤ q → (u.vat vk).scratch.get q = (s.vat vk).scratch.get q)

/-- The table loads at issue (spec/12 R294, spec/14 R338, spec/06 R158): the vat owns the table, the image is read and counted in
CP; an address not aligned raises ALIGN, a table of another vat ILLEGAL_OPERAND. At completion a valid image becomes the shadow bank,
the chain or the code table; an invalid one changes no table and leaves ILLEGAL_OPERAND for the warp's next clause boundary. -/
def Obligations.TableLoads : Prop :=
  (∀ (s : State) (st : BitVec 2) (d a : Code),
    let va := s.readPair a 0
    let loads (g : Sig) (i : Instr) (align n kind obj : Nat) (owner : Option Nat) (owns : Core → Option Nat) (stalls : Bool) : Prop :=
      s.clear g = true →
      (owner ≠ none → owner ≠ some s.w.vat → exec i s = .next (s.raiseHere 0x03 0)) ∧
      (owner = none ∨ owner = some s.w.vat → va.toNat % align ≠ 0 → exec i s = .next (s.raiseOnce 0x0A 0 va)) ∧
      (owner = none ∨ owner = some s.w.vat → va.toNat % align = 0 → stalls = false → s.countFull .cp = false → s.imageWaits va n = false →
        s.rangeAbsent va n = false → ∀ bs, (s.readImage va n).2 = .ok bs →
        ∃ t o, exec i s = .next t ∧ t.op s.nextOp = some o ∧ o.work = .table kind obj bs ∧ o.cls = .cp ∧ o.warp = s.cur ∧
          owns (t.core s.w.core) = some s.w.vat ∧ t.mem = s.mem ∧ t.w.rest = s.w.rest ∧ (∀ r, t.w.final r = s.w.final r))
    let n := match (s.readImage va 4).2 with | .ok bs => 0x24 + imageSyms bs | .error _ => 4
    loads { slot := 0x1B2, stall := st, ok := decide (d < 8) && kPair a, dst := false, uses := [(a, 2)] } (.ctabld st d a) 4 n 2 d.toNat
      (s.myCore.tables.get d.toNat).owner (fun c => (c.tables.get d.toNat).owner) (s.decoding s.w.core (fun _ t => t == d.toNat)) ∧
    loads { slot := 0xE9, stall := st, ok := kPair a, dst := false, uses := [(a, 2)] } (.tintld st a) 16 2064 0 0
      s.myCore.tintOwner (fun c => c.tintOwner) false ∧
    loads { slot := 0xEB, stall := st, ok := decide (d < 8) && kPair a, dst := false, uses := [(a, 2)] } (.chld st d a) 32 96 1 d.toNat
      (s.myCore.chains.get d.toNat).owner (fun c => (c.chains.get d.toNat).owner) false) ∧
  (∀ (s : State) (op : Nat) (o : Op) (kind n : Nat) (bs : List Byte),
    let core := (s.warp o.warp).core
    let w (i : Nat) : Word := BitVec.ofNat 32 (word bs i)
    s.op op = some o → o.work = .table kind n bs → o.complete = false →
    (kind = 0 → tintValid bs = true → ∃ t, exec (.tableLoadComplete op) s = .next t ∧ t.warps = s.warps ∧
      (t.core core).tintCurrent = (s.core core).tintCurrent ∧ (t.core core).tintShadow.lo = w 0 ∧ (t.core core).tintShadow.scale = w 4 ∧
      ∀ j < 256, (t.core core).tintShadow.entries.get j = (w (16 + 8 * j), w (20 + 8 * j))) ∧
    (kind = 1 → chainValid bs = true → ∃ t, exec (.tableLoadComplete op) s = .next t ∧ t.warps = s.warps ∧
      ((t.core core).chains.get n).consts = [w 4, w 8, w 12, w 16] ∧ ((t.core core).chains.get n).ops = chainOps bs ∧
      ((t.core core).chains.get n).owner = ((s.core core).chains.get n).owner) ∧
    (2 ≤ kind → tableValid bs = true → ∃ t, exec (.tableLoadComplete op) s = .next t ∧ t.warps = s.warps ∧
      ((t.core core).tables.get n).wide = (word bs 0 % 2 == 1) ∧
      ((t.core core).tables.get n).symbols = (bs.drop 0x24).take (imageSyms bs) ∧
      ((t.core core).tables.get n).counts = (List.range 16).map (fun i => half bs (4 + 2 * i))) ∧
    ((match kind with | 0 => tintValid bs | 1 => chainValid bs | _ => tableValid bs) = false → (s.vat (s.warp o.warp).vat).stop = none →
      (s.warp o.warp).masks.lmask ≠ 0 → ∃ t fr, exec (.tableLoadComplete op) s = .next t ∧ t.cores = s.cores ∧
      (t.warp o.warp).async = (s.warp o.warp).async ++ [fr] ∧ fr.code = 0x03 ∧ fr.fpc = o.fpc))

/-- TINT, TINTSW and CHRUN (spec/12 R293, R295, R296): an element of a chain reads what the elements before it have written. -/
def Obligations.TintChain : Prop := ∀ (s : State) (st : BitVec 2) (d a b : Code) (sub : BitVec 4) (imm7 : BitVec 7),
  let n := imm7.toNat
  let fits (c : Code) : Bool := decide (c.toNat + n ≤ 96)
  let ch := s.myCore.chains.get sub.toNat
  let bank := s.myCore.tintCurrent
  let usesTint : Bool := (ch.ops.takeWhile (fun w => chOp w != 0)).any (fun w => chOp w == 9)
  let chrun : Sig := { slot := 0xEC, stall := st, ok := decide (sub < 8) && decide (1 ≤ n) && decide (n ≤ 16) && fits d && fits a && fits b,
                       uses := [(d, n), (a, n), (b, n)] }
  FloatWrites s { laneSig 0xE8 st d [a] with ok := isLane d && s.tintUsable } (.tint st d a) d
    (fun l => tintOf bank s.fresh (s.readOp a l).toNat) ∧
  (s.clear { slot := 0xEA, stall := st } = true → s.myCore.tintOwner = some s.w.vat → s.myCore.tintLoaded = true →
    s.tableLoading s.w.core 0 0 = false → ∃ t, exec (.tintsw st) s = .next t ∧
      (t.core s.w.core).tintCurrent = s.myCore.tintShadow ∧ (t.core s.w.core).tintShadow = s.myCore.tintCurrent ∧ t.mem = s.mem ∧
      t.w.rest = s.w.rest ∧ ∀ r, t.w.final r = s.w.final r) ∧
  (ch.owner = some s.w.vat → ch.ops ≠ [] → s.tableLoading s.w.core 1 sub.toNat = false → usesTint = false ∨ s.tintUsable = true →
    s.v.regs ≤ 31 → (∀ e < n, ∀ l ∈ s.lanes, s.incoming s.cur (s.w.cell (d.toNat + e) l) = none) →
    ∃ res : Nat → Nat → FRes,
      let src (c : Code) (e l : Nat) : Nat :=
        if d.toNat ≤ c.toNat + e ∧ c.toNat + e < d.toNat + e then (BitVec.ofNat 32 (res (c.toNat + e - d.toNat) l).1).toNat
        else (s.readOp (c + BitVec.ofNat 7 e) l).toNat
      (∀ e < n, ∀ l ∈ s.lanes, res e l = runChain ch bank s.fresh (src a e l) (src b e l)) ∧
      Writes s chrun (.chrun st d a b sub imm7)
        ((List.range n).flatMap (fun e => s.toLanes (d + BitVec.ofNat 7 e) (fun l => BitVec.ofNat 32 (res e l).1)))
        ((List.range n).foldl (fun f e => f ||| s.laneFlags (fun l => (res e l).2)) 0))

/-- SLTAKE and SLGIVE (spec/14 R340, spec/06 R143–R146): the slot at the side's pointer is taken by the first that waits for it, which
a write of RINGTAG does not wake; its tag and the pointer advance, and the warp takes over what the vat's releases hand on (spec/08 R193). A
slot is given with its tag, as a release; tags in another state raise SLOT_STATE, and so does a ring of KIND 0 whatever the slot's number (the
model's choice, log 110). -/
def Obligations.RingSlots : Prop := ∀ (s : State) (st : BitVec 2) (d a b : Code),
  let n := a.toNat
  let r := s.v.ringd.get n
  let tags := s.v.ringtag.get n
  let kind := rdKind (s.v.ringd.get (a.toNat % 8))
  let producer : Bool := s.w.mat || kind == 2
  let p := if producer then rdPptr r else rdQptr r
  let take : Sig := { slot := 0x1B6, stall := st, ok := isK d && decide (a < 8), uses := [(d, 1)], roleOk := ringRole s.w.mat a kind }
  let give : Sig := { slot := 0x1B7, stall := st, ok := decide (a < 8) && isK b, dst := false, uses := [(b, 1)],
                      roleOk := ringRole s.w.mat a kind }
  let slot := (s.readK b).toNat
  let first := (s.slotWaiters s.w.vat n producer).headD s.w.num
  let quiet : Bool := s.w.hold == .parked (.slot n) && s.v.ringQuiet.get n
  let kept (t : State) (ws : List (Nat × Word)) : Prop := t.mem = s.mem ∧ t.v.scratch = s.v.scratch ∧
    ∀ c, t.w.final c = (lastOf ws c).getD (s.w.final c)
  (s.clear take = true →
    (kind = 0 → exec (.sltake st d a) s = .next (s.raiseOnce 0x0C (BitVec.ofNat 32 n) 0)) ∧
    (kind ≠ 0 → quiet = false → first = s.w.num → tagOf tags p = (if producer then 0 else 2) → p ≤ rdNm1 r → ∃ t, exec (.sltake st d a) s = .next t ∧
      kept t (s.toK d (BitVec.ofNat 32 p)) ∧ t.w.rest = (s.takeOver s.cur).w.rest ∧
      (∀ i < 64, tagOf (t.v.ringtag.get n) i = if i = p then (if producer then 1 else 3) else tagOf tags i) ∧
      rdPptr (t.v.ringd.get n) = (if producer then (if p = rdNm1 r then 0 else p + 1) else rdPptr r) ∧
      rdQptr (t.v.ringd.get n) = (if producer then rdQptr r else if p = rdNm1 r then 0 else p + 1) ∧
      rdKind (t.v.ringd.get n) = rdKind r ∧ rdBase (t.v.ringd.get n) = rdBase r ∧ rdSize (t.v.ringd.get n) = rdSize r) ∧
    (kind ≠ 0 → quiet = true ∨ first ≠ s.w.num ∨ tagOf tags p ≠ (if producer then 0 else 2) → ∃ t, exec (.sltake st d a) s = .next t ∧
      t.w.hold = .parked (.slot n) ∧ t.v.ringtag = s.v.ringtag ∧ t.v.ringd = s.v.ringd ∧ kept t [] ∧ t.w.rest = s.w.rest ∧ (n, producer, s.w.num) ∈ t.v.slotQueue)) ∧
  (s.clear give = true →
    (kind ≠ 0 → rdNm1 r < slot → exec (.slgive st a b) s = .next (s.raiseHere 0x03 0)) ∧
    (kind = 0 ∨ (slot ≤ rdNm1 r ∧ tagOf tags slot ≠ (if producer then 1 else 3)) →
      exec (.slgive st a b) s = .next (s.raiseOnce 0x0C (BitVec.ofNat 32 n) 0)) ∧
    (kind ≠ 0 → slot ≤ rdNm1 r → tagOf tags slot = (if producer then 1 else 3) → kind ≠ 3 ∨ s.matrixBusy = false →
      (s.releaseReady s.cur 1 s.nextOp = false → exec (.slgive st a b) s = .next s.stall) ∧
      (s.releaseReady s.cur 1 s.nextOp = true → ∃ t, exec (.slgive st a b) s = .next t ∧ kept t [] ∧ t.w.rest = s.w.rest ∧ t.v.ringd = s.v.ringd ∧
        ∀ i < 64, tagOf (t.v.ringtag.get n) i = if i = slot then (if producer then 2 else 0) else tagOf tags i)))

/-- SECFG, SEGO and SESTOP (spec/14 R339, spec/06 R148–R152). -/
def Obligations.StreamControl : Prop := ∀ (s : State) (st : BitVec 2) (d a b : Code),
  let e := d.toNat
  let x := s.engine s.w.core e
  let va := s.readPair a 0
  let secfg : Sig := { slot := 0x1B3, stall := st, ok := decide (d < 2) && kPair a && isK b, dst := false, uses := [(a, 2), (b, 1)] }
  let sego : Sig := { slot := 0x1B4, stall := st, ok := decide (d < 2) }
  let sestop : Sig := { slot := 0x1B5, stall := st, ok := decide (d < 2) }
  let kept (t : State) : Prop := t.mem = s.mem ∧ t.vats = s.vats ∧ t.w.rest = s.w.rest ∧ ∀ c, t.w.final c = s.w.final c
  let r := s.readTlr x.tlrVa
  (s.clear secfg = true →
    (x.holder = some s.w.vat → x.busy = true → exec (.secfg st d a b) s = .next (s.raiseHere 0x03 0)) ∧
    (x.busy = false ∨ x.holder ≠ some s.w.vat → va.toNat % 64 ≠ 0 → exec (.secfg st d a b) s = .next (s.raiseOnce 0x0A 0 va)) ∧
    (x.holder ≠ none → x.holder ≠ some s.w.vat → va.toNat % 64 = 0 → exec (.secfg st d a b) s = .next (s.park (.secfg e))) ∧
    (x.holder = none ∨ (x.holder = some s.w.vat ∧ x.busy = false) → va.toNat % 64 = 0 → ∃ t, exec (.secfg st d a b) s = .next t ∧ kept t ∧
      (t.engine s.w.core e).holder = some s.w.vat ∧ (t.engine s.w.core e).tlrVa = va ∧ (t.engine s.w.core e).sepos = s.readK b ∧
      (t.engine s.w.core e).busy = false ∧ t.engine s.w.core (1 - e) = s.engine s.w.core (1 - e))) ∧
  (s.clear sego = true → s.w.replay = none →
    (x.holder ≠ some s.w.vat ∨ x.busy = true → exec (.sego st d) s = .next (s.raiseHere 0x03 0)) ∧
    (x.holder = some s.w.vat → x.busy = false → s.countFull .cp = false → s.imageWaits x.tlrVa 64 = false → ∀ bs, r.2 = .ok bs →
      (s.v.tlrInvalid (tlrOf bs) = true → exec (.sego st d) s = .next (r.1.raiseOnce 0x0E 0 0)) ∧
      (s.v.tlrInvalid (tlrOf bs) = false → ∃ t o, exec (.sego st d) s = .next t ∧ kept t ∧ t.op s.nextOp = some o ∧ o.cls = .cp ∧
        o.work = .sego e ∧ (t.engine s.w.core e).busy = true ∧ (t.engine s.w.core e).tlr = bs ∧
        (t.engine s.w.core e).sepos = x.sepos ∧ (t.engine s.w.core e).op = s.nextOp ∧ (t.engine s.w.core e).slot = none))) ∧
  (s.clear sestop = true →
    (x.holder ≠ some s.w.vat → Writes s sestop (.sestop st d) [] 0) ∧
    (x.holder = some s.w.vat → x.inBox = true → ∃ t, exec (.sestop st d) s = .next t ∧ kept t ∧ t.w.hold = .stalled ∧
      t.engine s.w.core e = { x with stopping := true }) ∧
    (x.holder = some s.w.vat → x.inBox = false → ∃ t, exec (.sestop st d) s = .next t ∧ kept t ∧ (t.engine s.w.core e).holder = none ∧
      (t.engine s.w.core e).busy = false ∧ (t.engine s.w.core e).sepos = x.sepos))

/-- A box of a traversal (spec/06 R151): an engine that is not busy, or waits at a fault or for its slot, moves nothing; else the engine
takes the slot at its pointer, or goes on in the one it has, moves the elements, gives the slot and goes to the next box, or ends behind the
last, or where SESTOP waits; it stands at an element whose access a SILENT die holds up (spec/01 R31). That an engine tests its slot again at
once after a write of RINGTAG is the model's choice (log 109), and so is the end of a traversal whose slot no warp of its stopped vat can give
any more (log 30). -/
def Obligations.StreamBoxes : Prop := ∀ (s : State) (core e vk : Nat),
  let x := s.engine core e
  let t := tlrOf x.tlr
  let v := s.vat vk
  let n := x.ring.toNat
  let r := v.ringd.get n
  let p := x.slot.getD (if t.dir then rdQptr r else rdPptr r)
  let tagged : Prop := tagOf (v.ringtag.get n) p = (if t.dir then 2 else 0)
  let done := x.bytes.toNat / 2 ^ t.es
  let taken := if x.slot.isSome then s else s.modVat vk (fun v => v.takeSlot n (!t.dir))
  let m := taken.moveElements core (s.lot v.lot).ctx vk t (t.boxAt x.sepos.toNat) (rdOff r p) (t.elements - done) done
  x.holder = some vk →
  (x.busy = false ∨ x.flt = true → exec (.streamBox core e) s = .next s) ∧
  (x.busy = true → x.flt = false →
    (x.slot = none → x.sepos.toNat < t.total → s.vatAborted vk = false → ¬ tagged → s.warpsStopped vk = false →
      exec (.streamBox core e) s = .next s) ∧
    ((x.slot = none → x.sepos.toNat < t.total ∧ s.vatAborted vk = false ∧ tagged) →
      (∀ i, m.2 = some (i, .held) → ∃ u, exec (.streamBox core e) s = .next u ∧ u.mem = m.1.mem ∧
        u.engine core e = { x with flt := false, slot := some p, bytes := BitVec.ofNat 18 (i * 2 ^ t.es) }) ∧
      (m.2 = none → p < 64 →
        ∃ u, exec (.streamBox core e) s = .next u ∧ u.mem = m.1.mem ∧ tagOf ((u.vat vk).ringtag.get n) p = (if t.dir then 0 else 2) ∧
          (u.engine core e).sepos = x.sepos + 1 ∧ (u.engine core e).slot = none ∧
          (if t.total ≤ x.sepos.toNat + 1 ∨ x.stopping = true then (u.engine core e).holder = none ∧ (u.engine core e).busy = false
           else (u.engine core e).holder = some vk ∧ (u.engine core e).busy = true))) ∧
    (x.slot = none → t.total ≤ x.sepos.toNat ∨ s.vatAborted vk = true ∨ (¬ tagged ∧ s.warpsStopped vk = true) →
      ∃ u, exec (.streamBox core e) s = .next u ∧
        u.mem = s.mem ∧ u.vats = s.vats ∧ (u.engine core e).holder = none ∧ (u.engine core e).sepos = x.sepos))

/-- HISTA, HISTL and its completion in the window (spec/14 R342, spec/04 R103): bins count and saturate; the block holds each
bin's count, then its exclusive prefix sum; the latch holds the same and the bins clear. -/
def Obligations.Histograms : Prop := ∀ (s : State) (st : BitVec 2) (d a : Code) (op : Nat) (o : Op) (latch : Nat) (va : BitVec 64),
  let hits (i : Nat) : Nat := (s.lanes.filter (fun l => (s.readOp a l).toNat % 256 == i)).length
  let addr := s.readPair a 0
  let histl : Sig := { slot := 0x1BB, stall := st, ok := decide (d < 16) && kPair a, dst := false, uses := [(a, 2)] }
  let vk := (s.warp o.warp).vat
  let bin (i : Nat) : Word := (s.vat vk).hist.get i
  let block (i : Nat) : Word := if i < 256 then bin i else (List.range (i - 256)).foldl (fun r j => r + bin j) 0
  (s.clear { slot := 0x1BA, stall := st, dst := false, uses := [(a, 1)] } = true → ∃ t, exec (.hista st a) s = .next t ∧
    (∀ i, (t.v.hist.get i).toNat = if i < 256 then min ((s.v.hist.get i).toNat + hits i) 0xFFFFFFFF else (s.v.hist.get i).toNat) ∧
    t.mem = s.mem ∧ t.v = { s.v with hist := t.v.hist } ∧ t.w.rest = s.w.rest ∧ ∀ r, t.w.final r = s.w.final r) ∧
  (s.clear histl = true → addr.toNat % 256 ≠ 0 → exec (.histl st d a) s = .next (s.raiseOnce 0x0A 0 addr)) ∧
  (s.clear histl = true → addr.toNat % 256 = 0 → s.countFull .st = false → s.acquiring = false → inWindow addr = true →
    s.badWindow addr 2048 = false → ∃ t o, exec (.histl st d a) s = .next t ∧ t.op s.nextOp = some o ∧ o.cls = .st ∧
      o.work = .histl d.toNat addr ∧ t.mem = s.mem ∧ t.vats = s.vats ∧ t.w.rest = s.w.rest ∧ ∀ r, t.w.final r = s.w.final r) ∧
  (s.op op = some o → o.work = .histl latch va → o.complete = false → s.releaseReady o.warp 3 op = true → inWindow va = true →
    (s.vat vk).inScratch (windowOff va) 2048 = true → ∃ t, exec (.histlComplete op) s = .next t ∧ (t.vat vk).hist = [] ∧
      (∀ i < 512, (t.ctx o.ctx).latches.get ((16 * o.die + latch) * 512 + i) = block i) ∧
      (∀ i < 512, ∀ j < 4, (t.vat vk).scratch.get (windowOff va + 4 * i + j) = (block i).extractLsb' (8 * j) 8) ∧
      (∀ q, q < windowOff va ∨ windowOff va + 2048 ≤ q → (t.vat vk).scratch.get q = (s.vat vk).scratch.get q))

/-! ### The matrix array -/

/-- TCFG and the instructions with operands in memory (spec/15 R351, R352, R355, R356, R358): the first turn starts the
instruction, counted in MX, and holds the warp at the word; once the operands are complete the next turn ends it. -/
def Obligations.MatrixIssue : Prop := ∀ (s : State) (st : BitVec 2) (d a b : Code) (sub : BitVec 4) (fs : BitVec 3) (imm7 : BitVec 7),
  let fmtA := s.fslot fs
  let fmtB := s.fslot (imm7.extractLsb' 0 3)
  let k := s.v.extentK
  let tcfg : Sig := { slot := 0x1E0, stall := st, ok := decide (a < 64) }
  let held (f : Nat) (ok : Bool) (n m : Nat) : Sig :=
    { slot := 0x1E0 + f, stall := st, dst := false, uses := [(a, n), (b, m)], tile := some d.toNat, ok := decide (d < 16) && ok }
  let quads : Bool := isK a && aligned a 4 && isK b && aligned b 4
  let suits (n : Nat) : Bool := slIsInt fmtA == slIsInt fmtB && (!imm7.getLsbD 3 || slIsInt fmtA) && (n == 0 || k % 128 == 0)
  let quad (c : Code) : List Word := [s.readK c, s.readK (c + 1), s.readK (c + 2), s.readK (c + 3)]
  let x := MatArg.of (quad a) fmtA
  let y := MatArg.of (quad b) fmtB
  let z := MatArg.of [s.readK a, s.readK (a + 1), s.readK b, 0] 0
  let reads (n : Nat) : List (BitVec 64 × Nat) :=
    (List.range s.v.rows).flatMap (x.ranges k n) ++ (List.range s.v.cols).flatMap (y.ranges k 0)
  let values := if sub.getLsbD 0 then 64 else 32
  let starts (g : Sig) (i : Instr) (xs : List MatArg) (work : Work) (ranges : List (BitVec 64 × Nat)) : Prop :=
    (s.clear g = true → s.w.matrixOp = none → s.tileRefused d.toNat = none → s.w.replay = none → s.countFull .mx = false → s.acquiring = false →
      (∀ x ∈ xs, x.va.toNat % 16 = 0 ∧ x.stride % 16 = 0) → (∀ r ∈ ranges, s.rangeAbsent r.1 r.2 = false) →
      ∃ t o, exec i s = .next t ∧ t.op s.nextOp = some o ∧ o.work = work ∧ o.cls = .mx ∧ o.warp = s.cur ∧ o.complete = false ∧
        t.w.matrixOp = some s.nextOp ∧ t.w.hold = .stalled ∧ t.w.rowp = s.w.rowp &&& 0x3F ∧ t.w.clause = s.w.clause ∧
        t.mem = s.mem ∧ t.vats = s.vats ∧ ∀ r, t.w.final r = s.w.final r) ∧
    (∀ n, s.w.matrixOp = some n →
      (s.matReading n = true → exec i s = .next s.stall) ∧
      (s.matReading n = false → ∃ t, exec i s = .next t ∧ s.Wrote t [] 0))
  (s.clear tcfg = true → s.matrixIdle = false → exec (.tcfg st a b) s = .next s.stall) ∧
  (s.clear tcfg = true → s.matrixIdle = true → ∃ t, exec (.tcfg st a b) s = .next t ∧
    t.v.extentK = 32 * (b.toNat + 1) ∧ t.v.rows = 8 * (a.toNat % 8 + 1) ∧ t.v.cols = 8 * (a.toNat / 8 + 1) ∧ t.v.tiles = [] ∧
    (∀ n < 8, t.v.ringtag.get n = if rdKind (s.v.ringd.get n) = 3 then 0 else s.v.ringtag.get n) ∧
    t.w.rowp = s.w.rowp &&& 0x3F ∧ t.mem = s.mem ∧ t.v.scratch = s.v.scratch ∧ ∀ r, t.w.final r = s.w.final r) ∧
  starts (held 1 (quads && decide (imm7 < 32) && suits 0) 4 4) (.mma st d a b fs imm7) [x, y]
    (.matrix 1 d.toNat (quad a) (quad b) 0 fs.toNat imm7.toNat 0) (reads 0) ∧
  starts (held 2 (quads && decide (sub < 2) && decide (imm7 < 32) && suits values) 4 4) (.mmas st d a b sub fs imm7) [x, y]
    (.matrix 2 d.toNat (quad a) (quad b) values fs.toNat imm7.toNat 0) (reads values) ∧
  starts (held 4 (kPair a && isK b) 2 1) (.mld st d a b) [z] (.matrix 4 d.toNat [s.readK a, s.readK (a + 1), s.readK b, 0] [] 0 0 0 0)
    ((List.range s.v.rows).map (fun r => (z.va + BitVec.ofNat 64 (r * z.stride), 4 * s.v.cols))) ∧
  starts (held 5 (kPair a && isK b) 2 1) (.mst st d a b) [z] (.matrix 5 d.toNat [s.readK a, s.readK (a + 1), s.readK b, 0] [] 0 0 0 0) []

/-- MZERO, MFILL and MDRAIN (spec/15 R358, R359), and the two ends of a matrix instruction (R349, R356): what each will write,
counted in MX, and what is written when it completes. MDRAIN, and the operands of MST, see of other warps' writes those that have been
performed, a choice of the hardware's (R361, `State.landTiles`). -/
def Obligations.TileWrites : Prop := ∀ (s : State) (st : BitVec 2) (d a b : Code) (sub : BitVec 4) (imm7 : BitVec 7) (op : Nat) (o : Op),
  let v := s.v
  let row0 := ((s.readK b).extractLsb' 0 16).toNat
  let col0 := ((s.readK b).extractLsb' 16 16).toNat
  let inside : Bool := decide (row0 < v.rows) && decide (col0 < v.cols)
  let elem (t r c : Nat) : Nat := v.rows * v.cols * t + r * v.cols + c
  let lanes := s.lanes.filter (fun l => decide (col0 + l < v.cols))
  let n := imm7.toNat
  let landed := s.landTiles s.cur
  let ds := lanes.flatMap (fun l => ((List.range n).filter (fun j => decide (row0 + j < v.rows))).map (fun j =>
    (elem a.toNat (row0 + j) (col0 + l), (⟨l, s.w.cell (d.toNat + j) l, landed.tileSeen s.cur s.nextOp (elem a.toNat (row0 + j) (col0 + l))⟩ : Dest))))
  let starts (g : Sig) (i : Instr) (tile : Nat) (work : Work) (from' : State) : Prop :=
    s.clear g = true → s.tileRefused tile = none → s.countFull .mx = false → s.acquiring = false →
    ∃ t o, exec i s = .next t ∧ t.op s.nextOp = some o ∧ o.work = work ∧ o.cls = .mx ∧ o.warp = s.cur ∧ o.complete = false ∧
      t.w.rowp = s.w.rowp &&& 0x3F ∧ t.mem = s.mem ∧ t.vats = from'.vats ∧ ∀ r, t.w.final r = s.w.final r
  let vk := (s.warp o.warp).vat
  starts { slot := 0x1E3, stall := st, ok := decide (d < 16), tile := some d.toNat } (.mzero st d) d.toNat
    (.tileStore [] [] ((List.range (v.rows * v.cols)).map (fun i => (v.rows * v.cols * d.toNat + i, 0)))) s ∧
  starts { slot := 0x1E6, stall := st, dst := false, uses := [(a, 1), (b, 1)], tile := some d.toNat,
           ok := decide (d < 16) && isLane a && isK b && inside } (.mfill st d a b) d.toNat
    (.tileStore [] [] (lanes.map (fun l => (elem d.toNat row0 (col0 + l), s.readOp a l)))) s ∧
  starts { slot := 0x1E7, stall := st, uses := [(d, n), (b, 1)], tile := some a.toNat,
           ok := isLane d && decide (a < 16) && isK b && decide (sub < 2) && decide (1 ≤ n) && decide (n ≤ 8) && decide (d.toNat + n ≤ 96) && inside }
    (.mdrain st d a b sub imm7) a.toNat (.drain ds (if sub.getLsbD 0 then ds.map (fun e => (e.1, 0)) else [])) landed ∧
  (s.op op = some o → s.matReading op = true → s.matPresent o = true →
    let r := (s.landTiles o.warp).matWork op o
    r.2.stop = none →
    ∃ t, exec (.matrixOperandComplete op) s = .next t ∧
      t.op op = some { o with work := .tileStore r.2.bytes r.2.scratch r.2.tiles } ∧
      (t.warp o.warp).fstat = (s.warp o.warp).fstat ||| r.2.flags.setWidth 32 ∧ (t.warp o.warp).hold = .free ∧
      t.mem = s.mem ∧ t.vats = (s.landTiles o.warp).vats) ∧
  (s.op op = some o → o.complete = false → s.matBehind op o = false →
    (∀ bytes scratch tiles, o.work = .tileStore bytes scratch tiles → s.writesHeld o bytes = false →
      ∃ t, exec (.matrixComplete op) s = .next t ∧ t.mem = (s.performG bytes).mem ∧ t.warps = s.warps ∧
        (∀ i, (t.vat vk).tiles.get i = (lastOf tiles i).getD ((s.vat vk).tiles.get i)) ∧
        (∀ q, (t.vat vk).scratch.get q = (lastOf8 scratch q).getD ((s.vat vk).scratch.get q))) ∧
    (∀ ds tiles, o.work = .drain ds tiles →
      let u := if o.late then s.landTiles o.warp else s
      let value (e : Nat × Dest) : Word := if o.late then u.tileSeen o.warp op e.1 else e.2.value
      ∃ t, exec (.matrixComplete op) s = .next t ∧
        (∀ c, (t.warp o.warp).regs.get c = (lastOf (ds.map (fun e => (e.2.cell, value e))) c).getD ((s.warp o.warp).regs.get c)) ∧
        t.mem = s.mem ∧ (∀ i, (t.vat vk).tiles.get i = (lastOf tiles i).getD ((u.vat vk).tiles.get i))))

/-- The sum of a product of integers (spec/09 R233). The plain form: the accumulator plus the exact sum of the products, modulo 2^32,
however many groups of 32 it takes. The .SAT form: each group in ascending order adds its exact sum to the accumulator, which is
clamped to −2^31 to 2^31 − 1 after it. No flag in either. -/
def Obligations.IntegerProducts : Prop := ∀ (n : Nat) (a b : List (Bool × Nat)) (acc : Word) (scale : FVal),
  let val (x : Bool × Nat) : FVal := .fin x.1 x.2 0
  let int (x : Bool × Nat) : Int := if x.1 then -(x.2 : Int) else x.2
  let sum (a b : List (Bool × Nat)) : Int := ((a.zip b).map (fun e => int e.1 * int e.2)).sum
  let clamp (x : Int) : Int := max (-2 ^ 31) (min (2 ^ 31 - 1) x)
  let added (sat : Bool) (n : Nat) (a b : List (Bool × Nat)) (acc : Word) : Nat × Flags :=
    addGroups true sat scale n (a.map val) (b.map val) acc.toNat 0
  a.length = b.length →
    (a.length ≤ 32 * n → added false n a b acc = ((acc + BitVec.ofInt 32 (sum a b)).toNat, 0)) ∧
    added true 0 a b acc = (acc.toNat, 0) ∧
    added true (n + 1) a b acc =
      added true n (a.drop 32) (b.drop 32) (BitVec.ofInt 32 (clamp (acc.toInt + sum (a.take 32) (b.take 32)))) ∧
    (added true n a b acc).2 = 0

/-- ACQA, RELA, MSYNC and the allocator (spec/15 R360, spec/06 R157): a request beyond 256 KiB is denied at once, one that the
core's free store covers is granted at once at the end of the window, RELA gives every grant back. -/
def Obligations.AccumulatorSpace : Prop := ∀ (s : State) (st : BitVec 2) (d a : Code) (core : Nat),
  let n := (s.readK a).toNat
  let held := s.v.acc + s.v.granted
  let acqa : Sig := { slot := 0x1E8, stall := st, ok := isK d && isK a && n != 0, uses := [(d, 1), (a, 1)] }
  let rela : Sig := { slot := 0x1E9, stall := st }
  let msync : Sig := { slot := 0x1EA, stall := st }
  let kept (t : State) (ws : List (Nat × Word)) : Prop := t.mem = s.mem ∧ t.ops = s.ops ∧ t.w.rowp = s.w.rowp &&& 0x3F ∧
    ∀ c, t.w.final c = (lastOf ws c).getD (s.w.final c)
  (s.clear acqa = true → s.w.acqAnswer = none → 256 < n + held → ∃ t, exec (.acqa st d a) s = .next t ∧ kept t (s.toK d 0xFFFFFFFF) ∧
    t.vats = s.vats) ∧
  (s.clear acqa = true → s.w.acqAnswer = none → n + held ≤ 256 → s.acqWaiters s.w.core = [] → s.w.resident = true → n ≤ s.accFree s.w.core →
    ∃ t, exec (.acqa st d a) s = .next t ∧ kept t (s.toK d (BitVec.ofNat 32 held)) ∧
      t.v = { s.v with grants := s.v.grants ++ [n] }) ∧
  (s.clear acqa = true → ∀ x, s.w.acqAnswer = some x → ∃ t, exec (.acqa st d a) s = .next t ∧ kept t (s.toK d x) ∧ t.vats = s.vats) ∧
  (s.clear rela = true → s.matSynced .rela = true → ∃ t, exec (.rela st) s = .next t ∧ kept t [] ∧ t.v.granted = 0 ∧
    t.v = { s.v with grants := [], tiles := t.v.tiles } ∧
    ∀ i, t.v.tiles.get i = if i < 256 * s.v.acc then s.v.tiles.get i else 0) ∧
  (s.clear rela = true → s.matSynced .rela = false → exec (.rela st) s = .next (s.park .rela)) ∧
  (s.clear msync = true → s.matSynced .msync = true → ∃ t, exec (.msync st) s = .next t ∧ kept t [] ∧ t.vats = s.vats) ∧
  (s.clear msync = true → s.matSynced .msync = false → exec (.msync st) s = .next (s.park .msync)) ∧
  (∀ k m, s.acqWaiters core = [(k, m)] → ∃ t, exec (.acqaGrant core) s = .next t ∧ t.mem = s.mem ∧
    (s.accFree core < m → t = s) ∧
    (m ≤ s.accFree core → (t.warp k).hold = .free ∧
      (t.warp k).acqAnswer = some (BitVec.ofNat 32 ((s.vat (s.warp k).vat).acc + (s.vat (s.warp k).vat).granted)) ∧
      (t.vat (s.warp k).vat).grants = (s.vat (s.warp k).vat).grants ++ [m]))

/-! ### Tasks and the abort of a lot -/

/-- SPAWN and SPAWN.R (spec/14 R341, spec/04 R89, R90): valid records that the dependence table has room for become tasks in lane
order, waiting, each with the stencil captured now. -/
def Obligations.Spawning : Prop := ∀ (s : State) (st : BitVec 2) (a : Code) (ws : Nat → List Word),
  let die := s.dieOf s.cur
  let d := s.die die
  let r := s.lanesAt false a 0 64 .read true
  let keys := accessKeys 64 r.2
  let far := r.2.flatMap (fun x => match x.place with
    | .mem key _ ca => if s.farFrom die key ca then (List.range 64).map (key + ·) else []
    | _ => [])
  let u := r.2.foldl (fun t x => match x.place with | .mem key slot ca => t.fillLine s.w.core key slot ca | _ => t) (r.1.bindLoads keys)
  let spawns (i : Instr) : Prop := ∃ t, exec i s = .next t ∧ (t.die die).nextSpawn = d.nextSpawn + s.lanes.length ∧
    (∀ k < s.lanes.length, (t.die die).tasks.get (d.nextSpawn + k) = { (default : Task) with
      ctx := s.l.ctx, lot := s.v.lot, words := ws (s.lanes.getD k 0), offs := (s.ctx s.l.ctx).stmask.extractLsb' 0 24,
      place := .waiting, spilled := false }) ∧
    (∀ n < d.nextSpawn, (t.die die).tasks.get n = d.tasks.get n) ∧
    t.mem = s.mem ∧ t.vats = s.vats ∧ t.w.rest = s.w.rest ∧ ∀ c, t.w.final c = s.w.final c
  s.abortDue s.cur = false → s.w.spawnDone = 0 → s.releaseReady s.cur 3 s.nextOp = true →
  d.tableUsed + s.lanes.length ≤ 4096 → (s.ctx s.l.ctx).spilled die = 0 → (∀ l ∈ s.lanes, s.l.code.recordOk (ws l) = true) →
  (s.clear { slot := 0x1B8, stall := st, ok := aligned a 2, dst := false, uses := [(a, 2)] } = true →
    s.acquiring = false → s.lakeFenced = false → s.touchesAbsent r.2 = false → s.atomicOn keys = false →
    anyHeld r.2 = false → s.homeSilent die far = false → s.unanswered s.c.part keys = false → (∀ x ∈ r.2, u.laneRecord x = .ok (ws x.lane)) → spawns (.spawn st a)) ∧
  (s.clear { slot := 0x1B8, stall := st, ok := aligned a 16 && decide (a ≤ 80), dst := false, uses := [(a, 16)] } = true →
    (∀ l ∈ s.lanes, ws l = (List.range 16).map (fun i => s.readOp (a + BitVec.ofNat 7 i) l)) → spawns (.spawnR st a))

/-- What becomes of tasks. The oldest waiting record of a context enters the table (spec/04 R91) with its keys, renamed where the context
has a pool it can reach (R92), and the tasks it waits for (R91, R96); without one to wait for it is released. A task that TDONE or its
lane's exit retired leaves once its operations have ended (R93), and holds back no other. A bin of 32 tasks, or one whose timer has counted
BTIM cycles of 1.4 GHz (R98, spec/00 R9), forms a warp where a core of its LIVE die fits, one task to a lane (R98, R99). A record comes back
from the overflow ring as an entry frees (R101), or is dropped if its task was discarded (R102). A SPAWN stalled for 2 ms raises OVF_STALL
for the lanes whose records were not accepted (R102). -/
def Obligations.TaskFlow : Prop := ∀ (s : State) (die ctx n bin k : Nat),
  let d := s.die die
  let t := d.tasks.get n
  let m := s.mapEntries ctx die
  let w := m.1.resolveWrites ctx die t.words (List.range (recNwr t.words)) m.2.1 []
  let rd := (List.range (recNrd t.words)).map (fun i => mapOf m.2.1 (recKey t.words i))
  let kw := (List.range (recNwr t.words)).map (fun j => recKey t.words (4 + j))
  let meets (a b : List (BitVec 64)) : Bool := a.any b.contains
  let preds := ((w.1.die die).entries ctx).filterMap (fun e =>
    if meets e.2.wr rd || meets e.2.wr w.2.1 || meets e.2.rd w.2.1 || stencilPred e.2 t then some e.1 else none)
  let place (u : State) : TaskPlace := ((u.die die).tasks.get n).place
  let back := s.agentRead ctx die ((s.ctx ctx).ringVa die ((s.ctx ctx).ovf.get (2 * die)).toNat) 64 190
  d.tasks.wf = true →
  (d.tasks.firstKey (fun _ t => decide (t.ctx = ctx) && t.place == .waiting) = some n →
    (t.spilled = true → exec (.taskEnter die ctx) s = .next s) ∧
    (t.spilled = false → n ∉ d.released → m.2.2 = none → w.2.2 = none →
      ∃ u, exec (.taskEnter die ctx) s = .next u ∧ u.mem = w.1.mem ∧ ((u.die die).tasks.get n).rd = rd ∧
        ((u.die die).tasks.get n).wr = w.2.1 ∧ ((u.die die).tasks.get n).preds = preds ∧
        (preds ≠ [] → place u = .table) ∧ (preds = [] → place u = .released ∨ ∃ i, place u = .bin i)) ∧
    ((s.ctx ctx).poolTiles = 0 → m = (s, [], none) ∧ w = (s, kw, none))) ∧
  (t.place = .running →
    (t.retiring = none → exec (.taskRetire die n) s = .next s) ∧
    (∀ ops, t.retiring = some ops → (∃ m ∈ ops, (s.op m).isSome = true) → exec (.taskRetire die n) s = .next s) ∧
    (∀ ops, t.retiring = some ops → (∀ m ∈ ops, s.op m = none) → ∃ u, exec (.taskRetire die n) s = .next u ∧
      (u.die die).tasks.get n = default ∧ (∀ m, n ∉ ((u.die die).tasks.get m).preds) ∧
      (∀ m, m ≠ n → (d.tasks.get m).place = .table → (d.tasks.get m).preds = [n] → ((u.die die).tasks.get m).place ≠ .table) ∧
      u.mem = s.mem ∧ u.warps = s.warps)) ∧
  (∀ b f core subs, d.bins.get bin = some b → (s.lot b.lot).phase = .running → (s.lot b.lot).status ≠ 1 → (s.lot b.lot).status ≠ 5 →
    (s.lot b.lot).code.taskFunc b.entry = some f →
    b.tasks.length = 32 ∨ (b.since ≤ s.gtime ∧ d.btim.toNat * 1000 ≤ (s.gtime - b.since) * 1400) →
    d.state = .live → b.tasks.length ≤ 32 →
    chooseCore { nvec := 1, nmat := 0, regs := f.regs, scr := f.scr, acc := f.acc } die (s.candidates [die]) = some (core, subs) →
    ∃ u, exec (.binFormWarp die bin) s = .next u ∧ u.nextLseq = s.nextLseq + 1 ∧ u.mem = s.mem ∧
      (let v := u.vat s.nextLseq
       v.task = true ∧ v.nwarp = 1 ∧ v.lot = b.lot ∧ v.core = core ∧ v.regs = f.regs ∧ v.scr = f.scr ∧ v.acc = f.acc) ∧
      (let w := u.warp (warpKey s.nextLseq 0)
       w.resident = true ∧ w.core = core ∧ w.masks.lmask = maskOf (List.range b.tasks.length) ∧
       ∀ l < b.tasks.length, w.lpc.get l = BitVec.ofNat 32 f.eoff ∧ w.tasks.get l = b.tasks[l]?)) ∧
  ((s.ctx ctx).spilled die ≠ 0 → d.tableUsed < 4096 → (s.ctx ctx).refillStopped.getLsbD die = false → (s.ctx ctx).faulted = false →
    d.tasks.firstKey (fun _ t => decide (t.ctx = ctx) && t.spilled) = some n → ∀ bs, back.2 = .ok bs →
    ∃ u, exec (.overflowRefill die ctx) s = .next u ∧ u.mem = s.mem ∧
      (u.ctx ctx).ovf.get (2 * die) = BitVec.ofNat 32 ((((s.ctx ctx).ovf.get (2 * die)).toNat + 1) % (2 * (s.ctx ctx).quarter)) ∧
      (t.place ≠ .retired → ((u.die die).tasks.get n).spilled = false ∧
        ((u.die die).tasks.get n).words = (List.range 16).map (fun i => BitVec.ofNat 32 (word bs (4 * i)))) ∧
      (t.place = .retired → (u.die die).tasks.get n = default)) ∧
  ((s.warp k).hold = .parked .spawn → (s.warp k).holdSince + 2000000 ≤ s.gtime → exec (.ovfStall k) s = .next (s.raise k
    { code := 0x12, flm := (s.warp k).clause.enabled &&& ~~~ (s.warp k).spawnDone, fpc := (s.warp k).clause.pc } .again))

/-- TDONE, LABORT, ABCHK and the arrival of an abort flag (spec/14 R342, R343, spec/04 R93, R109). -/
def Obligations.LotAbort : Prop := ∀ (s : State) (st : BitVec 2) (lot die : Nat),
  let tdone : Sig := { slot := 0x1B9, stall := st, roleOk := s.lanes.all (fun l => (s.w.tasks.get l).isSome) }
  let labort : Sig := { slot := 0x1BC, stall := st, legal := s.l.record.flags.getLsbD 2 }
  let abchk : Sig := { slot := 0x1BD, stall := st }
  let exits (t : State) : Prop := t.w.masks.lmask = 0 ∧ (∀ l ∈ lanesOf s.w.masks.lmask, t.w.lstate.get l = 4) ∧ t.mem = s.mem ∧
    ∀ c, t.w.final c = s.w.final c
  (s.clear tdone = true → ∃ t, exec (.tdone st) s = .next t ∧ t.w.tdone = s.w.tdone ||| s.w.clause.enabled ∧ t.mem = s.mem ∧
    (∀ c, t.w.final c = s.w.final c) ∧ ∀ l ∈ s.lanes, inMask s.w.tdone l = false → ∀ k, s.w.tasks.get l = some k →
      ((t.die (s.dieOf s.cur)).tasks.get k).retiring = some (s.taskOps s.cur)) ∧
  (s.clear abchk = true → s.abortDue s.cur = false → Writes s abchk (.abchk st) [] 0) ∧
  (s.w.async = [] → s.v.trapWarp ≠ some s.cur →
    (s.clear abchk = true → s.abortDue s.cur = true → ∃ t, exec (.abchk st) s = .next t ∧ exits t) ∧
    (s.clear labort = true → ∃ t, exec (.labort st) s = .next t ∧ exits t ∧ (t.lot s.v.lot).abort = true ∧
      (t.lot s.v.lot).status = (if s.l.abort = false ∧ s.l.status = 0 then 2 else s.l.status) ∧
      (t.lot s.v.lot).abortDies = s.l.abortDies)) ∧
  ((s.lot lot).abort = false ∨ (s.lot lot).abortDies.getLsbD die = true → exec (.abortFlagArrive lot die) s = .next s) ∧
  ((s.lot lot).abort = true → (s.lot lot).abortDies.getLsbD die = false → ∃ t, exec (.abortFlagArrive lot die) s = .next t ∧
    (t.lot lot).abortDies = (s.lot lot).abortDies ||| dieBit die)

/-! ### System registers, traps, eviction -/

/-- SYSR (spec/11 R267–R269): what each assigned number reads as, in every enabled lane or in a k register, with the latches of
GTIME and CODEBASE; a register held per lane goes to a lane register. -/
def Obligations.SysRead : Prop := ∀ (s : State) (st : BitVec 2) (d : Code) (num : BitVec 14),
  let n := num.toNat
  let g : Sig := { slot := 0x1F0, stall := st, ok := sysAssigned n && (isLane d || !sysPerLane n), uses := [(d, 1)] }
  let reads (ws : List (Nat × Word)) (w : Warp) : Prop := s.clear g = true → ∃ t, exec (.sysr st d num) s = .next t ∧ s.OnlyWarp t ∧
    w.Issued t.w 0 ∧ ∀ c, t.w.final c = (lastOf ws c).getD (s.w.final c)
  let lane (k : Nat) (v : Nat → Word) : Prop := n = k → reads (s.toLanes d v) s.w
  let is (k : Nat) (v : Word) : Prop := n = k → reads (s.toAny d v) s.w
  let bit (b : Bool) : BitVec 1 := BitVec.ofBool b
  let w := s.w
  let v := s.v
  let die := w.core / 44
  let ev := if w.hdep = 2 then w.ev2 else w.ev1
  let f := w.trap.frec
  let cb := s.l.record.codeva
  let now := BitVec.ofNat 64 s.gtime
  (lane 0x00 (fun l => BitVec.ofNat 32 l) ∧ lane 0x38 w.lpc.get ∧ lane 0x39 w.hpc1.get ∧ lane 0x3A w.hpc2.get ∧
    lane 0x3B (fun l => (w.lstate.get l).setWidth 32) ∧ lane 0x3C (fun l => (w.pkage.get l).setWidth 32) ∧
    lane 0x3D (fun l => (w.barid.get l).setWidth 32)) ∧
  (is 0x01 (BitVec.ofNat 32 w.num) ∧ is 0x02 (BitVec.ofNat 32 (w.slot / 16)) ∧ is 0x03 (BitVec.ofNat 32 w.core) ∧ is 0x04 v.vatnum ∧
    is 0x05 v.gridX ∧ is 0x06 v.gridY ∧ is 0x07 v.gridZ ∧ is 0x08 (w.vwb.setWidth 32) ∧ is 0x09 (BitVec.ofNat 32 w.vat) ∧
    is 0x0E ((0 : Byte) ++ Config.stepping ++ s.hub.isaMin ++ (4 : Byte)) ∧ is 0x0F (BitVec.ofNat 32 (5 * die)) ∧
    is 0x10 (s.c.tdmask.setWidth 32) ∧ is 0x11 s.c.stmask ∧ is 0x12 ((s.part s.c.part).ackto.setWidth 32) ∧
    is 0x13 ((s.die die).btim.setWidth 32)) ∧
  ((n = 0x0A → reads (s.toAny d (cb.extractLsb' 0 32)) { w with latchCode := some (cb.extractLsb' 32 32) }) ∧
    (n = 0x0B → reads (s.toAny d (w.latchCode.getD (cb.extractLsb' 32 32))) { w with latchCode := none }) ∧
    (n = 0x0C → reads (s.toAny d (now.extractLsb' 0 32)) { w with latchGtime := some (now.extractLsb' 32 32) }) ∧
    (n = 0x0D → reads (s.toAny d (w.latchGtime.getD (now.extractLsb' 32 32))) { w with latchGtime := none })) ∧
  (is 0x20 w.masks.amask ∧ is 0x21 w.masks.lmask ∧ is 0x22 w.masks.ham1 ∧ is 0x23 w.masks.ham2 ∧ is 0x24 w.masks.wset ∧
    is 0x25 w.masks.arrl ∧ is 0x26 w.masks.sggrp ∧ is 0x27 w.masks.blmask ∧
    (∀ j < 8, is (0x28 + j) (w.masks.jm.get j) ∧ is (0x30 + j) (w.masks.ja.get j))) ∧
  (is 0x40 (w.sgrem ++ (0 : BitVec 11) ++ bit w.sgact ++ bit w.wpark ++ (0 : BitVec 1) ++ w.hdep) ∧ is 0x41 w.dhv ∧ is 0x42 w.sgcfg ∧
    is 0x43 w.sgcnt ∧ is 0x48 ev.evrec ∧ is 0x49 ev.evpc ∧ is 0x4A ev.evt ∧ is 0x4B ev.evf ∧ is 0x4C ev.evtk ∧ is 0x4D ev.evm ∧
    is 0x50 w.fstat ∧ is 0x51 (if w.dcerr then 1 else 0) ∧ is 0x52 w.trap.tvmask ∧ is 0x53 v.vvmask ∧
    is 0x54 ((0 : BitVec 28) ++ bit w.trap.rmode ++ bit w.trap.smode ++ bit w.trap.tmsk ++ bit w.trap.tmode) ∧
    is 0x55 w.trap.trpc ∧ is 0x56 w.trap.trmask) ∧
  (is 0x60 ((0 : BitVec 4) ++ f.dies ++ f.code2 ++ bit f.replay ++ f.rung ++ f.cause ++ f.code) ∧ is 0x61 f.flm ∧ is 0x62 f.fpc ∧
    is 0x63 ((0 : BitVec 18) ++ bit f.sgq ++ f.hdep ++ BitVec.ofNat 5 ((lowest f.flm).getD 0) ++ f.warp) ∧
    is 0x64 (f.fva.extractLsb' 0 32) ∧ is 0x65 (f.fva.extractLsb' 32 32) ∧ is 0x66 f.vatnum ∧ is 0x67 f.info ∧
    is 0x68 (f.gtime.extractLsb' 0 32) ∧ is 0x69 (f.gtime.extractLsb' 32 32) ∧ is 0x6A f.lottag ∧ is 0x6B (f.seq.setWidth 32) ∧
    is 0x6C 0 ∧ is 0x6D 0 ∧ is 0x6E 0 ∧ is 0x6F 0) ∧
  (is 0x70 v.vbstat ∧
    is 0x74 ((0 : BitVec 23) ++ bit v.stage.xh ++ v.stage.wm1 ++ v.stage.state) ∧ is 0x75 v.stage.n ∧ is 0x76 v.stage.oldest ∧
    is 0x77 v.stage.next ∧ is 0x78 v.mcfg ∧ is 0x79 w.rowp ∧ is 0x7A w.lkstat ∧
    (∀ r < 8, (∀ i < 2, is (0x80 + 2 * r + i) ((v.ringd.get r).extractLsb' (32 * i) 32)) ∧
      ∀ i < 4, is (0x90 + 4 * r + i) ((v.ringtag.get r).extractLsb' (32 * i) 32)) ∧
    (∀ e < 2, let x := s.engine w.core e
      is (0xB0 + e) x.sepos ∧ ∀ k, x.holder = some k →
        is (0xB2 + e) (bit x.busy ++ bit x.flt ++ (0 : BitVec 5) ++ BitVec.ofNat 4 (s.vat k).slot ++ x.ring ++ x.bytes)) ∧
    (∀ e < 2, let x := s.engine w.core e
      x.holder = none → is (0xB2 + e) (bit x.busy ++ bit x.flt ++ (0 : BitVec 9) ++ x.ring ++ x.bytes)) ∧
    (∀ i < 64, is (0xC0 + i) (v.stgslot.get i)) ∧
    (∀ i < 8, ∀ j < 8, is (0x100 + 8 * i + j) ((s.c.lwdesc.get i).extractLsb' (32 * j) 32)) ∧
    (∀ i < 16, is (0x140 + i) (v.nbstat.get i)) ∧ (∀ i < 256, is (0x200 + i) (v.hist.get i)))

/-- SYSW (spec/11 R267, spec/05 R110, spec/07 R171, spec/04 R95, R104, spec/09 R236): what a write of each writable number stores, from
the lowest enabled lane; reserved bits and every number not named here stay as they are. -/
def Obligations.SysWrite : Prop := ∀ (s : State) (st : BitVec 2) (d : Code) (num : BitVec 14),
  let n := num.toNat
  let w := s.w
  let v := s.v
  let x := s.readOp d s.lane0
  let step (Q : State → Prop) : Prop := ∃ t, exec (.sysw st d num) s = .next t ∧ (∀ c, t.w.final c = s.w.final c) ∧ Q t
  let warp (w' : Warp) : Prop := step (fun t => s.OnlyWarp t ∧ w'.Issued t.w 0)
  let other (s' : State) : Prop := step (fun t => s'.OnlyWarp t ∧ w.Issued t.w 0)
  let vat (v' : Vat) : Prop := other (s.setVat w.vat v')
  s.clear { slot := 0x1F1, stall := st, ok := sysAssigned n, dst := false, uses := [(d, 1)] } = true →
  (n = 0x11 → other (s.setCtx s.l.ctx { s.c with stmask := x &&& 0x00FFFFFF })) ∧
  (n = 0x3D → (w.trap.rmode = true → step (fun t => s.OnlyWarp t ∧ { w with barid := t.w.barid }.Issued t.w 0 ∧
      ∀ l < 32, t.w.barid.get l = if inMask w.clause.enabled l then (s.readOp d l).extractLsb' 0 5 else w.barid.get l)) ∧
    (w.trap.rmode = false → warp w)) ∧
  (n = 0x41 → warp { w with dhv := x &&& 0xFFFFFE01 }) ∧
  (n = 0x42 → warp { w with sgcfg := BitVec.ofNat 16 (max (x.extractLsb' 16 16).toNat 256) ++ BitVec.ofNat 16 (max (x.extractLsb' 0 16).toNat 1) }) ∧
  (n = 0x43 → warp { w with sgcnt := x &&& 0xFFFF }) ∧
  (n = 0x50 → warp { w with fstat := x &&& 0x1F }) ∧
  (n = 0x51 → warp { w with dcerr := if x.getLsbD 0 then false else w.dcerr }) ∧
  (n = 0x52 → warp { w with trap := { w.trap with tvmask := x } }) ∧
  (n = 0x53 → vat { v with vvmask := x }) ∧
  (n = 0x54 → (w.trap.tmode = true → warp { w with trap := { w.trap with tmsk := x.getLsbD 1 } }) ∧ (w.trap.tmode = false → warp w)) ∧
  (n = 0x74 → vat { v with stage := { v.stage with xh := x.getLsbD 8, wm1 := x.extractLsb' 2 6, state := x.extractLsb' 0 2 } }) ∧
  (n = 0x75 → vat { v with stage := { v.stage with n := x } }) ∧
  (n = 0x76 → vat { v with stage := { v.stage with oldest := x } }) ∧
  (n = 0x77 → vat { v with stage := { v.stage with next := x } }) ∧
  (n = 0x78 → (w.trap.rmode = true → vat { v with mcfg := x &&& 0x1FFF }) ∧ (w.trap.rmode = false → warp w)) ∧
  (n = 0x79 → (w.trap.rmode = true → warp { w with rowp := x &&& 0xBF }) ∧ (w.trap.rmode = false → warp w)) ∧
  (∀ e < 2, n = 0xB0 + e →
    ((s.engine w.core e).holder = some w.vat → other (s.modCore w.core (fun c => { c with
      engines := c.engines.modify e (fun y => { y with sepos := x }) }))) ∧
    ((s.engine w.core e).holder ≠ some w.vat → warp w)) ∧
  (∀ i < 64, n = 0xC0 + i → vat { v with stgslot := v.stgslot.set i (x &&& 0x0000FCFF) }) ∧
  (n ≠ 0x11 ∧ n ≠ 0x3D ∧ ¬(0x41 ≤ n ∧ n ≤ 0x43) ∧ ¬(0x50 ≤ n ∧ n ≤ 0x54) ∧ ¬(0x74 ≤ n ∧ n ≤ 0x79) ∧ ¬(0xB0 ≤ n ∧ n ≤ 0xB1) ∧
    ¬(0xC0 ≤ n ∧ n ≤ 0xFF) → warp w)

/-- SYSW of the registers whose writes do more (spec/06 R142, R143, spec/05 R110, R113, R132, spec/13 R313, spec/04 R103). Choices of the
model: SLOT_STATE names every issuing lane in FLM (log 14), a bound ring is refused before its new value is looked at, and a write of NBSTAT
with EXPECT 0 completes nothing (log 40). -/
def Obligations.SysWriteOwn : Prop := ∀ (s : State) (st : BitVec 2) (d : Code) (num : BitVec 14),
  let n := num.toNat
  let w := s.w
  let v := s.v
  let x := s.readOp d s.lane0
  let r := (n - 0x80) / 2
  let set (old : BitVec 64) : BitVec 64 :=
    if n % 2 = 0 then old.extractLsb' 32 32 ++ (x &&& 0x07FF07FF) else (x &&& 0x000FFFFF) ++ old.extractLsb' 0 32
  let rd := set (v.ringd.get r)
  let field (p k : Nat) : Nat := (rd.extractLsb' p k).toNat
  let bad : Prop := (field 38 2 ≠ 0 ∧ field 32 6 = 0) ∨ field 32 6 < field 46 6 ∨ field 32 6 < field 40 6 ∨
    ((field 38 2 = 1 ∨ field 38 2 = 2) ∧ 1024 * v.scr < 128 * field 0 11 + (field 32 6 + 1) * (128 * (field 16 11 + 1))) ∨
    (field 38 2 = 3 ∧ 15 < field 0 11 + field 32 6)
  let bound : Prop := ∃ e < 2, (s.engine w.core e).holder = some w.vat ∧ (s.engine w.core e).busy = true ∧ (s.engine w.core e).ring.toNat = r
  let ring (y : BitVec 64) : State := s.setVat w.vat { v with ringd := v.ringd.set r y, ringtag := v.ringtag.set r 0, ringQuiet := v.ringQuiet.set r false }
  let y := x &&& 0x87FF07FF
  let kept (t : State) : Prop := ∀ c, t.w.final c = s.w.final c
  let here (k : Nat) : Prop := (s.warp k).evict = .running ∨ (s.warp k).evict = .requested ∨ (s.warp k).evict = .drain
  let vat (i : Instr) (v' : Vat) : Prop := ∃ t, exec i s = .next t ∧ kept t ∧ (s.setVat w.vat v').OnlyWarp t ∧ w.Issued t.w 0
  s.clear { slot := 0x1F1, stall := st, ok := sysAssigned n, dst := false, uses := [(d, 1)] } = true →
  (v.ringd.get r &&& 0xF800F800 = 0 ∧ v.ringd.get r >>> 52 = 0 →
    (bound → exec (.syswRingd st d num) s = .next (s.raiseHere 0x0C (BitVec.ofNat 32 r))) ∧
    (¬ bound → bad → exec (.syswRingd st d num) s = .next ((ring (rd &&& ~~~ 0x000000C000000000)).raiseHere 0x03 0)) ∧
    (¬ bound → ¬ bad → vat (.syswRingd st d num) { v with ringd := v.ringd.set r rd, ringtag := v.ringtag.set r 0, ringQuiet := v.ringQuiet.set r false })) ∧
  (∀ k < 8, ∀ i < 4, n = 0x90 + 4 * k + i → ∃ u : BitVec 128, vat (.syswRingtag st d num) { v with ringtag := v.ringtag.set k u, ringQuiet := v.ringQuiet.set k true } ∧
    ∀ b < 128, u.getLsbD b = (decide (b < 2 * (((v.ringd.get k).extractLsb' 32 6).toNat + 1)) &&
      if 32 * i ≤ b ∧ b < 32 * i + 32 then x.getLsbD (b - 32 * i) else (v.ringtag.get k).getLsbD b)) ∧
  ((vbArrived y < vbExpect y → vat (.syswVbstat st d num) { v with vbstat := y }) ∧
    (vbExpect y ≤ vbArrived y → ∃ t, exec (.syswVbstat st d num) s = .next t ∧ kept t ∧ t.mem = s.mem ∧
      t.v.vbstat = vbMake (!y.getLsbD 31) (vbExpect y) 0 ∧
      ∀ k ∈ warpKeys w.vat v, ∀ l < 32, inMask (s.warp k).masks.lmask l = true → (s.warp k).lstate.get l = 2 → (s.warp k).barid.get l = 0 →
        here k → (t.warp k).lstate.get l = 0)) ∧
  (∀ b < 16, n = 0x140 + b →
    (vbArrived y < vbExpect y ∨ vbExpect y = 0 → vat (.syswNbstat st d num) { v with nbstat := v.nbstat.set b y }) ∧
    (vbExpect y ≤ vbArrived y → vbExpect y ≠ 0 → ∃ t, exec (.syswNbstat st d num) s = .next t ∧ kept t ∧ t.mem = s.mem ∧
      t.v.nbstat.get b = vbMake (!y.getLsbD 31) 0 0 ∧
      ∀ k ∈ warpKeys w.vat v, ∀ l < 32, inMask (s.warp k).masks.lmask l = true → (s.warp k).lstate.get l = 2 →
        (s.warp k).barid.get l = BitVec.ofNat 5 (16 + b) → (t.warp k).barid.get l = 0 ∧ (here k → (t.warp k).lstate.get l = 0))) ∧
  (let may : Bool := w.hdep != 0 || w.trap.tmode
   let moves (l : Nat) (old new : BitVec 3) : Prop :=
     inMask (w.clause.enabled &&& w.masks.lmask) l = true ∧ w.lstate.get l = old ∧ (s.readOp d l).extractLsb' 0 3 = new
   (may = false → ∃ t, s.Wrote t [] 0 ∧ exec (.syswLstate st d num) s = .next t ∧ exec (.syswLpc st d num) s = .next t) ∧
   (may = true → ∃ t, exec (.syswLpc st d num) s = .next t ∧ kept t ∧ s.OnlyWarp t ∧
     { w with lpc := t.w.lpc, trap := { w.trap with lpcWritten := t.w.trap.lpcWritten } }.Issued t.w 0 ∧
     (∀ l < 32, t.w.lpc.get l = if inMask w.clause.enabled l then s.readOp d l &&& 0xFFFFFFFC else w.lpc.get l) ∧
     t.w.trap.lpcWritten = if w.trap.tmode && !w.saveRestore then w.trap.lpcWritten ||| w.clause.enabled else w.trap.lpcWritten) ∧
   (may = true → (∀ l < 32, ¬ moves l 0 4) → ∃ t, exec (.syswLstate st d num) s = .next t ∧ kept t ∧ t.mem = s.mem ∧ t.vats = s.vats ∧
     ∀ l < 32, (moves l 1 0 → t.w.lstate.get l = 0 ∧ ∀ j, inMask (t.w.masks.ja.get j) l = false) ∧
       (inMask w.clause.enabled l = false → t.w.lstate.get l = w.lstate.get l)) ∧
   (may = true → w.async = [] → v.trapWarp ≠ some s.cur → ∃ t, exec (.syswLstate st d num) s = .next t ∧ kept t ∧ t.mem = s.mem ∧
     ∀ l < 32, moves l 0 4 → t.w.lstate.get l = 4 ∧ inMask t.w.masks.lmask l = false)) ∧
  (∀ b < 256, n = 0x200 + b → vat (.syswHistbin st d num) { v with hist := v.hist.set b x })

/-- Taking a trap and returning from it (spec/07 R171–R173, R165, R174): TRAP and BKPT at the warp, the vat and the context rung; TRET,
TRET.SKIP and TRET.ESC; the repeats that REP begins (spec/11 R262). A return with REPLAY issues the faulting word again for the lanes of FLM
(R169) that go on; that a return issues it, too, for the lanes which another code left uncommitted is the model's choice (log 38). -/
def Obligations.Traps : Prop := ∀ (s : State) (st : BitVec 2) (b : Code) (count : BitVec 6) (sd sa sb : BitVec 2),
  let w := s.w
  let code := s.l.code
  let c := w.clause
  let trap : Sig := { slot := 0x1F2, stall := st, ok := decide (b ≤ 126) }
  let bkpt : Sig := { slot := 0x1F4, stall := st }
  let takes (mask : Word) (n : BitVec 8) : Bool := if 0x80 ≤ n then mask.getLsbD 0 else mask.getLsbD n.toNat
  let still (t : State) : Prop := t.w.lstate = w.lstate ∧ t.w.lpc = w.lpc ∧ t.w.masks = w.masks ∧ (∀ r, t.w.final r = w.final r)
  let entered (t : State) (rung : BitVec 3) (n : BitVec 8) (info : Word) : Prop := t.w.trap.tmode = true ∧ t.w.trap.tmsk = true ∧
    t.w.trap.trpc = c.pc ∧ t.w.trap.trmask = c.issue ∧ t.w.trap.frec = { s.record s.cur { code := n, flm := c.issue, fpc := c.pc, info := info } with
      rung := rung } ∧ t.mem = s.mem ∧ still t
  let raises (i : Instr) (n : BitVec 8) (info : Word) : Prop :=
    let atWarp : Bool := !w.trap.tmode && w.hdep == 0 && code.tvec != 0 && takes w.trap.tvmask n
    let atVat : Bool := !(w.trap.tmode && w.trap.frec.rung == 1) && code.vvec != 0 && takes s.v.vvmask n
    w.saveRestore = false → w.replay = none → s.v.stop = none →
    (atWarp = true → s.trappedElsewhere s.cur = false → ∃ t, exec i s = .next t ∧ entered t 0 n info ∧ t.vats = s.vats ∧
      ∀ l ∈ lanesOf c.issue, t.w.tlpc.get l = BitVec.ofNat 32 code.tvec) ∧
    (w.trap.tmode = false → s.trappedElsewhere s.cur = true → ∃ t fr, exec i s = .next t ∧ t.v.deferred = s.v.deferred ++ [fr] ∧
      fr.warp = s.cur ∧ fr.record.code = n ∧ fr.record.flm = c.issue ∧ fr.rung = 0 ∧ t.w.vatTrapStop = true ∧ t.w.trap = w.trap ∧
      t.mem = s.mem ∧ still t) ∧
    (atWarp = false → atVat = true → s.v.trapWarp = none → w.masks.lmask ≠ 0 → ∃ t, exec i s = .next t ∧ entered t 1 n info ∧
      t.v = { s.v with trapWarp := some s.cur } ∧ ∀ l ∈ lanesOf w.masks.lmask, t.w.tlpc.get l = BitVec.ofNat 32 code.vvec) ∧
    (atWarp = false → atVat = false → s.trappedElsewhere s.cur = false → s.c.faulted = false → s.c.resetting = false →
      (s.vats.get w.vat).isSome = true → s.v.place ≠ .gone →
      (s.fqRoom s.l.ctx = true → ∃ t, exec i s = .next t ∧ (t.ctx s.l.ctx).faulted = true ∧ t.v.stop = some s.gtime ∧
        ∀ q < 16, ((t.ctx s.l.ctx).queues.get q).err = true ∧ ((t.ctx s.l.ctx).queues.get q).en = false) ∧
      (s.fqRoom s.l.ctx = false → ∃ t fr, exec i s = .next t ∧ (t.ctx s.l.ctx).waiting = s.c.waiting ++ [fr] ∧ fr.code = n ∧
        (t.ctx s.l.ctx).faulted = false ∧ t.w.faultWait = true ∧ t.vats = s.vats ∧ t.mem = s.mem ∧ still t))
  let tret : Sig := { slot := 0x1F3, stall := st, legal := w.trap.tmode }
  let tr := w.trap
  let set (x : Warp) : Lanes := maskWhere (fun l =>
    inMask tr.trmask l && inMask w.masks.lmask l && !inMask tr.lpcWritten l && (w.hdep != 0 || x.lstate.get l == 0))
  let past := set (s.skipPending s.cur tr.frec).w
  let left (t : State) : Prop := t.w.trap.tmode = false ∧ t.w.trap.tmsk = false ∧ t.mem = s.mem ∧ ∀ r, t.w.final r = w.final r
  let len := s.wordLen s.cur tr.clause
  let on := { tr.clause with issue := tr.clause.issue &&& past, enabled := tr.clause.enabled &&& past }
  let behind (t : State) : Prop := left t ∧
    (tr.clause.idx + len ≤ hdrN tr.clause.word → t.w.phase = .word ∧ t.w.clause = { on with idx := on.idx + len }) ∧
    (hdrN tr.clause.word < tr.clause.idx + len → t.w.phase = .boundary ∧ ∀ l ∈ lanesOf on.issue, t.w.modePc l = tr.clause.next)
  let flm := ((if tr.frec.replay then tr.frec.flm else 0) ||| tr.frec.rest) &&& (if tr.frec.replay then set w else past)
  let rep : Sig := { slot := 0x1F8, stall := st, ok := repOk (s.peek s.cur (c.pc + 4)).2 (count.toNat + 1) sd sa sb }
  (s.clear trap = true → raises (.trap st b) (0x80 + b.setWidth 8) (b.setWidth 32)) ∧
  (s.clear bkpt = true → raises (.bkpt st b) 0xFF (b.setWidth 32)) ∧
  (s.clear tret = true → w.saveRestore = false → tr.frec.rung = 0 →
    (past ≠ 0 → tr.clause.rep = none → tr.resume = .after → (tr.frec.replay = false → flm = 0 → ∃ t, exec (.tret st) s = .next t ∧ behind t) ∧
      ∃ t, exec (.tretSkip st) s = .next t ∧ behind t) ∧
    (tr.resume = .after → flm ≠ 0 → (s.locate s.cur tr.trpc flm flm).idx ≠ 0 → ∃ t, exec (.tret st) s = .next t ∧ left t ∧
      t.w.phase = .word ∧ t.w.clause.hdr = s.headerOf s.cur tr.trpc ∧ t.w.clause.issue = flm ∧ t.w.clause.enabled = flm ∧
      t.w.replay = some (tr.clause, .after)) ∧
    (tr.resume ≠ .boundary → code.vvec ≠ 0 → takes s.v.vvmask tr.frec.code = true → s.v.trapWarp = none → w.masks.lmask ≠ 0 →
      ∃ t, exec (.tretEsc st) s = .next t ∧ t.v = { s.v with trapWarp := some s.cur } ∧ t.w.trap.tmode = true ∧
        t.w.trap.frec = { tr.frec with rung := 1 } ∧ t.w.trap.trmask = tr.trmask ∧ t.w.trap.trpc = tr.frec.fpc ∧
        (∀ l ∈ lanesOf w.masks.lmask, t.w.tlpc.get l = BitVec.ofNat 32 code.vvec) ∧ t.mem = s.mem ∧ still t)) ∧
  (s.clear tret = true → w.saveRestore = false → tr.frec.rung = 1 → s.v.deferred = [] →
    w.wpark = true ∨ w.masks.lmask = 0 ∨ w.lanesIn 1 ≠ w.masks.lmask →
    ∃ t, exec (.tret st) s = .next t ∧ left t ∧ t.v.trapWarp = none ∧ ∀ k ∈ warpKeys w.vat s.v, (t.warp k).vatTrapStop = false) ∧
  (s.clear rep = true → w.replay = none → c.rep = none → c.idx + 1 ≤ hdrN c.word → ∃ t, exec (.rep st count sd sa sb) s = .next t ∧ s.OnlyWarp t ∧
    t.w.rest = w.rest ∧ t.w.masks = w.masks ∧ t.w.phase = .word ∧ (∀ r, t.w.final r = w.final r) ∧
    t.w.clause = { c with idx := c.idx + 1, rep := some { repc := BitVec.ofNat 7 (count.toNat + 1), j := 0, sd := sd, sa := sa, sb := sb } })

/-- Timeouts (spec/07 R164, R182, R395, spec/05 R132, spec/04 R107, spec/06 R140, R145, R150, R157): each passes by before its time, and
raises its fault at the vat rung, in the lowest-numbered warp that waits for the same, when its time has come; a rung's own
timeout passes SERVICE_TIMEOUT on with the code of the first fault; the firmware's faults the partition; an access that no route answers
(spec/03 R61; log 92), and 2 ms of SAVE or RESTORE, fault the context, at once or when its fault queue has room (R175). FPC and FLM of a warp
that is parked before its instruction are R396's; the INFO of BARRIER_TIMEOUT, to which R168 gives no meaning, is the model's choice: 0 for a
stage park, the ring for a slot park (log 98). A warp within a clause takes a barrier's fault at the clause's boundary (R171). -/
def Obligations.Timeouts : Prop := ∀ (s : State) (k : Nat),
  let w := s.warp k
  let v := s.vat w.vat
  let code := (s.lot v.lot).code
  let takes (c : Nat) : Bool := v.vvmask.getLsbD c
  let vatTrap (i : Instr) (fr : FaultRecord) : Prop := ∃ t, exec i s = .next t ∧ (t.vat w.vat).trapWarp = some k ∧
    (t.warp k).trap.tmode = true ∧ (t.warp k).trap.frec = fr ∧ (t.warp k).hold = .free ∧
    (∀ l ∈ lanesOf w.masks.lmask, (t.warp k).tlpc.get l = BitVec.ofNat 32 code.vvec) ∧
    (t.warp k).lstate = w.lstate ∧ (∀ r, (t.warp k).final r = w.final r) ∧ t.mem = s.mem
  let rec1 (c : BitVec 8) (flm : Lanes) (fpc info : Word) : FaultRecord :=
    { s.record k { code := c, flm := flm, fpc := fpc, info := info } with rung := 1 }
  let first (p : Warp → Bool) : Prop := k ∈ warpKeys w.vat v ∧ ∀ j ∈ warpKeys w.vat v, j < k → (s.warp j).onCore = false ∨ p (s.warp j) = false
  let mayTrap (c : Nat) : Prop := code.vvec ≠ 0 ∧ takes c = true ∧ v.trapWarp = none ∧ w.saveRestore = false ∧ w.masks.lmask ≠ 0 ∧ v.stop = none ∧
    (w.trap.tmode && w.trap.frec.rung == 1) = false ∧ w.onCore = true
  let waits (x : Warp) : Lanes := x.lanesIn 2
  let parks (i : Instr) (p : Hold → Bool) (c : BitVec 8) (info : Word) : Prop := p w.hold = true →
    (s.gtime < w.holdSince + 200000 → exec i s = .next s) ∧
    (w.holdSince + 200000 ≤ s.gtime → first (fun x => p x.hold) → mayTrap c.toNat → vatTrap i (rec1 c w.clause.enabled w.clause.pc info))
  let faulted (t : State) (c : Nat) : Prop := (t.ctx c).faulted = true
  let ctx := (s.lot v.lot).ctx
  let first' := if w.trap.frec.origin = 0 then w.trap.frec.code else w.trap.frec.origin
  (w.trap.tmode = true → w.saveRestore = false → w.serviceWait = false →
    ((w.evict = .requested ∧ w.faultPends = false) ∨ s.gtime < w.trap.offeredAt + rungTimeout w.trap.frec.rung → w.evict = .requested ∨ w.evict = .running →
      exec (.rungServiceTimeout k) s = .next s) ∧
    (w.evict = .running → w.trap.frec.rung = 0 → w.trap.offeredAt + 20000 ≤ s.gtime → mayTrap 0x11 →
      vatTrap (.rungServiceTimeout k) { w.trap.frec with code := 0x11, cause := 0, replay := false, info := first'.setWidth 32,
                                                                origin := first', rung := 1 })) ∧
  (w.trap.tmode = false → w.swapFault.isSome = true → w.serviceWait = false → v.place = .resident → w.evict ≠ .running → w.evict ≠ .restore →
    (s.gtime < w.trap.offeredAt + 2000000 → s.overdueOp k = none → exec (.rungServiceTimeout k) s = .next s) ∧
    (w.trap.offeredAt + 2000000 ≤ s.gtime → ∃ t, exec (.rungServiceTimeout k) s = .next t ∧
      ∀ c x, s.ctxs.get c = some x → x.part = (s.ctx (s.lot v.lot).ctx).part → x.resetting = false → faulted t c)) ∧
  (w.trap.tmode = false → w.swapFault = none → v.stop = none → (s.ctx ctx).resetting = false → ∀ e, s.overdueOp k = some e →
    ∃ t, exec (.rungServiceTimeout k) s = .next t ∧ (faulted t ctx ∨ (t.ctx ctx).waiting ≠ [])) ∧
  ((∀ l ∈ lanesOf (waits w), s.gtime < w.barSince.get l + 200000) → exec (.barrierTimeout k) s = .next s) ∧
  ((∃ l ∈ lanesOf (waits w), w.barSince.get l + 200000 ≤ s.gtime) → first (fun x => waits x != 0) → mayTrap 0x10 →
    let fr := rec1 0x10 (waits w) (w.waitPc.get ((lowest (waits w)).getD 0)) 0
    (w.phase ≠ .word → vatTrap (.barrierTimeout k) fr) ∧
    (w.phase = .word → w.hold = .free → ∃ t, exec (.barrierTimeout k) s = .next t ∧ (t.warp k).async = w.async ++ [fr] ∧
      (t.warp k).clause = w.clause ∧ (t.warp k).phase = .word ∧ t.vats = s.vats ∧ t.mem = s.mem)) ∧
  parks (.stageParkTimeout k) (fun h => h == .parked .stgnext || h == .parked .stgwl) 0x10 0 ∧
  (∀ r, parks (.slotParkTimeout k) (fun h => h == .parked (.slot r)) 0x10 (BitVec.ofNat 32 r)) ∧
  parks (.presenceTimeout k) (fun h => h == .parked .presence) 0x11 0 ∧
  (∀ e, parks (.secfgParkTimeout k) (fun h => h == .parked (.secfg e)) 0x11 (BitVec.ofNat 32 e)) ∧
  (∀ m, parks (.acqaWaitTimeout k) (fun h => h == .parked (.acqa m)) 0x11 0) ∧
  (v.stop = none → exec (.vatStopForce k) s = .next s) ∧
  (∀ t0, v.stop = some t0 → (s.gtime < t0 + 2000000 → exec (.vatStopForce k) s = .next s) ∧
    (t0 + 2000000 ≤ s.gtime → exec (.vatStopForce k) s = .next (s.setWarp k { w with stopped := true, hold := .free }))) ∧
  (w.saveRestore = false →
    (w.evict ≠ .requested ∨ w.trap.tmode = false ∨ w.faultPends = true ∨ w.phase = .word ∨ s.gtime < w.trap.offeredAt + rungTimeout w.trap.frec.rung →
      exec (.evictForce k) s = .next s) ∧
    (w.evict = .requested → w.trap.tmode = true → w.faultPends = false → w.phase ≠ .word → w.trap.offeredAt + rungTimeout w.trap.frec.rung ≤ s.gtime →
      ∃ t, exec (.evictForce k) s = .next t ∧ t = s.setWarp k (t.warp k) ∧ (t.warp k).evict = .drain ∧ (t.warp k).trap = w.trap ∧
        (t.warp k).masks = w.masks ∧ ∀ r, (t.warp k).final r = w.final r)) ∧
  (w.evict = .save ∨ (w.evict = .restore ∧ w.trap.rmode = true) → w.faultWait = false →
    (s.gtime < w.modeAt + 2000000 → exec (.saveRestoreTimeout k) s = .next s) ∧
    (w.modeAt + 2000000 ≤ s.gtime → v.stop = none → (s.ctx ctx).resetting = false →
      ∃ t, exec (.saveRestoreTimeout k) s = .next t ∧ (faulted t ctx ∨ (t.ctx ctx).waiting ≠ [])))

/-- Eviction (spec/07 R179–R185): a control block brings a warp back as it stood; SAVEW stores it, SAVEW.DONE frees the warp, RESTW
loads a block that passes its checks; a drained warp enters save mode, a saved vat returns in restore mode. Choices of the model: the block
holds WSET without exited lanes (log 18), ALIGN of SAVEW and RESTW names every enabled lane (log 15), SAVEW stores as .G (log 37), and a warp
whose image has outgrown the save area runs on (log 108). -/
def Obligations.SaveRestore : Prop := ∀ (s : State) (st : BitVec 2) (a : Code) (k vat : Nat),
  let va := s.readPair a 0
  let savew : Sig := { slot := 0x1F5, stall := st, ok := kPair a, dst := false, uses := [(a, 2)], legal := true }
  let done : Sig := { slot := 0x1F5, stall := st, legal := s.w.trap.smode }
  let restw : Sig := { slot := 0x1F6, stall := st, ok := kPair a, dst := false, uses := [(a, 2)], legal := s.w.trap.rmode }
  let kept (t : State) : Prop := ∀ c, t.w.final c = s.w.final c
  let w := s.warp k
  let x (w0 : Warp) := w0.loadBlock (s.controlBlock k)
  let v := s.vat vat
  let ks := warpKeys vat v
  (∀ w0, (s.controlBlock k).length = 2048 ∧
    (x w0).hdep = w.hdep ∧ (x w0).sgact = w.sgact ∧ (x w0).wpark = w.wpark ∧ (x w0).vwb = w.vwb ∧
    (x w0).masks.amask = w.masks.amask ∧ (x w0).masks.lmask = w.masks.lmask ∧ (x w0).masks.ham1 = w.masks.ham1 ∧
    (x w0).masks.ham2 = w.masks.ham2 ∧ (x w0).masks.wset = w.masks.wset &&& w.masks.lmask ∧ (x w0).masks.arrl = w.masks.arrl ∧
    (x w0).masks.sggrp = w.masks.sggrp ∧ (x w0).masks.blmask = w.masks.blmask ∧
    (∀ j < 8, (x w0).masks.jm.get j = w.masks.jm.get j ∧ (x w0).masks.ja.get j = w.masks.ja.get j) ∧
    (x w0).ev1 = { w.ev1 with evrec := w.ev1.evrec &&& 0xF3F } ∧ (x w0).ev2 = { w.ev2 with evrec := w.ev2.evrec &&& 0xF3F } ∧
    (x w0).dhv = w.dhv &&& 0xFFFFFE01 ∧ (x w0).sgcfg = w.sgcfg ∧ (x w0).dcerr = w.dcerr ∧
    (x w0).fstat = w.fstat &&& 0x1F ∧ (w.sgcnt &&& 0xFFFF0000 = 0 → (x w0).sgcnt = w.sgcnt ∧ (x w0).sgrem = w.sgrem) ∧
    (x w0).trap.tmode = w.trap.tmode ∧ (x w0).trap.tmsk = w.trap.tmsk ∧ (x w0).trap.trpc = w.trap.trpc ∧
    (x w0).trap.trmask = w.trap.trmask ∧ (x w0).trap.tvmask = w.trap.tvmask ∧ (w.trap.tmode = true → (x w0).trap.frec = { w.trap.frec with
      origin := w0.trap.frec.origin, claim := w0.trap.frec.claim, rest := w0.trap.frec.rest }) ∧
    (∀ l < 32, (x w0).lpc.get l = w.lpc.get l ∧ (x w0).hpc1.get l = w.hpc1.get l ∧ (x w0).hpc2.get l = w.hpc2.get l ∧
      (x w0).tlpc.get l = w.tlpc.get l ∧ (x w0).pkage.get l = w.pkage.get l ∧ (x w0).lstate.get l = w.lstate.get l) ∧
    (∀ i < 4, (x w0).regs.get (cellKn (28 + i)) = w.readCell (cellKn (28 + i)) ∧
      ∀ b, 1 ≤ b → b ≤ 3 → (x w0).regs.get (cellKb b i) = w.readCell (cellKb b i)) ∧
    (∀ l < 32, ∀ i < 4, ∀ d, d = 1 ∨ d = 2 → (x w0).regs.get (cellHv d i l) = w.readCell (cellHv d i l))) ∧
  (s.clear savew = true →
    (va.toNat % 2048 ≠ 0 → exec (.savew st a) s = .next (s.raiseLanes 0x0A s.w.clause.enabled 0 va 0)) ∧
    (va.toNat % 2048 = 0 → s.countFull .st = false → s.acquiring = false → s.w.saveRestore = true →
      (inWindow va = true → windowOff va + 2048 ≤ 1024 * s.v.scr → ∃ t, exec (.savew st a) s = .next t ∧ kept t ∧ t.mem = s.mem ∧
        (∀ i < 2048, t.v.scratch.get (windowOff va + i) = (s.controlBlock s.cur).getD i 0) ∧
        (∀ q, q < windowOff va ∨ windowOff va + 2048 ≤ q → t.v.scratch.get q = s.v.scratch.get q) ∧
        (t.op s.nextOp).map (fun o => (o.work, o.cls, o.warp)) = some (.done, .st, s.cur)) ∧
      (∀ ps, inWindow va = false → (s.writePieces s.w.core s.l.ctx 40 (rangePieces va 2048) []).2 = .ok ps → ∃ t, exec (.savew st a) s = .next t ∧ kept t ∧
        t.mem = s.mem ∧ (t.op s.nextOp).map (fun o => (o.work, o.cls, o.warp)) =
          some (.store true (layBytes ps (s.controlBlock s.cur)), .st, s.cur)))) ∧
  (s.clear done = true → (s.opsOf s.cur ≠ [] → exec (.savewDone st) s = .next s.stall) ∧
    (s.opsOf s.cur = [] → s.v.stop ≠ none → ∃ t, exec (.savewDone st) s = .next t ∧ t.w.stopped = true ∧ t.w.evict = s.w.evict ∧
      t.vats = s.vats ∧ t.mem = s.mem) ∧
    (s.opsOf s.cur = [] → s.v.stop = none → ∃ t, exec (.savewDone st) s = .next t ∧ t.w.evict = .saved ∧ t.w.resident = false ∧ t.w.trap.smode = false ∧
      t.w.masks = s.w.masks ∧ t.w.lpc = s.w.lpc ∧ t.mem = s.mem)) ∧
  (s.clear restw = true →
    (va.toNat % 2048 ≠ 0 → exec (.restw st a) s = .next (s.raiseLanes 0x0A s.w.clause.enabled 0 va 0)) ∧
    (∀ bs, va.toNat % 2048 = 0 → s.imageWaits va 2048 = false → s.rangeAbsent va 2048 = false → (s.readImage va 2048).2 = .ok bs →
      (blockOk bs = false → exec (.restw st a) s = .next ((s.readImage va 2048).1.raiseHere 0x03 0)) ∧
      (blockOk bs = true → s.v.imageWhole = false → s.w.swapFault = none → s.w.away = 0 → s.v.deferred = [] → ∃ t, exec (.restw st a) s = .next t ∧ t.mem = s.mem ∧
        t.w.evict = .running ∧ t.w.trap.rmode = false ∧ t.w.masks.amask = blk bs 0x08 ∧ t.w.masks.lmask = blk bs 0x0C ∧ t.opsOf s.cur = [] ∧
        ∀ l < 32, t.w.lpc.get l = blk bs (0x178 + 4 * l)))) ∧
  (w.evict ≠ .requested → w.evict ≠ .drain ∨ s.count k .ld ≠ 0 ∨ s.count k .st ≠ 0 ∨ s.count k .at ≠ 0 ∨ w.lanesIn 3 ≠ 0 →
    exec (.warpDrainDone k) s = .next s) ∧
  (let sized := (s.setWarp k { w with evict := .save, modeAt := s.gtime }).resizeImage w.vat
   let y := s.vat w.vat
   let l := s.lot y.lot
   w.evict = .drain → s.count k .ld = 0 → s.count k .st = 0 → s.count k .at = 0 → w.lanesIn 3 = 0 → y.imageWhole = false →
   (∀ o, sized = none → w.outside = some o → ∃ t, exec (.warpDrainDone k) s = .next t ∧ (t.warp k).evict = .running ∧
     (t.warp k).clause = o.clause ∧ t.mem = s.mem ∧ ∀ r, (t.warp k).final r = w.final r) ∧
   ∀ u, sized = some u → (u.saveHeader l.ctx).2 = none →
   ((u.saveHeader l.ctx).1.agentWrites l.ctx [(u.imageVa w.vat, (u.saveHeader l.ctx).1.imageHeader w.vat),
     (u.imageVa w.vat + BitVec.ofNat 64 (0x800 + 2048 * w.num), (u.saveHeader l.ctx).1.controlBlock k)]).2 = none →
   ∃ t, exec (.warpDrainDone k) s = .next t ∧ (t.warp k).evict = .save ∧ (t.warp k).trap.smode = true ∧ (t.warp k).trap.rmode = false ∧
     (∀ n < 32, (t.warp k).mpc.get n = BitVec.ofNat 32 l.code.svec) ∧ (t.warp k).masks = w.masks ∧ (t.warp k).lpc = w.lpc ∧
     (t.warp k).readCell (cellKb 4 0) = (u.imageVa w.vat).extractLsb' 0 32 ∧ (t.warp k).readCell (cellKb 4 1) = BitVec.ofNat 32 w.num ∧
     (t.warp k).readCell (cellKb 4 2) = 0 ∧ (t.warp k).readCell (cellKb 4 3) = w.evictReason.setWidth 32) ∧
  (s.mayReturn vat = false → s.mayReturnPart vat = false → exec (.vatRestorePlace vat) s = .next s) ∧
  (s.returnWaits vat = true → exec (.vatRestorePlace vat) s = .next s) ∧
  ((s.vats.get vat).isSome = true → s.returnWaits vat = false → s.mayReturn vat = true → ∀ core subs, s.placeFor v.lot v.need = some (core, subs) →
    ((s.restoreFault vat).2 ≠ .ok none → (s.restoreFault vat).2 ≠ .error .held → ∃ t, exec (.vatRestorePlace vat) s = .next t ∧
      ((t.ctx (s.lot v.lot).ctx).faulted = true ∨ (t.ctx (s.lot v.lot).ctx).waiting ≠ [])) ∧
    ((s.restoreFault vat).2 = .ok none → (∀ i ∈ ks, (s.warp i).vat = vat) → ∃ t, exec (.vatRestorePlace vat) s = .next t ∧ t.mem = s.mem ∧
      (t.vat vat).place = .resident ∧ (t.vat vat).core = core ∧ (t.vat vat).vvmask = (s.lot v.lot).code.vvm ∧
      ∀ i ∈ ks, (t.warp i).resident = true ∧ (t.warp i).core = core ∧ (t.warp i).evict = .restore ∧ (t.warp i).trap.rmode = true ∧
        (t.warp i).masks = (s.warp i).masks ∧ ∀ n < 32, (t.warp i).mpc.get n = BitVec.ofNat 32 (s.lot v.lot).code.rvec))

/-! ### Lake engines -/

/-- The words of a Lake program (spec/16 R364, R367, R368 Table 3): what each leaves of the running command, whose PC names the next
word, and the status with which it ends it. Bytes read are those the ranges held at the start, or hold now, or the command's
own output (R371). Exponents that lie in no row or input range (log 100, DESIGN CHOICE) are read as they are now. SYNC waits while its
writes are held for a SILENT die (R31). -/
def Obligations.LakeWords : Prop := ∀ (s : State) (c0 : LakeCommand) (x : LakeEntry) (rest : List LakeEntry) (bs : List Byte) (slot : Word)
    (ea eb n1 : BitVec 4) (imm : BitVec 16) (set l sat : BitVec 1) (mask : BitVec 5) (n7 : BitVec 7),
  let e := s.eng s.curEng
  let r := lakeRec bs
  let c := { c0 with pc := c0.pc + 1 }
  let cmd (y : LakeCommand) : State := s.modEng s.curEng (fun g => { g with run := some y })
  let goes (i : Instr) (y : LakeCommand) : Prop := exec i s = .next (cmd y)
  let ends (i : Instr) (code : BitVec 8) (va : BitVec 64) : Prop :=
    exec i s = .next (cmd { c0 with status := some code, statusPc := c0.pc.setWidth 10, fva := va })
  let accs (i : Instr) (v : Nat → Option Word) (efl : BitVec 5) : Prop :=
    ∃ m, goes i { c with acc := m, efl := efl } ∧ ∀ k, m.get k = (v k).getD (c.acc.get k)
  let float := slIsInt slot = false
  let ored (fs : List (BitVec 5)) : BitVec 5 := fs.foldl (fun f g => f ||| g) c.efl
  let line (e : BitVec 4) (k : Nat) : Bool := decide (16 * e.toNat ≤ k) && decide (k < 16 * e.toNat + 16)
  let own (va : Nat) : Option Byte := c.outputs.foldl (fun r b => if b.key = (c.place va).1 then some b.val else r) none
  let seenAs (inside : Bool) (va : BitVec 64) (b : Byte) : Prop := (c.blocks.get (va.toNat / 256)).isSome = true →
    (inside = true ∧ b = c.before.get va.toNat) ∨ own va.toNat = some b ∨
      ((own va.toNat = none ∨ inside = false) ∧
        b = s.readByte (s.lakeReader s.curEng x.warp) (s.curEng / 96) (c.place va.toNat).1 (c.place va.toNat).2)
  let seen : BitVec 64 → Byte → Prop := seenAs true
  let bad (va : BitVec 64) : Bool := (c.blocks.get (va.toNat / 256)).isSome && s.poisoned (c.place va.toNat).1
  let col := c.cc.toNat
  let row : BitVec 64 := r.rowva + BitVec.ofNat 64 (c.rc.toNat * r.rstr)
  let w := slWidth slot
  let mac (i : Instr) (w : Nat) (kinds : List Nat) : Prop :=
    let n := c.wl.length
    let k0 := c.lcol.toNat * 8 / w
    let a := slotValues slot c.wl
    let a := if slScl slot = 2 then scaleGroups (List.replicate (k0 / 128) 0 ++ c.wx.map BitVec.toInt) k0 a else a
    let b := slotValues slot ((c.ib.drop (c.lcol.toNat - c.ibb.toNat)).take n)
    let scale := if slScl slot = 1 then f32.decode r.scale.toNat else .fin false 1 0
    let lane := 16 * (c.lr.toNat / 16 % 16) + c.lr.toNat % 16
    let y := addGroups (slIsInt slot) (sat == 1) scale ((a.length + 31) / 32) a b (c.acc.get lane).toNat 0
    let suits := slKind slot ∈ kinds ∧ (sat = 1 → slIsInt slot = true)
    let fits := n ≠ 0 ∧ c.lcol.toNat % (4 * w) = 0 ∧ c.ibb.toNat ≤ c.lcol.toNat ∧ c.lcol.toNat + n ≤ c.ibb.toNat + 4096
    (¬ suits → ends i 6 0) ∧ (suits → ¬ fits → ends i 5 0) ∧
    (suits → fits → ∃ m, goes i { c with acc := m, efl := c.efl ||| y.2, wl := [], wx := [] } ∧
      ∀ k, m.get k = if k = lane then BitVec.ofNat 32 y.1 else c.acc.get k)
  e.run = some c0 → e.queue = x :: rest → x.job = .command bs slot → c0.status = none →
  goes .lakeNop c ∧
  ((col % 16 ≠ 0 → ends .xld 5 0) ∧
    (let n := min 4096 (r.inlen - col)
     let at' (i : Nat) : BitVec 64 := r.inva + c.cc.setWidth 64 + BitVec.ofNat 64 i
     col % 16 = 0 → (∀ i < n, bad (at' i) = false) → ∃ ib, goes .xld { c with ibb := c.cc, ib := ib } ∧ ib.length = 4096 ∧
       (∀ i < n, ∃ b, ib[i]? = some b ∧ seen (at' i) b) ∧ ∀ i < 4096, n ≤ i → ib[i]? = some 0)) ∧
  (let n := imm.toNat
   let at' (i : Nat) : BitVec 64 := row + BitVec.ofNat 64 col + BitVec.ofNat 64 i
   (r.nrow ≤ c.rc.toNat ∨ r.rlen < col + n → ends (.rowrd imm) 5 0) ∧
   (c.rc.toNat < r.nrow → col + n ≤ r.rlen → (∀ i < n, bad (at' i) = false) →
     (slScl slot ≠ 2 → ∃ wl, goes (.rowrd imm) { c with wl := wl, wx := [], lr := c.rc, lcol := c.cc } ∧ wl.length = n ∧
       ∀ i < n, ∃ b, wl[i]? = some b ∧ seen (at' i) b) ∧
     (let q0 := col * 8 / w / 128
      let q1 := (col * 8 / w + n * 8 / w - 1) / 128
      let q := q1 + 1 - q0
      let inside (va : BitVec 64) : Bool := decide (r.exoff + q1 < r.rlen) || r.reads va.toNat
      let exp (i : Nat) : BitVec 64 := row + BitVec.ofNat 64 (r.exoff + q0) + BitVec.ofNat 64 i
      slScl slot = 2 → (∀ i < q, bad (exp i) = false) → ∃ wl wx, goes (.rowrd imm) { c with wl := wl, wx := wx, lr := c.rc, lcol := c.cc } ∧
        wl.length = n ∧ wx.length = q ∧ (∀ i < n, ∃ b, wl[i]? = some b ∧ seen (at' i) b) ∧ ∀ i < q, ∃ b, wx[i]? = some b ∧ seenAs (inside (exp i)) (exp i) b)) ∧
   (∀ i < n, c.rc.toNat < r.nrow → col + n ≤ r.rlen → bad (at' i) = true → (∀ j < i, bad (at' j) = false) → ends (.rowrd imm) 9 (at' i))) ∧
  mac (.mac8 sat) 8 [0, 2] ∧ mac (.mac4 sat) 4 [1, 3] ∧ mac (.mach sat) 16 [4, 5] ∧
  (ea.toNat + n1.toNat < 16 → accs (.accz ea n1) (fun k => if 16 * ea.toNat ≤ k ∧ k < 16 * (ea.toNat + n1.toNat + 1) then some 0 else none) c.efl) ∧
  (¬ float → ends (.accsc ea imm) 6 0) ∧
  (float → let y (j : Nat) := f32.mul 0 (c.acc.get (16 * ea.toNat + j)).toNat (word c.ib (imm.toNat + 4 * j))
    accs (.accsc ea imm) (fun k => if line ea k then some (BitVec.ofNat 32 (y (k % 16)).1) else none) (ored ((List.range 16).map (fun j => (y j).2)))) ∧
  (float → let y (j : Nat) := f32.add 0 (c.acc.get (16 * ea.toNat + j)).toNat (c.acc.get (16 * eb.toNat + j)).toNat
    accs (.accadd ea eb) (fun k => if line ea k then some (BitVec.ofNat 32 (y (k % 16)).1) else none) (ored ((List.range 16).map (fun j => (y j).2)))) ∧
  (¬ float → accs (.accadd ea eb) (fun k => if line ea k then some (c.acc.get k + c.acc.get (16 * eb.toNat + k % 16)) else none) c.efl) ∧
  (ea.toNat + n1.toNat < 16 → (r.olen < c.oc.toNat + 64 * (n1.toNat + 1) → ends (.outw ea n1) 5 0) ∧
    (c.oc.toNat + 64 * (n1.toNat + 1) ≤ r.olen → ∃ out, goes (.outw ea n1) { c with
        outputs := c.outputs ++ out, oc := c.oc + BitVec.ofNat 32 (64 * (n1.toNat + 1)) } ∧ out.length = 64 * (n1.toNat + 1) ∧
      ∀ i < 64 * (n1.toNat + 1), out[i]? = some (let p := c.place ((r.outva + c.oc.setWidth 64).toNat + i)
        { key := p.1, val := (c.acc.get (16 * ea.toNat + i / 4) >>> (8 * (i % 4))).setWidth 8, slot := p.2 }))) ∧
  goes (.rcadd set imm) { c with rc := if set = 1 then imm.setWidth 32 else c.rc + imm.signExtend 32 } ∧
  goes (.ccadd set imm) { c with cc := if set = 1 then imm.setWidth 32 else c.cc + imm.signExtend 32 } ∧
  (let n : Word := if imm = 0 then BitVec.ofNat 32 r.nrow else imm.setWidth 32
   (l = 0 → goes (.loop l imm) { c with lc0 := n, ls0 := c.pc.setWidth 10 }) ∧
   (l = 1 → goes (.loop l imm) { c with lc1 := n, ls1 := c.pc.setWidth 10 })) ∧
  ((l = 0 → (c.lc0 = 0 → ends (.lend l) 7 0) ∧ (c.lc0 = 1 → goes (.lend l) { c with lc0 := 0 }) ∧
      (2 ≤ c.lc0.toNat → goes (.lend l) { c with lc0 := c.lc0 - 1, pc := c.ls0.setWidth 11 })) ∧
    (l = 1 → (c.lc1 = 0 → ends (.lend l) 7 0) ∧ (c.lc1 = 1 → goes (.lend l) { c with lc1 := 0 }) ∧
      (2 ≤ c.lc1.toNat → goes (.lend l) { c with lc1 := c.lc1 - 1, pc := c.ls1.setWidth 11 }))) ∧
  (s.outputsHeld s.curEng = true → exec .lakeSync s = .next s) ∧
  (s.outputsHeld s.curEng = false → ∃ t m, exec .lakeSync s = .next t ∧ t.mem = (s.performG c.outputs).mem ∧
    (t.eng s.curEng).run = some { c with outputs := [], before := m }) ∧
  goes (.flagsC mask) { c with efl := c.efl &&& ~~~ mask } ∧
  (¬ float → accs (.flagsR ea) (fun k => if line ea k then some (c.efl.setWidth 32) else none) c.efl) ∧
  (float → accs (.flagsR ea) (fun k => if line ea k then some (BitVec.ofNat 32 (f32.round 0 (.fin false c.efl.toNat 0)).1) else none) c.efl) ∧
  ends (.trapl n7) (0x80 + n7.setWidth 8) 0 ∧ ends .halt 0 0

/-- Lake operations (spec/14 R344–R347, spec/16 R366, R369, R370, spec/08 R212, R214): BKPROG, BKLAUNCH and BKFENCE; a program load and a
command taken in arrival order, a command behind the warp's earlier stores and atomics, toward which BKLAUNCH is a release (R213); the 10 ms limit, which comes after what the word at PC ends the command with (R373); the end
of a command, with its status, its flags and its fault, which waits while a SILENT die holds its writes or its report (R31). -/
def Obligations.LakeCommands : Prop := ∀ (s : State) (st : BitVec 2) (a b c : Code) (fs : BitVec 3) (eng : Nat),
  let va := s.readPair a 0
  let prog : Sig := { slot := 0x1C0, stall := st, ok := kPair a && isK b && isK c, dst := false, uses := [(a, 2), (b, 1), (c, 1)] }
  let launch : Sig := { slot := 0x1C1, stall := st, ok := kPair a && isK b, dst := false, uses := [(a, 2), (b, 1)] }
  let fence : Sig := { slot := 0x1C2, stall := st }
  let x := s.readK c
  let n := (x.extractLsb' 0 11).toNat
  let first := (x.extractLsb' 16 10).toNat
  let fits := n ≠ 0 ∧ first + n ≤ 1024 ∧ x &&& 0xFC00F800 = 0
  let names (ch d : Nat) : Prop := (s.readK b).toNat = 256 * d + ch ∧ ch < 96 ∧ d ∈ (s.part s.c.part).ldt
  let issues (i : Instr) (align len : Nat) (behind : List Nat) (job : List Byte → LakeJob) : Prop := ∀ ch d, names ch d → d < 4 →
    (va.toNat % align ≠ 0 → exec i s = .next (s.raiseOnce 0x0A 0 va)) ∧
    (va.toNat % align = 0 → s.dieGone d = true → exec i s = .next ((s.touch s.l.ctx (dieBit d)).raiseMiss (.lost d 0))) ∧
    (∀ bs, va.toNat % align = 0 → s.dieGone d = false → s.badWindow va len = false → s.countFull .bk = false → s.imageWaits va len = false →
      s.rangeAbsent va len = false → (s.readImage va len).2 = .ok bs → ∃ t o, exec i s = .next t ∧ t.mem = s.mem ∧
        (∀ r, t.w.final r = s.w.final r) ∧ (t.ctx s.l.ctx).tdmask.getLsbD d = true ∧
        (t.eng (96 * d + ch)).queue = (s.eng (96 * d + ch)).queue ++
          [{ job := job bs, op := s.nextOp, warp := s.cur, ctx := s.l.ctx, after := s.lakeAfter ++ behind }] ∧
        t.op s.nextOp = some o ∧ o.cls = .bk ∧ o.warp = s.cur ∧ o.fpc = s.w.clause.pc ∧ o.lanes = s.w.clause.enabled)
  let e := s.eng eng
  let starts := s.lakeStarts eng e
  let setRun (u : State) (y : LakeCommand) : State := u.modEng eng (fun g => { g with run := some y })
  (s.clear prog = true →
    (¬ fits ∨ (∀ ch d, ¬ names ch d) → exec (.bkprog st a b c) s = .next (s.raiseHere 0x03 0)) ∧
    (fits → issues (.bkprog st a b c) 4 (4 * n) [] (fun bs => .program first ((List.range n).map (fun i => BitVec.ofNat 32 (word bs (4 * i))))))) ∧
  (s.clear launch = true →
    ((∀ ch d, ¬ names ch d) → exec (.bklaunch st a b fs) s = .next (s.raiseHere 0x03 0)) ∧
    issues (.bklaunch st a b fs) 64 64 s.lakeBehind (fun bs => .command bs (s.l.record.fslot.get fs.toNat))) ∧
  (s.clear fence = true → ∃ t, exec (.bkfence st) s = .next t ∧ s.OnlyWarp t ∧ { s.w with bkfence := t.w.bkfence }.Issued t.w 0 ∧
    (∀ r, t.w.final r = s.w.final r) ∧
    ∀ m, m ∈ t.w.bkfence ↔ (∃ o, s.op m = some o ∧ o.complete = false ∧ m ∈ s.w.bkfence) ∨
      ∃ o eng, (m, o) ∈ s.opsOf s.cur ∧ o.work = .lake eng true ∧ o.complete = false) ∧
  (starts = false → exec (.lakeProgramLoad eng) s = .next s ∧ exec (.lakeCommandStart eng) s = .next s) ∧
  (∀ y rest, starts = true → e.queue = y :: rest →
    (∀ first ws o, y.job = .program first ws → s.op y.op = some o → o.warp = y.warp → (s.warp y.warp).masks.lmask ≠ 0 → s.ops.wf = true →
      ∃ t, exec (.lakeProgramLoad eng) s = .next t ∧ t.mem = s.mem ∧ (t.eng eng).queue = rest ∧ (t.eng eng).run = none ∧
        (∀ k, (t.eng eng).program.get k = if first ≤ k ∧ k < first + ws.length then (ws[k - first]?).map (fun w => (y.ctx, w)) else e.program.get k) ∧
        ∀ o, t.op y.op = some o → o.complete = true) ∧
    (∀ bs slot, y.job = .command bs slot →
      let r := lakeRec bs
      let z := s.lakeBlocks eng y.ctx r
      let fresh : LakeCommand := { (default : LakeCommand) with pc := r.entry.setWidth 11, startedAt := s.gtime, ib := List.replicate 4096 0 }
      (r.invalid slot = true → exec (.lakeCommandStart eng) s = .next (setRun s { fresh with status := some 1, statusPc := r.entry })) ∧
      (r.invalid slot = false → z.held = true → exec (.lakeCommandStart eng) s = .next z.s) ∧
      (∀ code va, r.invalid slot = false → z.held = false → z.fail = some (code, va) →
        exec (.lakeCommandStart eng) s = .next (setRun z.s { fresh with status := some code, statusPc := r.entry, fva := va })) ∧
      (r.invalid slot = false → z.fail = none → z.s.ackSilent (eng / 96) ({ fresh with blocks := z.blocks }.outKeys r) = false → ∃ t m, exec (.lakeCommandStart eng) s = .next t ∧ t.mem = s.mem ∧ t.warps = s.warps ∧
        (t.eng eng).run = some { fresh with blocks := z.blocks, before := m } ∧ (t.eng eng).queue = e.queue))) ∧
  (e.run = none → exec (.lakeTimeout eng) s = .next s) ∧
  (∀ y, e.run = some y →
    (y.status ≠ none ∨ s.gtime < y.startedAt + 10000000 → exec (.lakeTimeout eng) s = .next s) ∧
    (y.status = none → y.startedAt + 10000000 ≤ s.gtime →
      let u : State := { s with curEng := eng }
      let ended (v : State) : Prop := ((v.eng eng).run.bind (fun y => y.status)).isSome = true
      let late : Prop := exec (.lakeTimeout eng) s = .next (setRun s { y with status := some 0x0A, statusPc := y.pc.setWidth 10 })
      (∀ i v, u.fetchLake = some i → exec i u = .next v → (ended v → exec (.lakeTimeout eng) s = .next v) ∧ (¬ ended v → late)) ∧
      (∀ z rest bs slot, u.fetchLake = none → e.queue = z :: rest → z.job = .command bs slot →
        exec (.lakeTimeout eng) s = .next (setRun u { y with status := some 4, statusPc := y.pc.setWidth 10 })))) ∧
  (∀ y z rest code, e.run = some y → e.queue = z :: rest → y.status = some code → s.lakeHeldFor eng y.outputs z.warp = true →
    exec (.lakeCommandEnd eng) s = .next s) ∧
  (∀ y z rest code o, e.run = some y → e.queue = z :: rest → y.status = some code → s.op z.op = some o → o.warp = z.warp → o.owed = 0 →
    (s.opsOf z.warp).filter (fun q => decide (q.2.cls = .bk)) = [(z.op, o)] →
    let w := s.warp z.warp
    let word : Word := (0 : BitVec 3) ++ BitVec.ofNat 2 (eng / 96) ++ BitVec.ofNat 7 (eng % 96) ++ (0 : BitVec 2) ++ y.statusPc ++ code
    eng < 384 → s.lakeHeldFor eng y.outputs z.warp = false → w.masks.lmask ≠ 0 → (s.vat w.vat).stop = none → ∃ t, exec (.lakeCommandEnd eng) s = .next t ∧ t.mem = (s.performG y.outputs).mem ∧
      (t.eng eng).queue = rest ∧ (t.eng eng).run = none ∧ t.count z.warp .bk = 0 ∧
      (t.warp z.warp).fstat = (if code = 0x0B then w.fstat else w.fstat ||| y.efl.setWidth 32) ∧
      (t.warp z.warp).lkstat = (if code = 0 ∨ code = 0x0B then w.lkstat else word) ∧
      (t.warp z.warp).async = w.async ++ (if code = 0 ∨ code = 0x0B then [] else
        [s.record z.warp { code := if code = 9 then 0x0B else 0x0F, flm := lowestMask o.lanes, fpc := o.fpc, info := word, fva := y.fva }]))

/-! ### From a queue to a core -/

/-- Submission queues, lot acceptance and gates (spec/03 R62–R66): a doorbell, the enable, the record taken at RI, where it has changed
since its doorbell each 64 bytes of it old or new (R63), with its checks; the start semaphore, the fence. The model's choices in it: EN written
1 while it is 1 leaves RI, and a doorbell overflows a ring with EN = 0 too (log 50, DEDUCED); old is what the record held at the doorbell that
first covered it (log 51, DEDUCED); a slot word of zeros is unassigned by R226 (log 66, DEDUCED). -/
def Obligations.LotAcceptance : Prop := ∀ (s : State) (ctx q lot : Nat) (wi : Word),
  let c := s.ctx ctx
  let d := c.queues.get q
  let withQueue (u : State) (f : Queue → Queue) : State := u.modCtx ctx (fun c => { c with queues := c.queues.modify q f })
  let here : Bool := (s.hub.devst == .ready) && (s.ctxs.get ctx).isSome && decide (q < 16)
  let now := s.physRead c.part (d.base.toNat * 4096 + 256 * (d.ri.toNat % 2 ^ (d.log2n.toNat + 4))) 256
  let noted := d.shots.get d.ri.toNat
  let bs := s.takeRecord ctx q
  let taken := d.shots.set d.ri.toNat []
  let r := lotRecord bs
  let u := withQueue s (fun d => { d with ri := d.ri + 1, shots := d.shots.set d.ri.toNat [] })
  let x := u.launchXlat ctx r.cplva .write 400
  let k := x.1.checkLot ctx r bs
  let idle := (s.ctxs.get ctx).isNone = true ∨ d.en = false ∨ d.ri = d.wi ∨ c.faulted = true ∨ c.resetting = true ∨ s.gatedLot ctx q = true ∨
    s.physHeld c.part (d.base.toNat * 4096 + 256 * (d.ri.toNat % 2 ^ (d.log2n.toNat + 4))) 256 = true
  let l := s.lot lot
  -- DETAIL 1 to 5
  let shape : BitVec 8 := if r.ver ≠ 1 then 1 else if reservedClear bs = false then 2 else if r.nvec + r.nmat = 0 ∨ 32 < r.nvec + r.nmat then 3
    else if 256 < r.scr ∨ 256 < r.acc ∨ (r.nmat = 1 ∧ r.acc = 0) then 4
    else if r.gx = 0 ∨ r.gy = 0 ∨ r.gz = 0 ∨ 2 ^ 32 < r.gx * r.gy * r.gz then 5 else 0
  let code := x.1.loadCode ctx r
  -- the record stands in its queue while a read or a walk waits for a SILENT die (spec/01 R31)
  let stands : Prop := ∃ t, exec (.lotAccept ctx q) s = .next t ∧ t.nextLot = s.nextLot ∧
    (t.ctx ctx).queues.get q = { d with err := ((t.ctx ctx).queues.get q).err, en := ((t.ctx ctx).queues.get q).en } ∧
    ((t.ctx ctx).faulted = false → (t.ctx ctx).queues.get q = d)
  -- an error of the queue: the record is discarded
  let discards : Prop := ∃ t, exec (.lotAccept ctx q) s = .next t ∧ t.lots = s.lots ∧ t.mem = s.mem ∧
      (t.ctx ctx).queues.get q = { d with ri := d.ri + 1, shots := taken, err := true, en := false } ∧
      t.hub.irqs = s.hub.irqs ++ (if r.flags.getLsbD 6 then [(c.part, r.irqv.toNat)] else [])
  (here = false → exec (.sqDoorbell ctx q wi) s = .next s ∧ exec (.sqEnable ctx q) s = .next s) ∧
  (here = true →
    exec (.sqDoorbell ctx q wi) s = .next ((withQueue s (fun d =>
      if 2 ^ (d.log2n.toNat + 4) < (wi - d.ri).toNat then { d with wi := wi, err := true, en := false } else { d with wi := wi })).coverRecords ctx q) ∧
    exec (.sqEnable ctx q) s = .next (withQueue s (fun d => if d.en then d else { d with en := true, ri := d.wi, shots := [] }))) ∧
  (noted = [] ∨ noted = now → bs = now) ∧
  (∀ i < 4, (bs.drop (64 * i)).take 64 = (now.drop (64 * i)).take 64 ∨
    (noted.length = 256 → (bs.drop (64 * i)).take 64 = (noted.drop (64 * i)).take 64)) ∧
  (idle → exec (.lotAccept ctx q) s = .next s) ∧
  (¬ idle →
    (r.cplva.toNat % 128 ≠ 0 → discards) ∧
    (∀ code cause, r.cplva.toNat % 128 = 0 → x.2 = .fault code cause → discards) ∧
    (r.cplva.toNat % 128 = 0 → x.2 = .held → stands) ∧
    (r.cplva.toNat % 128 = 0 → (∃ pa slot h, x.2 = .ok pa slot h) →
      (k.2 = none → stands) ∧ ∀ e, k.2 = some e →
      (e.1 = 0 → k.1.tooLarge ctx r = false → ∃ t, exec (.lotAccept ctx q) s = .next t ∧ t.mem = s.mem ∧ t.nextLot = s.nextLot + 1 ∧
        (t.lot s.nextLot).phase = .gated ∧ (t.lot s.nextLot).status = 0 ∧ (t.lot s.nextLot).record = r ∧ (t.lot s.nextLot).ctx = ctx ∧
        (t.lot s.nextLot).queue = q ∧ (t.lot s.nextLot).qseq = d.ri ∧ (t.lot s.nextLot).tacc = s.gtime ∧
        (t.ctx ctx).queues.get q = { d with ri := d.ri + 1, shots := taken }) ∧
      (e.1 ≠ 0 ∨ k.1.tooLarge ctx r = true → ∃ t, exec (.lotAccept ctx q) s = .next t ∧ t.nextLot = s.nextLot + 1 ∧
        (t.lot s.nextLot).phase = .complete ∧ (t.lot s.nextLot).detail = e.1 ∧ (t.lot s.nextLot).status = (if e.1 ≠ 0 then 3 else 4)))) ∧
  (shape ≠ 0 → ∃ h, k.2 = some (shape, h)) ∧
  (shape = 0 → (r.flags.getLsbD 5 = true → r.semva.toNat % 8 ≠ 0 → r.flags.getLsbD 4 = false → ∃ h, k.2 = some (6, h)) ∧
    (r.flags.getLsbD 5 = false → r.flags.getLsbD 4 = false →
      (∀ y, code.2 = .error y → y ≠ .held → ∃ h, k.2 = some (6, h)) ∧
      ∀ h, code.2 = .ok h → k.2 = some (if r.slots.any slotUnassigned then 7
        else if h.featreq &&& ~~~ code.1.hub.featacc ≠ 0 ∨ (code.1.hub.featacc.getLsbD 7 = false ∧ ∃ w ∈ r.slots, slKind w = 1 ∨ slKind w = 3) then 8
        else 0, h))) ∧
  ((s.lots.get lot).isSome = false ∨ l.phase ≠ .gated ∨ l.record.flags.getLsbD 4 = false ∨ l.waitMet = true ∨ (s.ctx l.ctx).faulted = true →
    exec (.waitSemaphoreRead lot) s = .next s) ∧
  ((s.lots.get lot).isSome = true → l.phase = .gated → l.record.flags.getLsbD 4 = true → l.waitMet = false → (s.ctx l.ctx).faulted = false →
    let y := s.launchLook l.ctx l.record.wsemva 500
    (y.2 = .held → ∃ t, exec (.waitSemaphoreRead lot) s = .next t ∧ t.mem = s.mem ∧ t.lot lot = l) ∧
    (∀ pa slot h, y.2 = .ok pa slot h → ∃ t, exec (.waitSemaphoreRead lot) s = .next t ∧ t.mem = s.mem ∧
      t.lot lot = { l with waitMet := decide (l.record.wsemval.toNat ≤
        bytesToNat (y.1.readBytes none hubDie (y.1.memKey (s.ctx l.ctx).part pa) slot 8)) }) ∧
    (∀ code cause, y.2 = .fault code cause → ∃ t, exec (.waitSemaphoreRead lot) s = .next t ∧ (t.lot lot).phase = .complete ∧ (t.lot lot).status = 1 ∧
      (t.lot lot).firstPc = 0 ∧ (t.lot lot).first.map (fun f => (f.code, f.fva, f.vatnum, f.rung)) = some (code, l.record.wsemva, 0xFFFFFFFF, 2))) ∧
  (let met : Prop := (s.lots.get lot).isSome = true ∧ l.phase = .gated ∧ l.status = 0 ∧ (l.record.flags.getLsbD 4 = true → l.waitMet = true) ∧
     (l.record.flags.getLsbD 3 = true → ∀ k < lot, (s.lots.get k).isSome = true → (s.lot k).ctx = l.ctx → (s.lot k).queue = l.queue →
       (s.lot k).phase = .complete) ∧ (s.ctx l.ctx).faulted = false
   s.lots.wf = true → (met → exec (.lotGateOpen lot) s = .next (s.setLot lot { l with phase := .running })) ∧
     (¬ met → exec (.lotGateOpen lot) s = .next s))

/-- Placement and the end of vats and lots (spec/04 R80–R87, spec/03 R67–R69): a vat goes to a core with the most free warp slots
among those it fits, with its warps as R87 says; a COHAB lot whole or not at all; a vat that may leave; the completion record,
the semaphore and the interrupt of a lot that is over. The model's choices in it: scratchpad and accumulator tiles are empty at placement (log 4,
DESIGN CHOICE); VATSDONE counts a vat that its abort ended and no task's (log 43, DEDUCED). -/
def Obligations.VatsAndLots : Prop := ∀ (s : State) (lot vat : Nat),
  let l := s.lot lot
  let need := l.record.need
  let n := l.record.nvec + l.record.nmat
  let cands := s.candidates (s.placeDies lot)
  let warpOk (t : State) (k i core : Nat) : Prop :=
    let w := t.warp (warpKey k i)
    w.vat = k ∧ w.num = i ∧ w.resident = true ∧ w.core = core ∧ w.mat = decide (l.record.nvec ≤ i) ∧ w.hdep = 0 ∧ w.trap.tmode = false ∧
      w.masks.lmask = (if i < l.record.nvec then 0xFFFFFFFF else 1) ∧ w.masks.amask = w.masks.lmask ∧ w.sgcfg = 0x10000100 ∧
      w.dhv = (if l.code.hndoff = 0 then 0 else BitVec.ofNat 32 l.code.hndoff ||| 1) ∧ w.trap.tvmask = l.code.tvm ∧ w.fstat = 0 ∧
      (∀ j ∈ lanesOf w.masks.lmask, w.lpc.get j = BitVec.ofNat 32 l.entryOff.toNat) ∧
      (∀ j < 8, w.final (cellKn j) = l.record.kinit.get j) ∧ ∀ c, (c < 8192 ∨ 8200 ≤ c) → w.final c = 0
  let vatOk (t : State) (k core num : Nat) : Prop :=
    let v := t.vat k
    v.lot = lot ∧ v.vatnum = BitVec.ofNat 32 num ∧ v.place = .resident ∧ v.core = core ∧ v.nwarp = n ∧ v.regs = l.record.regs ∧
      v.scr = l.record.scr ∧ v.acc = l.record.acc ∧ v.task = false ∧ v.vvmask = l.code.vvm ∧
      (num < 2 ^ 32 → v.gridX = BitVec.ofNat 32 (num % l.record.gx) ∧ v.gridY = BitVec.ofNat 32 (num / l.record.gx % l.record.gy) ∧
        v.gridZ = BitVec.ofNat 32 (num / l.record.gx / l.record.gy)) ∧
      v.vbstat = vbMake false (32 * l.record.nvec + l.record.nmat) 0 ∧ v.scratch = [] ∧ v.tiles = [] ∧ v.ringd = [] ∧ v.hist = [] ∧
      ∀ i < n, warpOk t k i core
  let x := s.launchXlat l.ctx l.record.cplva .write 480
  let v := s.vat vat
  let ks := warpKeys vat v
  let gone (u : State) : State := [0, 1, 2, 3].foldl (fun u d => u.discardTasks lot d) u
  (s.placing lot = false ∨ s.servedFirst lot = true → exec (.vatPlace lot) s = .next s ∧ exec (.cohabPlace lot) s = .next s) ∧
  (l.record.flags.getLsbD 0 = true → exec (.vatPlace lot) s = .next s) ∧
  (l.record.flags.getLsbD 0 = false → exec (.cohabPlace lot) s = .next s) ∧
  (s.placing lot = true → s.servedFirst lot = false → n ≤ 32 →
    (l.record.flags.getLsbD 0 = false →
      (∀ core subs, chooseCore need (s.ringStart lot) cands = some (core, subs) →
        (∃ t, exec (.vatPlace lot) s = .next t ∧ t.mem = s.mem ∧ t.nextLseq = s.nextLseq + 1 ∧ (t.lot lot).nextVat = l.nextVat + 1 ∧
          (t.lot lot).lastDie = some (core / 44) ∧ vatOk t s.nextLseq core l.nextVat) ∧
        ∃ room, (core, room) ∈ cands ∧ room.fits need = some subs ∧
          ∀ y ∈ cands, (y.2.fits need).isSome = true → y.2.free ≤ room.free) ∧
      ((∀ y ∈ cands, y.2.fits need = none) → exec (.vatPlace lot) s = .next (s.drawEvictions lot need 1))) ∧
    (l.record.flags.getLsbD 0 = true →
      (∀ ps, s.cohabAll lot = some ps → ∃ t, exec (.cohabPlace lot) s = .next t ∧ t.mem = s.mem ∧ ps.length = l.record.total - l.nextVat ∧
        t.nextLseq = s.nextLseq + ps.length ∧ (t.lot lot).nextVat = l.record.total ∧
        ∀ i < ps.length, ∀ p, ps[i]? = some p → vatOk t (s.nextLseq + i) p.1 (l.nextVat + i)) ∧
      (s.cohabAll lot = none → exec (.cohabPlace lot) s = .next (s.drawEvictions lot need (l.record.total - l.nextVat))))) ∧
  (s.mayLeave vat = false → exec (.vatLeave vat) s = .next s) ∧
  (s.mayLeave vat = true → ∃ t, exec (.vatLeave vat) s = .next t ∧ t.mem = s.mem ∧ (t.vat vat).place = .gone ∧ (t.vat vat).image = none ∧
    (∀ k ∈ ks, (t.warp k).resident = false) ∧
    (t.lot v.lot).exc = ks.foldl (fun f k => f ||| (s.warp k).fstat.setWidth 5) (s.lot v.lot).exc ∧ (t.lot v.lot).tend = s.gtime ∧
    (t.lot v.lot).vatsDone = (s.lot v.lot).vatsDone + (if v.task = false ∧ ∀ k ∈ ks, (s.warp k).masks.lmask = 0 then 1 else 0) ∧
    ∀ e, ((t.core v.core).tables.get e).owner ≠ some vat ∧ ((t.core v.core).chains.get e).owner ≠ some vat) ∧
  (s.lotOver lot = false → exec (.lotComplete lot) s = .next s) ∧
  (s.lotOver lot = true → l.status = 0 →
    let w (o : Nat) : Nat := word l.completion o
    let f := l.first.getD default
    (∃ t, exec (.lotComplete lot) s = .next t ∧ (t.lot lot).phase = .complete) ∧
    l.completion.length = 128 ∧ w 0x00 = 2 ^ 31 + 2 ^ 16 * f.code.toNat ∧ w 0x04 = l.record.lottag.toNat ∧
    (l.tacc < 2 ^ 64 → w 0x08 + 2 ^ 32 * w 0x0C = l.tacc) ∧ (l.tstart < 2 ^ 64 → w 0x10 + 2 ^ 32 * w 0x14 = l.tstart) ∧
    (l.tend < 2 ^ 64 → w 0x18 + 2 ^ 32 * w 0x1C = l.tend) ∧ w 0x20 + 2 ^ 32 * w 0x24 = f.fva.toNat ∧
    w 0x28 + 2 ^ 32 * w 0x2C = l.firstPc.toNat ∧ w 0x30 = f.vatnum.toNat ∧ w 0x38 = l.exc.toNat ∧ w 0x3C = l.qseq.toNat ∧
    (l.vatsDone < 2 ^ 32 → w 0x40 = l.vatsDone) ∧ w 0x44 = l.dlost.toNat ∧
    (∀ pa slot h, x.2 = .ok pa slot h → s.postedBehind l.ctx = false → s.ackSilent hubDie [s.memKey (s.ctx l.ctx).part pa] = false →
      l.record.flags.getLsbD 5 = false → ∃ t, exec (.lotComplete lot) s = .next t ∧
      (∀ i < 128, t.decrypted (s.memKey (s.ctx l.ctx).part pa + i) slot = l.completion.getD i 0) ∧
      t.hub.irqs = s.hub.irqs ++ (if l.record.flags.getLsbD 6 then [((s.ctx l.ctx).part, l.record.irqv.toNat)] else [])) ∧
    -- a SILENT die holds the record up: it is sent, and the interrupt follows it (spec/01 R31)
    (x.2 = .held → l.record.flags.getLsbD 5 = false → ∃ t more, exec (.lotComplete lot) s = .next t ∧ t.mem = s.mem ∧ t.hub.irqs = s.hub.irqs ∧
      t.posted = s.posted ++ [.range hubPlace l.ctx (l.record.cplva + 4) (l.completion.drop 4), .range hubPlace l.ctx l.record.cplva (l.completion.take 4)]
        ++ more) ∧
    (∀ code cause, x.2 = .fault code cause → ∃ t, exec (.lotComplete lot) s = .next t ∧ t.mem = s.mem ∧ t.hub.irqs = s.hub.irqs ∧
      ((t.ctx l.ctx).queues.get l.queue).err = true ∧ ((t.ctx l.ctx).queues.get l.queue).en = false)) ∧
  (s.lotOver lot = true → l.status ≠ 0 → exec (.lotComplete lot) s = .next ((gone s).completeLot lot))

/-- Driver commands (spec/03 R70–R72): the doorbell; one command at a time in ring order, each ending with its status; CTXNEW, CTXRESET,
TLBINV with their common end, CTXFREE, and a bad opcode. The model's choices in it: CTXNEW of a context that exists has status 3 before its
descriptor is read (log 48, DEDUCED); the pages of TLBINV are of 4 KiB (log 47, DEDUCED); CTXRESET gives CANCELLED over an earlier status and
sets an overflow ring's head to its tail (log 45, DEDUCED). -/
def Obligations.DriverCommands : Prop := ∀ (s : State) (part : Nat) (wi : Word),
  let p := s.part part
  let d := p.dcdesc
  let pa := d.base.toNat * 4096 + 64 * (d.ri.toNat % 2 ^ (d.log2n.toNat + 4))
  let bs := s.physRead part pa 64
  let op := (bs.headD 0).toNat
  let c := word bs 0 / 2 ^ 16
  let va := dwordAt bs 8
  let pages := (dwordAt bs 16).toNat
  let due := s.hub.devst = .ready ∧ d.en = true ∧ d.ri ≠ d.wi ∧ p.command = none ∧
    -- no SILENT die holds up the read of the record, or of the descriptor (spec/01 R31)
    s.physHeld part pa 64 = false ∧ (op = 1 → s.physHeld part va.toNat 256 = false)
  let u := s.modPart part (fun p => { p with dcdesc := { p.dcdesc with ri := p.dcdesc.ri + 1 } })
  let ends (i : Instr) (st : Word) : Prop := exec i s = .next (u.endCommand part pa st)
  let done (t : State) : Prop := (t.part part).command = none ∧ (t.part part).dcdesc = { d with ri := d.ri + 1 }
  let waits (t : State) : Prop := (t.part part).dcdesc = { d with ri := d.ri + 1 } ∧
    (t.part part).command.map (fun x => (x.op.toNat, x.pa, x.ctx, x.va, x.pages)) = some (op, pa, c, va, pages)
  let cxt := s.ctx c
  let mine := (s.ctxs.get c).isSome = true ∧ cxt.part = part
  let gone (t : State) (c : Nat) (va : BitVec 64) (pages : Nat) : Prop :=
    let lo := va.toNat / 4096 * 4096
    let out (k size : Nat) : Prop := pages ≠ 0 ∧ (lo + 4096 * pages ≤ k ∨ k + size ≤ lo)
    (∀ k, ∀ e ∈ t.tlb.get k, e.ctx = c → out e.base (2 ^ e.shift)) ∧
    ∀ core k w, (t.core core).decoded.get k = some w → decodedCtx k = c → out (decodedVa k + 4 * (k % 16)) 4
  let x := s.physRead part va.toNat 256
  let q (o : Nat) : BitVec 64 := dwordAt x o
  let badNew := va.toNat % 256 ≠ 0 ∨ (∃ b ∈ x.drop 0x30, b ≠ 0) ∨ (q 8).toNat % 65536 ≠ 0 ∨ (q 0x10).toNat % 4096 ≠ 0 ∨ (q 0x20).toNat % 65536 ≠ 0
  (exec (.driverDoorbell part wi) s = .next (if s.hub.devst = .ready ∧ p.ldt ≠ [] then s.modPart part (fun p => { p with
    dcdesc := if 2 ^ (d.log2n.toNat + 4) < (wi - d.ri).toNat then { d with wi := wi, err := true, en := false } else { d with wi := wi } }) else s)) ∧
  ((¬ due ∨ op ≠ 1) → exec (.ctxnew part) s = .next s) ∧ ((¬ due ∨ op ≠ 2) → exec (.ctxreset part) s = .next s) ∧
  ((¬ due ∨ op ≠ 3) → exec (.tlbinv part) s = .next s) ∧ ((¬ due ∨ op ≠ 4) → exec (.ctxfree part) s = .next s) ∧
  ((¬ due ∨ (1 ≤ op ∧ op ≤ 4)) → exec (.driverBadOpcode part) s = .next s) ∧
  (due → op = 0 ∨ 4 < op → ends (.driverBadOpcode part) 1) ∧
  (due → 512 ≤ c → (op = 1 → ends (.ctxnew part) 2) ∧ (op = 2 → ends (.ctxreset part) 2) ∧ (op = 3 → ends (.tlbinv part) 2) ∧
    (op = 4 → ends (.ctxfree part) 2)) ∧
  (due → c < 512 → ¬ mine → (op = 2 → ends (.ctxreset part) 3) ∧ (op = 3 → ends (.tlbinv part) 3) ∧ (op = 4 → ends (.ctxfree part) 3)) ∧
  (due → c < 512 → op = 1 → ((s.ctxs.get c).isSome = true → ends (.ctxnew part) 3) ∧
    ((s.ctxs.get c).isSome = false → badNew → ends (.ctxnew part) 2) ∧
    ((s.ctxs.get c).isSome = false → ¬ badNew → ∃ t, exec (.ctxnew part) s = .next t ∧ done t ∧ t.hub.featFrozen = true ∧
      t.ctxs.get c = some { (default : Context) with
        part := part, root := q 0, saveVa := q 8, ovfVa := q 0x10, ovfPages := (q 0x18).toNat, poolVa := q 0x20, poolTiles := (q 0x28).toNat })) ∧
  (due → c < 512 → op = 2 → mine → s.lots.wf = true → s.vats.wf = true → ∃ t, exec (.ctxreset part) s = .next t ∧ waits t ∧
    (t.ctx c).resetting = true ∧ (∀ i, ((t.ctx c).queues.get i).en = false) ∧
    (∀ k l, s.lots.get k = some l → l.ctx = c → (l.phase = .gated → (t.lot k).phase = .complete ∧ (t.lot k).status = 5) ∧
      (l.phase = .running → (t.lot k).phase = .running ∧ (t.lot k).status = 5)) ∧
    ∀ k v, s.vats.get k = some v → (s.lot v.lot).ctx = c → v.place ≠ .gone → (t.vat k).stop.isSome = true) ∧
  (due → c < 512 → op = 3 → mine → ∃ t, exec (.tlbinv part) s = .next t ∧ waits t ∧ t.mem = s.mem ∧ gone t c va pages) ∧
  (due → c < 512 → op = 4 → mine →
    ((∃ i, (cxt.queues.get i).en = true) ∨ (s.lotsOf c (· != .complete)) ≠ [] → ends (.ctxfree part) 3) ∧
    ((∀ e ∈ cxt.queues, e.2.en = false) → s.lotsOf c (· != .complete) = [] → ∃ t, exec (.ctxfree part) s = .next t ∧ done t ∧
      t.ctxs.get c = none ∧ gone t c 0 0)) ∧
  (p.command = none → exec (.tlbinvComplete part) s = .next s) ∧
  (∀ y, p.command = some y →
    (s.translatedDone y = false ∨ (y.op = 2 ∧ s.resetOver y.ctx = false) → exec (.tlbinvComplete part) s = .next s) ∧
    (s.translatedDone y = true → (y.op = 2 → s.resetOver y.ctx = true) → ∃ t, exec (.tlbinvComplete part) s = .next t ∧
      (t.part part).command = none ∧ (t.part part).plOld = none ∧
      (∀ k, (t.ctx y.ctx).lwdesc.get k = (s.ctx y.ctx).lwdesc.get k) ∧ (y.op ≠ 2 → gone t y.ctx y.va y.pages) ∧
      (y.op = 2 → gone t y.ctx 0 0 ∧ (t.ctx y.ctx).resetting = false ∧ (t.ctx y.ctx).faulted = false ∧ (t.ctx y.ctx).tdmask = 0 ∧
        (t.ctx y.ctx).lwOld = [] ∧ (t.ctx y.ctx).waiting = [] ∧ (∀ n, ∀ e ∈ (t.die n).tasks, e.2.ctx ≠ y.ctx) ∧
        ∀ n < 4, (t.ctx y.ctx).ovf.get (2 * n) = (s.ctx y.ctx).ovf.get (2 * n + 1))))

/-- The host's answers to a serviceable fault (spec/07 R174, R175): RESUME lets the replay go ahead once every record of the vat is
answered (that a vat waits for the answers to all its records is log 49, DEDUCED), FAILLOT ends the lot FAULTED, FAILCTX faults the context; an
answer to no outstanding record does nothing. -/
def Obligations.FaultAnswers : Prop := ∀ (s : State) (ctx : Nat) (seq : BitVec 16),
  let c := s.ctx ctx
  let rest := c.services.filter (fun x => x.seq != seq)
  let may := s.hub.devst = .ready ∧ (s.ctxs.get ctx).isSome = true ∧ c.faulted = false ∧ c.resetting = false
  ((¬ may ∨ ∀ x ∈ c.services, x.seq ≠ seq) →
    exec (.fsvcResume ctx seq) s = .next s ∧ exec (.fsvcFaillot ctx seq) s = .next s ∧ exec (.fsvcFailctx ctx seq) s = .next s) ∧
  (∀ x, may → c.services.find? (fun x => x.seq == seq) = some x →
    (∀ d, x.refill = some d → ∃ t, exec (.fsvcResume ctx seq) s = .next t ∧ t.mem = s.mem ∧ t.vats = s.vats ∧ t.warps = s.warps ∧
      t.ctx ctx = { c with services := rest, refillStopped := c.refillStopped &&& ~~~ dieBit d }) ∧
    (x.refill = none → (s.vat x.vat).place ≠ .gone → (s.vat x.vat).stop = none →
      ((s.warp x.warp).serviceWait = false ∨ (s.warp x.warp).onCore = false → ∃ t, exec (.fsvcResume ctx seq) s = .next t ∧ t.mem = s.mem ∧
        (∀ k, t.warp k = if k = x.warp then { s.warp k with serviceWait := false } else s.warp k) ∧
        (t.ctx ctx).services = rest ∧ t.vat x.vat = { s.vat x.vat with
          resumed := rest.all (fun y => y.refill.isSome || y.vat != x.vat) }) ∧
      (∀ fr, (s.warp x.warp).serviceWait = true → (s.warp x.warp).onCore = true → (s.warp x.warp).swapFault = some fr → ∃ t, exec (.fsvcResume ctx seq) s = .next t ∧ t.mem = s.mem ∧
        (t.ctx ctx).services = rest ∧ (t.warp x.warp).serviceWait = false ∧ (t.warp x.warp).swapFault = none ∧
        ∀ r, (t.warp x.warp).final r = (s.warp x.warp).final r)) ∧
    ((s.lot x.lot).status = 0 ∨ (s.lot x.lot).status = 2 → s.vats.wf = true → ∃ t, exec (.fsvcFaillot ctx seq) s = .next t ∧
      (t.lot x.lot).status = 1 ∧ (t.lot x.lot).first.isSome = true ∧ (t.ctx ctx).faulted = false ∧ (∀ y ∈ (t.ctx ctx).services, y.lot ≠ x.lot) ∧
      (∀ k v, s.vats.get k = some v → v.lot = x.lot → (s.lot v.lot).ctx = ctx → v.place ≠ .gone → (t.vat k).stop.isSome = true) ∧
      ∀ k, (s.vat k).lot ≠ x.lot → t.vat k = s.vat k) ∧
    (s.vats.wf = true → ∃ t, exec (.fsvcFailctx ctx seq) s = .next t ∧ t.mem = s.mem ∧ (t.ctx ctx).faulted = true ∧ (t.ctx ctx).terminal = some x.record ∧
      (t.ctx ctx).services = [] ∧ (∀ i < 16, ((t.ctx ctx).queues.get i).err = true ∧ ((t.ctx ctx).queues.get i).en = false) ∧
      ∀ k v, s.vats.get k = some v → (s.lot v.lot).ctx = ctx → v.place ≠ .gone → (t.vat k).stop.isSome = true))

/-! ### The management plane, the hub and the dies -/

/-- The boot, the hub's registers and accesses from outside (spec/03 R59–R61, R73–R78, spec/01 R18, R24, spec/02 R40, R43, R56–R58,
spec/08 R217). The model's choices in it: DEVICE_RESET leaves memory as it is (log 3, DESIGN CHOICE); ISAVER.MIN is 2 at least (log 6); the
order of the boot's failures (log 54); accesses from outside go through key slot 0, and a host's read has 8 bytes (log 56); KEY_SLOT_LOAD acts
at once on lines that are there (log 93); one that a SILENT die holds up waits (spec/01 R31). -/
def Obligations.Management : Prop := ∀ (s : State) (b : Boot) (mbox nonce fn ctx : Nat) (slot : BitVec 10) (key : Option (BitVec 512))
    (w : Word) (f : BitVec 128) (pa : BitVec 52) (pa40 : BitVec 40) (data : Option (List Byte)) (acc : DomainAccess) (dev port : Nat),
  let m := b.manifest
  let boots (t : State) : Prop :=
    (b.fetchOk = false → t.hub.devst = .failed ∧ t.hub.devCode = 2) ∧
    (b.fetchOk = true → b.imageSigOk = false → t.hub.devst = .failed ∧ t.hub.devCode = 1) ∧
    (b.fetchOk = true → b.imageSigOk = true →
      (b.memoryOk = false → t.hub.devst = .failed ∧ t.hub.devCode = 5) ∧
      (b.memoryOk = true → b.manifestSigOk = false → t.hub.devst = .failed ∧ t.hub.devCode = 3) ∧
      (b.memoryOk = true → b.manifestSigOk = true → manifestOk m = false → t.hub.devst = .failed ∧ t.hub.devCode = 4) ∧
      (b.memoryOk = true → b.manifestSigOk = true → manifestOk m = true → t.hub.devst = .ready ∧ t.hub.devCode = 0 ∧
        t.hub.digests = b.stageDigests ∧ t.hub.isaMin = (if b.minor ≤ 2 then 2 else b.minor) ∧ t.hub.microcode = b.microcode ∧ t.hub.routes = m.routes ∧ t.hub.devnum = m.devnum ∧
        (∀ i < m.parts.length, (t.part i).ldt = (m.parts.getD i []).filter (manifestPresent m) ∧ (t.part i).ackto = 50) ∧
        ∀ d < 4, (t.die d).state = (if manifestPresent m d then .live else .absent) ∧ (t.die d).inc = 0 ∧ (t.die d).btim = 24 ∧
          (t.die d).cores = manifestCores m d))
  let fresh (t : State) : Prop := t.mem = s.mem ∧ t.gtime = 0 ∧ t.ctxs = [] ∧ t.lots = [] ∧ t.vats = [] ∧ t.warps = [] ∧ t.ops = [] ∧ t.tlb = [] ∧
    t.hub.featacc = 0 ∧ t.hub.pwrlim = 1800 ∧ t.hub.dlto = 100 ∧ t.hub.hbmiss = 16 ∧
    ∀ n, t.hub.keys.get n = if n = 0 then .plain else .empty
  let answers (i : Instr) (r : SpdmReply) : Prop :=
    (mbox = 4 ∨ (s.part mbox).ldt ≠ [] → exec i s = .next (s.modHub (fun h => { h with spdm := h.spdm ++ [r] }))) ∧
    (mbox ≠ 4 → (s.part mbox).ldt = [] → exec i s = .next s)
  let opens := s.hub.devst = .ready ∧ (s.part fn).ldt ≠ []
  let when (p : Prop) (i : Instr) (t : State) : Prop := (p → exec i s = .next t) ∧ (¬ p → exec i s = .next s)
  let hub (h : Hub) : State := { s with hub := h }
  let write (off : Nat) (t : State) : Prop := exec (.registerWrite (some fn) (BitVec.ofNat 26 off) w) s = .next t
  let block : Nat := 0x2000000 + 0x10000 * ctx
  let queue (q : Nat) (f : Queue → Queue) : State := s.modCtx ctx (fun c => { c with queues := c.queues.modify q f })
  let outside (i : Instr) (p : Prop) (pa : Nat) (acc : DomainAccess) : Prop :=
    let held : Prop := s.bytesHeld = true ∨ (match acc with
      | .read n => s.physHeld fn pa n = true
      | .store _ bs => s.ackSilent hubDie ((s.peerBytes fn pa bs).map (fun b => b.key)) = true
      | .atomic _ wide _ _ _ => s.ackSilent hubDie ((s.peerBytes fn pa (List.replicate (if wide then 8 else 4) 0)).map (fun b => b.key)) = true)
    (p → ¬ held → exec i s = .next (s.peerAccess fn pa acc)) ∧
    (p → held → exec i s = .next { s with posted := s.posted ++ [.access fn pa acc] }) ∧ (¬ p → exec i s = .next s)
  let host : DomainAccess := match data with | some bs => .store true bs | none => .read 8
  -- no cache keeps a line of a slot whose key changes
  let forgets (t : State) : Prop := ∀ c, t.core c = { s.core c with
      l1 := (t.core c).l1, icache := (t.core c).icache, tlrCache := (t.core c).tlrCache } ∧ ∀ k,
    (k % 1024 = slot.toNat → (t.core c).l1.get k = default ∧ (t.core c).icache.get k = default ∧ (t.core c).tlrCache.get k = default) ∧
    (k % 1024 ≠ slot.toNat → (t.core c).l1.get k = (s.core c).l1.get k ∧ (t.core c).icache.get k = (s.core c).icache.get k ∧
      (t.core c).tlrCache.get k = (s.core c).tlrCache.get k)
  let retry := s.hub.devst = .failed ∧ (s.hub.devCode = 1 ∨ s.hub.devCode = 2)
  (∃ t, exec (.deviceReset b) s = .next t ∧ fresh t ∧ boots t) ∧
  (retry → s.hub.retryAt + 10000000000 ≤ s.gtime → ∃ t, exec (.firmwareFetchRetry b) s = .next t ∧ boots t ∧
    (b.fetchOk = false → t.hub.retryAt = s.gtime)) ∧
  (¬ retry ∨ s.gtime < s.hub.retryAt + 10000000000 → exec (.firmwareFetchRetry b) s = .next s) ∧
  (manifestOk m = true → ∀ d < 4, (manifestCores m d).Pairwise (fun a b => positionKey d a.1 a.2 < positionKey d b.1 b.2) ∧
    ∀ c, c ∈ manifestCores m d ↔ (d, c.1, c.2) ∈ m.cores) ∧
  answers (.getVersion mbox) (.version 1 3) ∧ answers (.getCapabilities mbox) (.capabilities (Config.spdmBody 1 0)) ∧
  answers (.negotiateAlgorithms mbox) (.algorithms true true) ∧ answers (.getDigests mbox) (.digests (Config.spdmBody 3 0)) ∧
  answers (.getCertificate mbox) (.certificate (Config.spdmBody 4 0)) ∧ answers (.challenge mbox nonce) (.challengeAuth (Config.spdmBody 5 nonce)) ∧
  answers (.getMeasurements mbox) (.measurements s.hub.digests s.hub.manifestDigest) ∧ answers (.keyExchange mbox) .unsupportedRequest ∧
  (∃ t, exec (.keySlotLoad slot key) s = .next t ∧ forgets t ∧ t = { s with cores := t.cores, hub := { s.hub with
      keys := s.hub.keys.set slot.toNat (match key with | some k => .xts k | none => .plain) } }) ∧
  (∃ t, exec (.keySlotClear slot) s = .next t ∧ forgets t ∧ t = { s with mem := t.mem, cores := t.cores, hub := { s.hub with keys := s.hub.keys.set slot.toNat .empty } } ∧
    (slot ≠ 0 → s.lineSlot.wf = true → ∀ k, s.lineSlot.get (k / 128) ≠ slot → t.mem.get k = s.mem.get k)) ∧
  when (opens ∧ fn = 0 ∧ s.hub.featFrozen = false) (.feataccWrite fn f) (hub { s.hub with featacc := f &&& 0x7FF }) ∧
  when (opens ∧ fn = 0) (.pwrlimWrite fn w) (hub { s.hub with pwrlim := w.setWidth 11 }) ∧
  when (opens ∧ ∀ e ∈ s.ctxs, ∀ c, e.2 = some c → c.part ≠ fn) (.plcfgWrite fn w)
    (s.modPart fn (fun p => { p with plcfg := w.setWidth 2, plOld := some (p.plOld.getD p.plcfg) })) ∧
  (opens → write 0x328 (s.modPart fn (fun p => { p with ackto := w.setWidth 16 })) ∧
    (∀ d < 4, (s.die d).part = fn → (s.die d).state ≠ .absent → write (0x330 + 4 * d) (s.modDie d (fun x => { x with btim := w.setWidth 8 }))) ∧
    (s.ctxIn fn ctx = true → ctx < 512 →
      (∀ q < 16, write (block + 16 * q + 12) ((queue q (·.doorbell w)).coverRecords ctx q) ∧
        write (block + 16 * q) (queue q (fun d =>
          let d := if d.en then d else { d with base := d.base.extractLsb' 16 24 ++ w.extractLsb' 16 16, log2n := w.extractLsb' 8 4 }
          let d := if w.getLsbD 1 then { d with err := false } else d
          if w.getLsbD 0 then d.enable else { d with en := false })) ∧
        write (block + 16 * q + 4) (queue q (fun d => if d.en then d else { d with base := w.extractLsb' 0 24 ++ d.base.extractLsb' 0 16 })) ∧
        write (block + 16 * q + 8) (queue q id)) ∧
      write (block + 0x100) (s.modCtx ctx (fun c => { c with fsvcLow := w })) ∧
      (∀ k < 8, ∀ j < 8, ∃ t, exec (.registerWrite (some fn) (BitVec.ofNat 26 (block + 0x200 + 32 * k + 4 * j)) w) s = .next t ∧
        (∀ i, i ≠ k → (t.ctx ctx).lwdesc.get i = (s.ctx ctx).lwdesc.get i) ∧
        ((s.ctx ctx).lwOld.get k = none → (t.ctx ctx).lwOld.get k = some ((s.ctx ctx).lwdesc.get k)) ∧
        ((s.ctx ctx).lwdesc.get k &&& ~~~ lwMask = 0 → ∀ i < 256, ((t.ctx ctx).lwdesc.get k).getLsbD i =
          if 32 * j ≤ i ∧ i < 32 * j + 32 then w.getLsbD (i - 32 * j) && lwMask.getLsbD i else ((s.ctx ctx).lwdesc.get k).getLsbD i)))) ∧
  (s.hub.devst ≠ .ready → ∀ off, 4 ≤ off → s.readBar0 fn off = 0) ∧
  (opens → ctx < 512 → (s.ctxIn fn ctx = false → ∀ off < 0x10000, s.readBar0 fn (block + off) = 0) ∧
    (s.ctxIn fn ctx = true → ∀ q < 16, s.readBar0 fn (block + 16 * q + 8) = ((s.ctx ctx).queues.get q).ri ∧
      s.readBar0 fn (block + 16 * q + 12) = ((s.ctx ctx).queues.get q).wi)) ∧
  exec (.registerWrite none 0x320 w) s = .next (hub { s.hub with dlto := w.extractLsb' 8 16, hbmiss := w.extractLsb' 0 8 }) ∧
  (s.gtime < 10000 * (s.hub.periods + 1) → exec .powerGrantPeriod s = .next s) ∧
  (10000 * (s.hub.periods + 1) ≤ s.gtime → ∃ t, exec .powerGrantPeriod s = .next t ∧ t.hub = { s.hub with periods := s.hub.periods + 1, pwrNow := s.hub.pwrlim } ∧
    ∀ d < 4, (t.die d) = { s.die d with clock := (t.die d).clock, lakeHeld := (t.die d).lakeHeld } ∧
      ((s.die d).state = .live → (t.die d).clock ≤ 40) ∧ ((s.die d).state ≠ .live → t.die d = s.die d)) ∧
  exec (.peerPortLinkLoss port) s = .next (hub { s.hub with
    ports := s.hub.ports.filter (fun p => p.1 != port), routes := s.hub.routes.filter (fun r => r.2 != port) }) ∧
  outside (.hostBar2Access fn pa data) (opens ∧ pa.toNat / 2 ^ 48 = 0) pa.toNat host ∧
  outside (.hostCxlMemAccess fn pa data) (opens ∧ pa.toNat / 2 ^ 48 = 0 ∧ s.hub.featacc.getLsbD 10 = true) pa.toNat host ∧
  outside (.domainAccessReceive dev fn pa40 acc) (opens ∧ ∃ r ∈ s.hub.routes, r.1 = dev ∧ (r.2, fn) ∈ s.hub.ports) pa40.toNat acc ∧
  (∀ n, s.peerAccess fn pa40.toNat (.read n) = hub { s.hub with reads := s.hub.reads ++ [s.physRead fn pa40.toNat n] }) ∧
  (∀ g bs, (s.peerAccess fn pa40.toNat (.store g bs)).mem =
      (if g then s.performG (s.peerBytes fn pa40.toNat bs) else s.performE hubDie (s.peerBytes fn pa40.toNat bs)).mem ∧
    ∀ b ∈ s.peerBytes fn pa40.toNat bs, ∃ i < bs.length, b.key = s.memKey fn (pa40.toNat + i) ∧ b.val = bs.getD i 0) ∧
  (opens → fn = 0 → ∀ j < 16, ∀ i < 32, (s.readBar0 fn (0x200 + 4 * j)).getLsbD i = s.hub.slotRuns (32 * j + i))

/-- The life of a die (spec/01 R22–R31, R34–R37, R394), acknowledgement timeouts and Mordant's lines (spec/08 R205, R206), and
uncorrectable errors (spec/07 R186). The model's choices in it: memory stands when the hub is lost (log 3, DESIGN CHOICE); an error in an
array outside memory leaves its data (log 57); a store that has waited for ACKTO completes with the acknowledgements missing (log 60); TECFG.BTIM
and the granted clock stand through a die reset (log 96). -/
def Obligations.DieStates : Prop := ∀ (s : State) (d : Nat) (dies : BitVec 4) (p : Packet) (src dst n line k l : Nat),
  let x := s.die d
  let bit (d : Nat) : BitVec 4 := 1 <<< d
  let hub (h : Hub) : State := { s with hub := h }
  let expired (d : Nat) : Prop := (s.die d).state = .silent ∧ (s.die d).silentAt + 1000 * max 10 s.hub.dlto.toNat ≤ s.gtime
  -- faulted, or waiting for room in its fault queue (R175)
  let faults (t : State) (c : Nat) (code : BitVec 8) : Prop := (t.ctx c).faulted = true ∨ ∃ fr ∈ (t.ctx c).waiting, fr.code = code
  let lost (i : Instr) (ds : BitVec 4) : Prop := ds ≠ 0 → ∃ t, exec i s = .next t ∧
    (∀ e < 4, ds.getLsbD e = true → (t.die e).state = .lost ∧ (t.die e).inc = (s.die e).inc + 1 ∧ (t.die e).tasks = [] ∧
      t.hub.incCopies.get (16 + e) = (s.die e).inc + 1) ∧
    (∀ e < 4, ds.getLsbD e = false → (t.die e).state = (s.die e).state ∧ (t.die e).inc = (s.die e).inc) ∧
    (∀ c y, s.ctxs.get c = some y → y.tdmask &&& ds ≠ 0 → y.resetting = false → faults t c 0x14) ∧
    ∀ j v, s.vats.get j = some v → v.place = .resident → ds.getLsbD (v.core / 44) = true → (t.vat j).place = .gone
  let a := s.die p.src
  let b := s.die p.dst
  let stale : State := s.modDie p.src (fun d => { d with stale := if d.stale = 0xFFFF then d.stale else d.stale + 1 })
  let log (m : MgmtLog) : State := hub { s.hub with log := s.hub.log ++ [m] }
  let delta := s.hub.incCopies.get (4 * p.dst + p.src) - p.inc
  let recv (t : State) : Prop := exec (.packetReceive p) s = .next t
  let o := s.op n
  let acktoNs (o : Op) : Nat := 1000 * max 5 (s.part (s.ctx o.ctx).part).ackto.toNat
  (x.state = .live → exec (.heartbeatSend d) s = .next (s.modDie d (fun x => { x with flit := true }))) ∧
  (x.state = .silent → ¬ expired d → s.hub.held.filter (fun p => p.dst == d) = [] → s.posted = [] → ∃ t, exec (.heartbeatSend d) s = .next t ∧
    t.die d = { x with state := .live, missed := 0, flit := true } ∧ t.mem = s.mem ∧
    ∀ m y, s.op m = some y → d < 4 → y.owed.getLsbD d = true → ∀ key ∈ y.work.writeKeys, (t.copies.get (key / 128)).getLsbD d = false) ∧
  (x.state ≠ .live → x.state ≠ .silent ∨ expired d → exec (.heartbeatSend d) s = .next s) ∧
  (s.gtime < 1000 * (s.hub.intervals + 1) → exec .hubIntervalTick s = .next s) ∧
  (1000 * (s.hub.intervals + 1) ≤ s.gtime → ∃ t, exec .hubIntervalTick s = .next t ∧ t.hub.intervals = s.hub.intervals + 1 ∧ t.mem = s.mem ∧
    ∀ d < 4, let x := s.die d
      let missed := if x.flit then 0 else x.missed + 1
      t.die d = if x.state = .live then (if max 1 s.hub.hbmiss.toNat ≤ missed
        then { x with state := .silent, missed := missed, flit := false, silentAt := s.gtime } else { x with missed := missed, flit := false }) else x) ∧
  ((∀ e < 4, dies.getLsbD e = true → ¬ expired e) → exec (.dltoExpiry dies) s = .next s) ∧
  ((∀ e < 4, dies.getLsbD e = true → expired e) → lost (.dltoExpiry dies) dies) ∧
  (x.state ≠ .live → exec (.dieTakeDown d) s = .next s) ∧ (d < 4 → x.state = .live → lost (.dieTakeDown d) (bit d)) ∧
  (x.state ≠ .lost → exec (.dieResetStart d) s = .next s) ∧
  (x.state = .lost → ∃ t, exec (.dieResetStart d) s = .next t ∧ t.die d = { x with state := .resetting } ∧
    ∀ key, t.mem.get key = if s.homeOfKey key = some d then 0 else s.mem.get key) ∧
  (x.state ≠ .resetting → exec (.dieResetDone d) s = .next s) ∧
  (x.state = .resetting → d < 4 → ∃ t, exec (.dieResetDone d) s = .next t ∧ t.mem = s.mem ∧
    t.die d = { x with state := .live, missed := 0, flit := false } ∧ ∀ h < 5, t.hub.incCopies.get (4 * h + d) = x.inc) ∧
  (4 ≤ p.src ∨ a.state = .absent → recv s) ∧
  (p.src < 4 → a.state ≠ .absent → p.dst < 4 → p.dst = (p.src + 1) % 4 → s.hub.rerouted = [] →
    (p.part ≠ a.part ∨ b.part ≠ p.part → b.state ≠ .absent → recv (log (.partitionDrop p))) ∧
    (p.part = a.part → b.state = .absent → recv (log (.absentDrop p))) ∧
    (p.part = a.part → b.part = p.part →
      (b.state = .silent → recv (hub { s.hub with held := s.hub.held ++ [p] })) ∧
      (b.state = .lost ∨ b.state = .resetting → p.payload = .other → recv s) ∧
      (b.state = .live → (a.state = .lost ∨ a.state = .resetting → recv stale) ∧
        (a.state = .live ∨ a.state = .silent → (delta ≠ 0 → delta ≤ 128 → recv stale) ∧ (128 < delta → recv (log (.linkError p.src))) ∧
          (delta = 0 → p.payload = .other → recv s) ∧
          (∀ m o, delta = 0 → p.payload = .inval m → s.op m = some o → ∃ t, recv t ∧ t.mem = s.mem ∧ t.ops = s.ops ∧
            ∀ key ∈ o.work.writeKeys, (t.copies.get (key / 128)).getLsbD p.dst = false ∧ (key < 2 ^ 58 → t.stale.get (staleKey p.dst key) = none)))))) ∧
  (let e := if dst < 4 then dst else src
   let y := if dst < 4 then src else dst
   let via (side : LinkSide) : Prop := exec (.flitCrcFail src ⟨dst, k, l⟩) s = .next (log (.flitError src dst (side.module e k) (side.lane e l)))
   (e < 4 → (y = 4 → via .hub) ∧ (y = (e + 1) % 4 → via .clockwise) ∧ (y = (e + 3) % 4 → via .counterClockwise)) ∧
   (4 ≤ e ∨ y = e ∨ y = (e + 2) % 4 ∨ 5 ≤ y → exec (.flitCrcFail src ⟨dst, k, l⟩) s = .next s)) ∧
  (let y := s.die ((d + 1) % 4)
   let works := d < 4 ∧ x.state = .live ∧ y.state = .live ∧ x.part = y.part ∧ d ∉ s.hub.rerouted
   (works → exec (.neighbourLinkRetrainFail d) s = .next (hub { s.hub with rerouted := s.hub.rerouted ++ [d], log := s.hub.log ++ [.reroute d] })) ∧
   (¬ works → exec (.neighbourLinkRetrainFail d) s = .next s)) ∧
  (o = none → exec (.acktoExpiry n) s = .next s) ∧
  (∀ y bs, o = some y → y.work = .store true bs → bs ≠ [] → y.complete = false → y.release = false →
    (s.gtime < y.issuedAt + acktoNs y → exec (.acktoExpiry n) s = .next s) ∧
    (y.issuedAt + acktoNs y ≤ s.gtime → y.owed ≠ 0 → (s.pushEarlier n y).coReady n y = true → (s.vat (s.warp y.warp).vat).stop = none →
      (s.ctx (s.ctxOf y.warp)).faulted = false → (s.ctx (s.ctxOf y.warp)).resetting = false → ∃ t, exec (.acktoExpiry n) s = .next t ∧
        faults t (s.ctxOf y.warp) 0x13 ∧ ∀ z, t.op n = some z → z.complete = true ∧ z.performed = true)) ∧
  exec (.mordantLineReturn line) s = .next (hub { s.hub with hubOwned := s.hub.hubOwned.set line none }) ∧
  (∃ t, exec .hubDieLoss s = .next t ∧ exec (.uncorrectableError .incarnationTable) s = .next t ∧ t.hub.devst = .booting ∧ t.ctxs = [] ∧ t.mem = s.mem) ∧
  exec (.uncorrectableError (.laneRegister k n l)) s = .next (s.modWarp k (fun w => { w with poisoned := w.poisoned ++ [cellV n l] })) ∧
  exec (.uncorrectableError (.predicate k n l)) s = .next (s.modWarp k (fun w => { w with poisoned := w.poisoned ++ [cellPn n l] })) ∧
  (s.homeOfKey (128 * line) ≠ none → exec (.uncorrectableError (.memoryLine line)) s =
    .next { s with poison := s.poison.set line (BitVec.allOnes 128) }) ∧
  (s.homeOfKey (128 * line) = none → exec (.uncorrectableError (.memoryLine line)) s = .next s) ∧
  ((s.ctxs.get k).isSome = true → (s.ctx k).resetting = false → ∃ t, exec (.uncorrectableError (.taskArray d k)) s = .next t ∧
    ((s.ctx k).faulted = true ∨ s.fqRoom k = true → (t.ctx k).faulted = true) ∧ faults t k 0x0B) ∧
  (∀ site, site = .launchProcessor k ∨ site = .mordant k → ∃ t, exec (.uncorrectableError site) s = .next t ∧
    ∀ c y, s.ctxs.get c = some y → y.part = k → y.resetting = false → (t.ctx c).faulted = true) ∧
  (∃ t, exec (.uncorrectableError (.translation d)) s = .next t ∧ t = { s with tlb := t.tlb }) ∧
  (x.state = .live → d < 4 → lost (.uncorrectableError (.distributor d)) (bit d)) ∧
  (∀ v, s.vats.get k = some v → v.place = .resident → v.stop = none → ∀ j, s.liveWarp k = some j → ∃ t fr, exec (.uncorrectableError (.vatArray k)) s = .next t ∧
    t = s.setWarp j { s.warp j with async := (s.warp j).async ++ [fr] } ∧ fr.code = 0x0B ∧ fr.rung = 1) ∧
  -- the partition rung: resolved, or after 20 ms the device is reset (spec/07 R176)
  (∀ at', (s.part k).rungAt = some at' →
    (s.rungDone k = true → s.partitionRung k = s.modPart k (fun p => { p with rungAt := none, rungDies := 0 })) ∧
    (s.rungDone k = false → at' + 20000000 ≤ s.gtime → (s.partitionRung k).hub.devst = .booting ∧ (s.partitionRung k).ctxs = []) ∧
    (s.rungDone k = false → s.gtime < at' + 20000000 → s.partitionRung k = s))

/-! ### Clauses, whole-instruction faults, steps, decoding, invariants -/

/-- CLAUSE_ISSUE (spec/11 R248–R252, R260, R262, spec/05 R130): the check of a clause, its waits and its enabled lanes.
CLAUSE_BOUNDARY (spec/05 R114–R116, R119, R125, R128, spec/07 R171, R181, R395): what happens at a boundary, in its order. -/
def Obligations.Clauses : Prop := ∀ (s : State),
  let w := s.w
  let m := w.masks
  let pc := w.clause.hdr
  let f := s.fetch s.cur pc
  let h := f.2.2
  let u := f.1.modW (fun w => { w with clause := { w.clause with word := h } })
  let fld (k len : Nat) : Nat := (h.extractLsb' k len).toNat
  let n := fld 0 4
  let slots := clauseSlots 16 1 ((List.range n).map (fun i => (f.1.peek s.cur (pc + BitVec.ofNat 32 (4 * (i + 1)))).2))
  let cls (op : Nat) : Nat := if op ≤ 0x33 then 0 else if op ≤ 0x3B then 1 else if op ≤ 0x3D then 2 else 3
  let any (k : Nat) : Prop := k = 0x146 ∨ k = 0x1F8 ∨ k = 0x1FF
  let ends (k : Nat) : Prop := (0x140 ≤ k ∧ k ≤ 0x145) ∨ (0x149 ≤ k ∧ k ≤ 0x14C) ∨ k = 0x150 ∨ k = 0x151 ∨ (0x1F2 ≤ k ∧ k ≤ 0x1F6)
  let noRep (k : Nat) : Prop := (0x140 ≤ k ∧ k < 0x160) ∨ k = 0x22 ∨ 0x1F0 ≤ k
  let malformed : Prop := n = 0 ∨ fld 29 3 ≠ 0 ∨ fld 11 3 = 7 ∨ fld 20 3 = 7 ∨ (fld 11 3 = 0 ∧ fld 14 6 ≠ 0) ∨ (fld 20 3 = 0 ∧ fld 23 6 ≠ 0) ∨
    (fld 6 1 = 0 ∧ fld 7 4 ≠ 0) ∨ 64 < pc.toNat % 64 + 4 * (n + 1) ∨
    (∃ e ∈ slots, (¬ any e.2 ∧ cls (e.2 / 8) ≠ fld 4 2) ∨ (slotLong e.2 = true ∧ e.1 = n) ∨
      (ends e.2 ∧ e.1 + (if slotLong e.2 then 1 else 0) ≠ n) ∨ (e.2 = 0x1F8 ∧ e.1 = n)) ∨
    ∃ p ∈ slots.zip (slots.drop 1), p.1.2 = 0x1F8 ∧ noRep p.2.2
  let wait (c t : Nat) : Prop := ∀ x, classOf c = some x → u.count s.cur x ≤ t
  let waits : Prop := wait (fld 11 3) (fld 14 6) ∧ wait (fld 20 3) (fld 23 6)
  let read : Prop := (s.code s.cur).inText pc = true ∧ (∃ pa k ca, f.2.1 = .ok pa k ca) ∧ f.1.isHeader s.cur pc = true
  -- where FPC points at a bad target (R250): at the instruction whose entry failed, where the target is a vector, else at the target
  let entry (e : Nat) : Prop := pc = BitVec.ofNat 32 (512 * (w.dhv.toNat / 512) + 64 * e)
  let target := w.targetPc (s.code s.cur)
  let vector : Nat := if w.trap.frec.rung = 0 then (s.code s.cur).tvec else (s.code s.cur).vvec
  let issues (t : State) : Prop := exec .clauseIssue s = .next t
  let goes (Q : Warp → Prop) : Prop := ∃ t, exec .clauseBoundary s = .next t ∧ s.OnlyWarp t ∧ Q t.w
  let heads (y x : Warp) (set : Lanes) (pcs : Nat → Word) : Prop :=
    x = { y with phase := .header, hold := .free, clause := { hdr := x.clause.hdr, word := 0, idx := 0, issue := set, enabled := set, rep := none } } ∧
    ∀ l, lowest set = some l → x.clause.hdr = pcs l
  let group (set c : Lanes) (pcs : Nat → Word) : Prop :=
    ∀ l < 32, inMask set l = true ↔ inMask c l = true ∧ ∀ k < 32, inMask c k = true → pcs l ≤ pcs k
  let falls (y : Lanes → Warp) (z : Warp) (c : Lanes) (pcs : Nat → Word) : Prop :=
    (c = 0 → goes (· = { z with wpark := true, masks := { z.masks with wset := 0 } })) ∧
    (c ≠ 0 → goes (fun x => ∃ set, heads (y set) x set pcs ∧ group set c pcs))
  let active (z : Warp) (set : Lanes) : Warp := { z with masks := { z.masks with amask := set } }
  let base : Word := BitVec.ofNat 32 (512 * (w.dhv.toNat / 512))
  let enters (y x : Warp) (c : EventBank) : Prop :=
    let reason := (c.evrec.extractLsb' 0 4).toNat
    let at' := base + BitVec.ofNat 32 (64 * reason)
    (w.hdep = 1 → x = { y.flush with
        hdep := 2, cause := none, phase := .boundary, ev2 := { c with evrec := c.evrec ||| 0x20 }, dretWait := 0,
        dretPc := [], dretMask := [], masks := { y.masks with ham2 := m.lmask }, hpc2 := x.hpc2 } ∧
      ∀ l < 32, x.hpc2.get l = if inMask m.lmask l then at' else w.hpc2.get l) ∧
    (w.hdep = 0 → x = { y.flush with
        hdep := 1, cause := none, phase := .boundary, ev1 := { c with evrec := c.evrec ||| 0x10 },
        masks := { y.masks with ham1 := m.lmask, arrl := if reason = 5 then 0 else m.arrl }, hpc1 := x.hpc1 } ∧
      ∀ l < 32, x.hpc1.get l = if inMask m.lmask l then at' else w.hpc1.get l)
  let mine : Prop := s.v.stop = none ∧ w.drains = false ∧ (s.v.trapWarp = none ∨ s.v.trapWarp = some s.cur ∨ w.saveRestore = true)
  let calm : Prop := mine ∧ w.async = []
  let plain : Prop := calm ∧ w.saveRestore = false ∧ w.trap.tmode = false
  let live : Prop := plain ∧ m.lmask ≠ 0 ∧ w.wpark = false
  let parked (l : Nat) : Prop := inMask m.lmask l = true ∧ w.lstate.get l = 0 ∧ inMask m.amask l = false
  let due (l : Nat) : Prop := l < 32 ∧ parked l ∧ (w.sgcfg.extractLsb' 16 16).toNat ≤ (w.pkage.get l).toNat
  let free : Prop := live ∧ w.sgact = false ∧ ∀ l, ¬ due l
  let noCause : Warp := { w with cause := none }
  let cnt := w.sgcnt.extractLsb' 0 16
  ((s.code s.cur).inText pc = false → issues (s.raiseHeader 0x04 target 0 0 .after)) ∧
  ((s.code s.cur).inText pc = true → (∃ pa k ca, f.2.1 = .ok pa k ca) → f.1.isHeader s.cur pc = false → issues (f.1.raiseHeader 0x04 target 0 0 .after)) ∧
  (read → malformed → issues (u.raiseHeader 0x02 pc 0 0 .after)) ∧
  (read → ¬ malformed → ¬ waits → u.splitDue h = none → issues u.stall) ∧
  (w.trap.tmode = true → w.saveRestore = false → target = if pc = BitVec.ofNat 32 vector then w.trap.frec.fpc else pc) ∧
  (w.trap.tmode = false → (w.hdep = 1 → entry (w.ev1.evrec.extractLsb' 0 4).toNat → target = w.ev1.evpc) ∧
    (w.hdep = 2 → entry (w.ev2.evrec.extractLsb' 0 4).toNat → target = w.ev2.evpc) ∧ (w.hdep = 0 → target = pc)) ∧
  (read → ¬ malformed → ¬ waits → ∀ o left, u.splitDue h = some (o, left) → ∃ t go, issues t ∧ t.mem = s.mem ∧
    (∀ l < 32, inMask go l = true ↔ inMask left l = true ∧ inMask m.lmask l = true ∧ w.lstate.get l = 0) ∧
    (∀ l < 32, t.w.lstate.get l = (if inMask go l then 3 else w.lstate.get l) ∧ t.w.lpc.get l = if inMask go l then pc else w.lpc.get l) ∧
    t.w.masks = { u.w.masks with amask := u.w.masks.amask &&& ~~~ go } ∧ t.w.phase = .boundary ∧ t.w.hold = .free ∧
    (∀ y, t.op o = some y → y.reported = true) ∧
    ∃ c, t.w.cause = some c ∧ c.evrec = 4 ∧ (∀ y, u.op o = some y → c.evpc = y.fpc) ∧ c.evt = pc ∧ c.evf = pc ∧ c.evtk = go ∧
      c.evm = u.w.masks.amask &&& ~~~ go) ∧
  (read → ¬ malformed → waits → ∃ t en, issues t ∧
    t = u.setW { u.w with phase := .word, hold := .free, clause := { u.w.clause with idx := 1, enabled := en } } ∧ ∀ l < 32, inMask en l =
      (inMask w.clause.issue l && (!h.getLsbD 6 || xor (u.readP (h.extractLsb' 7 3) l) (h.getLsbD 10)))) ∧
  (s.v.stop ≠ none → goes (· = { w with stopped := true, hold := .free })) ∧
  (s.v.stop = none → w.drains = true → goes (fun x => x.evict = .drain ∧ x.hold = .free ∧ x.replay = none ∧ ∀ c, x.final c = w.final c)) ∧
  (s.v.stop = none → w.drains = false → s.v.trapWarp ≠ none → s.v.trapWarp ≠ some s.cur → w.saveRestore = false →
    goes (· = { w with vatTrapStop := true })) ∧
  (∀ fr rest, mine → w.async = fr :: rest → fr.rung ≠ 1 → exec .clauseBoundary s = .next ((s.setW { w with async := rest }).raise s.cur
    { code := fr.code, flm := fr.flm, fpc := fr.fpc, info := fr.info, fva := fr.fva, cause := fr.cause, dies := fr.dies, claim := fr.claim } .boundary)) ∧
  (calm → w.saveRestore = true → falls (fun _ => w) w 0xFFFFFFFF w.mpc.get) ∧
  (calm → w.saveRestore = false → w.trap.tmode = true → falls (fun _ => w) w (w.trap.issue &&& m.lmask) w.tlpc.get) ∧
  (plain → m.lmask = 0 ∨ (w.wpark = true ∧ (w.sgact = false ∨ (w.sgrem ≠ 0 ∧ w.readyIn m.sggrp ≠ 0))) → goes (· = w)) ∧
  (live → w.sgact = true → w.hdep = 0 → w.sgrem ≠ 0 → w.readyIn m.sggrp ≠ 0 → falls (fun _ => noCause) noCause (w.readyIn m.sggrp) w.lpc.get) ∧
  (plain → m.lmask ≠ 0 → w.sgact = true → w.hdep = 0 → w.sgrem = 0 ∨ w.readyIn m.sggrp = 0 →
    (w.dhvEn = true → goes (fun x => ∃ y evt, y = { w with pkage := y.pkage, sgact := false, cause := none, masks := { m with amask := 0 } } ∧
      (∀ l < 32, y.pkage.get l = if inMask m.sggrp l then 0 else w.pkage.get l) ∧
      enters y x { evrec := 7, evpc := w.evpcOfQuantum, evt := evt, evf := 0, evtk := w.readyIn m.sggrp, evm := m.sggrp } ∧
      (w.readyIn m.sggrp = 0 → evt = 0) ∧ ∀ l < 32, inMask (w.readyIn m.sggrp) l = true → evt ≤ w.lpc.get l)) ∧
    (w.dhvEn = false → w.readyIn m.lmask ≠ 0 → goes (fun x => ∃ set, x.sgact = false ∧ x.masks.amask = set ∧ x.clause.issue = set ∧
      x.phase = .header ∧ group set (w.readyIn m.lmask) w.lpc.get))) ∧
  (∀ o, live → w.sgact = false → due o → (∀ l, due l → w.pkage.get l ≤ w.pkage.get o ∧ (w.pkage.get l = w.pkage.get o → o ≤ l)) →
    goes (fun x => ∃ set, (∀ l < 32, inMask set l = true ↔ inMask m.lmask l = true ∧ w.lstate.get l = 0 ∧ w.lpc.get l = w.lpc.get o) ∧
      heads { (if w.hdep = 0 then w else w.flush) with
        hdep := 0, cause := none, sgact := true, sgrem := w.sgcfg.extractLsb' 0 16, dretWait := 0, dretPc := [], dretMask := [],
        sgcnt := (if cnt = 0xFFFF then cnt else cnt + 1).setWidth 32, evpcOfQuantum := w.lpc.get o,
        masks := { m with sggrp := set, amask := set } } x set w.lpc.get)) ∧
  (free → w.hdep = 2 → (m.ham2 = 0 ∨ m.ham2 &&& ~~~ w.dretWait ≠ 0 → falls (fun _ => noCause) noCause (m.ham2 &&& ~~~ w.dretWait) w.hpc2.get) ∧
    (∀ l, lowest m.ham2 = some l → m.ham2 &&& ~~~ w.dretWait = 0 → goes (fun x =>
      let hits (i : Nat) : Prop := inMask (w.dretMask.get l) i = true ∧ inMask m.lmask i = true ∧ w.hpc1.get i = w.dretPc.get l
      x = { w.flush with hdep := 1, dretWait := 0, dretPc := [], dretMask := [], masks := { m with ham1 := x.masks.ham1 }, phase := .boundary } ∧
      ((∃ i < 32, hits i) → ∀ i < 32, inMask x.masks.ham1 i = true ↔ hits i) ∧
      ((∀ i < 32, ¬ hits i) → group x.masks.ham1 m.ham1 w.hpc1.get)))) ∧
  (free → w.hdep = 1 → (∀ c, w.cause = some c → goes (fun x => enters w x c)) ∧
    (w.cause = none → m.ham1 = 0 → goes (· = { w with wpark := true, masks := { m with wset := 0 } })) ∧
    (w.cause = none → m.ham1 ≠ 0 → w.dhvEn = true → goes (fun x => heads w x m.ham1 w.hpc1.get)) ∧
    (w.cause = none → w.dhvEn = false → falls (fun _ => w) w m.ham1 w.hpc1.get)) ∧
  (free → w.hdep = 0 → w.dhvEn = false → falls (active noCause) noCause (w.readyIn m.lmask) w.lpc.get) ∧
  (free → w.hdep = 0 → w.dhvEn = true → (∀ c, w.cause = some c → goes (fun x => enters w x c)) ∧
    (w.cause = none → m.arrl ≠ 0 → goes (fun x => ∀ l, lowest m.arrl = some l → enters { w with arrBarrier := false } x
      { evrec := 5 ||| (if w.arrBarrier then 0x800 else 0), evpc := 0, evt := w.lpc.get l, evf := 0, evtk := 0, evm := m.arrl })) ∧
    (w.cause = none → m.arrl = 0 → (m.amask ≠ 0 → goes (fun x => heads w x m.amask w.lpc.get)) ∧
      (m.amask = 0 → w.lanesIn 0 = 0 → goes (· = { w with wpark := true })) ∧
      (m.amask = 0 → w.lanesIn 0 ≠ 0 → goes (fun x => enters w x { evrec := 2, evpc := 0, evt := 0, evf := 0, evtk := 0, evm := 0 }))))

/-- Every instruction and every event answers a next state in every state. Faults of the whole instruction, in the order of
spec/07 R167, for every instruction of the SIMT cores: with no lane enabled only the clause predicate read too early by the first word faults
(spec/11 R252, R260); else the mode (spec/13 R300, spec/07 R183, spec/04 R103), the feature, the role (spec/11
R263, spec/15 R349), and for IADD the operands (R255), the register bounds (spec/05 R137) and the stall count (R260). -/
def Obligations.WholeFaults : Prop := ∀ (i : Instr) (s : State) (x y : Word) (ws : List Word) (st : BitVec 2) (d a b : Code),
  let k := (x.extractLsb' 21 9).toNat
  let w := s.w
  let on := w.clause.enabled
  let absent : Prop := ∃ n, slotFeature k = some n ∧ s.hub.featacc.getLsbD n = false
  let faults (c : BitVec 8) (info : Word) : Prop := exec i s = .next (s.raiseHere c info)
  let legal : Prop := slotForbidden k w.bank = false ∧ s.slotLegal k x y = true
  -- the clause predicate is read too early by the first word
  let early : Prop := w.clause.idx = 1 ∧ w.clause.word.getLsbD 6 = true ∧ w.replay = none ∧
    w.shortStall [] [w.clause.word.extractLsb' 7 3] = true
  let row (op lo hi : Nat) : Prop := 8 * op + lo ≤ k ∧ k ≤ 8 * op + hi
  let stays : Prop := row 0x28 5 5 ∨ row 0x29 1 1 ∨ row 0x29 3 4 ∨ row 0x2A 0 2
  let idx (c : Code) : Nat := w.vwb.toNat + c.toNat
  let out (c : Code) : Prop := c.toNat < 96 ∧ ¬(92 ≤ c.toNat ∧ w.hvBanked = true) ∧ 8 * (s.v.regs + 1) ≤ idx c
  let adds (c : BitVec 8) (info : Word) : Prop := exec (.iadd st d a b) s = .next (s.raiseHere c info)
  let bounded : Prop := ¬ out d ∧ ¬ out a ∧ ¬ out b
  (∃ t, exec i s = .next t) ∧
  (encode i = x :: ws → decodeWord x y = .ok (i, slotLong k) →
    (on = 0 → (s.checked = true → early → faults 0x07 0) ∧
      (s.checked = false ∨ ¬ early → exec i s = .next (s.retire { slot := k, stall := x.extractLsb' 30 2 }))) ∧
    (on ≠ 0 →
      (w.bank = 0 → row 0x29 2 2 → faults 0x01 0) ∧ (1 ≤ w.bank → stays → faults 0x01 0) ∧
      (3 ≤ w.bank → stays ∨ row 0x29 0 0 ∨ row 0x29 2 2 ∨ row 0x2B 0 7 → faults 0x01 0) ∧
      (w.bank = 4 → row 0x37 0 0 ∨ row 0x37 4 4 ∨ row 0x38 1 1 ∨ row 0x3E 3 3 → faults 0x01 0) ∧
      (w.trap.tmode = false → row 0x3E 3 3 → faults 0x01 0) ∧ (w.trap.rmode = false → row 0x3E 6 6 → faults 0x01 0) ∧
      (s.l.record.flags.getLsbD 2 = false → row 0x37 4 4 → faults 0x01 0) ∧
      (legal → absent → faults 0x15 0) ∧
      (legal → ¬ absent → (w.mat = false → row 0x3C 0 4 ∨ row 0x3D 0 7 → faults 0x05 0) ∧ (w.mat = true → row 0x3C 6 7 → faults 0x05 0)))) ∧
  (on ≠ 0 → (96 ≤ d.toNat → adds 0x03 0) ∧
    (d.toNat < 96 → (out d → adds 0x06 (BitVec.ofNat 32 (idx d))) ∧ (¬ out d → out a → adds 0x06 (BitVec.ofNat 32 (idx a))) ∧
      (¬ out d → ¬ out a → out b → adds 0x06 (BitVec.ofNat 32 (idx b))) ∧
      (bounded → s.checked = true → w.shortStall [(d, 1), (a, 1), (b, 1)] [] = true ∨ early → adds 0x07 0)))

/-- A step runs the decoded instruction (spec/10 R246, spec/11 R249–R251, R262, R264, spec/16 R363): in the turn of a warp inside a clause the
words at its program counter are fetched and decoded, and the step is `exec` of that instruction (a word that is no instruction
raises its fault); at a boundary or a header it is that event; in the turn of a Lake engine, the word at its program counter; an
event of the table is `exec` of it. What precedes it is the model's: the agenda's turn is taken, time passes, the warp's
issue slot is counted (spec/04 R88), and a warp that is held, stopped, asleep, draining or whose fault waits does not issue. A word that is no instruction of this version, of a slot that the
firmware's microcode provides (spec/10 R243), is refused by name: the spec gives it no effect. The model's choices in it: the agenda, and the
fault `idle` where nothing of the device can act before the outside world does (log 1, DESIGN CHOICE); how issue slots are counted, and that a
turn of the agenda that R88 does not choose issues nothing (log 16); the refusal of a microcode slot (log 81). -/
def Obligations.StepRuns : Prop := ∀ (s : State) (i : Instr) (dt k e : Nat) (rest : List Turn),
  let ready (t : State) : Prop := t.w.swapFault = none ∧ t.w.canTurn = true ∧ t.vatTrapHolds k = false ∧ t.asleep t.w = false ∧
    t.heldAtSafePoint = none
  let runs (t : State) : Prop :=
    (t.w.phase = .boundary → step s = exec .clauseBoundary t) ∧
    (t.w.phase = .header → step s = exec .clauseIssue t.markStart) ∧
    (t.w.phase = .word →
      let c := t.w.clause
      let f := t.markStart.fetch k c.pc c.hdr
      let g := f.1.fetch k (c.pc + 4) c.hdr
      let x := match c.rep with | some r => stepWord r f.2.2 | none => f.2.2
      let long := slotLong (x.extractLsb' 21 9).toNat
      let u := if long then g.1 else f.1
      let y := if long then g.2.2 else 0
      ∀ pa slot ca, f.2.1 = .ok pa slot ca →
        (∀ b, decodeWord x y = .ok (i, b) → step s = exec i u) ∧
        (decodeWord x y = .error .unassigned →
          let k := (x.extractLsb' 21 9).toNat
          let given := slotAssigned k = false ∧ s.hub.microcode.getLsbD k = true
          (given → step s = .refused (.microcode k)) ∧ (¬ given → c.enabled ≠ 0 → step s = .next (u.raiseHere 0x01 0)) ∧
          (¬ given → c.enabled = 0 → u.checked = false →
            step s = .next (u.retire { slot := k, stall := x.extractLsb' 30 2 }))))
  let turn : State := State.elapse { s with agenda := rest } dt
  let inTurn (t : State) : State := State.takeSlot { t with cur := k }
  let self : State := s.elapse 1
  ((s.elapse dt).gtime = s.gtime + dt ∧ (s.elapse dt).fresh = s.fresh + 1 ∧ (s.elapse dt).mem = s.mem ∧
    ∀ j, ∃ b n, (s.elapse dt).warp j = { s.warp j with wasReady := b, since := n }) ∧
  (s.agenda = ⟨dt, .warp k⟩ :: rest → turn.chosen k = true → ready (inTurn turn) → runs (inTurn turn)) ∧
  (s.agenda = ⟨dt, .warp k⟩ :: rest → turn.chosen k = false → step s = .next turn) ∧
  (s.agenda = [] → s.nextDue = some (.warp k) → ready (inTurn self) → runs (inTurn self)) ∧
  (s.agenda = ⟨dt, .engine e⟩ :: rest → State.fetchLake { turn with curEng := e } = some i → step s = exec i { turn with curEng := e }) ∧
  (s.agenda = [] → s.nextDue = some (.engine e) → State.fetchLake { self with curEng := e } = some i → step s = exec i { self with curEng := e }) ∧
  (∀ c x xs ctx w, (s.eng s.curEng).run = some c → (s.eng s.curEng).queue = x :: xs → c.status = none → c.pc.toNat < 1024 →
    (s.eng s.curEng).program.get c.pc.toNat = some (ctx, w) → ctx = x.ctx → s.fetchLake = decodeLake w) ∧
  (s.agenda = ⟨dt, .event i⟩ :: rest → encode i = [] → i ≠ .clauseIssue → i ≠ .clauseBoundary → step s = exec i turn) ∧
  (s.agenda = [] → s.nextDue = none → step s = .fault .idle)

/-- Words that the spec encodes bit by bit decode to what they stand for (spec/11 R253, R262, R264, spec/14 R328, spec/15, spec/16 R367). -/
def Obligations.DecodeWords : Prop :=
  (∀ x, decodeWord 0x00004103 x = .ok (.iadd 0 1 2 3, false)) ∧
  (∀ x, decodeWord 0x04013FFD x = .ok (.movi 0 4 0x3FFD, false)) ∧
  decodeWord 0x04388000 0x12345678 = .ok (.limm 0 98 0x12345678, true) ∧
  decodeWord 0x01C00083 0x09000000 = .ok (.icmpp 0 1 3 2 2 0 0 0, true) ∧
  (∀ x, decodeWord 0x282E0010 x = .ok (.braPred 0 3 1 0x10, false)) ∧
  decodeWord 0x34804502 0x60400000 = .ok (.atom 0 1 10 2 { sco := 3, ord := 0, md := 0, prm := 0, spl := 0, sz := 4, sub := 0, off := 0 }, true) ∧
  decodeWord 0x361A356C 0 = .ok (.copy 0 104 106 108 0, true) ∧
  (∀ x, decodeWord 0x3E400005 x = .ok (.trap 0 5, false)) ∧
  (∀ x, decodeWord 0x3F000350 x = .ok (.rep 0 3 1 1 0, false)) ∧
  (∀ x, decodeWord 0x05000000 x = .error .unassigned) ∧
  decodeLake 0x1C400100 = some (.accsc 1 256) ∧ decodeLake 0x2C040000 = some (.ccadd 1 0) ∧ decodeLake 0x48000000 = none

/-- Decoding and encoding agree, for every instruction at every operand and for every word (spec/11 R253–R255, R264, spec/16 R367). -/
def Obligations.RoundTrip : Prop :=
  (∀ i : Instr, i.wf = true → encode i = [] ∨ (∃ w, encode i = [w] ∧ decodeLake w = some i) ∨
    (∃ w, encode i = [w] ∧ ∀ x, decodeWord w x = .ok (i, false)) ∨ (∃ w x, encode i = [w, x] ∧ decodeWord w x = .ok (i, true))) ∧
  (∀ w x i, (decodeWord w x = .ok (i, false) → encode i = [w]) ∧ (decodeWord w x = .ok (i, true) → encode i = [w, x]) ∧
    (decodeLake w = some i → encode i = [w]))

/-- What every step keeps: memory stays in its canonical form, and FEATACC names only features of FEATURES (spec/03 R73). That a byte
equal to what an unlisted address reads as is not listed is the model's own form of memory. -/
def Obligations.StepInvariant : Prop := ∀ s t : State, s.Inv → step s = .next t → t.Inv

/-- The machine right after reset meets the invariant, with the values the spec gives (spec/03 R75, spec/01 R23, R31, spec/02 R56). That memory
lists nothing and no warp exists is the model's choice (log 3 and log 9, DESIGN CHOICE). -/
def Obligations.ResetInvariant : Prop := State.reset.Inv ∧ State.reset.hub.devst = .booting ∧ State.reset.hub.featacc = 0 ∧
  State.reset.hub.pwrlim = 1800 ∧ State.reset.hub.dlto = 100 ∧ State.reset.hub.hbmiss = 16 ∧ State.reset.warps = [] ∧ State.reset.mem = []
end

