-- ==== Sys2Proof/Laws/Dispatch.lean ====
section
/-! SUPPORT. The meaning that `exec` calls, constructor by constructor. -/

namespace Sys2Proof.Machine

theorem exec_iadd {st d a b} (s : State) : exec (.iadd st d a b) s = execIadd st d a b s := rfl
theorem exec_isub {st d a b} (s : State) : exec (.isub st d a b) s = execIsub st d a b s := rfl
theorem exec_imul {st d a b} (s : State) : exec (.imul st d a b) s = execImul st d a b s := rfl
theorem exec_imulh {st d a b} (s : State) : exec (.imulh st d a b) s = execImulh st d a b s := rfl
theorem exec_imin {st d a b} (s : State) : exec (.imin st d a b) s = execImin st d a b s := rfl
theorem exec_imax {st d a b} (s : State) : exec (.imax st d a b) s = execImax st d a b s := rfl
theorem exec_iabs {st d a} (s : State) : exec (.iabs st d a) s = execIabs st d a s := rfl
theorem exec_ineg {st d a} (s : State) : exec (.ineg st d a) s = execIneg st d a s := rfl
theorem exec_imad {st d a b sub c} (s : State) : exec (.imad st d a b sub c) s = execImad st d a b sub c s := rfl
theorem exec_iadd64 {st d a b} (s : State) : exec (.iadd64 st d a b) s = execIadd64 st d a b s := rfl
theorem exec_isub64 {st d a b} (s : State) : exec (.isub64 st d a b) s = execIsub64 st d a b s := rfl
theorem exec_bfi {st d a b c imm7} (s : State) : exec (.bfi st d a b c imm7) s = execBfi st d a b c imm7 s := rfl
theorem exec_bfx {st d a b sub imm7} (s : State) : exec (.bfx st d a b sub imm7) s = execBfx st d a b sub imm7 s := rfl
theorem exec_sel {st d a b ps pn} (s : State) : exec (.sel st d a b ps pn) s = execSel st d a b ps pn s := rfl
theorem exec_icmpp {st a b sub pd ps pn imm7} (s : State) : exec (.icmpp st a b sub pd ps pn imm7) s = execIcmpp st a b sub pd ps pn imm7 s := rfl
theorem exec_and {st d a b} (s : State) : exec (.and st d a b) s = execAnd st d a b s := rfl
theorem exec_or {st d a b} (s : State) : exec (.or st d a b) s = execOr st d a b s := rfl
theorem exec_xor {st d a b} (s : State) : exec (.xor st d a b) s = execXor st d a b s := rfl
theorem exec_not {st d a} (s : State) : exec (.not st d a) s = execNot st d a s := rfl
theorem exec_shl {st d a b} (s : State) : exec (.shl st d a b) s = execShl st d a b s := rfl
theorem exec_shr {st d a b} (s : State) : exec (.shr st d a b) s = execShr st d a b s := rfl
theorem exec_sar {st d a b} (s : State) : exec (.sar st d a b) s = execSar st d a b s := rfl
theorem exec_rol {st d a b} (s : State) : exec (.rol st d a b) s = execRol st d a b s := rfl
theorem exec_shl64 {st d a b} (s : State) : exec (.shl64 st d a b) s = execShl64 st d a b s := rfl
theorem exec_shr64 {st d a b} (s : State) : exec (.shr64 st d a b) s = execShr64 st d a b s := rfl
theorem exec_popc {st d a} (s : State) : exec (.popc st d a) s = execPopc st d a s := rfl
theorem exec_clz {st d a} (s : State) : exec (.clz st d a) s = execClz st d a s := rfl
theorem exec_brev {st d a} (s : State) : exec (.brev st d a) s = execBrev st d a s := rfl
theorem exec_mov {st d a} (s : State) : exec (.mov st d a) s = execMov st d a s := rfl
theorem exec_movi {st d imm} (s : State) : exec (.movi st d imm) s = execMovi st d imm s := rfl
theorem exec_limm {st d imm} (s : State) : exec (.limm st d imm) s = execLimm st d imm s := rfl
theorem exec_setwb {st imm} (s : State) : exec (.setwb st imm) s = execSetwb st imm s := rfl
theorem exec_movxR {st d a imm7} (s : State) : exec (.movxR st d a imm7) s = execMovxR st d a imm7 s := rfl
theorem exec_movxW {st a b imm7} (s : State) : exec (.movxW st a b imm7) s = execMovxW st a b imm7 s := rfl
theorem exec_fadd {st d a b} (s : State) : exec (.fadd st d a b) s = execFadd st d a b s := rfl
theorem exec_fsub {st d a b} (s : State) : exec (.fsub st d a b) s = execFsub st d a b s := rfl
theorem exec_fmul {st d a b} (s : State) : exec (.fmul st d a b) s = execFmul st d a b s := rfl
theorem exec_fmin {st d a b} (s : State) : exec (.fmin st d a b) s = execFmin st d a b s := rfl
theorem exec_fmax {st d a b} (s : State) : exec (.fmax st d a b) s = execFmax st d a b s := rfl
theorem exec_fneg {st d a} (s : State) : exec (.fneg st d a) s = execFneg st d a s := rfl
theorem exec_fabs {st d a} (s : State) : exec (.fabs st d a) s = execFabs st d a s := rfl
theorem exec_fclass {st d a} (s : State) : exec (.fclass st d a) s = execFclass st d a s := rfl
theorem exec_faddRm {st d a b rm} (s : State) : exec (.faddRm st d a b rm) s = execFaddRm st d a b rm s := rfl
theorem exec_fsubRm {st d a b rm} (s : State) : exec (.fsubRm st d a b rm) s = execFsubRm st d a b rm s := rfl
theorem exec_fmulRm {st d a b rm} (s : State) : exec (.fmulRm st d a b rm) s = execFmulRm st d a b rm s := rfl
theorem exec_ffma {st d a b rm c} (s : State) : exec (.ffma st d a b rm c) s = execFfma st d a b rm c s := rfl
theorem exec_fcmpp {st a b sub pd ps pn imm7} (s : State) : exec (.fcmpp st a b sub pd ps pn imm7) s = execFcmpp st a b sub pd ps pn imm7 s := rfl
theorem exec_frint {st d a rm} (s : State) : exec (.frint st d a rm) s = execFrint st d a rm s := rfl
theorem exec_fdp2 {st d a b rm sub c} (s : State) : exec (.fdp2 st d a b rm sub c) s = execFdp2 st d a b rm sub c s := rfl
theorem exec_hadd2 {st d a b} (s : State) : exec (.hadd2 st d a b) s = execHadd2 st d a b s := rfl
theorem exec_hmul2 {st d a b} (s : State) : exec (.hmul2 st d a b) s = execHmul2 st d a b s := rfl
theorem exec_hfma2 {st d a b rm sub c} (s : State) : exec (.hfma2 st d a b rm sub c) s = execHfma2 st d a b rm sub c s := rfl
theorem exec_hadd2X {st d a b rm sub} (s : State) : exec (.hadd2X st d a b rm sub) s = execHadd2X st d a b rm sub s := rfl
theorem exec_hmul2X {st d a b rm sub} (s : State) : exec (.hmul2X st d a b rm sub) s = execHmul2X st d a b rm sub s := rfl
theorem exec_idp4 {st d a b sub c} (s : State) : exec (.idp4 st d a b sub c) s = execIdp4 st d a b sub c s := rfl
theorem exec_cvt {st d a rm sub imm7} (s : State) : exec (.cvt st d a rm sub imm7) s = execCvt st d a rm sub imm7 s := rfl
theorem exec_cvtsTo {st d a rm fs imm7} (s : State) : exec (.cvtsTo st d a rm fs imm7) s = execCvtsTo st d a rm fs imm7 s := rfl
theorem exec_cvtsFrom {st d a fs imm7} (s : State) : exec (.cvtsFrom st d a fs imm7) s = execCvtsFrom st d a fs imm7 s := rfl
theorem exec_frcp {st d a} (s : State) : exec (.frcp st d a) s = execFrcp st d a s := rfl
theorem exec_frsq {st d a} (s : State) : exec (.frsq st d a) s = execFrsq st d a s := rfl
theorem exec_fsqrt {st d a} (s : State) : exec (.fsqrt st d a) s = execFsqrt st d a s := rfl
theorem exec_fexp2 {st d a} (s : State) : exec (.fexp2 st d a) s = execFexp2 st d a s := rfl
theorem exec_flog2 {st d a} (s : State) : exec (.flog2 st d a) s = execFlog2 st d a s := rfl
theorem exec_fsin {st d a} (s : State) : exec (.fsin st d a) s = execFsin st d a s := rfl
theorem exec_fcos {st d a} (s : State) : exec (.fcos st d a) s = execFcos st d a s := rfl
theorem exec_tint {st d a} (s : State) : exec (.tint st d a) s = execTint st d a s := rfl
theorem exec_tintld {st a} (s : State) : exec (.tintld st a) s = execTintld st a s := rfl
theorem exec_tintsw {st} (s : State) : exec (.tintsw st) s = execTintsw st s := rfl
theorem exec_chld {st d a} (s : State) : exec (.chld st d a) s = execChld st d a s := rfl
theorem exec_chrun {st d a b sub imm7} (s : State) : exec (.chrun st d a b sub imm7) s = execChrun st d a b sub imm7 s := rfl
theorem exec_kadd {st d a b} (s : State) : exec (.kadd st d a b) s = execKadd st d a b s := rfl
theorem exec_ksub {st d a b} (s : State) : exec (.ksub st d a b) s = execKsub st d a b s := rfl
theorem exec_kmul {st d a b} (s : State) : exec (.kmul st d a b) s = execKmul st d a b s := rfl
theorem exec_kand {st d a b} (s : State) : exec (.kand st d a b) s = execKand st d a b s := rfl
theorem exec_kor {st d a b} (s : State) : exec (.kor st d a b) s = execKor st d a b s := rfl
theorem exec_kxor {st d a b} (s : State) : exec (.kxor st d a b) s = execKxor st d a b s := rfl
theorem exec_kshl {st d a b} (s : State) : exec (.kshl st d a b) s = execKshl st d a b s := rfl
theorem exec_kshr {st d a b} (s : State) : exec (.kshr st d a b) s = execKshr st d a b s := rfl
theorem exec_kmov {st d a} (s : State) : exec (.kmov st d a) s = execKmov st d a s := rfl
theorem exec_kmovi {st d imm} (s : State) : exec (.kmovi st d imm) s = execKmovi st d imm s := rfl
theorem exec_kcmpp {st a b sub pd ps pn imm7} (s : State) : exec (.kcmpp st a b sub pd ps pn imm7) s = execKcmpp st a b sub pd ps pn imm7 s := rfl
theorem exec_klane {st d a b} (s : State) : exec (.klane st d a b) s = execKlane st d a b s := rfl
theorem exec_kpopm {st d a b} (s : State) : exec (.kpopm st d a b) s = execKpopm st d a b s := rfl
theorem exec_bra {st off} (s : State) : exec (.bra st off) s = execBra st off s := rfl
theorem exec_braPred {st ps pn off} (s : State) : exec (.braPred st ps pn off) s = execBraPred st ps pn off s := rfl
theorem exec_brx {st a} (s : State) : exec (.brx st a) s = execBrx st a s := rfl
theorem exec_call {st off} (s : State) : exec (.call st off) s = execCall st off s := rfl
theorem exec_ret {st a} (s : State) : exec (.ret st a) s = execRet st a s := rfl
theorem exec_exit {st} (s : State) : exec (.exit st) s = execExit st s := rfl
theorem exec_nop {st} (s : State) : exec (.nop st) s = execNop st s := rfl
theorem exec_sleep {st imm} (s : State) : exec (.sleep st imm) s = execSleep st imm s := rfl
theorem exec_enrol {st d a} (s : State) : exec (.enrol st d a) s = execEnrol st d a s := rfl
theorem exec_jwait {st d} (s : State) : exec (.jwait st d) s = execJwait st d s := rfl
theorem exec_dret {st a b} (s : State) : exec (.dret st a b) s = execDret st a b s := rfl
theorem exec_park {st} (s : State) : exec (.park st) s = execPark st s := rfl
theorem exec_yield {st} (s : State) : exec (.yield st) s = execYield st s := rfl
theorem exec_barv {st} (s : State) : exec (.barv st) s = execBarv st s := rfl
theorem exec_barn {st d a} (s : State) : exec (.barn st d a) s = execBarn st d a s := rfl
theorem exec_bleave {st} (s : State) : exec (.bleave st) s = execBleave st s := rfl
theorem exec_stgbeg {st a b} (s : State) : exec (.stgbeg st a b) s = execStgbeg st a b s := rfl
theorem exec_stgnext {st d pd} (s : State) : exec (.stgnext st d pd) s = execStgnext st d pd s := rfl
theorem exec_stgadv {st d a b} (s : State) : exec (.stgadv st d a b) s = execStgadv st d a b s := rfl
theorem exec_stgset {st d a b} (s : State) : exec (.stgset st d a b) s = execStgset st d a b s := rfl
theorem exec_stgwl {st d a b} (s : State) : exec (.stgwl st d a b) s = execStgwl st d a b s := rfl
theorem exec_stgend {st} (s : State) : exec (.stgend st) s = execStgend st s := rfl
theorem exec_lxchAt {st d a b sub c} (s : State) : exec (.lxchAt st d a b sub c) s = execLxchAt st d a b sub c s := rfl
theorem exec_lxchBack {st d a b sub c} (s : State) : exec (.lxchBack st d a b sub c) s = execLxchBack st d a b sub c s := rfl
theorem exec_lxchFwd {st d a b sub c} (s : State) : exec (.lxchFwd st d a b sub c) s = execLxchFwd st d a b sub c s := rfl
theorem exec_lxchFlip {st d a b sub c} (s : State) : exec (.lxchFlip st d a b sub c) s = execLxchFlip st d a b sub c s := rfl
theorem exec_ltest {st sub pd ps pn} (s : State) : exec (.ltest st sub pd ps pn) s = execLtest st sub pd ps pn s := rfl
theorem exec_pmask {st d a} (s : State) : exec (.pmask st d a) s = execPmask st d a s := rfl
theorem exec_lsame {st d a b} (s : State) : exec (.lsame st d a b) s = execLsame st d a b s := rfl
theorem exec_lfold {st d a sub} (s : State) : exec (.lfold st d a sub) s = execLfold st d a sub s := rfl
theorem exec_scanx {st d a sub imm7} (s : State) : exec (.scanx st d a sub imm7) s = execScanx st d a sub imm7 s := rfl
theorem exec_isect {st d a b c pd} (s : State) : exec (.isect st d a b c pd) s = execIsect st d a b c pd s := rfl
theorem exec_bmpos {st d a b c pd} (s : State) : exec (.bmpos st d a b c pd) s = execBmpos st d a b c pd s := rfl
theorem exec_ld {st d a xa} (s : State) : exec (.ld st d a xa) s = execLd st d a xa s := rfl
theorem exec_st {st a b xa} (s : State) : exec (.st st a b xa) s = execSt st a b xa s := rfl
theorem exec_lds {st d a xa} (s : State) : exec (.lds st d a xa) s = execLds st d a xa s := rfl
theorem exec_sts {st a b xa} (s : State) : exec (.sts st a b xa) s = execSts st a b xa s := rfl
theorem exec_atom {st d a b xa} (s : State) : exec (.atom st d a b xa) s = execAtom st d a b xa s := rfl
theorem exec_atoms {st d a b xa} (s : State) : exec (.atoms st d a b xa) s = execAtoms st d a b xa s := rfl
theorem exec_red {st a b xa} (s : State) : exec (.red st a b xa) s = execRed st a b xa s := rfl
theorem exec_pref {st a sub off} (s : State) : exec (.pref st a sub off) s = execPref st a sub off s := rfl
theorem exec_fence {st a} (s : State) : exec (.fence st a) s = execFence st a s := rfl
theorem exec_ifence {st} (s : State) : exec (.ifence st) s = execIfence st s := rfl
theorem exec_lfence {st} (s : State) : exec (.lfence st) s = execLfence st s := rfl
theorem exec_waitc {st a b} (s : State) : exec (.waitc st a b) s = execWaitc st a b s := rfl
theorem exec_cctlIl1 {st a off} (s : State) : exec (.cctlIl1 st a off) s = execCctlIl1 st a off s := rfl
theorem exec_cctlIrlc {st a off} (s : State) : exec (.cctlIrlc st a off) s = execCctlIrlc st a off s := rfl
theorem exec_cctlWbl2 {st a off} (s : State) : exec (.cctlWbl2 st a off) s = execCctlWbl2 st a off s := rfl
theorem exec_copy {st d a b sub} (s : State) : exec (.copy st d a b sub) s = execCopy st d a b sub s := rfl
theorem exec_dcopy {st d a b sub c} (s : State) : exec (.dcopy st d a b sub c) s = execDcopy st d a b sub c s := rfl
theorem exec_ctabld {st d a} (s : State) : exec (.ctabld st d a) s = execCtabld st d a s := rfl
theorem exec_secfg {st d a b} (s : State) : exec (.secfg st d a b) s = execSecfg st d a b s := rfl
theorem exec_sego {st d} (s : State) : exec (.sego st d) s = execSego st d s := rfl
theorem exec_sestop {st d} (s : State) : exec (.sestop st d) s = execSestop st d s := rfl
theorem exec_sltake {st d a} (s : State) : exec (.sltake st d a) s = execSltake st d a s := rfl
theorem exec_slgive {st a b} (s : State) : exec (.slgive st a b) s = execSlgive st a b s := rfl
theorem exec_spawn {st a} (s : State) : exec (.spawn st a) s = execSpawn st a s := rfl
theorem exec_spawnR {st a} (s : State) : exec (.spawnR st a) s = execSpawnR st a s := rfl
theorem exec_tdone {st} (s : State) : exec (.tdone st) s = execTdone st s := rfl
theorem exec_hista {st a} (s : State) : exec (.hista st a) s = execHista st a s := rfl
theorem exec_histl {st d a} (s : State) : exec (.histl st d a) s = execHistl st d a s := rfl
theorem exec_labort {st} (s : State) : exec (.labort st) s = execLabort st s := rfl
theorem exec_abchk {st} (s : State) : exec (.abchk st) s = execAbchk st s := rfl
theorem exec_bkprog {st a b c} (s : State) : exec (.bkprog st a b c) s = execBkprog st a b c s := rfl
theorem exec_bklaunch {st a b fs} (s : State) : exec (.bklaunch st a b fs) s = execBklaunch st a b fs s := rfl
theorem exec_bkfence {st} (s : State) : exec (.bkfence st) s = execBkfence st s := rfl
theorem exec_tcfg {st a b} (s : State) : exec (.tcfg st a b) s = execTcfg st a b s := rfl
theorem exec_mma {st d a b fs imm7} (s : State) : exec (.mma st d a b fs imm7) s = execMma st d a b fs imm7 s := rfl
theorem exec_mmas {st d a b sub fs imm7} (s : State) : exec (.mmas st d a b sub fs imm7) s = execMmas st d a b sub fs imm7 s := rfl
theorem exec_mzero {st d} (s : State) : exec (.mzero st d) s = execMzero st d s := rfl
theorem exec_mld {st d a b} (s : State) : exec (.mld st d a b) s = execMld st d a b s := rfl
theorem exec_mst {st d a b} (s : State) : exec (.mst st d a b) s = execMst st d a b s := rfl
theorem exec_mfill {st d a b} (s : State) : exec (.mfill st d a b) s = execMfill st d a b s := rfl
theorem exec_mdrain {st d a b sub imm7} (s : State) : exec (.mdrain st d a b sub imm7) s = execMdrain st d a b sub imm7 s := rfl
theorem exec_acqa {st d a} (s : State) : exec (.acqa st d a) s = execAcqa st d a s := rfl
theorem exec_rela {st} (s : State) : exec (.rela st) s = execRela st s := rfl
theorem exec_msync {st} (s : State) : exec (.msync st) s = execMsync st s := rfl
theorem exec_sysr {st d num} (s : State) : exec (.sysr st d num) s = execSysr st d num s := rfl
theorem exec_sysw {st d num} (s : State) : exec (.sysw st d num) s = execSysw st d num s := rfl
theorem exec_syswRingd {st d num} (s : State) : exec (.syswRingd st d num) s = execSyswRingd st d num s := rfl
theorem exec_syswRingtag {st d num} (s : State) : exec (.syswRingtag st d num) s = execSyswRingtag st d num s := rfl
theorem exec_syswVbstat {st d num} (s : State) : exec (.syswVbstat st d num) s = execSyswVbstat st d num s := rfl
theorem exec_syswNbstat {st d num} (s : State) : exec (.syswNbstat st d num) s = execSyswNbstat st d num s := rfl
theorem exec_syswLstate {st d num} (s : State) : exec (.syswLstate st d num) s = execSyswLstate st d num s := rfl
theorem exec_syswLpc {st d num} (s : State) : exec (.syswLpc st d num) s = execSyswLpc st d num s := rfl
theorem exec_syswHistbin {st d num} (s : State) : exec (.syswHistbin st d num) s = execSyswHistbin st d num s := rfl
theorem exec_trap {st b} (s : State) : exec (.trap st b) s = execTrap st b s := rfl
theorem exec_tret {st} (s : State) : exec (.tret st) s = execTret st s := rfl
theorem exec_tretSkip {st} (s : State) : exec (.tretSkip st) s = execTretSkip st s := rfl
theorem exec_tretEsc {st} (s : State) : exec (.tretEsc st) s = execTretEsc st s := rfl
theorem exec_bkpt {st b} (s : State) : exec (.bkpt st b) s = execBkpt st b s := rfl
theorem exec_savew {st a} (s : State) : exec (.savew st a) s = execSavew st a s := rfl
theorem exec_savewDone {st} (s : State) : exec (.savewDone st) s = execSavewDone st s := rfl
theorem exec_restw {st a} (s : State) : exec (.restw st a) s = execRestw st a s := rfl
theorem exec_rep {st count sd sa sb} (s : State) : exec (.rep st count sd sa sb) s = execRep st count sd sa sb s := rfl
theorem exec_lakeNop (s : State) : exec .lakeNop s = execLakeNop s := rfl
theorem exec_xld (s : State) : exec .xld s = execXld s := rfl
theorem exec_rowrd {n} (s : State) : exec (.rowrd n) s = execRowrd n s := rfl
theorem exec_mac8 {sat} (s : State) : exec (.mac8 sat) s = execMac8 sat s := rfl
theorem exec_mac4 {sat} (s : State) : exec (.mac4 sat) s = execMac4 sat s := rfl
theorem exec_mach {sat} (s : State) : exec (.mach sat) s = execMach sat s := rfl
theorem exec_accz {ea n1} (s : State) : exec (.accz ea n1) s = execAccz ea n1 s := rfl
theorem exec_accsc {ea off} (s : State) : exec (.accsc ea off) s = execAccsc ea off s := rfl
theorem exec_accadd {ea eb} (s : State) : exec (.accadd ea eb) s = execAccadd ea eb s := rfl
theorem exec_outw {ea n1} (s : State) : exec (.outw ea n1) s = execOutw ea n1 s := rfl
theorem exec_rcadd {set imm} (s : State) : exec (.rcadd set imm) s = execRcadd set imm s := rfl
theorem exec_ccadd {set imm} (s : State) : exec (.ccadd set imm) s = execCcadd set imm s := rfl
theorem exec_loop {l n} (s : State) : exec (.loop l n) s = execLoop l n s := rfl
theorem exec_lend {l} (s : State) : exec (.lend l) s = execLend l s := rfl
theorem exec_lakeSync (s : State) : exec .lakeSync s = execLakeSync s := rfl
theorem exec_flagsC {mask} (s : State) : exec (.flagsC mask) s = execFlagsC mask s := rfl
theorem exec_flagsR {ea} (s : State) : exec (.flagsR ea) s = execFlagsR ea s := rfl
theorem exec_trapl {n} (s : State) : exec (.trapl n) s = execTrapl n s := rfl
theorem exec_halt (s : State) : exec .halt s = execHalt s := rfl
theorem exec_deviceReset {boot} (s : State) : exec (.deviceReset boot) s = execDeviceReset boot s := rfl
theorem exec_firmwareFetchRetry {boot} (s : State) : exec (.firmwareFetchRetry boot) s = execFirmwareFetchRetry boot s := rfl
theorem exec_getVersion {mbox} (s : State) : exec (.getVersion mbox) s = execGetVersion mbox s := rfl
theorem exec_getCapabilities {mbox} (s : State) : exec (.getCapabilities mbox) s = execGetCapabilities mbox s := rfl
theorem exec_negotiateAlgorithms {mbox} (s : State) : exec (.negotiateAlgorithms mbox) s = execNegotiateAlgorithms mbox s := rfl
theorem exec_getDigests {mbox} (s : State) : exec (.getDigests mbox) s = execGetDigests mbox s := rfl
theorem exec_getCertificate {mbox} (s : State) : exec (.getCertificate mbox) s = execGetCertificate mbox s := rfl
theorem exec_challenge {mbox nonce} (s : State) : exec (.challenge mbox nonce) s = execChallenge mbox nonce s := rfl
theorem exec_getMeasurements {mbox} (s : State) : exec (.getMeasurements mbox) s = execGetMeasurements mbox s := rfl
theorem exec_keyExchange {mbox} (s : State) : exec (.keyExchange mbox) s = execKeyExchange mbox s := rfl
theorem exec_keySlotLoad {slot key} (s : State) : exec (.keySlotLoad slot key) s = execKeySlotLoad slot key s := rfl
theorem exec_keySlotClear {slot} (s : State) : exec (.keySlotClear slot) s = execKeySlotClear slot s := rfl
theorem exec_sqDoorbell {ctx q wi} (s : State) : exec (.sqDoorbell ctx q wi) s = execSqDoorbell ctx q wi s := rfl
theorem exec_sqEnable {ctx q} (s : State) : exec (.sqEnable ctx q) s = execSqEnable ctx q s := rfl
theorem exec_lotAccept {ctx q} (s : State) : exec (.lotAccept ctx q) s = execLotAccept ctx q s := rfl
theorem exec_waitSemaphoreRead {lot} (s : State) : exec (.waitSemaphoreRead lot) s = execWaitSemaphoreRead lot s := rfl
theorem exec_lotGateOpen {lot} (s : State) : exec (.lotGateOpen lot) s = execLotGateOpen lot s := rfl
theorem exec_vatPlace {lot} (s : State) : exec (.vatPlace lot) s = execVatPlace lot s := rfl
theorem exec_cohabPlace {lot} (s : State) : exec (.cohabPlace lot) s = execCohabPlace lot s := rfl
theorem exec_warpDrainDone {warp} (s : State) : exec (.warpDrainDone warp) s = execWarpDrainDone warp s := rfl
theorem exec_vatRestorePlace {vat} (s : State) : exec (.vatRestorePlace vat) s = execVatRestorePlace vat s := rfl
theorem exec_vatLeave {vat} (s : State) : exec (.vatLeave vat) s = execVatLeave vat s := rfl
theorem exec_lotComplete {lot} (s : State) : exec (.lotComplete lot) s = execLotComplete lot s := rfl
theorem exec_driverDoorbell {part wi} (s : State) : exec (.driverDoorbell part wi) s = execDriverDoorbell part wi s := rfl
theorem exec_ctxnew {part} (s : State) : exec (.ctxnew part) s = execCtxnew part s := rfl
theorem exec_ctxreset {part} (s : State) : exec (.ctxreset part) s = execCtxreset part s := rfl
theorem exec_tlbinv {part} (s : State) : exec (.tlbinv part) s = execTlbinv part s := rfl
theorem exec_tlbinvComplete {part} (s : State) : exec (.tlbinvComplete part) s = execTlbinvComplete part s := rfl
theorem exec_ctxfree {part} (s : State) : exec (.ctxfree part) s = execCtxfree part s := rfl
theorem exec_driverBadOpcode {part} (s : State) : exec (.driverBadOpcode part) s = execDriverBadOpcode part s := rfl
theorem exec_fsvcResume {ctx seq} (s : State) : exec (.fsvcResume ctx seq) s = execFsvcResume ctx seq s := rfl
theorem exec_fsvcFaillot {ctx seq} (s : State) : exec (.fsvcFaillot ctx seq) s = execFsvcFaillot ctx seq s := rfl
theorem exec_fsvcFailctx {ctx seq} (s : State) : exec (.fsvcFailctx ctx seq) s = execFsvcFailctx ctx seq s := rfl
theorem exec_feataccWrite {fn value} (s : State) : exec (.feataccWrite fn value) s = execFeataccWrite fn value s := rfl
theorem exec_pwrlimWrite {fn value} (s : State) : exec (.pwrlimWrite fn value) s = execPwrlimWrite fn value s := rfl
theorem exec_plcfgWrite {fn value} (s : State) : exec (.plcfgWrite fn value) s = execPlcfgWrite fn value s := rfl
theorem exec_registerWrite {src offset value} (s : State) : exec (.registerWrite src offset value) s = execRegisterWrite src offset value s := rfl
theorem exec_powerGrantPeriod (s : State) : exec .powerGrantPeriod s = execPowerGrantPeriod s := rfl
theorem exec_heartbeatSend {die} (s : State) : exec (.heartbeatSend die) s = execHeartbeatSend die s := rfl
theorem exec_hubIntervalTick (s : State) : exec .hubIntervalTick s = execHubIntervalTick s := rfl
theorem exec_dltoExpiry {dies} (s : State) : exec (.dltoExpiry dies) s = execDltoExpiry dies s := rfl
theorem exec_dieTakeDown {die} (s : State) : exec (.dieTakeDown die) s = execDieTakeDown die s := rfl
theorem exec_dieResetStart {die} (s : State) : exec (.dieResetStart die) s = execDieResetStart die s := rfl
theorem exec_dieResetDone {die} (s : State) : exec (.dieResetDone die) s = execDieResetDone die s := rfl
theorem exec_packetReceive {pkt} (s : State) : exec (.packetReceive pkt) s = execPacketReceive pkt s := rfl
theorem exec_flitCrcFail {src dst} (s : State) : exec (.flitCrcFail src dst) s = execFlitCrcFail src dst s := rfl
theorem exec_neighbourLinkRetrainFail {die} (s : State) : exec (.neighbourLinkRetrainFail die) s = execNeighbourLinkRetrainFail die s := rfl
theorem exec_acktoExpiry {op} (s : State) : exec (.acktoExpiry op) s = execAcktoExpiry op s := rfl
theorem exec_gStoreAck {op} (s : State) : exec (.gStoreAck op) s = execGStoreAck op s := rfl
theorem exec_loadComplete {op} (s : State) : exec (.loadComplete op) s = execLoadComplete op s := rfl
theorem exec_storePerformed {op} (s : State) : exec (.storePerformed op) s = execStorePerformed op s := rfl
theorem exec_atomicComplete {op} (s : State) : exec (.atomicComplete op) s = execAtomicComplete op s := rfl
theorem exec_mordantLineReturn {line} (s : State) : exec (.mordantLineReturn line) s = execMordantLineReturn line s := rfl
theorem exec_prmPushRequest {core warp} (s : State) : exec (.prmPushRequest core warp) s = execPrmPushRequest core warp s := rfl
theorem exec_splitDataArrive {op lanes} (s : State) : exec (.splitDataArrive op lanes) s = execSplitDataArrive op lanes s := rfl
theorem exec_copyComplete {op} (s : State) : exec (.copyComplete op) s = execCopyComplete op s := rfl
theorem exec_dcopyComplete {op} (s : State) : exec (.dcopyComplete op) s = execDcopyComplete op s := rfl
theorem exec_tableLoadComplete {op} (s : State) : exec (.tableLoadComplete op) s = execTableLoadComplete op s := rfl
theorem exec_histlComplete {op} (s : State) : exec (.histlComplete op) s = execHistlComplete op s := rfl
theorem exec_matrixOperandComplete {op} (s : State) : exec (.matrixOperandComplete op) s = execMatrixOperandComplete op s := rfl
theorem exec_matrixComplete {op} (s : State) : exec (.matrixComplete op) s = execMatrixComplete op s := rfl
theorem exec_streamBox {core e} (s : State) : exec (.streamBox core e) s = execStreamBox core e s := rfl
theorem exec_acqaGrant {core} (s : State) : exec (.acqaGrant core) s = execAcqaGrant core s := rfl
theorem exec_taskEnter {die ctx} (s : State) : exec (.taskEnter die ctx) s = execTaskEnter die ctx s := rfl
theorem exec_taskRetire {die task} (s : State) : exec (.taskRetire die task) s = execTaskRetire die task s := rfl
theorem exec_binFormWarp {die bin} (s : State) : exec (.binFormWarp die bin) s = execBinFormWarp die bin s := rfl
theorem exec_overflowRefill {die ctx} (s : State) : exec (.overflowRefill die ctx) s = execOverflowRefill die ctx s := rfl
theorem exec_abortFlagArrive {lot die} (s : State) : exec (.abortFlagArrive lot die) s = execAbortFlagArrive lot die s := rfl
theorem exec_clauseIssue (s : State) : exec .clauseIssue s = execClauseIssue s := rfl
theorem exec_clauseBoundary (s : State) : exec .clauseBoundary s = execClauseBoundary s := rfl
theorem exec_rungServiceTimeout {warp} (s : State) : exec (.rungServiceTimeout warp) s = execRungServiceTimeout warp s := rfl
theorem exec_barrierTimeout {warp} (s : State) : exec (.barrierTimeout warp) s = execBarrierTimeout warp s := rfl
theorem exec_stageParkTimeout {warp} (s : State) : exec (.stageParkTimeout warp) s = execStageParkTimeout warp s := rfl
theorem exec_slotParkTimeout {warp} (s : State) : exec (.slotParkTimeout warp) s = execSlotParkTimeout warp s := rfl
theorem exec_presenceTimeout {warp} (s : State) : exec (.presenceTimeout warp) s = execPresenceTimeout warp s := rfl
theorem exec_secfgParkTimeout {warp} (s : State) : exec (.secfgParkTimeout warp) s = execSecfgParkTimeout warp s := rfl
theorem exec_acqaWaitTimeout {warp} (s : State) : exec (.acqaWaitTimeout warp) s = execAcqaWaitTimeout warp s := rfl
theorem exec_ovfStall {warp} (s : State) : exec (.ovfStall warp) s = execOvfStall warp s := rfl
theorem exec_vatStopForce {warp} (s : State) : exec (.vatStopForce warp) s = execVatStopForce warp s := rfl
theorem exec_evictForce {warp} (s : State) : exec (.evictForce warp) s = execEvictForce warp s := rfl
theorem exec_saveRestoreTimeout {warp} (s : State) : exec (.saveRestoreTimeout warp) s = execSaveRestoreTimeout warp s := rfl
theorem exec_hostCxlMemAccess {part pa data} (s : State) : exec (.hostCxlMemAccess part pa data) s = execHostCxlMemAccess part pa data s := rfl
theorem exec_lakeProgramLoad {eng} (s : State) : exec (.lakeProgramLoad eng) s = execLakeProgramLoad eng s := rfl
theorem exec_lakeCommandStart {eng} (s : State) : exec (.lakeCommandStart eng) s = execLakeCommandStart eng s := rfl
theorem exec_lakeTimeout {eng} (s : State) : exec (.lakeTimeout eng) s = execLakeTimeout eng s := rfl
theorem exec_lakeCommandEnd {eng} (s : State) : exec (.lakeCommandEnd eng) s = execLakeCommandEnd eng s := rfl
theorem exec_peerPortLinkLoss {port} (s : State) : exec (.peerPortLinkLoss port) s = execPeerPortLinkLoss port s := rfl
theorem exec_domainAccessReceive {dev part pa acc} (s : State) : exec (.domainAccessReceive dev part pa acc) s = execDomainAccessReceive dev part pa acc s := rfl
theorem exec_hostBar2Access {fn pa data} (s : State) : exec (.hostBar2Access fn pa data) s = execHostBar2Access fn pa data s := rfl
theorem exec_hubDieLoss (s : State) : exec .hubDieLoss s = execHubDieLoss s := rfl
theorem exec_uncorrectableError {site} (s : State) : exec (.uncorrectableError site) s = execUncorrectableError site s := rfl

end Sys2Proof.Machine
end

