-- ==== Sys2Proof/Laws/Encoding.lean ====
section
/-! SUPPORT. Fields of packed words, and words packed from their fields: what the encoder writes the decoder reads. -/

namespace Sys2Proof

/-! ### Parts of joined bit vectors -/

theorem extract_hi {n m : Nat} (x : BitVec n) (y : BitVec m) (k len : Nat) (h : m ≤ k) :
    (x ++ y).extractLsb' k len = x.extractLsb' (k - m) len := by
  ext i hi
  simp only [BitVec.getElem_extractLsb', BitVec.getLsbD_append]
  rw [if_neg (by omega)]
  congr 1; omega

theorem extract_lo {n m : Nat} (x : BitVec n) (y : BitVec m) (k len : Nat) (h : k + len ≤ m) :
    (x ++ y).extractLsb' k len = y.extractLsb' k len := by
  ext i hi
  simp only [BitVec.getElem_extractLsb', BitVec.getLsbD_append]
  rw [if_pos (by omega)]

theorem extract_all {n : Nat} (x : BitVec n) : x.extractLsb' 0 n = x := by ext i hi; simp

/-- A part of a part. -/
theorem extract_extract {n : Nat} (x : BitVec n) (k l m len : Nat) (h : m + len ≤ l) :
    (x.extractLsb' k l).extractLsb' m len = x.extractLsb' (k + m) len := by
  ext i hi
  simp only [BitVec.getElem_extractLsb', BitVec.getLsbD_extractLsb', Nat.add_assoc]
  simp; omega

/-- Two neighbouring parts joined. -/
theorem extract_join {n : Nat} (w : BitVec n) (k a b : Nat) : w.extractLsb' (k + b) a ++ w.extractLsb' k b = w.extractLsb' k (a + b) := by
  ext i hi
  simp only [BitVec.getElem_append, BitVec.getElem_extractLsb']
  split
  · rfl
  · congr 1; omega

/-! ### The fields of packed words -/

@[simp] theorem fB_packR (st : BitVec 2) (op : BitVec 6) (f : BitVec 3) (d : Code) (a : Code) (b : Code) : fB (packR st op f d a b) = b :=
  (extract_lo _ _ 0 7 (by decide)).trans (extract_all _)

@[simp] theorem fA_packR (st : BitVec 2) (op : BitVec 6) (f : BitVec 3) (d : Code) (a : Code) (b : Code) : fA (packR st op f d a b) = a :=
  (extract_hi _ _ 7 7 (by decide)).trans ((extract_lo _ _ _ _ (by decide)).trans (extract_all _))

@[simp] theorem fD_packR (st : BitVec 2) (op : BitVec 6) (f : BitVec 3) (d : Code) (a : Code) (b : Code) : fD (packR st op f d a b) = d :=
  (extract_hi _ _ 14 7 (by decide)).trans ((extract_hi _ _ _ _ (by decide)).trans ((extract_lo _ _ _ _ (by decide)).trans (extract_all _)))

@[simp] theorem fF_packR (st : BitVec 2) (op : BitVec 6) (f : BitVec 3) (d : Code) (a : Code) (b : Code) : fF (packR st op f d a b) = f :=
  (extract_hi _ _ 21 3 (by decide)).trans ((extract_hi _ _ _ _ (by decide)).trans ((extract_hi _ _ _ _ (by decide)).trans ((extract_lo _ _ _ _ (by decide)).trans (extract_all _))))

@[simp] theorem fOp_packR (st : BitVec 2) (op : BitVec 6) (f : BitVec 3) (d : Code) (a : Code) (b : Code) : fOp (packR st op f d a b) = op :=
  (extract_hi _ _ 24 6 (by decide)).trans ((extract_hi _ _ _ _ (by decide)).trans ((extract_hi _ _ _ _ (by decide)).trans ((extract_hi _ _ _ _ (by decide)).trans ((extract_lo _ _ _ _ (by decide)).trans (extract_all _)))))

@[simp] theorem fS_packR (st : BitVec 2) (op : BitVec 6) (f : BitVec 3) (d : Code) (a : Code) (b : Code) : fS (packR st op f d a b) = st :=
  (extract_hi _ _ 30 2 (by decide)).trans ((extract_hi _ _ _ _ (by decide)).trans ((extract_hi _ _ _ _ (by decide)).trans ((extract_hi _ _ _ _ (by decide)).trans ((extract_hi _ _ _ _ (by decide)).trans (extract_all _)))))

@[simp] theorem fImm_packI (st : BitVec 2) (op : BitVec 6) (f : BitVec 3) (d : Code) (imm : BitVec 14) : fImm (packI st op f d imm) = imm :=
  (extract_lo _ _ 0 14 (by decide)).trans (extract_all _)

@[simp] theorem fD_packI (st : BitVec 2) (op : BitVec 6) (f : BitVec 3) (d : Code) (imm : BitVec 14) : fD (packI st op f d imm) = d :=
  (extract_hi _ _ 14 7 (by decide)).trans ((extract_lo _ _ _ _ (by decide)).trans (extract_all _))

@[simp] theorem fF_packI (st : BitVec 2) (op : BitVec 6) (f : BitVec 3) (d : Code) (imm : BitVec 14) : fF (packI st op f d imm) = f :=
  (extract_hi _ _ 21 3 (by decide)).trans ((extract_hi _ _ _ _ (by decide)).trans ((extract_lo _ _ _ _ (by decide)).trans (extract_all _)))

@[simp] theorem fOp_packI (st : BitVec 2) (op : BitVec 6) (f : BitVec 3) (d : Code) (imm : BitVec 14) : fOp (packI st op f d imm) = op :=
  (extract_hi _ _ 24 6 (by decide)).trans ((extract_hi _ _ _ _ (by decide)).trans ((extract_hi _ _ _ _ (by decide)).trans ((extract_lo _ _ _ _ (by decide)).trans (extract_all _))))

@[simp] theorem fS_packI (st : BitVec 2) (op : BitVec 6) (f : BitVec 3) (d : Code) (imm : BitVec 14) : fS (packI st op f d imm) = st :=
  (extract_hi _ _ 30 2 (by decide)).trans ((extract_hi _ _ _ _ (by decide)).trans ((extract_hi _ _ _ _ (by decide)).trans ((extract_hi _ _ _ _ (by decide)).trans (extract_all _))))

@[simp] theorem fOff_packC (st : BitVec 2) (op : BitVec 6) (f : BitVec 3) (ps : BitVec 3) (pn : BitVec 1) (off : BitVec 17) : fOff (packC st op f ps pn off) = off :=
  (extract_lo _ _ 0 17 (by decide)).trans (extract_all _)

@[simp] theorem fPn_packC (st : BitVec 2) (op : BitVec 6) (f : BitVec 3) (ps : BitVec 3) (pn : BitVec 1) (off : BitVec 17) : fPn (packC st op f ps pn off) = pn :=
  (extract_hi _ _ 17 1 (by decide)).trans ((extract_lo _ _ _ _ (by decide)).trans (extract_all _))

@[simp] theorem fPs_packC (st : BitVec 2) (op : BitVec 6) (f : BitVec 3) (ps : BitVec 3) (pn : BitVec 1) (off : BitVec 17) : fPs (packC st op f ps pn off) = ps :=
  (extract_hi _ _ 18 3 (by decide)).trans ((extract_hi _ _ _ _ (by decide)).trans ((extract_lo _ _ _ _ (by decide)).trans (extract_all _)))

@[simp] theorem fF_packC (st : BitVec 2) (op : BitVec 6) (f : BitVec 3) (ps : BitVec 3) (pn : BitVec 1) (off : BitVec 17) : fF (packC st op f ps pn off) = f :=
  (extract_hi _ _ 21 3 (by decide)).trans ((extract_hi _ _ _ _ (by decide)).trans ((extract_hi _ _ _ _ (by decide)).trans ((extract_lo _ _ _ _ (by decide)).trans (extract_all _))))

@[simp] theorem fOp_packC (st : BitVec 2) (op : BitVec 6) (f : BitVec 3) (ps : BitVec 3) (pn : BitVec 1) (off : BitVec 17) : fOp (packC st op f ps pn off) = op :=
  (extract_hi _ _ 24 6 (by decide)).trans ((extract_hi _ _ _ _ (by decide)).trans ((extract_hi _ _ _ _ (by decide)).trans ((extract_hi _ _ _ _ (by decide)).trans ((extract_lo _ _ _ _ (by decide)).trans (extract_all _)))))

@[simp] theorem fS_packC (st : BitVec 2) (op : BitVec 6) (f : BitVec 3) (ps : BitVec 3) (pn : BitVec 1) (off : BitVec 17) : fS (packC st op f ps pn off) = st :=
  (extract_hi _ _ 30 2 (by decide)).trans ((extract_hi _ _ _ _ (by decide)).trans ((extract_hi _ _ _ _ (by decide)).trans ((extract_hi _ _ _ _ (by decide)).trans ((extract_hi _ _ _ _ (by decide)).trans (extract_all _)))))

@[simp] theorem xImm7_packXm (rm : BitVec 2) (sub : BitVec 4) (pd : BitVec 3) (ps : BitVec 3) (pn : BitVec 1) (fs : BitVec 3) (c : Code) (imm7 : Code) : xImm7 (packXm rm sub pd ps pn fs c imm7) = imm7 :=
  (extract_lo _ _ 0 7 (by decide)).trans (extract_all _)

@[simp] theorem xC_packXm (rm : BitVec 2) (sub : BitVec 4) (pd : BitVec 3) (ps : BitVec 3) (pn : BitVec 1) (fs : BitVec 3) (c : Code) (imm7 : Code) : xC (packXm rm sub pd ps pn fs c imm7) = c :=
  (extract_hi _ _ 7 7 (by decide)).trans ((extract_lo _ _ _ _ (by decide)).trans (extract_all _))

@[simp] theorem xRes_packXm (rm : BitVec 2) (sub : BitVec 4) (pd : BitVec 3) (ps : BitVec 3) (pn : BitVec 1) (fs : BitVec 3) (c : Code) (imm7 : Code) : xRes (packXm rm sub pd ps pn fs c imm7) = 0 :=
  (extract_hi _ _ 14 2 (by decide)).trans ((extract_hi _ _ _ _ (by decide)).trans ((extract_lo _ _ _ _ (by decide)).trans (extract_all _)))

@[simp] theorem xFs_packXm (rm : BitVec 2) (sub : BitVec 4) (pd : BitVec 3) (ps : BitVec 3) (pn : BitVec 1) (fs : BitVec 3) (c : Code) (imm7 : Code) : xFs (packXm rm sub pd ps pn fs c imm7) = fs :=
  (extract_hi _ _ 16 3 (by decide)).trans ((extract_hi _ _ _ _ (by decide)).trans ((extract_hi _ _ _ _ (by decide)).trans ((extract_lo _ _ _ _ (by decide)).trans (extract_all _))))

@[simp] theorem xPn_packXm (rm : BitVec 2) (sub : BitVec 4) (pd : BitVec 3) (ps : BitVec 3) (pn : BitVec 1) (fs : BitVec 3) (c : Code) (imm7 : Code) : xPn (packXm rm sub pd ps pn fs c imm7) = pn :=
  (extract_hi _ _ 19 1 (by decide)).trans ((extract_hi _ _ _ _ (by decide)).trans ((extract_hi _ _ _ _ (by decide)).trans ((extract_hi _ _ _ _ (by decide)).trans ((extract_lo _ _ _ _ (by decide)).trans (extract_all _)))))

@[simp] theorem xPs_packXm (rm : BitVec 2) (sub : BitVec 4) (pd : BitVec 3) (ps : BitVec 3) (pn : BitVec 1) (fs : BitVec 3) (c : Code) (imm7 : Code) : xPs (packXm rm sub pd ps pn fs c imm7) = ps :=
  (extract_hi _ _ 20 3 (by decide)).trans ((extract_hi _ _ _ _ (by decide)).trans ((extract_hi _ _ _ _ (by decide)).trans ((extract_hi _ _ _ _ (by decide)).trans ((extract_hi _ _ _ _ (by decide)).trans ((extract_lo _ _ _ _ (by decide)).trans (extract_all _))))))

@[simp] theorem xPd_packXm (rm : BitVec 2) (sub : BitVec 4) (pd : BitVec 3) (ps : BitVec 3) (pn : BitVec 1) (fs : BitVec 3) (c : Code) (imm7 : Code) : xPd (packXm rm sub pd ps pn fs c imm7) = pd :=
  (extract_hi _ _ 23 3 (by decide)).trans ((extract_hi _ _ _ _ (by decide)).trans ((extract_hi _ _ _ _ (by decide)).trans ((extract_hi _ _ _ _ (by decide)).trans ((extract_hi _ _ _ _ (by decide)).trans ((extract_hi _ _ _ _ (by decide)).trans ((extract_lo _ _ _ _ (by decide)).trans (extract_all _)))))))

@[simp] theorem xSub_packXm (rm : BitVec 2) (sub : BitVec 4) (pd : BitVec 3) (ps : BitVec 3) (pn : BitVec 1) (fs : BitVec 3) (c : Code) (imm7 : Code) : xSub (packXm rm sub pd ps pn fs c imm7) = sub :=
  (extract_hi _ _ 26 4 (by decide)).trans ((extract_hi _ _ _ _ (by decide)).trans ((extract_hi _ _ _ _ (by decide)).trans ((extract_hi _ _ _ _ (by decide)).trans ((extract_hi _ _ _ _ (by decide)).trans ((extract_hi _ _ _ _ (by decide)).trans ((extract_hi _ _ _ _ (by decide)).trans ((extract_lo _ _ _ _ (by decide)).trans (extract_all _))))))))

@[simp] theorem xRm_packXm (rm : BitVec 2) (sub : BitVec 4) (pd : BitVec 3) (ps : BitVec 3) (pn : BitVec 1) (fs : BitVec 3) (c : Code) (imm7 : Code) : xRm (packXm rm sub pd ps pn fs c imm7) = rm :=
  (extract_hi _ _ 30 2 (by decide)).trans ((extract_hi _ _ _ _ (by decide)).trans ((extract_hi _ _ _ _ (by decide)).trans ((extract_hi _ _ _ _ (by decide)).trans ((extract_hi _ _ _ _ (by decide)).trans ((extract_hi _ _ _ _ (by decide)).trans ((extract_hi _ _ _ _ (by decide)).trans ((extract_hi _ _ _ _ (by decide)).trans (extract_all _))))))))

@[simp] theorem lImm_packLake (op : BitVec 6) (a : BitVec 4) (b : BitVec 4) (imm : BitVec 16) : lImm (packLake op a b imm) = imm :=
  (extract_lo _ _ 0 16 (by decide)).trans (extract_all _)

@[simp] theorem lRes_packLake (op : BitVec 6) (a : BitVec 4) (b : BitVec 4) (imm : BitVec 16) : lRes (packLake op a b imm) = 0 :=
  (extract_hi _ _ 16 2 (by decide)).trans ((extract_lo _ _ _ _ (by decide)).trans (extract_all _))

@[simp] theorem lB_packLake (op : BitVec 6) (a : BitVec 4) (b : BitVec 4) (imm : BitVec 16) : lB (packLake op a b imm) = b :=
  (extract_hi _ _ 18 4 (by decide)).trans ((extract_hi _ _ _ _ (by decide)).trans ((extract_lo _ _ _ _ (by decide)).trans (extract_all _)))

@[simp] theorem lA_packLake (op : BitVec 6) (a : BitVec 4) (b : BitVec 4) (imm : BitVec 16) : lA (packLake op a b imm) = a :=
  (extract_hi _ _ 22 4 (by decide)).trans ((extract_hi _ _ _ _ (by decide)).trans ((extract_hi _ _ _ _ (by decide)).trans ((extract_lo _ _ _ _ (by decide)).trans (extract_all _))))

@[simp] theorem lOp_packLake (op : BitVec 6) (a : BitVec 4) (b : BitVec 4) (imm : BitVec 16) : lOp (packLake op a b imm) = op :=
  (extract_hi _ _ 26 6 (by decide)).trans ((extract_hi _ _ _ _ (by decide)).trans ((extract_hi _ _ _ _ (by decide)).trans ((extract_hi _ _ _ _ (by decide)).trans (extract_all _))))

@[simp] theorem xaOf_packXa (x : Xa) : xaOf (packXa x) = x := by
  have h0 : (packXa x).extractLsb' 29 3 = x.sco :=
    (extract_hi _ _ 29 3 (by decide)).trans ((extract_hi _ _ _ _ (by decide)).trans ((extract_hi _ _ _ _ (by decide)).trans ((extract_hi _ _ _ _ (by decide)).trans ((extract_hi _ _ _ _ (by decide)).trans ((extract_hi _ _ _ _ (by decide)).trans ((extract_hi _ _ _ _ (by decide)).trans (extract_all _)))))))
  have h1 : (packXa x).extractLsb' 27 2 = x.ord :=
    (extract_hi _ _ 27 2 (by decide)).trans ((extract_hi _ _ _ _ (by decide)).trans ((extract_hi _ _ _ _ (by decide)).trans ((extract_hi _ _ _ _ (by decide)).trans ((extract_hi _ _ _ _ (by decide)).trans ((extract_hi _ _ _ _ (by decide)).trans ((extract_lo _ _ _ _ (by decide)).trans (extract_all _)))))))
  have h2 : (packXa x).extractLsb' 26 1 = x.md :=
    (extract_hi _ _ 26 1 (by decide)).trans ((extract_hi _ _ _ _ (by decide)).trans ((extract_hi _ _ _ _ (by decide)).trans ((extract_hi _ _ _ _ (by decide)).trans ((extract_hi _ _ _ _ (by decide)).trans ((extract_lo _ _ _ _ (by decide)).trans (extract_all _))))))
  have h3 : (packXa x).extractLsb' 25 1 = x.prm :=
    (extract_hi _ _ 25 1 (by decide)).trans ((extract_hi _ _ _ _ (by decide)).trans ((extract_hi _ _ _ _ (by decide)).trans ((extract_hi _ _ _ _ (by decide)).trans ((extract_lo _ _ _ _ (by decide)).trans (extract_all _)))))
  have h4 : (packXa x).extractLsb' 24 1 = x.spl :=
    (extract_hi _ _ 24 1 (by decide)).trans ((extract_hi _ _ _ _ (by decide)).trans ((extract_hi _ _ _ _ (by decide)).trans ((extract_lo _ _ _ _ (by decide)).trans (extract_all _))))
  have h5 : (packXa x).extractLsb' 20 4 = x.sz :=
    (extract_hi _ _ 20 4 (by decide)).trans ((extract_hi _ _ _ _ (by decide)).trans ((extract_lo _ _ _ _ (by decide)).trans (extract_all _)))
  have h6 : (packXa x).extractLsb' 16 4 = x.sub :=
    (extract_hi _ _ 16 4 (by decide)).trans ((extract_lo _ _ _ _ (by decide)).trans (extract_all _))
  have h7 : (packXa x).extractLsb' 0 16 = x.off :=
    (extract_lo _ _ 0 16 (by decide)).trans (extract_all _)
  simp only [xaOf, h0, h1, h2, h3, h4, h5, h6, h7]

/-- The fields that PREF and CCTL need zero are zero where they were packed so. -/
@[simp] theorem xaZero_packXa (sub : BitVec 4) (off : BitVec 16) : xaZero (packXa ⟨0#3, 0#2, 0#1, 0#1, 0#1, 0#4, sub, off⟩) = true := by
  have h : (packXa ⟨0#3, 0#2, 0#1, 0#1, 0#1, 0#4, sub, off⟩).extractLsb' 20 12 = 0 :=
    (extract_hi _ _ 20 12 (by decide)).trans ((extract_hi _ _ _ _ (by decide)).trans (show BitVec.extractLsb' 0 12
      ((0 : BitVec 3) ++ (0 : BitVec 2) ++ (0 : BitVec 1) ++ (0 : BitVec 1) ++ (0 : BitVec 1) ++ (0 : BitVec 4)) = 0 by decide))
  rw [xaZero, h]; rfl

@[simp] theorem fCount_packRep (st : BitVec 2) (op : BitVec 6) (f : BitVec 3) (d : Code) (count : BitVec 6) (sd sa sb : BitVec 2) :
    fCount (packI st op f d (packRep count sd sa sb)) = count :=
  (extract_lo _ _ 8 6 (by decide)).trans ((extract_hi _ _ _ _ (by decide)).trans ((extract_hi _ _ _ _ (by decide)).trans ((extract_hi _ _ _ _ (by decide)).trans ((extract_hi _ _ _ _ (by decide)).trans (extract_all _)))))

@[simp] theorem fSd_packRep (st : BitVec 2) (op : BitVec 6) (f : BitVec 3) (d : Code) (count : BitVec 6) (sd sa sb : BitVec 2) :
    fSd (packI st op f d (packRep count sd sa sb)) = sd :=
  (extract_lo _ _ 6 2 (by decide)).trans ((extract_hi _ _ _ _ (by decide)).trans ((extract_hi _ _ _ _ (by decide)).trans ((extract_hi _ _ _ _ (by decide)).trans ((extract_lo _ _ _ _ (by decide)).trans (extract_all _)))))

@[simp] theorem fSa_packRep (st : BitVec 2) (op : BitVec 6) (f : BitVec 3) (d : Code) (count : BitVec 6) (sd sa sb : BitVec 2) :
    fSa (packI st op f d (packRep count sd sa sb)) = sa :=
  (extract_lo _ _ 4 2 (by decide)).trans ((extract_hi _ _ _ _ (by decide)).trans ((extract_hi _ _ _ _ (by decide)).trans ((extract_lo _ _ _ _ (by decide)).trans (extract_all _))))

@[simp] theorem fSb_packRep (st : BitVec 2) (op : BitVec 6) (f : BitVec 3) (d : Code) (count : BitVec 6) (sd sa sb : BitVec 2) :
    fSb (packI st op f d (packRep count sd sa sb)) = sb :=
  (extract_lo _ _ 2 2 (by decide)).trans ((extract_hi _ _ _ _ (by decide)).trans ((extract_lo _ _ _ _ (by decide)).trans (extract_all _)))

@[simp] theorem fImm2_packRep (st : BitVec 2) (op : BitVec 6) (f : BitVec 3) (d : Code) (count : BitVec 6) (sd sa sb : BitVec 2) :
    fImm2 (packI st op f d (packRep count sd sa sb)) = 0 :=
  (extract_lo _ _ 0 2 (by decide)).trans ((extract_lo _ _ _ _ (by decide)).trans (extract_all _))

@[simp] theorem fImm8_packI (st : BitVec 2) (op : BitVec 6) (f : BitVec 3) (d : Code) (imm : BitVec 8) :
    fImm8 (packI st op f d (0#6 ++ imm)) = imm :=
  (extract_lo _ _ 0 8 (by decide)).trans ((extract_lo _ _ _ _ (by decide)).trans (extract_all _))

@[simp] theorem fImmHi_packI (st : BitVec 2) (op : BitVec 6) (f : BitVec 3) (d : Code) (imm : BitVec 8) :
    fImmHi (packI st op f d (0#6 ++ imm)) = 0 :=
  (extract_lo _ _ 8 6 (by decide)).trans ((extract_hi _ _ _ _ (by decide)).trans (extract_all _))

@[simp] theorem lBit_packLake (op : BitVec 6) (a : BitVec 4) (b : BitVec 1) (imm : BitVec 16) :
    lBit (packLake op a (0#3 ++ b) imm) = b :=
  (extract_hi _ _ 18 1 (by decide)).trans ((extract_hi _ _ _ _ (by decide)).trans ((extract_lo _ _ _ _ (by decide)).trans
    ((extract_lo _ _ _ _ (by decide)).trans (extract_all _))))

@[simp] theorem lBHi_packLake (op : BitVec 6) (a : BitVec 4) (b : BitVec 1) (imm : BitVec 16) :
    lBHi (packLake op a (0#3 ++ b) imm) = 0 :=
  (extract_hi _ _ 19 3 (by decide)).trans ((extract_hi _ _ _ _ (by decide)).trans ((extract_lo _ _ _ _ (by decide)).trans
    ((extract_hi _ _ _ _ (by decide)).trans (extract_all _))))

@[simp] theorem lMask_packLake (op : BitVec 6) (a b : BitVec 4) (m : BitVec 5) : lMask (packLake op a b (0#11 ++ m)) = m :=
  (extract_lo _ _ 0 5 (by decide)).trans ((extract_lo _ _ _ _ (by decide)).trans (extract_all _))

@[simp] theorem lMaskHi_packLake (op : BitVec 6) (a b : BitVec 4) (m : BitVec 5) :
    (packLake op a b (0#11 ++ m)).extractLsb' 5 11 = 0 :=
  (extract_lo _ _ 5 11 (by decide)).trans ((extract_hi _ _ _ _ (by decide)).trans (extract_all _))

@[simp] theorem lN7_packLake (op : BitVec 6) (a b : BitVec 4) (n : BitVec 7) : lN7 (packLake op a b (0#9 ++ n)) = n :=
  (extract_lo _ _ 0 7 (by decide)).trans ((extract_lo _ _ _ _ (by decide)).trans (extract_all _))

@[simp] theorem lN7Hi_packLake (op : BitVec 6) (a b : BitVec 4) (n : BitVec 7) :
    (packLake op a b (0#9 ++ n)).extractLsb' 7 9 = 0 :=
  (extract_lo _ _ 7 9 (by decide)).trans ((extract_hi _ _ _ _ (by decide)).trans (extract_all _))

/-! ### Words packed from their fields -/

theorem packR_fields (w : Word) : packR (fS w) (fOp w) (fF w) (fD w) (fA w) (fB w) = w := by
  have e : fS w ++ fOp w ++ fF w ++ fD w ++ fA w ++ fB w = w.extractLsb' 0 32 := by
    rw [show fS w ++ fOp w = w.extractLsb' 24 8 from extract_join w 24 2 6]
    rw [show w.extractLsb' 24 8 ++ fF w = w.extractLsb' 21 11 from extract_join w 21 8 3]
    rw [show w.extractLsb' 21 11 ++ fD w = w.extractLsb' 14 18 from extract_join w 14 11 7]
    rw [show w.extractLsb' 14 18 ++ fA w = w.extractLsb' 7 25 from extract_join w 7 18 7]
    exact extract_join w 0 25 7
  exact e.trans (extract_all w)

theorem packI_fields (w : Word) : packI (fS w) (fOp w) (fF w) (fD w) (fImm w) = w := by
  have e : fS w ++ fOp w ++ fF w ++ fD w ++ fImm w = w.extractLsb' 0 32 := by
    rw [show fS w ++ fOp w = w.extractLsb' 24 8 from extract_join w 24 2 6]
    rw [show w.extractLsb' 24 8 ++ fF w = w.extractLsb' 21 11 from extract_join w 21 8 3]
    rw [show w.extractLsb' 21 11 ++ fD w = w.extractLsb' 14 18 from extract_join w 14 11 7]
    exact extract_join w 0 18 14
  exact e.trans (extract_all w)

theorem packC_fields (w : Word) : packC (fS w) (fOp w) (fF w) (fPs w) (fPn w) (fOff w) = w := by
  have e : fS w ++ fOp w ++ fF w ++ fPs w ++ fPn w ++ fOff w = w.extractLsb' 0 32 := by
    rw [show fS w ++ fOp w = w.extractLsb' 24 8 from extract_join w 24 2 6]
    rw [show w.extractLsb' 24 8 ++ fF w = w.extractLsb' 21 11 from extract_join w 21 8 3]
    rw [show w.extractLsb' 21 11 ++ fPs w = w.extractLsb' 18 14 from extract_join w 18 11 3]
    rw [show w.extractLsb' 18 14 ++ fPn w = w.extractLsb' 17 15 from extract_join w 17 14 1]
    exact extract_join w 0 15 17
  exact e.trans (extract_all w)

theorem packXm_fields (w : Word) (h : xRes w = 0) : packXm (xRm w) (xSub w) (xPd w) (xPs w) (xPn w) (xFs w) (xC w) (xImm7 w) = w := by
  have e : xRm w ++ xSub w ++ xPd w ++ xPs w ++ xPn w ++ xFs w ++ xRes w ++ xC w ++ xImm7 w = w.extractLsb' 0 32 := by
    rw [show xRm w ++ xSub w = w.extractLsb' 26 6 from extract_join w 26 2 4]
    rw [show w.extractLsb' 26 6 ++ xPd w = w.extractLsb' 23 9 from extract_join w 23 6 3]
    rw [show w.extractLsb' 23 9 ++ xPs w = w.extractLsb' 20 12 from extract_join w 20 9 3]
    rw [show w.extractLsb' 20 12 ++ xPn w = w.extractLsb' 19 13 from extract_join w 19 12 1]
    rw [show w.extractLsb' 19 13 ++ xFs w = w.extractLsb' 16 16 from extract_join w 16 13 3]
    rw [show w.extractLsb' 16 16 ++ xRes w = w.extractLsb' 14 18 from extract_join w 14 16 2]
    rw [show w.extractLsb' 14 18 ++ xC w = w.extractLsb' 7 25 from extract_join w 7 18 7]
    exact extract_join w 0 25 7
  rw [h] at e
  exact e.trans (extract_all w)

theorem packLake_fields (w : Word) (h : lRes w = 0) : packLake (lOp w) (lA w) (lB w) (lImm w) = w := by
  have e : lOp w ++ lA w ++ lB w ++ lRes w ++ lImm w = w.extractLsb' 0 32 := by
    rw [show lOp w ++ lA w = w.extractLsb' 22 10 from extract_join w 22 6 4]
    rw [show w.extractLsb' 22 10 ++ lB w = w.extractLsb' 18 14 from extract_join w 18 10 4]
    rw [show w.extractLsb' 18 14 ++ lRes w = w.extractLsb' 16 16 from extract_join w 16 14 2]
    exact extract_join w 0 16 16
  rw [h] at e
  exact e.trans (extract_all w)

theorem packXa_fields (w : Word) : packXa (xaOf w) = w := by
  have e : w.extractLsb' 29 3 ++ w.extractLsb' 27 2 ++ w.extractLsb' 26 1 ++ w.extractLsb' 25 1 ++ w.extractLsb' 24 1 ++ w.extractLsb' 20 4 ++ w.extractLsb' 16 4 ++ w.extractLsb' 0 16 = w.extractLsb' 0 32 := by
    rw [show w.extractLsb' 29 3 ++ w.extractLsb' 27 2 = w.extractLsb' 27 5 from extract_join w 27 3 2]
    rw [show w.extractLsb' 27 5 ++ w.extractLsb' 26 1 = w.extractLsb' 26 6 from extract_join w 26 5 1]
    rw [show w.extractLsb' 26 6 ++ w.extractLsb' 25 1 = w.extractLsb' 25 7 from extract_join w 25 6 1]
    rw [show w.extractLsb' 25 7 ++ w.extractLsb' 24 1 = w.extractLsb' 24 8 from extract_join w 24 7 1]
    rw [show w.extractLsb' 24 8 ++ w.extractLsb' 20 4 = w.extractLsb' 20 12 from extract_join w 20 8 4]
    rw [show w.extractLsb' 20 12 ++ w.extractLsb' 16 4 = w.extractLsb' 16 16 from extract_join w 16 12 4]
    exact extract_join w 0 16 16
  exact e.trans (extract_all w)

/-! ### Reading a row -/

/-- A word whose slot has a row, whose fields build a well-formed instruction, decodes to it. -/
theorem decodeWord_of_row {w x : Word} {r : Row} {i : Instr} (hr : findRow rows (fOp w).toNat (fF w).toNat = some r)
    (hb : r.build w x = some i) (hw : i.wf = true) : decodeWord w x = .ok (i, r.long) := by
  simp only [decodeWord, hr, hb, hw, if_true]

/-- The same for a Lake word. -/
theorem decodeLake_of_row {w : Word} {b : Word → Option Instr} {i : Instr} (hr : findLake lakeRows (lOp w).toNat = some b)
    (hb : b w = some i) (hw : i.wf = true) : decodeLake w = some i := by
  simp only [decodeLake, hr, hb, hw, if_true]

/-- What a decoded word says of itself. -/
theorem decodeWord_ok {w x : Word} {i : Instr} {long : Bool} (h : decodeWord w x = .ok (i, long)) :
    ∃ r, findRow rows (fOp w).toNat (fF w).toNat = some r ∧ r.build w x = some i ∧ i.wf = true ∧ r.long = long := by
  unfold decodeWord at h
  split at h
  · exact absurd h (by simp)
  · rename_i r hr
    split at h
    · exact absurd h (by simp)
    · rename_i j hj
      split at h
      · rename_i hw
        cases h
        exact ⟨r, hr, hj, hw, rfl⟩
      · exact absurd h (by simp)

theorem decodeLake_some {w : Word} {i : Instr} (h : decodeLake w = some i) :
    ∃ b, findLake lakeRows (lOp w).toNat = some b ∧ b w = some i ∧ i.wf = true := by
  unfold decodeLake at h
  split at h
  · exact absurd h (by simp)
  · rename_i b hb
    split at h
    · exact absurd h (by simp)
    · rename_i j hj
      split at h
      · rename_i hw
        cases h
        exact ⟨b, hb, hj, hw⟩
      · exact absurd h (by simp)

end Sys2Proof
end

