-- ==== Sys2Proof/Laws/Map.lean ====
section
/-! SUPPORT. Laws of the sparse arrays: reading after writing, and the canonical form. -/

namespace Sys2Proof

variable {α : Type} [Inhabited α]

@[simp] theorem Map.get_nil (k : Nat) : Map.get ([] : Map α) k = default := rfl

theorem Map.get_insert_self (m : Map α) (k : Nat) (v : α) : (m.insert k v).get k = v := by
  induction m with
  | nil => simp [Map.insert, Map.get]
  | cons e m ih =>
    obtain ⟨j, w⟩ := e
    by_cases h : j < k
    · simp [Map.insert, h, Map.get, ih, Nat.ne_of_lt h]
    · simp [Map.insert, h, Map.get]

theorem Map.get_insert_ne (m : Map α) {j k : Nat} (v : α) (hjk : j ≠ k) : (m.insert k v).get j = m.get j := by
  induction m with
  | nil => simp [Map.insert, Map.get, hjk.symm]
  | cons e m ih =>
    obtain ⟨i, w⟩ := e
    by_cases h : i < k
    · simp [Map.insert, h, Map.get, ih]
    · simp [Map.insert, h, Map.get, hjk.symm]

theorem Map.get_erase_self (m : Map α) (k : Nat) : (m.erase k).get k = default := by
  induction m with
  | nil => rfl
  | cons e m ih =>
    obtain ⟨j, w⟩ := e
    by_cases h : j = k <;> simp [Map.erase, h, Map.get, ih]

theorem Map.get_erase_ne (m : Map α) {j k : Nat} (hjk : j ≠ k) : (m.erase k).get j = m.get j := by
  induction m with
  | nil => rfl
  | cons e m ih =>
    obtain ⟨i, w⟩ := e
    by_cases h : i = k
    · subst h; simp [Map.erase, Map.get, ih, hjk.symm]
    · simp [Map.erase, h, Map.get, ih]

omit [Inhabited α] in
theorem Map.erase_erase (m : Map α) (k : Nat) : (m.erase k).erase k = m.erase k := by
  induction m with
  | nil => rfl
  | cons e m ih =>
    obtain ⟨j, w⟩ := e
    by_cases h : j = k
    · simp only [Map.erase, h, if_true, ih]
    · simp only [Map.erase, h, if_false, ih]

omit [Inhabited α] in
theorem Map.erase_insert (m : Map α) (k : Nat) (v : α) : (m.insert k v).erase k = m.erase k := by
  induction m with
  | nil => simp [Map.insert, Map.erase]
  | cons e m ih =>
    obtain ⟨j, w⟩ := e
    by_cases h : j < k
    · have hne : ¬ j = k := by omega
      simp only [Map.insert, h, if_true, Map.erase, hne, if_false, ih]
    · simp only [Map.insert, h, if_false, Map.erase, if_true]

variable [DecidableEq α]

/-- The second of two writes of an index stands. -/
theorem Map.set_set (m : Map α) (k : Nat) (v w : α) : (m.set k v).set k w = m.set k w := by
  have h : (m.set k v).erase k = m.erase k := by
    unfold Map.set
    split
    · exact Map.erase_erase m k
    · rw [Map.erase_insert, Map.erase_erase]
  unfold Map.set at h ⊢
  simp only [h]

/-- A read after a write of the same index gives what was written. -/
@[simp] theorem Map.get_set_self (m : Map α) (k : Nat) (v : α) : (m.set k v).get k = v := by
  unfold Map.set
  split
  · next h => rw [Map.get_erase_self, h]
  · exact Map.get_insert_self _ _ _

/-- A write leaves every other index alone. -/
theorem Map.get_set_ne (m : Map α) {j k : Nat} (v : α) (h : j ≠ k) : (m.set k v).get j = m.get j := by
  unfold Map.set
  split
  · exact Map.get_erase_ne m h
  · rw [Map.get_insert_ne _ v h, Map.get_erase_ne m h]

theorem Map.get_set (m : Map α) (j k : Nat) (v : α) : (m.set k v).get j = if j = k then v else m.get j := by
  split
  · next h => rw [h, Map.get_set_self]
  · next h => exact Map.get_set_ne m v h

theorem Map.get_modify (m : Map α) (j k : Nat) (f : α → α) :
    (m.modify k f).get j = if j = k then f (m.get k) else m.get j := Map.get_set m j k _

/-- Reading after consecutive writes. -/
theorem Map.get_setFrom (m : Map α) (j k : Nat) (vs : List α) :
    (m.setFrom k vs).get j = if h : k ≤ j ∧ j - k < vs.length then vs[j - k]'h.2 else m.get j := by
  induction vs generalizing m k with
  | nil => simp [Map.setFrom]
  | cons v vs ih =>
    rw [Map.setFrom, ih, Map.get_set]
    by_cases hjk : j = k
    · subst hjk; simp
    · by_cases hlt : k + 1 ≤ j
      · have h1 : j - k = (j - (k + 1)) + 1 := by omega
        by_cases h2 : j - (k + 1) < vs.length
        · rw [dif_pos ⟨hlt, h2⟩, dif_pos ⟨by omega, by simp; omega⟩]
          simp [h1]
        · rw [dif_neg (by omega), dif_neg (by simp; omega), if_neg hjk]
      · rw [dif_neg (by omega), dif_neg (by omega), if_neg hjk]

/-! ### The canonical form -/

theorem Map.wfFrom_mono {m : Map α} {lo lo' : Nat} (h : lo' ≤ lo) (hm : m.wfFrom lo = true) : m.wfFrom lo' = true := by
  cases m with
  | nil => rfl
  | cons e m =>
    obtain ⟨j, w⟩ := e
    simp only [Map.wfFrom, Bool.and_eq_true, decide_eq_true_eq] at hm ⊢
    exact ⟨⟨by omega, hm.1.2⟩, hm.2⟩

theorem Map.wfFrom_erase {m : Map α} {lo : Nat} (k : Nat) (hm : m.wfFrom lo = true) : (m.erase k).wfFrom lo = true := by
  induction m generalizing lo with
  | nil => rfl
  | cons e m ih =>
    obtain ⟨j, w⟩ := e
    simp only [Map.wfFrom, Bool.and_eq_true, decide_eq_true_eq] at hm
    by_cases h : j = k
    · simp only [Map.erase, h, if_true]
      exact ih (Map.wfFrom_mono (by omega) hm.2)
    · simp only [Map.erase, h, if_false, Map.wfFrom, Bool.and_eq_true, decide_eq_true_eq]
      exact ⟨hm.1, ih hm.2⟩

theorem Map.wfFrom_insert_erase {m : Map α} {lo k : Nat} {v : α} (hv : v ≠ default) (hk : lo ≤ k) (hm : m.wfFrom lo = true) :
    ((m.erase k).insert k v).wfFrom lo = true := by
  induction m generalizing lo with
  | nil => simp [Map.erase, Map.insert, Map.wfFrom, hv, hk]
  | cons e m ih =>
    obtain ⟨j, w⟩ := e
    simp only [Map.wfFrom, Bool.and_eq_true, decide_eq_true_eq] at hm
    by_cases h : j = k
    · simp only [Map.erase, h, if_true]
      exact Map.wfFrom_mono (lo := lo) (Nat.le_refl _) (ih hk (Map.wfFrom_mono (by omega) hm.2))
    · simp only [Map.erase, h, if_false, Map.insert]
      by_cases hlt : j < k
      · simp only [hlt, if_true, Map.wfFrom, Bool.and_eq_true, decide_eq_true_eq]
        exact ⟨hm.1, ih (by omega) hm.2⟩
      · simp only [hlt, if_false, Map.wfFrom, Bool.and_eq_true, decide_eq_true_eq]
        exact ⟨⟨hk, hv⟩, ⟨by omega, hm.1.2⟩, Map.wfFrom_erase k hm.2⟩

/-- A write keeps the canonical form. -/
theorem Map.wf_set {m : Map α} (k : Nat) (v : α) (hm : m.wf = true) : (m.set k v).wf = true := by
  unfold Map.set Map.wf
  split
  · exact Map.wfFrom_erase k hm
  · next h => exact Map.wfFrom_insert_erase h (Nat.zero_le k) hm

theorem Map.wf_modify {m : Map α} (k : Nat) (f : α → α) (hm : m.wf = true) : (m.modify k f).wf = true := Map.wf_set k _ hm

theorem Map.wf_setFrom {m : Map α} (k : Nat) (vs : List α) (hm : m.wf = true) : (m.setFrom k vs).wf = true := by
  induction vs generalizing m k with
  | nil => exact hm
  | cons v vs ih => exact ih (k + 1) (Map.wf_set k v hm)

theorem Map.wfFrom_keep {m : Map α} {lo : Nat} (p : Nat → α → Bool) (hm : m.wfFrom lo = true) :
    Map.wfFrom (m.keep p) lo = true := by
  induction m generalizing lo with
  | nil => rfl
  | cons e m ih =>
    obtain ⟨j, w⟩ := e
    simp only [Map.wfFrom, Bool.and_eq_true, decide_eq_true_eq] at hm
    simp only [Map.keep, List.filter_cons]
    split
    · simp only [Map.wfFrom, Bool.and_eq_true, decide_eq_true_eq]
      exact ⟨hm.1, ih hm.2⟩
    · exact Map.wfFrom_mono (by omega) (ih hm.2)

/-- Dropping elements keeps the canonical form. -/
theorem Map.wf_keep {m : Map α} (p : Nat → α → Bool) (hm : m.wf = true) : Map.wf (m.keep p) = true := Map.wfFrom_keep p hm

end Sys2Proof
end

