-- ==== Sys2Proof/Laws/State.lean ====
section
/-! SUPPORT. What each update of the state leaves in each field, and what it makes of the entry it updates. -/

namespace Sys2Proof.Machine

variable (s : State)

/-! `State.setWarp` -/
section
variable (k : Nat) (w : Warp)
@[simp] theorem State.setWarp_hub : (s.setWarp k w).hub = s.hub := rfl
@[simp] theorem State.setWarp_gtime : (s.setWarp k w).gtime = s.gtime := rfl
@[simp] theorem State.setWarp_parts : (s.setWarp k w).parts = s.parts := rfl
@[simp] theorem State.setWarp_dies : (s.setWarp k w).dies = s.dies := rfl
@[simp] theorem State.setWarp_cores : (s.setWarp k w).cores = s.cores := rfl
@[simp] theorem State.setWarp_lake : (s.setWarp k w).lake = s.lake := rfl
@[simp] theorem State.setWarp_ctxs : (s.setWarp k w).ctxs = s.ctxs := rfl
@[simp] theorem State.setWarp_lots : (s.setWarp k w).lots = s.lots := rfl
@[simp] theorem State.setWarp_vats : (s.setWarp k w).vats = s.vats := rfl
@[simp] theorem State.setWarp_ops : (s.setWarp k w).ops = s.ops := rfl
@[simp] theorem State.setWarp_mem : (s.setWarp k w).mem = s.mem := rfl
@[simp] theorem State.setWarp_copies : (s.setWarp k w).copies = s.copies := rfl
@[simp] theorem State.setWarp_stale : (s.setWarp k w).stale = s.stale := rfl
@[simp] theorem State.setWarp_sync : (s.setWarp k w).sync = s.sync := rfl
@[simp] theorem State.setWarp_fences : (s.setWarp k w).fences = s.fences := rfl
@[simp] theorem State.setWarp_posted : (s.setWarp k w).posted = s.posted := rfl
@[simp] theorem State.setWarp_lineKey : (s.setWarp k w).lineKey = s.lineKey := rfl
@[simp] theorem State.setWarp_lineSlot : (s.setWarp k w).lineSlot = s.lineSlot := rfl
@[simp] theorem State.setWarp_poison : (s.setWarp k w).poison = s.poison := rfl
@[simp] theorem State.setWarp_tlb : (s.setWarp k w).tlb = s.tlb := rfl
@[simp] theorem State.setWarp_nextLot : (s.setWarp k w).nextLot = s.nextLot := rfl
@[simp] theorem State.setWarp_nextLseq : (s.setWarp k w).nextLseq = s.nextLseq := rfl
@[simp] theorem State.setWarp_nextOp : (s.setWarp k w).nextOp = s.nextOp := rfl
@[simp] theorem State.setWarp_nextPlace : (s.setWarp k w).nextPlace = s.nextPlace := rfl
@[simp] theorem State.setWarp_fresh : (s.setWarp k w).fresh = s.fresh := rfl
@[simp] theorem State.setWarp_cur : (s.setWarp k w).cur = s.cur := rfl
@[simp] theorem State.setWarp_curEng : (s.setWarp k w).curEng = s.curEng := rfl
@[simp] theorem State.setWarp_agenda : (s.setWarp k w).agenda = s.agenda := rfl
end

/-! `State.modWarp` -/
section
variable (k : Nat) (f : Warp → Warp)
@[simp] theorem State.modWarp_hub : (s.modWarp k f).hub = s.hub := rfl
@[simp] theorem State.modWarp_gtime : (s.modWarp k f).gtime = s.gtime := rfl
@[simp] theorem State.modWarp_parts : (s.modWarp k f).parts = s.parts := rfl
@[simp] theorem State.modWarp_dies : (s.modWarp k f).dies = s.dies := rfl
@[simp] theorem State.modWarp_cores : (s.modWarp k f).cores = s.cores := rfl
@[simp] theorem State.modWarp_lake : (s.modWarp k f).lake = s.lake := rfl
@[simp] theorem State.modWarp_ctxs : (s.modWarp k f).ctxs = s.ctxs := rfl
@[simp] theorem State.modWarp_lots : (s.modWarp k f).lots = s.lots := rfl
@[simp] theorem State.modWarp_vats : (s.modWarp k f).vats = s.vats := rfl
@[simp] theorem State.modWarp_ops : (s.modWarp k f).ops = s.ops := rfl
@[simp] theorem State.modWarp_mem : (s.modWarp k f).mem = s.mem := rfl
@[simp] theorem State.modWarp_copies : (s.modWarp k f).copies = s.copies := rfl
@[simp] theorem State.modWarp_stale : (s.modWarp k f).stale = s.stale := rfl
@[simp] theorem State.modWarp_sync : (s.modWarp k f).sync = s.sync := rfl
@[simp] theorem State.modWarp_fences : (s.modWarp k f).fences = s.fences := rfl
@[simp] theorem State.modWarp_posted : (s.modWarp k f).posted = s.posted := rfl
@[simp] theorem State.modWarp_lineKey : (s.modWarp k f).lineKey = s.lineKey := rfl
@[simp] theorem State.modWarp_lineSlot : (s.modWarp k f).lineSlot = s.lineSlot := rfl
@[simp] theorem State.modWarp_poison : (s.modWarp k f).poison = s.poison := rfl
@[simp] theorem State.modWarp_tlb : (s.modWarp k f).tlb = s.tlb := rfl
@[simp] theorem State.modWarp_nextLot : (s.modWarp k f).nextLot = s.nextLot := rfl
@[simp] theorem State.modWarp_nextLseq : (s.modWarp k f).nextLseq = s.nextLseq := rfl
@[simp] theorem State.modWarp_nextOp : (s.modWarp k f).nextOp = s.nextOp := rfl
@[simp] theorem State.modWarp_nextPlace : (s.modWarp k f).nextPlace = s.nextPlace := rfl
@[simp] theorem State.modWarp_fresh : (s.modWarp k f).fresh = s.fresh := rfl
@[simp] theorem State.modWarp_cur : (s.modWarp k f).cur = s.cur := rfl
@[simp] theorem State.modWarp_curEng : (s.modWarp k f).curEng = s.curEng := rfl
@[simp] theorem State.modWarp_agenda : (s.modWarp k f).agenda = s.agenda := rfl
end

/-! `State.setW` -/
section
variable (w : Warp)
@[simp] theorem State.setW_hub : (s.setW w).hub = s.hub := rfl
@[simp] theorem State.setW_gtime : (s.setW w).gtime = s.gtime := rfl
@[simp] theorem State.setW_parts : (s.setW w).parts = s.parts := rfl
@[simp] theorem State.setW_dies : (s.setW w).dies = s.dies := rfl
@[simp] theorem State.setW_cores : (s.setW w).cores = s.cores := rfl
@[simp] theorem State.setW_lake : (s.setW w).lake = s.lake := rfl
@[simp] theorem State.setW_ctxs : (s.setW w).ctxs = s.ctxs := rfl
@[simp] theorem State.setW_lots : (s.setW w).lots = s.lots := rfl
@[simp] theorem State.setW_vats : (s.setW w).vats = s.vats := rfl
@[simp] theorem State.setW_ops : (s.setW w).ops = s.ops := rfl
@[simp] theorem State.setW_mem : (s.setW w).mem = s.mem := rfl
@[simp] theorem State.setW_copies : (s.setW w).copies = s.copies := rfl
@[simp] theorem State.setW_stale : (s.setW w).stale = s.stale := rfl
@[simp] theorem State.setW_sync : (s.setW w).sync = s.sync := rfl
@[simp] theorem State.setW_fences : (s.setW w).fences = s.fences := rfl
@[simp] theorem State.setW_posted : (s.setW w).posted = s.posted := rfl
@[simp] theorem State.setW_lineKey : (s.setW w).lineKey = s.lineKey := rfl
@[simp] theorem State.setW_lineSlot : (s.setW w).lineSlot = s.lineSlot := rfl
@[simp] theorem State.setW_poison : (s.setW w).poison = s.poison := rfl
@[simp] theorem State.setW_tlb : (s.setW w).tlb = s.tlb := rfl
@[simp] theorem State.setW_nextLot : (s.setW w).nextLot = s.nextLot := rfl
@[simp] theorem State.setW_nextLseq : (s.setW w).nextLseq = s.nextLseq := rfl
@[simp] theorem State.setW_nextOp : (s.setW w).nextOp = s.nextOp := rfl
@[simp] theorem State.setW_nextPlace : (s.setW w).nextPlace = s.nextPlace := rfl
@[simp] theorem State.setW_fresh : (s.setW w).fresh = s.fresh := rfl
@[simp] theorem State.cur_setW : (s.setW w).cur = s.cur := rfl
@[simp] theorem State.setW_curEng : (s.setW w).curEng = s.curEng := rfl
@[simp] theorem State.setW_agenda : (s.setW w).agenda = s.agenda := rfl
end

/-! `State.modW` -/
section
variable (f : Warp → Warp)
@[simp] theorem State.modW_hub : (s.modW f).hub = s.hub := rfl
@[simp] theorem State.modW_gtime : (s.modW f).gtime = s.gtime := rfl
@[simp] theorem State.modW_parts : (s.modW f).parts = s.parts := rfl
@[simp] theorem State.modW_dies : (s.modW f).dies = s.dies := rfl
@[simp] theorem State.modW_cores : (s.modW f).cores = s.cores := rfl
@[simp] theorem State.modW_lake : (s.modW f).lake = s.lake := rfl
@[simp] theorem State.modW_ctxs : (s.modW f).ctxs = s.ctxs := rfl
@[simp] theorem State.modW_lots : (s.modW f).lots = s.lots := rfl
@[simp] theorem State.modW_vats : (s.modW f).vats = s.vats := rfl
@[simp] theorem State.modW_ops : (s.modW f).ops = s.ops := rfl
@[simp] theorem State.modW_mem : (s.modW f).mem = s.mem := rfl
@[simp] theorem State.modW_copies : (s.modW f).copies = s.copies := rfl
@[simp] theorem State.modW_stale : (s.modW f).stale = s.stale := rfl
@[simp] theorem State.modW_sync : (s.modW f).sync = s.sync := rfl
@[simp] theorem State.modW_fences : (s.modW f).fences = s.fences := rfl
@[simp] theorem State.modW_posted : (s.modW f).posted = s.posted := rfl
@[simp] theorem State.modW_lineKey : (s.modW f).lineKey = s.lineKey := rfl
@[simp] theorem State.modW_lineSlot : (s.modW f).lineSlot = s.lineSlot := rfl
@[simp] theorem State.modW_poison : (s.modW f).poison = s.poison := rfl
@[simp] theorem State.modW_tlb : (s.modW f).tlb = s.tlb := rfl
@[simp] theorem State.modW_nextLot : (s.modW f).nextLot = s.nextLot := rfl
@[simp] theorem State.modW_nextLseq : (s.modW f).nextLseq = s.nextLseq := rfl
@[simp] theorem State.modW_nextOp : (s.modW f).nextOp = s.nextOp := rfl
@[simp] theorem State.modW_nextPlace : (s.modW f).nextPlace = s.nextPlace := rfl
@[simp] theorem State.modW_fresh : (s.modW f).fresh = s.fresh := rfl
@[simp] theorem State.modW_cur : (s.modW f).cur = s.cur := rfl
@[simp] theorem State.modW_curEng : (s.modW f).curEng = s.curEng := rfl
@[simp] theorem State.modW_agenda : (s.modW f).agenda = s.agenda := rfl
end

/-! `State.setVat` -/
section
variable (k : Nat) (v : Vat)
@[simp] theorem State.setVat_hub : (s.setVat k v).hub = s.hub := rfl
@[simp] theorem State.setVat_gtime : (s.setVat k v).gtime = s.gtime := rfl
@[simp] theorem State.setVat_parts : (s.setVat k v).parts = s.parts := rfl
@[simp] theorem State.setVat_dies : (s.setVat k v).dies = s.dies := rfl
@[simp] theorem State.setVat_cores : (s.setVat k v).cores = s.cores := rfl
@[simp] theorem State.setVat_lake : (s.setVat k v).lake = s.lake := rfl
@[simp] theorem State.setVat_ctxs : (s.setVat k v).ctxs = s.ctxs := rfl
@[simp] theorem State.setVat_lots : (s.setVat k v).lots = s.lots := rfl
@[simp] theorem State.setVat_warps : (s.setVat k v).warps = s.warps := rfl
@[simp] theorem State.setVat_ops : (s.setVat k v).ops = s.ops := rfl
@[simp] theorem State.setVat_mem : (s.setVat k v).mem = s.mem := rfl
@[simp] theorem State.setVat_copies : (s.setVat k v).copies = s.copies := rfl
@[simp] theorem State.setVat_stale : (s.setVat k v).stale = s.stale := rfl
@[simp] theorem State.setVat_sync : (s.setVat k v).sync = s.sync := rfl
@[simp] theorem State.setVat_fences : (s.setVat k v).fences = s.fences := rfl
@[simp] theorem State.setVat_posted : (s.setVat k v).posted = s.posted := rfl
@[simp] theorem State.setVat_lineKey : (s.setVat k v).lineKey = s.lineKey := rfl
@[simp] theorem State.setVat_lineSlot : (s.setVat k v).lineSlot = s.lineSlot := rfl
@[simp] theorem State.setVat_poison : (s.setVat k v).poison = s.poison := rfl
@[simp] theorem State.setVat_tlb : (s.setVat k v).tlb = s.tlb := rfl
@[simp] theorem State.setVat_nextLot : (s.setVat k v).nextLot = s.nextLot := rfl
@[simp] theorem State.setVat_nextLseq : (s.setVat k v).nextLseq = s.nextLseq := rfl
@[simp] theorem State.setVat_nextOp : (s.setVat k v).nextOp = s.nextOp := rfl
@[simp] theorem State.setVat_nextPlace : (s.setVat k v).nextPlace = s.nextPlace := rfl
@[simp] theorem State.setVat_fresh : (s.setVat k v).fresh = s.fresh := rfl
@[simp] theorem State.setVat_cur : (s.setVat k v).cur = s.cur := rfl
@[simp] theorem State.setVat_curEng : (s.setVat k v).curEng = s.curEng := rfl
@[simp] theorem State.setVat_agenda : (s.setVat k v).agenda = s.agenda := rfl
end

/-! `State.modVat` -/
section
variable (k : Nat) (f : Vat → Vat)
@[simp] theorem State.modVat_hub : (s.modVat k f).hub = s.hub := rfl
@[simp] theorem State.modVat_gtime : (s.modVat k f).gtime = s.gtime := rfl
@[simp] theorem State.modVat_parts : (s.modVat k f).parts = s.parts := rfl
@[simp] theorem State.modVat_dies : (s.modVat k f).dies = s.dies := rfl
@[simp] theorem State.modVat_cores : (s.modVat k f).cores = s.cores := rfl
@[simp] theorem State.modVat_lake : (s.modVat k f).lake = s.lake := rfl
@[simp] theorem State.modVat_ctxs : (s.modVat k f).ctxs = s.ctxs := rfl
@[simp] theorem State.modVat_lots : (s.modVat k f).lots = s.lots := rfl
@[simp] theorem State.modVat_warps : (s.modVat k f).warps = s.warps := rfl
@[simp] theorem State.modVat_ops : (s.modVat k f).ops = s.ops := rfl
@[simp] theorem State.modVat_mem : (s.modVat k f).mem = s.mem := rfl
@[simp] theorem State.modVat_copies : (s.modVat k f).copies = s.copies := rfl
@[simp] theorem State.modVat_stale : (s.modVat k f).stale = s.stale := rfl
@[simp] theorem State.modVat_sync : (s.modVat k f).sync = s.sync := rfl
@[simp] theorem State.modVat_fences : (s.modVat k f).fences = s.fences := rfl
@[simp] theorem State.modVat_posted : (s.modVat k f).posted = s.posted := rfl
@[simp] theorem State.modVat_lineKey : (s.modVat k f).lineKey = s.lineKey := rfl
@[simp] theorem State.modVat_lineSlot : (s.modVat k f).lineSlot = s.lineSlot := rfl
@[simp] theorem State.modVat_poison : (s.modVat k f).poison = s.poison := rfl
@[simp] theorem State.modVat_tlb : (s.modVat k f).tlb = s.tlb := rfl
@[simp] theorem State.modVat_nextLot : (s.modVat k f).nextLot = s.nextLot := rfl
@[simp] theorem State.modVat_nextLseq : (s.modVat k f).nextLseq = s.nextLseq := rfl
@[simp] theorem State.modVat_nextOp : (s.modVat k f).nextOp = s.nextOp := rfl
@[simp] theorem State.modVat_nextPlace : (s.modVat k f).nextPlace = s.nextPlace := rfl
@[simp] theorem State.modVat_fresh : (s.modVat k f).fresh = s.fresh := rfl
@[simp] theorem State.modVat_cur : (s.modVat k f).cur = s.cur := rfl
@[simp] theorem State.modVat_curEng : (s.modVat k f).curEng = s.curEng := rfl
@[simp] theorem State.modVat_agenda : (s.modVat k f).agenda = s.agenda := rfl
end

/-! `State.modV` -/
section
variable (f : Vat → Vat)
@[simp] theorem State.modV_hub : (s.modV f).hub = s.hub := rfl
@[simp] theorem State.modV_gtime : (s.modV f).gtime = s.gtime := rfl
@[simp] theorem State.modV_parts : (s.modV f).parts = s.parts := rfl
@[simp] theorem State.modV_dies : (s.modV f).dies = s.dies := rfl
@[simp] theorem State.modV_cores : (s.modV f).cores = s.cores := rfl
@[simp] theorem State.modV_lake : (s.modV f).lake = s.lake := rfl
@[simp] theorem State.modV_ctxs : (s.modV f).ctxs = s.ctxs := rfl
@[simp] theorem State.modV_lots : (s.modV f).lots = s.lots := rfl
@[simp] theorem State.modV_warps : (s.modV f).warps = s.warps := rfl
@[simp] theorem State.modV_ops : (s.modV f).ops = s.ops := rfl
@[simp] theorem State.modV_mem : (s.modV f).mem = s.mem := rfl
@[simp] theorem State.modV_copies : (s.modV f).copies = s.copies := rfl
@[simp] theorem State.modV_stale : (s.modV f).stale = s.stale := rfl
@[simp] theorem State.modV_sync : (s.modV f).sync = s.sync := rfl
@[simp] theorem State.modV_fences : (s.modV f).fences = s.fences := rfl
@[simp] theorem State.modV_posted : (s.modV f).posted = s.posted := rfl
@[simp] theorem State.modV_lineKey : (s.modV f).lineKey = s.lineKey := rfl
@[simp] theorem State.modV_lineSlot : (s.modV f).lineSlot = s.lineSlot := rfl
@[simp] theorem State.modV_poison : (s.modV f).poison = s.poison := rfl
@[simp] theorem State.modV_tlb : (s.modV f).tlb = s.tlb := rfl
@[simp] theorem State.modV_nextLot : (s.modV f).nextLot = s.nextLot := rfl
@[simp] theorem State.modV_nextLseq : (s.modV f).nextLseq = s.nextLseq := rfl
@[simp] theorem State.modV_nextOp : (s.modV f).nextOp = s.nextOp := rfl
@[simp] theorem State.modV_nextPlace : (s.modV f).nextPlace = s.nextPlace := rfl
@[simp] theorem State.modV_fresh : (s.modV f).fresh = s.fresh := rfl
@[simp] theorem State.modV_cur : (s.modV f).cur = s.cur := rfl
@[simp] theorem State.modV_curEng : (s.modV f).curEng = s.curEng := rfl
@[simp] theorem State.modV_agenda : (s.modV f).agenda = s.agenda := rfl
end

/-! `State.setLot` -/
section
variable (k : Nat) (l : Lot)
@[simp] theorem State.setLot_hub : (s.setLot k l).hub = s.hub := rfl
@[simp] theorem State.setLot_gtime : (s.setLot k l).gtime = s.gtime := rfl
@[simp] theorem State.setLot_parts : (s.setLot k l).parts = s.parts := rfl
@[simp] theorem State.setLot_dies : (s.setLot k l).dies = s.dies := rfl
@[simp] theorem State.setLot_cores : (s.setLot k l).cores = s.cores := rfl
@[simp] theorem State.setLot_lake : (s.setLot k l).lake = s.lake := rfl
@[simp] theorem State.setLot_ctxs : (s.setLot k l).ctxs = s.ctxs := rfl
@[simp] theorem State.setLot_vats : (s.setLot k l).vats = s.vats := rfl
@[simp] theorem State.setLot_warps : (s.setLot k l).warps = s.warps := rfl
@[simp] theorem State.setLot_ops : (s.setLot k l).ops = s.ops := rfl
@[simp] theorem State.setLot_mem : (s.setLot k l).mem = s.mem := rfl
@[simp] theorem State.setLot_copies : (s.setLot k l).copies = s.copies := rfl
@[simp] theorem State.setLot_stale : (s.setLot k l).stale = s.stale := rfl
@[simp] theorem State.setLot_sync : (s.setLot k l).sync = s.sync := rfl
@[simp] theorem State.setLot_fences : (s.setLot k l).fences = s.fences := rfl
@[simp] theorem State.setLot_posted : (s.setLot k l).posted = s.posted := rfl
@[simp] theorem State.setLot_lineKey : (s.setLot k l).lineKey = s.lineKey := rfl
@[simp] theorem State.setLot_lineSlot : (s.setLot k l).lineSlot = s.lineSlot := rfl
@[simp] theorem State.setLot_poison : (s.setLot k l).poison = s.poison := rfl
@[simp] theorem State.setLot_tlb : (s.setLot k l).tlb = s.tlb := rfl
@[simp] theorem State.setLot_nextLot : (s.setLot k l).nextLot = s.nextLot := rfl
@[simp] theorem State.setLot_nextLseq : (s.setLot k l).nextLseq = s.nextLseq := rfl
@[simp] theorem State.setLot_nextOp : (s.setLot k l).nextOp = s.nextOp := rfl
@[simp] theorem State.setLot_nextPlace : (s.setLot k l).nextPlace = s.nextPlace := rfl
@[simp] theorem State.setLot_fresh : (s.setLot k l).fresh = s.fresh := rfl
@[simp] theorem State.setLot_cur : (s.setLot k l).cur = s.cur := rfl
@[simp] theorem State.setLot_curEng : (s.setLot k l).curEng = s.curEng := rfl
@[simp] theorem State.setLot_agenda : (s.setLot k l).agenda = s.agenda := rfl
end

/-! `State.modLot` -/
section
variable (k : Nat) (f : Lot → Lot)
@[simp] theorem State.modLot_hub : (s.modLot k f).hub = s.hub := rfl
@[simp] theorem State.modLot_gtime : (s.modLot k f).gtime = s.gtime := rfl
@[simp] theorem State.modLot_parts : (s.modLot k f).parts = s.parts := rfl
@[simp] theorem State.modLot_dies : (s.modLot k f).dies = s.dies := rfl
@[simp] theorem State.modLot_cores : (s.modLot k f).cores = s.cores := rfl
@[simp] theorem State.modLot_lake : (s.modLot k f).lake = s.lake := rfl
@[simp] theorem State.modLot_ctxs : (s.modLot k f).ctxs = s.ctxs := rfl
@[simp] theorem State.modLot_vats : (s.modLot k f).vats = s.vats := rfl
@[simp] theorem State.modLot_warps : (s.modLot k f).warps = s.warps := rfl
@[simp] theorem State.modLot_ops : (s.modLot k f).ops = s.ops := rfl
@[simp] theorem State.modLot_mem : (s.modLot k f).mem = s.mem := rfl
@[simp] theorem State.modLot_copies : (s.modLot k f).copies = s.copies := rfl
@[simp] theorem State.modLot_stale : (s.modLot k f).stale = s.stale := rfl
@[simp] theorem State.modLot_sync : (s.modLot k f).sync = s.sync := rfl
@[simp] theorem State.modLot_fences : (s.modLot k f).fences = s.fences := rfl
@[simp] theorem State.modLot_posted : (s.modLot k f).posted = s.posted := rfl
@[simp] theorem State.modLot_lineKey : (s.modLot k f).lineKey = s.lineKey := rfl
@[simp] theorem State.modLot_lineSlot : (s.modLot k f).lineSlot = s.lineSlot := rfl
@[simp] theorem State.modLot_poison : (s.modLot k f).poison = s.poison := rfl
@[simp] theorem State.modLot_tlb : (s.modLot k f).tlb = s.tlb := rfl
@[simp] theorem State.modLot_nextLot : (s.modLot k f).nextLot = s.nextLot := rfl
@[simp] theorem State.modLot_nextLseq : (s.modLot k f).nextLseq = s.nextLseq := rfl
@[simp] theorem State.modLot_nextOp : (s.modLot k f).nextOp = s.nextOp := rfl
@[simp] theorem State.modLot_nextPlace : (s.modLot k f).nextPlace = s.nextPlace := rfl
@[simp] theorem State.modLot_fresh : (s.modLot k f).fresh = s.fresh := rfl
@[simp] theorem State.modLot_cur : (s.modLot k f).cur = s.cur := rfl
@[simp] theorem State.modLot_curEng : (s.modLot k f).curEng = s.curEng := rfl
@[simp] theorem State.modLot_agenda : (s.modLot k f).agenda = s.agenda := rfl
end

/-! `State.setCtx` -/
section
variable (k : Nat) (c : Context)
@[simp] theorem State.setCtx_hub : (s.setCtx k c).hub = s.hub := rfl
@[simp] theorem State.setCtx_gtime : (s.setCtx k c).gtime = s.gtime := rfl
@[simp] theorem State.setCtx_parts : (s.setCtx k c).parts = s.parts := rfl
@[simp] theorem State.setCtx_dies : (s.setCtx k c).dies = s.dies := rfl
@[simp] theorem State.setCtx_cores : (s.setCtx k c).cores = s.cores := rfl
@[simp] theorem State.setCtx_lake : (s.setCtx k c).lake = s.lake := rfl
@[simp] theorem State.setCtx_lots : (s.setCtx k c).lots = s.lots := rfl
@[simp] theorem State.setCtx_vats : (s.setCtx k c).vats = s.vats := rfl
@[simp] theorem State.setCtx_warps : (s.setCtx k c).warps = s.warps := rfl
@[simp] theorem State.setCtx_ops : (s.setCtx k c).ops = s.ops := rfl
@[simp] theorem State.setCtx_mem : (s.setCtx k c).mem = s.mem := rfl
@[simp] theorem State.setCtx_copies : (s.setCtx k c).copies = s.copies := rfl
@[simp] theorem State.setCtx_stale : (s.setCtx k c).stale = s.stale := rfl
@[simp] theorem State.setCtx_sync : (s.setCtx k c).sync = s.sync := rfl
@[simp] theorem State.setCtx_fences : (s.setCtx k c).fences = s.fences := rfl
@[simp] theorem State.setCtx_posted : (s.setCtx k c).posted = s.posted := rfl
@[simp] theorem State.setCtx_lineKey : (s.setCtx k c).lineKey = s.lineKey := rfl
@[simp] theorem State.setCtx_lineSlot : (s.setCtx k c).lineSlot = s.lineSlot := rfl
@[simp] theorem State.setCtx_poison : (s.setCtx k c).poison = s.poison := rfl
@[simp] theorem State.setCtx_tlb : (s.setCtx k c).tlb = s.tlb := rfl
@[simp] theorem State.setCtx_nextLot : (s.setCtx k c).nextLot = s.nextLot := rfl
@[simp] theorem State.setCtx_nextLseq : (s.setCtx k c).nextLseq = s.nextLseq := rfl
@[simp] theorem State.setCtx_nextOp : (s.setCtx k c).nextOp = s.nextOp := rfl
@[simp] theorem State.setCtx_nextPlace : (s.setCtx k c).nextPlace = s.nextPlace := rfl
@[simp] theorem State.setCtx_fresh : (s.setCtx k c).fresh = s.fresh := rfl
@[simp] theorem State.setCtx_cur : (s.setCtx k c).cur = s.cur := rfl
@[simp] theorem State.setCtx_curEng : (s.setCtx k c).curEng = s.curEng := rfl
@[simp] theorem State.setCtx_agenda : (s.setCtx k c).agenda = s.agenda := rfl
end

/-! `State.modCtx` -/
section
variable (k : Nat) (f : Context → Context)
@[simp] theorem State.modCtx_hub : (s.modCtx k f).hub = s.hub := rfl
@[simp] theorem State.modCtx_gtime : (s.modCtx k f).gtime = s.gtime := rfl
@[simp] theorem State.modCtx_parts : (s.modCtx k f).parts = s.parts := rfl
@[simp] theorem State.modCtx_dies : (s.modCtx k f).dies = s.dies := rfl
@[simp] theorem State.modCtx_cores : (s.modCtx k f).cores = s.cores := rfl
@[simp] theorem State.modCtx_lake : (s.modCtx k f).lake = s.lake := rfl
@[simp] theorem State.modCtx_lots : (s.modCtx k f).lots = s.lots := rfl
@[simp] theorem State.modCtx_vats : (s.modCtx k f).vats = s.vats := rfl
@[simp] theorem State.modCtx_warps : (s.modCtx k f).warps = s.warps := rfl
@[simp] theorem State.modCtx_ops : (s.modCtx k f).ops = s.ops := rfl
@[simp] theorem State.modCtx_mem : (s.modCtx k f).mem = s.mem := rfl
@[simp] theorem State.modCtx_copies : (s.modCtx k f).copies = s.copies := rfl
@[simp] theorem State.modCtx_stale : (s.modCtx k f).stale = s.stale := rfl
@[simp] theorem State.modCtx_sync : (s.modCtx k f).sync = s.sync := rfl
@[simp] theorem State.modCtx_fences : (s.modCtx k f).fences = s.fences := rfl
@[simp] theorem State.modCtx_posted : (s.modCtx k f).posted = s.posted := rfl
@[simp] theorem State.modCtx_lineKey : (s.modCtx k f).lineKey = s.lineKey := rfl
@[simp] theorem State.modCtx_lineSlot : (s.modCtx k f).lineSlot = s.lineSlot := rfl
@[simp] theorem State.modCtx_poison : (s.modCtx k f).poison = s.poison := rfl
@[simp] theorem State.modCtx_tlb : (s.modCtx k f).tlb = s.tlb := rfl
@[simp] theorem State.modCtx_nextLot : (s.modCtx k f).nextLot = s.nextLot := rfl
@[simp] theorem State.modCtx_nextLseq : (s.modCtx k f).nextLseq = s.nextLseq := rfl
@[simp] theorem State.modCtx_nextOp : (s.modCtx k f).nextOp = s.nextOp := rfl
@[simp] theorem State.modCtx_nextPlace : (s.modCtx k f).nextPlace = s.nextPlace := rfl
@[simp] theorem State.modCtx_fresh : (s.modCtx k f).fresh = s.fresh := rfl
@[simp] theorem State.modCtx_cur : (s.modCtx k f).cur = s.cur := rfl
@[simp] theorem State.modCtx_curEng : (s.modCtx k f).curEng = s.curEng := rfl
@[simp] theorem State.modCtx_agenda : (s.modCtx k f).agenda = s.agenda := rfl
end

/-! `State.setOp` -/
section
variable (k : Nat) (o : Op)
@[simp] theorem State.setOp_hub : (s.setOp k o).hub = s.hub := rfl
@[simp] theorem State.setOp_gtime : (s.setOp k o).gtime = s.gtime := rfl
@[simp] theorem State.setOp_parts : (s.setOp k o).parts = s.parts := rfl
@[simp] theorem State.setOp_dies : (s.setOp k o).dies = s.dies := rfl
@[simp] theorem State.setOp_cores : (s.setOp k o).cores = s.cores := rfl
@[simp] theorem State.setOp_lake : (s.setOp k o).lake = s.lake := rfl
@[simp] theorem State.setOp_ctxs : (s.setOp k o).ctxs = s.ctxs := rfl
@[simp] theorem State.setOp_lots : (s.setOp k o).lots = s.lots := rfl
@[simp] theorem State.setOp_vats : (s.setOp k o).vats = s.vats := rfl
@[simp] theorem State.setOp_warps : (s.setOp k o).warps = s.warps := rfl
@[simp] theorem State.setOp_mem : (s.setOp k o).mem = s.mem := rfl
@[simp] theorem State.setOp_copies : (s.setOp k o).copies = s.copies := rfl
@[simp] theorem State.setOp_stale : (s.setOp k o).stale = s.stale := rfl
@[simp] theorem State.setOp_sync : (s.setOp k o).sync = s.sync := rfl
@[simp] theorem State.setOp_fences : (s.setOp k o).fences = s.fences := rfl
@[simp] theorem State.setOp_posted : (s.setOp k o).posted = s.posted := rfl
@[simp] theorem State.setOp_lineKey : (s.setOp k o).lineKey = s.lineKey := rfl
@[simp] theorem State.setOp_lineSlot : (s.setOp k o).lineSlot = s.lineSlot := rfl
@[simp] theorem State.setOp_poison : (s.setOp k o).poison = s.poison := rfl
@[simp] theorem State.setOp_tlb : (s.setOp k o).tlb = s.tlb := rfl
@[simp] theorem State.setOp_nextLot : (s.setOp k o).nextLot = s.nextLot := rfl
@[simp] theorem State.setOp_nextLseq : (s.setOp k o).nextLseq = s.nextLseq := rfl
@[simp] theorem State.setOp_nextOp : (s.setOp k o).nextOp = s.nextOp := rfl
@[simp] theorem State.setOp_nextPlace : (s.setOp k o).nextPlace = s.nextPlace := rfl
@[simp] theorem State.setOp_fresh : (s.setOp k o).fresh = s.fresh := rfl
@[simp] theorem State.setOp_cur : (s.setOp k o).cur = s.cur := rfl
@[simp] theorem State.setOp_curEng : (s.setOp k o).curEng = s.curEng := rfl
@[simp] theorem State.setOp_agenda : (s.setOp k o).agenda = s.agenda := rfl
end

/-! `State.dropOp` -/
section
variable (k : Nat)
@[simp] theorem State.dropOp_hub : (s.dropOp k).hub = s.hub := rfl
@[simp] theorem State.dropOp_gtime : (s.dropOp k).gtime = s.gtime := rfl
@[simp] theorem State.dropOp_parts : (s.dropOp k).parts = s.parts := rfl
@[simp] theorem State.dropOp_dies : (s.dropOp k).dies = s.dies := rfl
@[simp] theorem State.dropOp_cores : (s.dropOp k).cores = s.cores := rfl
@[simp] theorem State.dropOp_lake : (s.dropOp k).lake = s.lake := rfl
@[simp] theorem State.dropOp_ctxs : (s.dropOp k).ctxs = s.ctxs := rfl
@[simp] theorem State.dropOp_lots : (s.dropOp k).lots = s.lots := rfl
@[simp] theorem State.dropOp_vats : (s.dropOp k).vats = s.vats := rfl
@[simp] theorem State.dropOp_warps : (s.dropOp k).warps = s.warps := rfl
@[simp] theorem State.dropOp_mem : (s.dropOp k).mem = s.mem := rfl
@[simp] theorem State.dropOp_copies : (s.dropOp k).copies = s.copies := rfl
@[simp] theorem State.dropOp_stale : (s.dropOp k).stale = s.stale := rfl
@[simp] theorem State.dropOp_sync : (s.dropOp k).sync = s.sync := rfl
@[simp] theorem State.dropOp_fences : (s.dropOp k).fences = s.fences := rfl
@[simp] theorem State.dropOp_posted : (s.dropOp k).posted = s.posted := rfl
@[simp] theorem State.dropOp_lineKey : (s.dropOp k).lineKey = s.lineKey := rfl
@[simp] theorem State.dropOp_lineSlot : (s.dropOp k).lineSlot = s.lineSlot := rfl
@[simp] theorem State.dropOp_poison : (s.dropOp k).poison = s.poison := rfl
@[simp] theorem State.dropOp_tlb : (s.dropOp k).tlb = s.tlb := rfl
@[simp] theorem State.dropOp_nextLot : (s.dropOp k).nextLot = s.nextLot := rfl
@[simp] theorem State.dropOp_nextLseq : (s.dropOp k).nextLseq = s.nextLseq := rfl
@[simp] theorem State.dropOp_nextOp : (s.dropOp k).nextOp = s.nextOp := rfl
@[simp] theorem State.dropOp_nextPlace : (s.dropOp k).nextPlace = s.nextPlace := rfl
@[simp] theorem State.dropOp_fresh : (s.dropOp k).fresh = s.fresh := rfl
@[simp] theorem State.dropOp_cur : (s.dropOp k).cur = s.cur := rfl
@[simp] theorem State.dropOp_curEng : (s.dropOp k).curEng = s.curEng := rfl
@[simp] theorem State.dropOp_agenda : (s.dropOp k).agenda = s.agenda := rfl
end

/-! `State.modPart` -/
section
variable (k : Nat) (f : Partition → Partition)
@[simp] theorem State.modPart_hub : (s.modPart k f).hub = s.hub := rfl
@[simp] theorem State.modPart_gtime : (s.modPart k f).gtime = s.gtime := rfl
@[simp] theorem State.modPart_dies : (s.modPart k f).dies = s.dies := rfl
@[simp] theorem State.modPart_cores : (s.modPart k f).cores = s.cores := rfl
@[simp] theorem State.modPart_lake : (s.modPart k f).lake = s.lake := rfl
@[simp] theorem State.modPart_ctxs : (s.modPart k f).ctxs = s.ctxs := rfl
@[simp] theorem State.modPart_lots : (s.modPart k f).lots = s.lots := rfl
@[simp] theorem State.modPart_vats : (s.modPart k f).vats = s.vats := rfl
@[simp] theorem State.modPart_warps : (s.modPart k f).warps = s.warps := rfl
@[simp] theorem State.modPart_ops : (s.modPart k f).ops = s.ops := rfl
@[simp] theorem State.modPart_mem : (s.modPart k f).mem = s.mem := rfl
@[simp] theorem State.modPart_copies : (s.modPart k f).copies = s.copies := rfl
@[simp] theorem State.modPart_stale : (s.modPart k f).stale = s.stale := rfl
@[simp] theorem State.modPart_sync : (s.modPart k f).sync = s.sync := rfl
@[simp] theorem State.modPart_fences : (s.modPart k f).fences = s.fences := rfl
@[simp] theorem State.modPart_posted : (s.modPart k f).posted = s.posted := rfl
@[simp] theorem State.modPart_lineKey : (s.modPart k f).lineKey = s.lineKey := rfl
@[simp] theorem State.modPart_lineSlot : (s.modPart k f).lineSlot = s.lineSlot := rfl
@[simp] theorem State.modPart_poison : (s.modPart k f).poison = s.poison := rfl
@[simp] theorem State.modPart_tlb : (s.modPart k f).tlb = s.tlb := rfl
@[simp] theorem State.modPart_nextLot : (s.modPart k f).nextLot = s.nextLot := rfl
@[simp] theorem State.modPart_nextLseq : (s.modPart k f).nextLseq = s.nextLseq := rfl
@[simp] theorem State.modPart_nextOp : (s.modPart k f).nextOp = s.nextOp := rfl
@[simp] theorem State.modPart_nextPlace : (s.modPart k f).nextPlace = s.nextPlace := rfl
@[simp] theorem State.modPart_fresh : (s.modPart k f).fresh = s.fresh := rfl
@[simp] theorem State.modPart_cur : (s.modPart k f).cur = s.cur := rfl
@[simp] theorem State.modPart_curEng : (s.modPart k f).curEng = s.curEng := rfl
@[simp] theorem State.modPart_agenda : (s.modPart k f).agenda = s.agenda := rfl
end

/-! `State.modDie` -/
section
variable (k : Nat) (f : Die → Die)
@[simp] theorem State.modDie_hub : (s.modDie k f).hub = s.hub := rfl
@[simp] theorem State.modDie_gtime : (s.modDie k f).gtime = s.gtime := rfl
@[simp] theorem State.modDie_parts : (s.modDie k f).parts = s.parts := rfl
@[simp] theorem State.modDie_cores : (s.modDie k f).cores = s.cores := rfl
@[simp] theorem State.modDie_lake : (s.modDie k f).lake = s.lake := rfl
@[simp] theorem State.modDie_ctxs : (s.modDie k f).ctxs = s.ctxs := rfl
@[simp] theorem State.modDie_lots : (s.modDie k f).lots = s.lots := rfl
@[simp] theorem State.modDie_vats : (s.modDie k f).vats = s.vats := rfl
@[simp] theorem State.modDie_warps : (s.modDie k f).warps = s.warps := rfl
@[simp] theorem State.modDie_ops : (s.modDie k f).ops = s.ops := rfl
@[simp] theorem State.modDie_mem : (s.modDie k f).mem = s.mem := rfl
@[simp] theorem State.modDie_copies : (s.modDie k f).copies = s.copies := rfl
@[simp] theorem State.modDie_stale : (s.modDie k f).stale = s.stale := rfl
@[simp] theorem State.modDie_sync : (s.modDie k f).sync = s.sync := rfl
@[simp] theorem State.modDie_fences : (s.modDie k f).fences = s.fences := rfl
@[simp] theorem State.modDie_posted : (s.modDie k f).posted = s.posted := rfl
@[simp] theorem State.modDie_lineKey : (s.modDie k f).lineKey = s.lineKey := rfl
@[simp] theorem State.modDie_lineSlot : (s.modDie k f).lineSlot = s.lineSlot := rfl
@[simp] theorem State.modDie_poison : (s.modDie k f).poison = s.poison := rfl
@[simp] theorem State.modDie_tlb : (s.modDie k f).tlb = s.tlb := rfl
@[simp] theorem State.modDie_nextLot : (s.modDie k f).nextLot = s.nextLot := rfl
@[simp] theorem State.modDie_nextLseq : (s.modDie k f).nextLseq = s.nextLseq := rfl
@[simp] theorem State.modDie_nextOp : (s.modDie k f).nextOp = s.nextOp := rfl
@[simp] theorem State.modDie_nextPlace : (s.modDie k f).nextPlace = s.nextPlace := rfl
@[simp] theorem State.modDie_fresh : (s.modDie k f).fresh = s.fresh := rfl
@[simp] theorem State.modDie_cur : (s.modDie k f).cur = s.cur := rfl
@[simp] theorem State.modDie_curEng : (s.modDie k f).curEng = s.curEng := rfl
@[simp] theorem State.modDie_agenda : (s.modDie k f).agenda = s.agenda := rfl
end

/-! `State.modCore` -/
section
variable (k : Nat) (f : Core → Core)
@[simp] theorem State.modCore_hub : (s.modCore k f).hub = s.hub := rfl
@[simp] theorem State.modCore_gtime : (s.modCore k f).gtime = s.gtime := rfl
@[simp] theorem State.modCore_parts : (s.modCore k f).parts = s.parts := rfl
@[simp] theorem State.modCore_dies : (s.modCore k f).dies = s.dies := rfl
@[simp] theorem State.modCore_lake : (s.modCore k f).lake = s.lake := rfl
@[simp] theorem State.modCore_ctxs : (s.modCore k f).ctxs = s.ctxs := rfl
@[simp] theorem State.modCore_lots : (s.modCore k f).lots = s.lots := rfl
@[simp] theorem State.modCore_vats : (s.modCore k f).vats = s.vats := rfl
@[simp] theorem State.modCore_warps : (s.modCore k f).warps = s.warps := rfl
@[simp] theorem State.modCore_ops : (s.modCore k f).ops = s.ops := rfl
@[simp] theorem State.modCore_mem : (s.modCore k f).mem = s.mem := rfl
@[simp] theorem State.modCore_copies : (s.modCore k f).copies = s.copies := rfl
@[simp] theorem State.modCore_stale : (s.modCore k f).stale = s.stale := rfl
@[simp] theorem State.modCore_sync : (s.modCore k f).sync = s.sync := rfl
@[simp] theorem State.modCore_fences : (s.modCore k f).fences = s.fences := rfl
@[simp] theorem State.modCore_posted : (s.modCore k f).posted = s.posted := rfl
@[simp] theorem State.modCore_lineKey : (s.modCore k f).lineKey = s.lineKey := rfl
@[simp] theorem State.modCore_lineSlot : (s.modCore k f).lineSlot = s.lineSlot := rfl
@[simp] theorem State.modCore_poison : (s.modCore k f).poison = s.poison := rfl
@[simp] theorem State.modCore_tlb : (s.modCore k f).tlb = s.tlb := rfl
@[simp] theorem State.modCore_nextLot : (s.modCore k f).nextLot = s.nextLot := rfl
@[simp] theorem State.modCore_nextLseq : (s.modCore k f).nextLseq = s.nextLseq := rfl
@[simp] theorem State.modCore_nextOp : (s.modCore k f).nextOp = s.nextOp := rfl
@[simp] theorem State.modCore_nextPlace : (s.modCore k f).nextPlace = s.nextPlace := rfl
@[simp] theorem State.modCore_fresh : (s.modCore k f).fresh = s.fresh := rfl
@[simp] theorem State.modCore_cur : (s.modCore k f).cur = s.cur := rfl
@[simp] theorem State.modCore_curEng : (s.modCore k f).curEng = s.curEng := rfl
@[simp] theorem State.modCore_agenda : (s.modCore k f).agenda = s.agenda := rfl
end

/-! `State.modEng` -/
section
variable (k : Nat) (f : LakeEngine → LakeEngine)
@[simp] theorem State.modEng_hub : (s.modEng k f).hub = s.hub := rfl
@[simp] theorem State.modEng_gtime : (s.modEng k f).gtime = s.gtime := rfl
@[simp] theorem State.modEng_parts : (s.modEng k f).parts = s.parts := rfl
@[simp] theorem State.modEng_dies : (s.modEng k f).dies = s.dies := rfl
@[simp] theorem State.modEng_cores : (s.modEng k f).cores = s.cores := rfl
@[simp] theorem State.modEng_ctxs : (s.modEng k f).ctxs = s.ctxs := rfl
@[simp] theorem State.modEng_lots : (s.modEng k f).lots = s.lots := rfl
@[simp] theorem State.modEng_vats : (s.modEng k f).vats = s.vats := rfl
@[simp] theorem State.modEng_warps : (s.modEng k f).warps = s.warps := rfl
@[simp] theorem State.modEng_ops : (s.modEng k f).ops = s.ops := rfl
@[simp] theorem State.modEng_mem : (s.modEng k f).mem = s.mem := rfl
@[simp] theorem State.modEng_copies : (s.modEng k f).copies = s.copies := rfl
@[simp] theorem State.modEng_stale : (s.modEng k f).stale = s.stale := rfl
@[simp] theorem State.modEng_sync : (s.modEng k f).sync = s.sync := rfl
@[simp] theorem State.modEng_fences : (s.modEng k f).fences = s.fences := rfl
@[simp] theorem State.modEng_posted : (s.modEng k f).posted = s.posted := rfl
@[simp] theorem State.modEng_lineKey : (s.modEng k f).lineKey = s.lineKey := rfl
@[simp] theorem State.modEng_lineSlot : (s.modEng k f).lineSlot = s.lineSlot := rfl
@[simp] theorem State.modEng_poison : (s.modEng k f).poison = s.poison := rfl
@[simp] theorem State.modEng_tlb : (s.modEng k f).tlb = s.tlb := rfl
@[simp] theorem State.modEng_nextLot : (s.modEng k f).nextLot = s.nextLot := rfl
@[simp] theorem State.modEng_nextLseq : (s.modEng k f).nextLseq = s.nextLseq := rfl
@[simp] theorem State.modEng_nextOp : (s.modEng k f).nextOp = s.nextOp := rfl
@[simp] theorem State.modEng_nextPlace : (s.modEng k f).nextPlace = s.nextPlace := rfl
@[simp] theorem State.modEng_fresh : (s.modEng k f).fresh = s.fresh := rfl
@[simp] theorem State.modEng_cur : (s.modEng k f).cur = s.cur := rfl
@[simp] theorem State.modEng_curEng : (s.modEng k f).curEng = s.curEng := rfl
@[simp] theorem State.modEng_agenda : (s.modEng k f).agenda = s.agenda := rfl
end

/-! `State.modHub` -/
section
variable (f : Hub → Hub)
@[simp] theorem State.modHub_gtime : (s.modHub f).gtime = s.gtime := rfl
@[simp] theorem State.modHub_parts : (s.modHub f).parts = s.parts := rfl
@[simp] theorem State.modHub_dies : (s.modHub f).dies = s.dies := rfl
@[simp] theorem State.modHub_cores : (s.modHub f).cores = s.cores := rfl
@[simp] theorem State.modHub_lake : (s.modHub f).lake = s.lake := rfl
@[simp] theorem State.modHub_ctxs : (s.modHub f).ctxs = s.ctxs := rfl
@[simp] theorem State.modHub_lots : (s.modHub f).lots = s.lots := rfl
@[simp] theorem State.modHub_vats : (s.modHub f).vats = s.vats := rfl
@[simp] theorem State.modHub_warps : (s.modHub f).warps = s.warps := rfl
@[simp] theorem State.modHub_ops : (s.modHub f).ops = s.ops := rfl
@[simp] theorem State.modHub_mem : (s.modHub f).mem = s.mem := rfl
@[simp] theorem State.modHub_copies : (s.modHub f).copies = s.copies := rfl
@[simp] theorem State.modHub_stale : (s.modHub f).stale = s.stale := rfl
@[simp] theorem State.modHub_sync : (s.modHub f).sync = s.sync := rfl
@[simp] theorem State.modHub_fences : (s.modHub f).fences = s.fences := rfl
@[simp] theorem State.modHub_posted : (s.modHub f).posted = s.posted := rfl
@[simp] theorem State.modHub_lineKey : (s.modHub f).lineKey = s.lineKey := rfl
@[simp] theorem State.modHub_lineSlot : (s.modHub f).lineSlot = s.lineSlot := rfl
@[simp] theorem State.modHub_poison : (s.modHub f).poison = s.poison := rfl
@[simp] theorem State.modHub_tlb : (s.modHub f).tlb = s.tlb := rfl
@[simp] theorem State.modHub_nextLot : (s.modHub f).nextLot = s.nextLot := rfl
@[simp] theorem State.modHub_nextLseq : (s.modHub f).nextLseq = s.nextLseq := rfl
@[simp] theorem State.modHub_nextOp : (s.modHub f).nextOp = s.nextOp := rfl
@[simp] theorem State.modHub_nextPlace : (s.modHub f).nextPlace = s.nextPlace := rfl
@[simp] theorem State.modHub_fresh : (s.modHub f).fresh = s.fresh := rfl
@[simp] theorem State.modHub_cur : (s.modHub f).cur = s.cur := rfl
@[simp] theorem State.modHub_curEng : (s.modHub f).curEng = s.curEng := rfl
@[simp] theorem State.modHub_agenda : (s.modHub f).agenda = s.agenda := rfl
end

/-! The entry updated, and the others. -/

theorem State.warp_setWarp (j k : Nat) (w : Warp) : (s.setWarp k w).warp j = if j = k then w else s.warp j := Map.get_set _ _ _ _
theorem State.warp_modWarp (j k : Nat) (f : Warp → Warp) : (s.modWarp k f).warp j = if j = k then f (s.warp k) else s.warp j := Map.get_set _ _ _ _
theorem State.warp_setW (j : Nat) (w : Warp) : (s.setW w).warp j = if j = s.cur then w else s.warp j := Map.get_set _ _ _ _
@[simp] theorem State.w_setW (w : Warp) : (s.setW w).w = w := Map.get_set_self _ _ _
@[simp] theorem State.w_modW (f : Warp → Warp) : (s.modW f).w = f s.w := Map.get_set_self _ _ _

theorem State.vat_setVat (j k : Nat) (v : Vat) : (s.setVat k v).vat j = if j = k then v else s.vat j := by
  unfold State.vat State.setVat
  rw [Map.get_set]
  split <;> rfl
theorem State.vat_modVat (j k : Nat) (f : Vat → Vat) : (s.modVat k f).vat j = if j = k then f (s.vat k) else s.vat j := s.vat_setVat j k _
theorem State.lot_setLot (j k : Nat) (l : Lot) : (s.setLot k l).lot j = if j = k then l else s.lot j := by
  unfold State.lot State.setLot
  rw [Map.get_set]
  split <;> rfl
theorem State.lot_modLot (j k : Nat) (f : Lot → Lot) : (s.modLot k f).lot j = if j = k then f (s.lot k) else s.lot j := s.lot_setLot j k _
theorem State.ctx_setCtx (j k : Nat) (c : Context) : (s.setCtx k c).ctx j = if j = k then c else s.ctx j := by
  unfold State.ctx State.setCtx
  rw [Map.get_set]
  split <;> rfl
theorem State.ctx_modCtx (j k : Nat) (f : Context → Context) : (s.modCtx k f).ctx j = if j = k then f (s.ctx k) else s.ctx j := s.ctx_setCtx j k _
theorem State.op_setOp (j k : Nat) (o : Op) : (s.setOp k o).op j = if j = k then some o else s.op j := by
  unfold State.op State.setOp
  rw [Map.get_set]
theorem State.op_dropOp (j k : Nat) : (s.dropOp k).op j = if j = k then none else s.op j := by
  unfold State.op State.dropOp
  rw [Map.get_set]
theorem State.part_modPart (j k : Nat) (f : Partition → Partition) : (s.modPart k f).part j = if j = k then f (s.part k) else s.part j := Map.get_modify _ _ _ _
theorem State.die_modDie (j k : Nat) (f : Die → Die) : (s.modDie k f).die j = if j = k then f (s.die k) else s.die j := Map.get_modify _ _ _ _
theorem State.core_modCore (j k : Nat) (f : Core → Core) : (s.modCore k f).core j = if j = k then f (s.core k) else s.core j := Map.get_modify _ _ _ _
theorem State.eng_modEng (j k : Nat) (f : LakeEngine → LakeEngine) : (s.modEng k f).eng j = if j = k then f (s.eng k) else s.eng j := Map.get_modify _ _ _ _
@[simp] theorem State.hub_modHub (f : Hub → Hub) : (s.modHub f).hub = f s.hub := rfl

end Sys2Proof.Machine
end

