-- ==== Sys2Proof/Laws/Warp.lean ====
section
/-! SUPPORT. Registers of a warp once every result is in, and the end of an instruction: what `retire` leaves alone. -/

namespace Sys2Proof.Machine

/-! ### Writes in order -/

@[simp] theorem lastOf_nil (c : Nat) : lastOf [] c = none := rfl

theorem lastOf_cons (e : Nat × Word) (es : List (Nat × Word)) (c : Nat) :
    lastOf (e :: es) c = (lastOf es c).or (if e.1 = c then some e.2 else none) := by
  simp only [lastOf]
  cases lastOf es c <;> simp

theorem lastOf_singleton (e : Nat × Word) (c : Nat) : lastOf [e] c = if e.1 = c then some e.2 else none := by
  simp [lastOf_cons]

theorem lastOf_append (a b : List (Nat × Word)) (c : Nat) : lastOf (a ++ b) c = (lastOf b c).or (lastOf a c) := by
  induction a with
  | nil => simp
  | cons e a ih => simp only [List.cons_append, lastOf_cons, ih, Option.or_assoc]

/-- The cells of pending results with their values. -/
def writesOf (ps : List Pending) : List (Nat × Word) := ps.map (fun p => (p.cell, p.value))

@[simp] theorem writesOf_nil : writesOf [] = [] := rfl
@[simp] theorem writesOf_cons (p : Pending) (ps : List Pending) : writesOf (p :: ps) = (p.cell, p.value) :: writesOf ps := rfl

theorem get_foldl_set (ps : List Pending) (m : Map Word) (c : Nat) :
    (ps.foldl (fun r p => r.set p.cell p.value) m).get c = (lastOf (writesOf ps) c).getD (m.get c) := by
  induction ps generalizing m with
  | nil => rfl
  | cons p ps ih =>
    rw [List.foldl_cons, ih, writesOf_cons, lastOf_cons, Map.get_set]
    cases lastOf (writesOf ps) c with
    | some v => simp
    | none =>
      by_cases hc : p.cell = c
      · simp [hc]
      · simp [hc, Ne.symm hc]

theorem Warp.final_eq (w : Warp) (c : Nat) : w.final c = (lastOf (writesOf w.pending) c).getD (w.regs.get c) :=
  get_foldl_set _ _ _

/-- A fixed-latency write. -/
theorem Warp.final_pend (w : Warp) (cell : Nat) (v : Word) (lat c : Nat) :
    (w.pend cell v lat).final c = if cell = c then v else w.final c := by
  have : writesOf (w.pend cell v lat).pending = writesOf w.pending ++ [(cell, v)] := by simp [Warp.pend, writesOf]
  rw [Warp.final_eq, Warp.final_eq, this, lastOf_append]
  by_cases h : cell = c <;> simp [lastOf_cons, h, Warp.pend]

theorem lastOf_filter_ne (ps : List Pending) (cell c : Nat) :
    lastOf (writesOf (ps.filter (fun p => p.cell != cell))) c = if cell = c then none else lastOf (writesOf ps) c := by
  induction ps with
  | nil => simp
  | cons p ps ih =>
    by_cases hp : p.cell = cell
    · have h1 : (p.cell != cell) = false := by simp [hp]
      rw [List.filter_cons, h1, writesOf_cons, lastOf_cons]
      simp only [Bool.false_eq_true, if_false, ih, hp]
      by_cases hc : cell = c <;> simp [hc]
    · have h1 : (p.cell != cell) = true := by simp [hp]
      rw [List.filter_cons, h1]
      simp only [if_true, writesOf_cons, lastOf_cons, ih]
      by_cases hc : cell = c
      · have : ¬ p.cell = c := by omega
        simp [hc, this]
      · simp [hc]

/-- A write performed at once. -/
theorem Warp.final_put (w : Warp) (cell : Nat) (v : Word) (c : Nat) :
    (w.put cell v).final c = if cell = c then v else w.final c := by
  simp only [Warp.final_eq, Warp.put, lastOf_filter_ne]
  by_cases h : cell = c
  · subst h; simp
  · simp [h, Map.get_set_ne _ _ (Ne.symm h)]

/-! ### Settling -/

theorem lastOf_of_visible {ps : List Pending} {d c : Nat} (h : visibleValue ps d c ≠ none) : lastOf (writesOf ps) c ≠ none := by
  induction ps with
  | nil => simp [visibleValue] at h
  | cons p ps ih =>
    simp only [visibleValue] at h
    rw [writesOf_cons, lastOf_cons]
    cases hv : visibleValue ps d c with
    | some v =>
      have := ih (by simp [hv])
      cases hl : lastOf (writesOf ps) c with
      | some u => simp
      | none => exact absurd hl this
    | none =>
      rw [hv] at h
      by_cases hc : p.cell = c
      · cases lastOf (writesOf ps) c <;> simp [hc]
      · simp [hc] at h

theorem settle_sub (ps : List Pending) (d : Nat) (m : Map Word) (c : Nat)
    (h : lastOf (writesOf (settle ps d m).1) c ≠ none) : lastOf (writesOf ps) c ≠ none := by
  induction ps generalizing m with
  | nil => simp [settle] at h
  | cons p ps ih =>
    have hor : ∀ m, lastOf (writesOf (settle ps d m).1) c ≠ none → lastOf (writesOf (p :: ps)) c ≠ none := by
      intro m hm
      have := ih m hm
      rw [writesOf_cons, lastOf_cons]
      cases hl : lastOf (writesOf ps) c with
      | some u => simp
      | none => exact absurd hl this
    simp only [settle] at h
    split at h
    · exact hor _ h
    · simp only at h
      split at h
      · exact hor _ h
      · rw [writesOf_cons, lastOf_cons] at h
        cases hl : lastOf (writesOf (settle ps d m).1) c with
        | some u => exact hor m (by simp [hl])
        | none =>
          rw [hl] at h
          rw [writesOf_cons, lastOf_cons]
          cases lastOf (writesOf ps) c with
          | some u => simp
          | none => simpa using h

theorem settle_keeps (ps : List Pending) (d : Nat) (m : Map Word) (c : Nat) (hv : visibleValue ps d c = none)
    (h : lastOf (writesOf ps) c ≠ none) : lastOf (writesOf (settle ps d m).1) c ≠ none := by
  induction ps generalizing m with
  | nil => simp at h
  | cons p ps ih =>
    simp only [visibleValue] at hv
    cases hvp : visibleValue ps d c with
    | some v => simp [hvp] at hv
    | none =>
      rw [hvp] at hv
      simp only [ite_eq_right_iff, reduceCtorEq, imp_false, not_and] at hv
      rw [writesOf_cons, lastOf_cons] at h
      simp only [settle]
      split
      · next hd =>
        apply ih _ hvp
        intro hl
        rw [hl] at h
        by_cases hc : p.cell = c
        · exact absurd hd (hv hc)
        · simp [hc] at h
      · simp only
        split
        · next hs =>
          apply ih _ hvp
          intro hl
          rw [hl] at h
          by_cases hc : p.cell = c
          · rw [hc, hvp] at hs; simp at hs
          · simp [hc] at h
        · rw [writesOf_cons, lastOf_cons]
          cases hl : lastOf (writesOf ps) c with
          | some u =>
            have := ih m hvp (by simp [hl])
            cases hk : lastOf (writesOf (settle ps d m).1) c with
            | some _ => simp
            | none => exact absurd hk this
          | none =>
            rw [hl] at h
            cases lastOf (writesOf (settle ps d m).1) c with
            | some _ => simp
            | none => simpa using h

theorem settle_final (ps : List Pending) (d : Nat) (m : Map Word) (c : Nat) :
    (lastOf (writesOf (settle ps d m).1) c).getD ((settle ps d m).2.get c) = (lastOf (writesOf ps) c).getD (m.get c) := by
  induction ps generalizing m with
  | nil => rfl
  | cons p ps ih =>
    rw [writesOf_cons, lastOf_cons]
    simp only [settle]
    split
    · rw [ih, Map.get_set]
      cases lastOf (writesOf ps) c with
      | some v => rfl
      | none =>
        by_cases hc : p.cell = c
        · simp [hc]
        · simp [hc, Ne.symm hc]
    · simp only
      split
      · next hs =>
        rw [ih]
        cases hl : lastOf (writesOf ps) c with
        | some v => rfl
        | none =>
          have : ¬ p.cell = c := by
            intro hc
            rw [hc] at hs
            have := lastOf_of_visible (ps := ps) (d := d) (c := c) (by intro h; simp [h] at hs)
            exact absurd hl this
          simp [this]
      · next hs =>
        have i := ih m
        rw [writesOf_cons, lastOf_cons]
        cases hk : lastOf (writesOf (settle ps d m).1) c with
        | some v =>
          have h2 := settle_sub ps d m c (by simp [hk])
          rw [hk] at i
          cases hl : lastOf (writesOf ps) c with
          | some u => rw [hl] at i; simpa using i
          | none => exact absurd hl h2
        | none =>
          rw [hk] at i
          by_cases hc : p.cell = c
          · have hn : lastOf (writesOf ps) c = none := by
              by_contra hne
              exact settle_keeps ps d m c (by rw [← hc]; simpa using hs) hne hk
            rw [hn]
            simp [hc]
          · simp only [hc, if_false, Option.getD_none, Option.or_none] at i ⊢
            exact i

/-- Settling changes no register once every result is in. -/
theorem Warp.final_settle (w : Warp) (c : Nat) : w.settle.final c = w.final c := by
  simp only [Warp.final_eq, Warp.settle]
  exact settle_final _ _ _ _

theorem Warp.final_congr {w x : Warp} (hr : x.regs = w.regs) (hp : x.pending = w.pending) (c : Nat) : x.final c = w.final c := by
  simp only [Warp.final_eq, hr, hp]

theorem Warp.final_countIssue (w : Warp) (st : BitVec 2) (c : Nat) : (w.countIssue st).final c = w.final c := by
  unfold Warp.countIssue
  rw [Warp.final_settle]
  exact Warp.final_congr rfl rfl c

/-! ### The end of an instruction -/

/-- Registers and results on their way are the same. -/
def Warp.SameRegs (w x : Warp) : Prop := x.regs = w.regs ∧ x.pending = w.pending

/-- Neither registers nor what an issue leaves alone have changed. -/
def Warp.Moved (w x : Warp) : Prop := Warp.SameRegs w x ∧ x.rest = w.rest

/-- The masks too are the same. -/
def Warp.Stays (w x : Warp) : Prop := Warp.Moved w x ∧ x.masks = w.masks ∧ x.wpark = w.wpark ∧ x.cause = w.cause

theorem Warp.Moved.final {w x : Warp} (h : Warp.Moved w x) (c : Nat) : x.final c = w.final c := Warp.final_congr h.1.1 h.1.2 c

theorem Warp.Moved.trans {w x y : Warp} (h : Warp.Moved w x) (g : Warp.Moved x y) : Warp.Moved w y :=
  ⟨⟨g.1.1.trans h.1.1, g.1.2.trans h.1.2⟩, g.2.trans h.2⟩

theorem Warp.Stays.trans {w x y : Warp} (h : Warp.Stays w x) (g : Warp.Stays x y) : Warp.Stays w y :=
  ⟨h.1.trans g.1, g.2.1.trans h.2.1, g.2.2.1.trans h.2.2.1, g.2.2.2.trans h.2.2.2⟩

theorem Warp.stays_setModePc (w : Warp) (l : Nat) (pc : Word) : Warp.Stays w (w.setModePc l pc) := by
  unfold Warp.setModePc
  split <;> exact ⟨⟨⟨rfl, rfl⟩, rfl⟩, rfl, rfl, rfl⟩

theorem Warp.stays_refl (w : Warp) : Warp.Stays w w := ⟨⟨⟨rfl, rfl⟩, rfl⟩, rfl, rfl, rfl⟩

theorem Warp.stays_setModePcs (w : Warp) (ls : List Nat) (pc : Nat → Word) : Warp.Stays w (w.setModePcs ls pc) := by
  unfold Warp.setModePcs
  induction ls generalizing w with
  | nil => exact w.stays_refl
  | cons l ls ih => exact (w.stays_setModePc l (pc l)).trans (ih _)

/-- A place in another clause or phase. -/
theorem Warp.stays_place (w : Warp) (c : Clause) (p : Phase) : Warp.Stays w { w with clause := c, phase := p } :=
  ⟨⟨⟨rfl, rfl⟩, rfl⟩, rfl, rfl, rfl⟩

theorem Warp.stays_past (w : Warp) (len : Nat) : Warp.Stays w (w.past len) := by
  unfold Warp.past
  simp only
  split
  · exact (w.stays_setModePcs _ _).trans (Warp.stays_place _ _ _)
  · exact w.stays_place _ _

theorem Warp.stays_advance (w : Warp) (len : Nat) : Warp.Stays w (w.advance len) := by
  unfold Warp.advance
  split
  · split
    · exact w.stays_place _ w.phase
    · exact w.stays_past len
  · exact w.stays_past len

theorem Warp.moved_leaveOut (w : Warp) (left : Lanes) (succ : Word) : Warp.Moved w (w.leaveOut left succ) := by
  unfold Warp.leaveOut
  split <;> exact ⟨⟨rfl, rfl⟩, rfl⟩

theorem Warp.moved_resumeAt (w : Warp) (c : Clause) (how : Resume) (len : Nat) : Warp.Moved w (w.resumeAt c how len) := by
  unfold Warp.resumeAt
  have h := w.moved_leaveOut (w.trap.trmask &&& ~~~ w.resumeSet) c.next
  simp only
  generalize w.leaveOut (w.trap.trmask &&& ~~~ w.resumeSet) c.next = x at h ⊢
  split
  · exact h.trans ⟨⟨rfl, rfl⟩, rfl⟩
  · split
    · exact h.trans ⟨⟨rfl, rfl⟩, rfl⟩
    · split
      · exact h.trans ⟨⟨rfl, rfl⟩, rfl⟩
      · refine (h.trans (y := { x with clause := _, replay := none }) ⟨⟨rfl, rfl⟩, rfl⟩).trans (Warp.stays_advance _ len).1

theorem Warp.rest_countIssue (w : Warp) (st : BitVec 2) : (w.countIssue st).rest = w.rest := rfl
theorem Warp.masks_countIssue (w : Warp) (st : BitVec 2) : (w.countIssue st).masks = w.masks := rfl
theorem Warp.replay_countIssue (w : Warp) (st : BitVec 2) : (w.countIssue st).replay = w.replay := rfl

/-- Everything `retire` does to the warp in turn. -/
theorem State.w_retire (s : State) (g : Sig) : ∃ x, s.retire g = s.setW x ∧ (∀ c, x.final c = s.w.final c) ∧ x.rest = s.w.rest ∧
    (s.w.replay = none → x.masks = s.w.masks ∧ x.wpark = s.w.wpark ∧ x.cause = s.w.cause) := by
  unfold State.retire
  simp only [Warp.replay_countIssue]
  split
  · next c how heq =>
    refine ⟨_, rfl, ?_, ?_, ?_⟩
    · intro c'
      rw [(Warp.moved_resumeAt _ _ _ _).final, Warp.final_countIssue]
    · rw [(Warp.moved_resumeAt _ _ _ _).2, Warp.rest_countIssue]
    · intro h; simp [h] at heq
  · refine ⟨_, rfl, ?_, ?_, ?_⟩
    · intro c'
      rw [(Warp.stays_advance _ _).1.final, Warp.final_countIssue]
    · rw [(Warp.stays_advance _ _).1.2, Warp.rest_countIssue]
    · intro _
      have h := Warp.stays_advance (s.w.countIssue g.stall) (if slotLong g.slot = true then 2 else 1)
      exact ⟨h.2.1, h.2.2.1, h.2.2.2⟩

end Sys2Proof.Machine
end

