-- ==== Sys2Proof/Laws/Issue.lean ====
section
/-! SUPPORT. Everything that the normal issue of an instruction does that writes registers: its effect, then `retire`. -/

namespace Sys2Proof.Machine

theorem State.setW_setW (s : State) (w x : Warp) : (s.setW w).setW x = s.setW x := by
  simp only [State.setW, State.setWarp, Map.set_set]
theorem State.modW_setW (s : State) (w : Warp) (f : Warp → Warp) : (s.setW w).modW f = s.setW (f w) := by
  simp only [State.modW, State.w_setW, State.setW_setW]

/-- The effect of an instruction before it ends: registers `ws` and flags `f` written in the warp in turn. -/
def State.Effect (s u : State) (ws : List (Nat × Word)) (f : Flags) : Prop :=
  ∃ x, u = s.setW x ∧ (∀ c, x.final c = (lastOf ws c).getD (s.w.final c)) ∧
    x.rest = (s.w.flagged f).rest ∧
    x.masks = s.w.masks ∧ x.wpark = s.w.wpark ∧ x.cause = s.w.cause ∧ x.replay = s.w.replay ∧ x.clause = s.w.clause

/-- An effect followed by the end of the instruction. -/
theorem State.Effect.retire {s u : State} {ws : List (Nat × Word)} {f : Flags} (h : s.Effect u ws f) (g : Sig) :
    s.Wrote (u.retire g) ws f := by
  obtain ⟨x, rfl, hf, hr, hm, hp, hc, hy, -⟩ := h
  obtain ⟨y, hy1, hy2, hy3, hy4⟩ := (s.setW x).w_retire g
  simp only [State.w_setW] at hy2 hy3 hy4
  rw [hy1, State.setW_setW]
  refine ⟨?_, ⟨?_, ?_⟩, ?_⟩
  · simp only [State.OnlyWarp, State.w_setW]; rfl
  · rw [State.w_setW, hy3, hr]
  · intro hn
    obtain ⟨a, b, c⟩ := hy4 (hy.trans hn)
    rw [State.w_setW]
    exact ⟨a.trans hm, b.trans hp, c.trans hc⟩
  · intro c
    rw [State.w_setW, hy2, hf]

/-- `issue` of an instruction that writes registers. -/
theorem writes_of_issue {s : State} {g : Sig} {i : Instr} {eff : State → State} {ws : List (Nat × Word)} {f : Flags}
    (hi : exec i s = s.issue g eff) (he : s.Effect (eff s) ws f) : Writes s g i ws f := by
  intro hc
  simp only [State.clear, Bool.and_eq_true, Option.isNone_iff_eq_none, bne_iff_ne, ne_eq, beq_iff_eq] at hc
  refine ⟨(eff s).retire g, ?_, he.retire g⟩
  rw [hi, State.issue, State.issueRaw, hc.1.1]
  have h2 : (s.w.clause.enabled == 0) = false := by simpa using hc.1.2
  simp only [h2, hc.2]
  rfl

/-! ### Effects -/

theorem State.lanes_of_clause {s u : State} (h : u.w.clause = s.w.clause) : u.lanes = s.lanes := by
  unfold State.lanes; rw [h]

/-- The register a code names does not depend on what an issue changes. -/
theorem Warp.cell_of_rest {w x : Warp} (h : x.rest = w.rest) : x.cell = w.cell ∧ x.predCell = w.predCell := by
  have hv : x.rest.vwb = w.rest.vwb := by rw [h]
  have ht : x.rest.trap = w.rest.trap := by rw [h]
  have hd : x.rest.hdep = w.rest.hdep := by rw [h]
  have hb : x.bank = w.bank := by
    unfold Warp.bank Warp.saveRestore
    rw [show x.trap = w.trap from ht, show x.hdep = w.hdep from hd]
  constructor
  · funext c l
    unfold Warp.cell Warp.laneCell Warp.kCell Warp.hvBanked
    rw [show x.vwb = w.vwb from hv, hb]
  · funext n l
    unfold Warp.predCell
    rw [hb]

theorem Warp.flagged_zero (w : Warp) : w.flagged 0 = w := by simp [Warp.flagged]

/-- A change of the warp that writes `v`. -/
structure Writer (k : Warp → Warp) (v : List (Nat × Word)) : Prop where
  final : ∀ w c, (k w).final c = (lastOf v c).getD (w.final c)
  rest : ∀ w, (k w).rest = w.rest
  masks : ∀ w, (k w).masks = w.masks
  wpark : ∀ w, (k w).wpark = w.wpark
  cause : ∀ w, (k w).cause = w.cause
  replay : ∀ w, (k w).replay = w.replay
  clause : ∀ w, (k w).clause = w.clause

theorem Writer.comp {k j : Warp → Warp} {v u : List (Nat × Word)} (hk : Writer k v) (hj : Writer j u) :
    Writer (fun w => j (k w)) (v ++ u) where
  final w c := by
    rw [hj.final, hk.final, lastOf_append]
    cases lastOf u c <;> simp
  rest w := (hj.rest _).trans (hk.rest w)
  masks w := (hj.masks _).trans (hk.masks w)
  wpark w := (hj.wpark _).trans (hk.wpark w)
  cause w := (hj.cause _).trans (hk.cause w)
  replay w := (hj.replay _).trans (hk.replay w)
  clause w := (hj.clause _).trans (hk.clause w)

theorem Writer.id : Writer (fun w => w) [] := ⟨fun _ _ => rfl, fun _ => rfl, fun _ => rfl, fun _ => rfl, fun _ => rfl, fun _ => rfl, fun _ => rfl⟩

theorem Writer.pend (cell : Nat) (v : Word) (lat : Nat) : Writer (fun w => w.pend cell v lat) [(cell, v)] where
  final w c := by rw [Warp.final_pend, lastOf_singleton]; by_cases h : cell = c <;> simp [h]
  rest _ := rfl
  masks _ := rfl
  wpark _ := rfl
  cause _ := rfl
  replay _ := rfl
  clause _ := rfl

theorem Writer.put (cell : Nat) (v : Word) : Writer (fun w => w.put cell v) [(cell, v)] where
  final w c := by rw [Warp.final_put, lastOf_singleton]; by_cases h : cell = c <;> simp [h]
  rest _ := rfl
  masks _ := rfl
  wpark _ := rfl
  cause _ := rfl
  replay _ := rfl
  clause _ := rfl

/-- One write for each lane of a list. -/
theorem Writer.lanes {k : Nat → Warp → Warp} {e : Nat → Nat × Word} (h : ∀ l, Writer (k l) [e l]) (ls : List Nat) :
    Writer (fun w => ls.foldl (fun w l => k l w) w) (ls.map e) := by
  induction ls with
  | nil => exact Writer.id
  | cons l ls ih => exact (h l).comp ih

/-- An effect goes on with a further write. -/
theorem State.Effect.modW {s u : State} {ws : List (Nat × Word)} {f : Flags} (h : s.Effect u ws f) {k : Warp → Warp}
    {v : List (Nat × Word)} (hk : Writer k v) : s.Effect (u.modW k) (ws ++ v) f := by
  obtain ⟨x, rfl, h1, h2, h3, h4, h5, h6, h7⟩ := h
  refine ⟨k x, State.modW_setW _ _ _, ?_, (hk.rest x).trans h2, (hk.masks x).trans h3, (hk.wpark x).trans h4, (hk.cause x).trans h5,
    (hk.replay x).trans h6, (hk.clause x).trans h7⟩
  intro c
  rw [hk.final, h1, lastOf_append]
  cases lastOf v c <;> simp

theorem State.effect_modW (s : State) {k : Warp → Warp} {v : List (Nat × Word)} (hk : Writer k v) : s.Effect (s.modW k) v 0 :=
  ⟨k s.w, rfl, hk.final _, by rw [hk.rest, Warp.flagged_zero], hk.masks _, hk.wpark _, hk.cause _, hk.replay _, hk.clause _⟩

theorem State.Effect.addFlags {s u : State} {ws : List (Nat × Word)} (h : s.Effect u ws 0) (f : Flags) : s.Effect (u.addFlags f) ws f := by
  obtain ⟨x, rfl, h1, h2, h3, h4, h5, h6, h7⟩ := h
  rw [Warp.flagged_zero] at h2
  refine ⟨_, State.modW_setW _ _ _, fun c => (Warp.final_congr rfl rfl c).trans (h1 c), ?_, h3, h4, h5, h6, h7⟩
  have hf : x.rest.fstat = s.w.rest.fstat := by rw [h2]
  have : ∀ y : Warp, (y.flagged f).rest = y.rest.flagged f := fun _ => rfl
  exact (this x).trans ((congrArg (fun y : Warp => y.flagged f) h2).trans (this s.w).symm)

theorem State.Effect.facts {s u : State} {ws : List (Nat × Word)} {f : Flags} (h : s.Effect u ws f) :
    u.lanes = s.lanes ∧ u.w.cell = s.w.cell ∧ u.w.predCell = s.w.predCell := by
  obtain ⟨x, rfl, _, h2, _, _, _, _, h7⟩ := h
  have hc : x.cell = s.w.cell ∧ x.predCell = s.w.predCell := by
    have h := Warp.cell_of_rest h2
    exact h
  exact ⟨State.lanes_of_clause (by rw [State.w_setW, h7]), by rw [State.w_setW]; exact hc.1, by rw [State.w_setW]; exact hc.2⟩

/-! Effects of the operations that write registers, from a state on, or behind an effect. -/

theorem State.effect_pendLanes (s : State) (cell : Nat → Nat) (v : Nat → Word) (lat : Nat) :
    s.Effect (s.pendLanes cell v lat) (s.lanes.map (fun l => (cell l, v l))) 0 :=
  s.effect_modW (Writer.lanes (fun l => Writer.pend (cell l) (v l) lat) s.lanes)

theorem State.effect_pendD (s : State) (d : Code) (v : Nat → Word) (lat : Nat) : s.Effect (s.pendD d v lat) (s.toLanes d v) 0 :=
  s.effect_pendLanes _ v lat

theorem State.effect_pendP (s : State) (p : BitVec 3) (v : Nat → Bool) (lat : Nat) : s.Effect (s.pendP p v lat) (s.toPred p v) 0 :=
  s.effect_pendLanes _ _ lat

theorem State.effect_pendK (s : State) (d : Code) (v : Word) (lat : Nat) : s.Effect (s.pendK d v lat) (s.toK d v) 0 :=
  s.effect_modW (Writer.pend _ v lat)

theorem State.effect_putD (s : State) (d : Code) (v : Nat → Word) : s.Effect (s.putD d v) (s.toLanes d v) 0 :=
  s.effect_modW (Writer.lanes (fun l => Writer.put (s.w.cell d.toNat l) (v l)) s.lanes)

theorem State.Effect.pendD {s u : State} {ws : List (Nat × Word)} {f : Flags} (h : s.Effect u ws f) (d : Code) (v : Nat → Word) (lat : Nat) :
    s.Effect (u.pendD d v lat) (ws ++ s.toLanes d v) f := by
  have hf := h.facts
  have := h.modW (Writer.lanes (fun l => Writer.pend (u.w.cell d.toNat l) (v l) lat) u.lanes)
  rw [hf.1, hf.2.1] at this
  unfold State.pendD State.pendLanes
  rw [hf.1, hf.2.1]
  exact this

theorem State.Effect.pendP {s u : State} {ws : List (Nat × Word)} {f : Flags} (h : s.Effect u ws f) (p : BitVec 3) (v : Nat → Bool)
    (lat : Nat) : s.Effect (u.pendP p v lat) (ws ++ s.toPred p v) f := by
  have hf := h.facts
  have := h.modW (Writer.lanes (fun l => Writer.pend (u.w.predCell p.toNat l) (if v l then 1 else 0) lat) u.lanes)
  rw [hf.1, hf.2.2] at this
  unfold State.pendP State.pendLanes
  rw [hf.1, hf.2.2]
  exact this

theorem State.Effect.putP {s u : State} {ws : List (Nat × Word)} {f : Flags} (h : s.Effect u ws f) (p : BitVec 3) (v : Nat → Bool) :
    s.Effect (u.putP p v) (ws ++ s.toPred p v) f := by
  have hf := h.facts
  have := h.modW (Writer.lanes (fun l => Writer.put (u.w.predCell p.toNat l) (if v l then 1 else 0)) u.lanes)
  rw [hf.1, hf.2.2] at this
  unfold State.putP
  rw [hf.1, hf.2.2]
  exact this

theorem State.Effect.putK {s u : State} {ws : List (Nat × Word)} {f : Flags} (h : s.Effect u ws f) (d : Code) (v : Word) :
    s.Effect (u.putK d v) (ws ++ s.toK d v) f := by
  have hf := h.facts
  have := h.modW (Writer.put (u.w.cell d.toNat 0) v)
  rw [hf.2.1] at this
  unfold State.putK State.toK
  rw [hf.2.1]
  exact this

theorem State.effect_pendPair (s : State) (d : Code) (v : Nat → BitVec 64) (lat : Nat) : s.Effect (s.pendPair d v lat) (s.toPair d v) 0 :=
  (s.effect_pendD d _ lat).pendD (d + 1) _ lat

end Sys2Proof.Machine
end

