-- ==== Sys2Proof/Laws/Memory.lean ====
section
/-! SUPPORT. Memory: every operation that writes it keeps its canonical form, and what else of the state a write reaches. -/

namespace Sys2Proof.Machine

theorem State.reset_wf : State.reset.mem.wf = true := rfl

/-- What a performed write reaches: memory and what is kept of its bytes and lines, copies in the cores' L1 caches among it. -/
def State.SameBut (s t : State) : Prop :=
  t = { s with mem := t.mem, cores := t.cores, copies := t.copies, stale := t.stale, sync := t.sync, lineKey := t.lineKey, lineSlot := t.lineSlot, poison := t.poison }

theorem State.SameBut.refl (s : State) : s.SameBut s := rfl
theorem State.SameBut.trans {s t u : State} (h : s.SameBut t) (g : t.SameBut u) : s.SameBut u := by
  unfold State.SameBut at *
  rw [g, h]

theorem State.rekey_wf (s : State) (key : Nat) (slot : BitVec 10) (h : s.mem.wf = true) : (s.rekey key slot).mem.wf = true := by
  unfold State.rekey
  simp only
  split
  · exact h
  · exact Map.wf_setFrom _ _ h

theorem State.rekey_same (s : State) (key : Nat) (slot : BitVec 10) : s.SameBut (s.rekey key slot) := by
  unfold State.rekey
  simp only
  split <;> rfl

theorem State.putByte_wf (s : State) (b : WByte) (h : s.mem.wf = true) : (s.putByte b).mem.wf = true :=
  Map.wf_set _ _ (s.rekey_wf _ _ h)

theorem State.putByte_same (s : State) (b : WByte) : s.SameBut (s.putByte b) :=
  (s.rekey_same b.key b.slot).trans rfl

theorem State.keepStale_same (s : State) (key : Nat) (dies : BitVec 4) :
    s.SameBut (s.keepStale key dies) ∧ (s.keepStale key dies).mem = s.mem := by
  unfold State.keepStale
  generalize setBits dies = ds
  induction ds generalizing s with
  | nil => exact ⟨rfl, rfl⟩
  | cons d ds ih =>
    simp only [List.foldl_cons]
    split
    · exact ih s
    · exact ⟨State.SameBut.trans (t := { s with stale := _ }) rfl (ih _).1, (ih _).2⟩

theorem State.dropL1_same (s : State) (dies : BitVec 4) (line : Nat) : s.SameBut (s.dropL1 dies line) ∧ (s.dropL1 dies line).mem = s.mem := by
  unfold State.dropL1
  split <;> exact ⟨rfl, rfl⟩

theorem State.freshen_same (s : State) (die key : Nat) : s.SameBut (s.freshen die key) ∧ (s.freshen die key).mem = s.mem := by
  have h := State.dropL1_same { s with stale := s.stale.set (staleKey die key) none } (dieBit die) (lineOf key)
  exact ⟨State.SameBut.trans (t := { s with stale := s.stale.set (staleKey die key) none }) rfl h.1, h.2⟩

theorem State.performE_keeps (s : State) (die : Nat) (bs : List WByte) :
    s.SameBut (s.performE die bs) ∧ (s.mem.wf = true → (s.performE die bs).mem.wf = true) := by
  unfold State.performE
  induction bs generalizing s with
  | nil => exact ⟨rfl, id⟩
  | cons b bs ih =>
    simp only [List.foldl_cons]
    have k := s.keepStale_same b.key (s.copyDies b.key die)
    have f := (s.keepStale b.key (s.copyDies b.key die)).freshen_same die b.key
    have i := ih (((s.keepStale b.key (s.copyDies b.key die)).freshen die b.key).putByte b)
    exact ⟨((k.1.trans f.1).trans (State.putByte_same _ b)).trans i.1, fun h => i.2 (State.putByte_wf _ b (by rw [f.2, k.2]; exact h))⟩

theorem State.dropCopies_same (s : State) (line : Nat) (ds : List Nat) :
    s.SameBut (ds.foldl (fun s d => s.dropCopy d line) s) ∧ (ds.foldl (fun s d => s.dropCopy d line) s).mem = s.mem := by
  induction ds generalizing s with
  | nil => exact ⟨rfl, rfl⟩
  | cons d ds ih => exact ⟨State.SameBut.trans (t := s.dropCopy d line) rfl (ih _).1, (ih _).2⟩

theorem State.performG_cons (s : State) (b : WByte) (bs : List WByte) :
    s.performG (b :: bs)
      = ((([0, 1, 2, 3].foldl (fun s d => State.dropCopy s d (lineOf b.key)) s).dropL1 15 (lineOf b.key)).putByte b).performG bs := rfl

theorem State.performG_keeps (s : State) (bs : List WByte) :
    s.SameBut (s.performG bs) ∧ (s.mem.wf = true → (s.performG bs).mem.wf = true) := by
  induction bs generalizing s with
  | nil => exact ⟨rfl, id⟩
  | cons b bs ih =>
    rw [State.performG_cons]
    have k := s.dropCopies_same (lineOf b.key) [0, 1, 2, 3]
    generalize [0, 1, 2, 3].foldl (fun s d => State.dropCopy s d (lineOf b.key)) s = u at k
    have l := u.dropL1_same 15 (lineOf b.key)
    generalize u.dropL1 15 (lineOf b.key) = v at l
    exact ⟨((k.1.trans l.1).trans (v.putByte_same b)).trans (ih _).1, fun h => (ih _).2 (v.putByte_wf b (by rw [l.2, k.2]; exact h))⟩

@[simp] theorem State.tlbFill_mem (s : State) (key size : Nat) (e : TlbEntry) : (s.tlbFill key size e).mem = s.mem := by
  unfold State.tlbFill
  simp only
  split <;> rfl

@[simp] theorem State.fillUppers_mem (key size : Nat) (es : List TlbEntry) (s : State) :
    (es.foldl (fun (s : State) e => s.tlbFill key size e) s).mem = s.mem := by
  induction es generalizing s with
  | nil => rfl
  | cons e es ih => rw [List.foldl_cons, ih, State.tlbFill_mem]

@[simp] theorem State.touch_mem (s : State) (ctx : Nat) (dies : BitVec 4) : (s.touch ctx dies).mem = s.mem := rfl

@[simp] theorem State.noteWalk_mem (s : State) (pl ctx : Nat) (w : Walk) : (s.noteWalk pl ctx w).mem = s.mem := by
  unfold State.noteWalk
  simp only
  split
  · split <;> simp
  · simp

@[simp] theorem State.writePieces_mem (s : State) (pl ctx n : Nat) (ps : List (BitVec 64 × Nat)) (acc : List (Nat × BitVec 10 × Nat)) :
    (s.writePieces pl ctx n ps acc).1.mem = s.mem := by
  induction ps generalizing s n acc with
  | nil => rfl
  | cons p ps ih =>
    obtain ⟨va, k⟩ := p
    unfold State.writePieces
    simp only
    split
    · rw [ih, State.noteWalk_mem]
    all_goals exact State.noteWalk_mem _ _ _ _

theorem State.placeWrite_keeps_wf (s : State) (pl ctx : Nat) (va : BitVec 64) (bs : List Byte) (k : Nat) (h : s.mem.wf = true) :
    (s.placeWrite pl ctx va bs k).1.mem.wf = true := by
  have hx := s.writePieces_mem pl ctx k (rangePieces va bs.length) []
  unfold State.placeWrite
  simp only
  split
  · split
    · exact hx ▸ h
    · exact (State.performG_keeps _ _).2 (hx ▸ h)
  · exact hx ▸ h

theorem State.agentWrite_keeps_wf (s : State) (ctx : Nat) (va : BitVec 64) (bs : List Byte) (k pl : Nat) (h : s.mem.wf = true) :
    (s.agentWrite ctx va bs k pl).1.mem.wf = true := by
  have hx := s.placeWrite_keeps_wf pl ctx va bs k h
  unfold State.agentWrite
  simp only
  split
  · exact hx
  · exact h
  · exact hx

/-- A write that no context makes is performed as .G, or held, and reaches nothing else. -/
theorem State.hubWrite_cases (s : State) (bs : List WByte) :
    s.hubWrite bs = s.performG bs ∨ s.hubWrite bs = { s with posted := s.posted ++ [.bytes bs] } := by
  unfold State.hubWrite
  split
  · exact Or.inr rfl
  · exact Or.inl rfl

theorem State.physWrite_keeps_wf (s : State) (part pa : Nat) (bs : List Byte) (h : s.mem.wf = true) : (s.physWrite part pa bs).mem.wf = true := by
  unfold State.physWrite
  simp only
  rcases s.hubWrite_cases _ with e | e
  · rw [e]; exact (State.performG_keeps _ _).2 h
  · rw [e]; exact h

theorem putWords_wf (l : List (Nat × Nat × Nat)) (m : Map Byte) (h : m.wf = true) : (putWords m l).wf = true := by
  induction l generalizing m with
  | nil => exact h
  | cons e l ih =>
    obtain ⟨pa, n, v⟩ := e
    exact ih _ (Map.wf_setFrom _ _ h)

theorem keySlotClear_wf (slot : BitVec 10) (s t : State) (h : s.mem.wf = true) (e : execKeySlotClear slot s = .next t) : t.mem.wf = true := by
  unfold execKeySlotClear at e
  simp only [Host.Outcome.next.injEq] at e
  subst e
  simp only [State.modHub_mem]
  generalize s.slotLines slot = ls
  induction ls generalizing s with
  | nil => exact h
  | cons l ls ih =>
    simp only [List.foldl_cons]
    refine ih _ ?_
    split
    · exact Map.wf_setFrom _ _ h
    · exact h

theorem dieResetStart_wf (die : Nat) (s t : State) (h : s.mem.wf = true) (e : execDieResetStart die s = .next t) : t.mem.wf = true := by
  unfold execDieResetStart at e
  split at e
  · cases e
    exact h
  · cases e
    rw [State.modDie_mem]
    exact Map.wf_keep (fun k _ => !(s.homeOfKey k == some die)) h

end Sys2Proof.Machine
end

