-- ==== Sys2Proof/Laws/PerInstr.lean ====
section
/-! SUPPORT. Statements about instructions as syntax, constructor by constructor. -/

namespace Sys2Proof.Laws

set_option maxRecDepth 8192

/-- A well-formed instruction's words decode to it; an event has none. -/
def RoundTrip.Statement (i : Instr) : Prop :=
  i.wf = true → encode i = [] ∨ (∃ w, encode i = [w] ∧ decodeLake w = some i) ∨
    (∃ w, encode i = [w] ∧ ∀ x, decodeWord w x = .ok (i, false)) ∨ (∃ w x, encode i = [w, x] ∧ decodeWord w x = .ok (i, true))

theorem RoundTrip.event {i : Instr} (h : encode i = []) : RoundTrip.Statement i := fun _ => .inl h

theorem RoundTrip.lake {i : Instr} {w : Word} {b : Word → Option Instr} (he : encode i = [w])
    (hr : findLake lakeRows (lOp w).toNat = some b) (hb : b w = some i) : RoundTrip.Statement i :=
  fun hw => .inr (.inl ⟨w, he, decodeLake_of_row hr hb hw⟩)

theorem RoundTrip.one {i : Instr} {w : Word} {r : Row} (he : encode i = [w]) (hr : findRow rows (fOp w).toNat (fF w).toNat = some r)
    (hl : r.long = false) (hb : i.wf = true → ∀ x, r.build w x = some i) : RoundTrip.Statement i :=
  fun hw => .inr (.inr (.inl ⟨w, he, fun x => hl ▸ decodeWord_of_row hr (hb hw x) hw⟩))

theorem RoundTrip.two {i : Instr} {w x : Word} {r : Row} (he : encode i = [w, x]) (hr : findRow rows (fOp w).toNat (fF w).toNat = some r)
    (hl : r.long = true) (hb : r.build w x = some i) : RoundTrip.Statement i :=
  fun hw => .inr (.inr (.inr ⟨w, x, he, hl ▸ decodeWord_of_row hr hb hw⟩))

theorem RoundTrip.iadd {st d a b} : RoundTrip.Statement (.iadd st d a b) := by
  refine one rfl (by rw [fOp_packR, fF_packR]; rfl) rfl (fun h x => ?_)
  simp

theorem RoundTrip.isub {st d a b} : RoundTrip.Statement (.isub st d a b) := by
  refine one rfl (by rw [fOp_packR, fF_packR]; rfl) rfl (fun h x => ?_)
  simp

theorem RoundTrip.imul {st d a b} : RoundTrip.Statement (.imul st d a b) := by
  refine one rfl (by rw [fOp_packR, fF_packR]; rfl) rfl (fun h x => ?_)
  simp

theorem RoundTrip.imulh {st d a b} : RoundTrip.Statement (.imulh st d a b) := by
  refine one rfl (by rw [fOp_packR, fF_packR]; rfl) rfl (fun h x => ?_)
  simp

theorem RoundTrip.imin {st d a b} : RoundTrip.Statement (.imin st d a b) := by
  refine one rfl (by rw [fOp_packR, fF_packR]; rfl) rfl (fun h x => ?_)
  simp

theorem RoundTrip.imax {st d a b} : RoundTrip.Statement (.imax st d a b) := by
  refine one rfl (by rw [fOp_packR, fF_packR]; rfl) rfl (fun h x => ?_)
  simp

theorem RoundTrip.iabs {st d a} : RoundTrip.Statement (.iabs st d a) := by
  refine one rfl (by rw [fOp_packR, fF_packR]; rfl) rfl (fun h x => ?_)
  simp

theorem RoundTrip.ineg {st d a} : RoundTrip.Statement (.ineg st d a) := by
  refine one rfl (by rw [fOp_packR, fF_packR]; rfl) rfl (fun h x => ?_)
  simp

theorem RoundTrip.imad {st d a b sub c} : RoundTrip.Statement (.imad st d a b sub c) := by
  refine two rfl (by rw [fOp_packR, fF_packR]; rfl) rfl ?_
  simp

theorem RoundTrip.iadd64 {st d a b} : RoundTrip.Statement (.iadd64 st d a b) := by
  refine one rfl (by rw [fOp_packR, fF_packR]; rfl) rfl (fun h x => ?_)
  simp

theorem RoundTrip.isub64 {st d a b} : RoundTrip.Statement (.isub64 st d a b) := by
  refine one rfl (by rw [fOp_packR, fF_packR]; rfl) rfl (fun h x => ?_)
  simp

theorem RoundTrip.bfi {st d a b c imm7} : RoundTrip.Statement (.bfi st d a b c imm7) := by
  refine two rfl (by rw [fOp_packR, fF_packR]; rfl) rfl ?_
  simp

theorem RoundTrip.bfx {st d a b sub imm7} : RoundTrip.Statement (.bfx st d a b sub imm7) := by
  refine two rfl (by rw [fOp_packR, fF_packR]; rfl) rfl ?_
  simp

theorem RoundTrip.sel {st d a b ps pn} : RoundTrip.Statement (.sel st d a b ps pn) := by
  refine two rfl (by rw [fOp_packR, fF_packR]; rfl) rfl ?_
  simp

theorem RoundTrip.icmpp {st a b sub pd ps pn imm7} : RoundTrip.Statement (.icmpp st a b sub pd ps pn imm7) := by
  refine two rfl (by rw [fOp_packR, fF_packR]; rfl) rfl ?_
  simp

theorem RoundTrip.and {st d a b} : RoundTrip.Statement (.and st d a b) := by
  refine one rfl (by rw [fOp_packR, fF_packR]; rfl) rfl (fun h x => ?_)
  simp

theorem RoundTrip.or {st d a b} : RoundTrip.Statement (.or st d a b) := by
  refine one rfl (by rw [fOp_packR, fF_packR]; rfl) rfl (fun h x => ?_)
  simp

theorem RoundTrip.xor {st d a b} : RoundTrip.Statement (.xor st d a b) := by
  refine one rfl (by rw [fOp_packR, fF_packR]; rfl) rfl (fun h x => ?_)
  simp

theorem RoundTrip.not {st d a} : RoundTrip.Statement (.not st d a) := by
  refine one rfl (by rw [fOp_packR, fF_packR]; rfl) rfl (fun h x => ?_)
  simp

theorem RoundTrip.shl {st d a b} : RoundTrip.Statement (.shl st d a b) := by
  refine one rfl (by rw [fOp_packR, fF_packR]; rfl) rfl (fun h x => ?_)
  simp

theorem RoundTrip.shr {st d a b} : RoundTrip.Statement (.shr st d a b) := by
  refine one rfl (by rw [fOp_packR, fF_packR]; rfl) rfl (fun h x => ?_)
  simp

theorem RoundTrip.sar {st d a b} : RoundTrip.Statement (.sar st d a b) := by
  refine one rfl (by rw [fOp_packR, fF_packR]; rfl) rfl (fun h x => ?_)
  simp

theorem RoundTrip.rol {st d a b} : RoundTrip.Statement (.rol st d a b) := by
  refine one rfl (by rw [fOp_packR, fF_packR]; rfl) rfl (fun h x => ?_)
  simp

theorem RoundTrip.shl64 {st d a b} : RoundTrip.Statement (.shl64 st d a b) := by
  refine one rfl (by rw [fOp_packR, fF_packR]; rfl) rfl (fun h x => ?_)
  simp

theorem RoundTrip.shr64 {st d a b} : RoundTrip.Statement (.shr64 st d a b) := by
  refine one rfl (by rw [fOp_packR, fF_packR]; rfl) rfl (fun h x => ?_)
  simp

theorem RoundTrip.popc {st d a} : RoundTrip.Statement (.popc st d a) := by
  refine one rfl (by rw [fOp_packR, fF_packR]; rfl) rfl (fun h x => ?_)
  simp

theorem RoundTrip.clz {st d a} : RoundTrip.Statement (.clz st d a) := by
  refine one rfl (by rw [fOp_packR, fF_packR]; rfl) rfl (fun h x => ?_)
  simp

theorem RoundTrip.brev {st d a} : RoundTrip.Statement (.brev st d a) := by
  refine one rfl (by rw [fOp_packR, fF_packR]; rfl) rfl (fun h x => ?_)
  simp

theorem RoundTrip.mov {st d a} : RoundTrip.Statement (.mov st d a) := by
  refine one rfl (by rw [fOp_packR, fF_packR]; rfl) rfl (fun h x => ?_)
  simp

theorem RoundTrip.movi {st d imm} : RoundTrip.Statement (.movi st d imm) := by
  refine one rfl (by rw [fOp_packI, fF_packI]; rfl) rfl (fun h x => ?_)
  simp

theorem RoundTrip.limm {st d imm} : RoundTrip.Statement (.limm st d imm) := by
  refine two rfl (by rw [fOp_packR, fF_packR]; rfl) rfl ?_
  simp

theorem RoundTrip.setwb {st imm} : RoundTrip.Statement (.setwb st imm) := by
  refine one rfl (by rw [fOp_packI, fF_packI]; rfl) rfl (fun h x => ?_)
  simp

theorem RoundTrip.movxR {st d a imm7} : RoundTrip.Statement (.movxR st d a imm7) := by
  refine two rfl (by rw [fOp_packR, fF_packR]; rfl) rfl ?_
  simp

theorem RoundTrip.movxW {st a b imm7} : RoundTrip.Statement (.movxW st a b imm7) := by
  refine two rfl (by rw [fOp_packR, fF_packR]; rfl) rfl ?_
  simp

theorem RoundTrip.fadd {st d a b} : RoundTrip.Statement (.fadd st d a b) := by
  refine one rfl (by rw [fOp_packR, fF_packR]; rfl) rfl (fun h x => ?_)
  simp

theorem RoundTrip.fsub {st d a b} : RoundTrip.Statement (.fsub st d a b) := by
  refine one rfl (by rw [fOp_packR, fF_packR]; rfl) rfl (fun h x => ?_)
  simp

theorem RoundTrip.fmul {st d a b} : RoundTrip.Statement (.fmul st d a b) := by
  refine one rfl (by rw [fOp_packR, fF_packR]; rfl) rfl (fun h x => ?_)
  simp

theorem RoundTrip.fmin {st d a b} : RoundTrip.Statement (.fmin st d a b) := by
  refine one rfl (by rw [fOp_packR, fF_packR]; rfl) rfl (fun h x => ?_)
  simp

theorem RoundTrip.fmax {st d a b} : RoundTrip.Statement (.fmax st d a b) := by
  refine one rfl (by rw [fOp_packR, fF_packR]; rfl) rfl (fun h x => ?_)
  simp

theorem RoundTrip.fneg {st d a} : RoundTrip.Statement (.fneg st d a) := by
  refine one rfl (by rw [fOp_packR, fF_packR]; rfl) rfl (fun h x => ?_)
  simp

theorem RoundTrip.fabs {st d a} : RoundTrip.Statement (.fabs st d a) := by
  refine one rfl (by rw [fOp_packR, fF_packR]; rfl) rfl (fun h x => ?_)
  simp

theorem RoundTrip.fclass {st d a} : RoundTrip.Statement (.fclass st d a) := by
  refine one rfl (by rw [fOp_packR, fF_packR]; rfl) rfl (fun h x => ?_)
  simp

theorem RoundTrip.faddRm {st d a b rm} : RoundTrip.Statement (.faddRm st d a b rm) := by
  refine two rfl (by rw [fOp_packR, fF_packR]; rfl) rfl ?_
  simp

theorem RoundTrip.fsubRm {st d a b rm} : RoundTrip.Statement (.fsubRm st d a b rm) := by
  refine two rfl (by rw [fOp_packR, fF_packR]; rfl) rfl ?_
  simp

theorem RoundTrip.fmulRm {st d a b rm} : RoundTrip.Statement (.fmulRm st d a b rm) := by
  refine two rfl (by rw [fOp_packR, fF_packR]; rfl) rfl ?_
  simp

theorem RoundTrip.ffma {st d a b rm c} : RoundTrip.Statement (.ffma st d a b rm c) := by
  refine two rfl (by rw [fOp_packR, fF_packR]; rfl) rfl ?_
  simp

theorem RoundTrip.fcmpp {st a b sub pd ps pn imm7} : RoundTrip.Statement (.fcmpp st a b sub pd ps pn imm7) := by
  refine two rfl (by rw [fOp_packR, fF_packR]; rfl) rfl ?_
  simp

theorem RoundTrip.frint {st d a rm} : RoundTrip.Statement (.frint st d a rm) := by
  refine two rfl (by rw [fOp_packR, fF_packR]; rfl) rfl ?_
  simp

theorem RoundTrip.fdp2 {st d a b rm sub c} : RoundTrip.Statement (.fdp2 st d a b rm sub c) := by
  refine two rfl (by rw [fOp_packR, fF_packR]; rfl) rfl ?_
  simp

theorem RoundTrip.hadd2 {st d a b} : RoundTrip.Statement (.hadd2 st d a b) := by
  refine one rfl (by rw [fOp_packR, fF_packR]; rfl) rfl (fun h x => ?_)
  simp

theorem RoundTrip.hmul2 {st d a b} : RoundTrip.Statement (.hmul2 st d a b) := by
  refine one rfl (by rw [fOp_packR, fF_packR]; rfl) rfl (fun h x => ?_)
  simp

theorem RoundTrip.hfma2 {st d a b rm sub c} : RoundTrip.Statement (.hfma2 st d a b rm sub c) := by
  refine two rfl (by rw [fOp_packR, fF_packR]; rfl) rfl ?_
  simp

theorem RoundTrip.hadd2X {st d a b rm sub} : RoundTrip.Statement (.hadd2X st d a b rm sub) := by
  refine two rfl (by rw [fOp_packR, fF_packR]; rfl) rfl ?_
  simp

theorem RoundTrip.hmul2X {st d a b rm sub} : RoundTrip.Statement (.hmul2X st d a b rm sub) := by
  refine two rfl (by rw [fOp_packR, fF_packR]; rfl) rfl ?_
  simp

theorem RoundTrip.idp4 {st d a b sub c} : RoundTrip.Statement (.idp4 st d a b sub c) := by
  refine two rfl (by rw [fOp_packR, fF_packR]; rfl) rfl ?_
  simp

theorem RoundTrip.cvt {st d a rm sub imm7} : RoundTrip.Statement (.cvt st d a rm sub imm7) := by
  refine two rfl (by rw [fOp_packR, fF_packR]; rfl) rfl ?_
  simp

theorem RoundTrip.cvtsTo {st d a rm fs imm7} : RoundTrip.Statement (.cvtsTo st d a rm fs imm7) := by
  refine two rfl (by rw [fOp_packR, fF_packR]; rfl) rfl ?_
  simp

theorem RoundTrip.cvtsFrom {st d a fs imm7} : RoundTrip.Statement (.cvtsFrom st d a fs imm7) := by
  refine two rfl (by rw [fOp_packR, fF_packR]; rfl) rfl ?_
  simp

theorem RoundTrip.frcp {st d a} : RoundTrip.Statement (.frcp st d a) := by
  refine one rfl (by rw [fOp_packR, fF_packR]; rfl) rfl (fun h x => ?_)
  simp

theorem RoundTrip.frsq {st d a} : RoundTrip.Statement (.frsq st d a) := by
  refine one rfl (by rw [fOp_packR, fF_packR]; rfl) rfl (fun h x => ?_)
  simp

theorem RoundTrip.fsqrt {st d a} : RoundTrip.Statement (.fsqrt st d a) := by
  refine one rfl (by rw [fOp_packR, fF_packR]; rfl) rfl (fun h x => ?_)
  simp

theorem RoundTrip.fexp2 {st d a} : RoundTrip.Statement (.fexp2 st d a) := by
  refine one rfl (by rw [fOp_packR, fF_packR]; rfl) rfl (fun h x => ?_)
  simp

theorem RoundTrip.flog2 {st d a} : RoundTrip.Statement (.flog2 st d a) := by
  refine one rfl (by rw [fOp_packR, fF_packR]; rfl) rfl (fun h x => ?_)
  simp

theorem RoundTrip.fsin {st d a} : RoundTrip.Statement (.fsin st d a) := by
  refine one rfl (by rw [fOp_packR, fF_packR]; rfl) rfl (fun h x => ?_)
  simp

theorem RoundTrip.fcos {st d a} : RoundTrip.Statement (.fcos st d a) := by
  refine one rfl (by rw [fOp_packR, fF_packR]; rfl) rfl (fun h x => ?_)
  simp

theorem RoundTrip.tint {st d a} : RoundTrip.Statement (.tint st d a) := by
  refine one rfl (by rw [fOp_packR, fF_packR]; rfl) rfl (fun h x => ?_)
  simp

theorem RoundTrip.tintld {st a} : RoundTrip.Statement (.tintld st a) := by
  refine one rfl (by rw [fOp_packR, fF_packR]; rfl) rfl (fun h x => ?_)
  simp

theorem RoundTrip.tintsw {st} : RoundTrip.Statement (.tintsw st) := by
  refine one rfl (by rw [fOp_packR, fF_packR]; rfl) rfl (fun h x => ?_)
  simp

theorem RoundTrip.chld {st d a} : RoundTrip.Statement (.chld st d a) := by
  refine one rfl (by rw [fOp_packR, fF_packR]; rfl) rfl (fun h x => ?_)
  simp

theorem RoundTrip.chrun {st d a b sub imm7} : RoundTrip.Statement (.chrun st d a b sub imm7) := by
  refine two rfl (by rw [fOp_packR, fF_packR]; rfl) rfl ?_
  simp

theorem RoundTrip.kadd {st d a b} : RoundTrip.Statement (.kadd st d a b) := by
  refine one rfl (by rw [fOp_packR, fF_packR]; rfl) rfl (fun h x => ?_)
  simp

theorem RoundTrip.ksub {st d a b} : RoundTrip.Statement (.ksub st d a b) := by
  refine one rfl (by rw [fOp_packR, fF_packR]; rfl) rfl (fun h x => ?_)
  simp

theorem RoundTrip.kmul {st d a b} : RoundTrip.Statement (.kmul st d a b) := by
  refine one rfl (by rw [fOp_packR, fF_packR]; rfl) rfl (fun h x => ?_)
  simp

theorem RoundTrip.kand {st d a b} : RoundTrip.Statement (.kand st d a b) := by
  refine one rfl (by rw [fOp_packR, fF_packR]; rfl) rfl (fun h x => ?_)
  simp

theorem RoundTrip.kor {st d a b} : RoundTrip.Statement (.kor st d a b) := by
  refine one rfl (by rw [fOp_packR, fF_packR]; rfl) rfl (fun h x => ?_)
  simp

theorem RoundTrip.kxor {st d a b} : RoundTrip.Statement (.kxor st d a b) := by
  refine one rfl (by rw [fOp_packR, fF_packR]; rfl) rfl (fun h x => ?_)
  simp

theorem RoundTrip.kshl {st d a b} : RoundTrip.Statement (.kshl st d a b) := by
  refine one rfl (by rw [fOp_packR, fF_packR]; rfl) rfl (fun h x => ?_)
  simp

theorem RoundTrip.kshr {st d a b} : RoundTrip.Statement (.kshr st d a b) := by
  refine one rfl (by rw [fOp_packR, fF_packR]; rfl) rfl (fun h x => ?_)
  simp

theorem RoundTrip.kmov {st d a} : RoundTrip.Statement (.kmov st d a) := by
  refine one rfl (by rw [fOp_packR, fF_packR]; rfl) rfl (fun h x => ?_)
  simp

theorem RoundTrip.kmovi {st d imm} : RoundTrip.Statement (.kmovi st d imm) := by
  refine one rfl (by rw [fOp_packI, fF_packI]; rfl) rfl (fun h x => ?_)
  simp

theorem RoundTrip.kcmpp {st a b sub pd ps pn imm7} : RoundTrip.Statement (.kcmpp st a b sub pd ps pn imm7) := by
  refine two rfl (by rw [fOp_packR, fF_packR]; rfl) rfl ?_
  simp

theorem RoundTrip.klane {st d a b} : RoundTrip.Statement (.klane st d a b) := by
  refine one rfl (by rw [fOp_packR, fF_packR]; rfl) rfl (fun h x => ?_)
  simp

theorem RoundTrip.kpopm {st d a b} : RoundTrip.Statement (.kpopm st d a b) := by
  refine one rfl (by rw [fOp_packR, fF_packR]; rfl) rfl (fun h x => ?_)
  simp

theorem RoundTrip.bra {st off} : RoundTrip.Statement (.bra st off) := by
  refine one rfl (by rw [fOp_packC, fF_packC]; rfl) rfl (fun h x => ?_)
  simp

theorem RoundTrip.braPred {st ps pn off} : RoundTrip.Statement (.braPred st ps pn off) := by
  refine one rfl (by rw [fOp_packC, fF_packC]; rfl) rfl (fun h x => ?_)
  simp

theorem RoundTrip.brx {st a} : RoundTrip.Statement (.brx st a) := by
  refine one rfl (by rw [fOp_packR, fF_packR]; rfl) rfl (fun h x => ?_)
  simp

theorem RoundTrip.call {st off} : RoundTrip.Statement (.call st off) := by
  refine one rfl (by rw [fOp_packC, fF_packC]; rfl) rfl (fun h x => ?_)
  simp

theorem RoundTrip.ret {st a} : RoundTrip.Statement (.ret st a) := by
  refine one rfl (by rw [fOp_packR, fF_packR]; rfl) rfl (fun h x => ?_)
  simp

theorem RoundTrip.exit {st} : RoundTrip.Statement (.exit st) := by
  refine one rfl (by rw [fOp_packR, fF_packR]; rfl) rfl (fun h x => ?_)
  simp

theorem RoundTrip.nop {st} : RoundTrip.Statement (.nop st) := by
  refine one rfl (by rw [fOp_packR, fF_packR]; rfl) rfl (fun h x => ?_)
  simp

theorem RoundTrip.sleep {st imm} : RoundTrip.Statement (.sleep st imm) := by
  refine one rfl (by rw [fOp_packI, fF_packI]; rfl) rfl (fun h x => ?_)
  simp

theorem RoundTrip.enrol {st d a} : RoundTrip.Statement (.enrol st d a) := by
  refine one rfl (by rw [fOp_packR, fF_packR]; rfl) rfl (fun h x => ?_)
  simp

theorem RoundTrip.jwait {st d} : RoundTrip.Statement (.jwait st d) := by
  refine one rfl (by rw [fOp_packR, fF_packR]; rfl) rfl (fun h x => ?_)
  simp

theorem RoundTrip.dret {st a b} : RoundTrip.Statement (.dret st a b) := by
  refine one rfl (by rw [fOp_packR, fF_packR]; rfl) rfl (fun h x => ?_)
  simp

theorem RoundTrip.park {st} : RoundTrip.Statement (.park st) := by
  refine one rfl (by rw [fOp_packR, fF_packR]; rfl) rfl (fun h x => ?_)
  simp

theorem RoundTrip.yield {st} : RoundTrip.Statement (.yield st) := by
  refine one rfl (by rw [fOp_packR, fF_packR]; rfl) rfl (fun h x => ?_)
  simp

theorem RoundTrip.barv {st} : RoundTrip.Statement (.barv st) := by
  refine one rfl (by rw [fOp_packR, fF_packR]; rfl) rfl (fun h x => ?_)
  simp

theorem RoundTrip.barn {st d a} : RoundTrip.Statement (.barn st d a) := by
  refine one rfl (by rw [fOp_packR, fF_packR]; rfl) rfl (fun h x => ?_)
  simp

theorem RoundTrip.bleave {st} : RoundTrip.Statement (.bleave st) := by
  refine one rfl (by rw [fOp_packR, fF_packR]; rfl) rfl (fun h x => ?_)
  simp

theorem RoundTrip.stgbeg {st a b} : RoundTrip.Statement (.stgbeg st a b) := by
  refine one rfl (by rw [fOp_packR, fF_packR]; rfl) rfl (fun h x => ?_)
  simp

theorem RoundTrip.stgnext {st d pd} : RoundTrip.Statement (.stgnext st d pd) := by
  refine two rfl (by rw [fOp_packR, fF_packR]; rfl) rfl ?_
  simp

theorem RoundTrip.stgadv {st d a b} : RoundTrip.Statement (.stgadv st d a b) := by
  refine one rfl (by rw [fOp_packR, fF_packR]; rfl) rfl (fun h x => ?_)
  simp

theorem RoundTrip.stgset {st d a b} : RoundTrip.Statement (.stgset st d a b) := by
  refine one rfl (by rw [fOp_packR, fF_packR]; rfl) rfl (fun h x => ?_)
  simp

theorem RoundTrip.stgwl {st d a b} : RoundTrip.Statement (.stgwl st d a b) := by
  refine one rfl (by rw [fOp_packR, fF_packR]; rfl) rfl (fun h x => ?_)
  simp

theorem RoundTrip.stgend {st} : RoundTrip.Statement (.stgend st) := by
  refine one rfl (by rw [fOp_packR, fF_packR]; rfl) rfl (fun h x => ?_)
  simp

theorem RoundTrip.lxchAt {st d a b sub c} : RoundTrip.Statement (.lxchAt st d a b sub c) := by
  refine two rfl (by rw [fOp_packR, fF_packR]; rfl) rfl ?_
  simp

theorem RoundTrip.lxchBack {st d a b sub c} : RoundTrip.Statement (.lxchBack st d a b sub c) := by
  refine two rfl (by rw [fOp_packR, fF_packR]; rfl) rfl ?_
  simp

theorem RoundTrip.lxchFwd {st d a b sub c} : RoundTrip.Statement (.lxchFwd st d a b sub c) := by
  refine two rfl (by rw [fOp_packR, fF_packR]; rfl) rfl ?_
  simp

theorem RoundTrip.lxchFlip {st d a b sub c} : RoundTrip.Statement (.lxchFlip st d a b sub c) := by
  refine two rfl (by rw [fOp_packR, fF_packR]; rfl) rfl ?_
  simp

theorem RoundTrip.ltest {st sub pd ps pn} : RoundTrip.Statement (.ltest st sub pd ps pn) := by
  refine two rfl (by rw [fOp_packR, fF_packR]; rfl) rfl ?_
  simp

theorem RoundTrip.pmask {st d a} : RoundTrip.Statement (.pmask st d a) := by
  refine one rfl (by rw [fOp_packR, fF_packR]; rfl) rfl (fun h x => ?_)
  simp

theorem RoundTrip.lsame {st d a b} : RoundTrip.Statement (.lsame st d a b) := by
  refine one rfl (by rw [fOp_packR, fF_packR]; rfl) rfl (fun h x => ?_)
  simp

theorem RoundTrip.lfold {st d a sub} : RoundTrip.Statement (.lfold st d a sub) := by
  refine two rfl (by rw [fOp_packR, fF_packR]; rfl) rfl ?_
  simp

theorem RoundTrip.scanx {st d a sub imm7} : RoundTrip.Statement (.scanx st d a sub imm7) := by
  refine two rfl (by rw [fOp_packR, fF_packR]; rfl) rfl ?_
  simp

theorem RoundTrip.isect {st d a b c pd} : RoundTrip.Statement (.isect st d a b c pd) := by
  refine two rfl (by rw [fOp_packR, fF_packR]; rfl) rfl ?_
  simp

theorem RoundTrip.bmpos {st d a b c pd} : RoundTrip.Statement (.bmpos st d a b c pd) := by
  refine two rfl (by rw [fOp_packR, fF_packR]; rfl) rfl ?_
  simp

theorem RoundTrip.ld {st d a xa} : RoundTrip.Statement (.ld st d a xa) := by
  refine two rfl (by rw [fOp_packR, fF_packR]; rfl) rfl ?_
  simp

theorem RoundTrip.st {st a b xa} : RoundTrip.Statement (.st st a b xa) := by
  refine two rfl (by rw [fOp_packR, fF_packR]; rfl) rfl ?_
  simp

theorem RoundTrip.lds {st d a xa} : RoundTrip.Statement (.lds st d a xa) := by
  refine two rfl (by rw [fOp_packR, fF_packR]; rfl) rfl ?_
  simp

theorem RoundTrip.sts {st a b xa} : RoundTrip.Statement (.sts st a b xa) := by
  refine two rfl (by rw [fOp_packR, fF_packR]; rfl) rfl ?_
  simp

theorem RoundTrip.atom {st d a b xa} : RoundTrip.Statement (.atom st d a b xa) := by
  refine two rfl (by rw [fOp_packR, fF_packR]; rfl) rfl ?_
  simp

theorem RoundTrip.atoms {st d a b xa} : RoundTrip.Statement (.atoms st d a b xa) := by
  refine two rfl (by rw [fOp_packR, fF_packR]; rfl) rfl ?_
  simp

theorem RoundTrip.red {st a b xa} : RoundTrip.Statement (.red st a b xa) := by
  refine two rfl (by rw [fOp_packR, fF_packR]; rfl) rfl ?_
  simp

theorem RoundTrip.pref {st a sub off} : RoundTrip.Statement (.pref st a sub off) := by
  refine two rfl (by rw [fOp_packR, fF_packR]; rfl) rfl ?_
  simp

theorem RoundTrip.fence {st a} : RoundTrip.Statement (.fence st a) := by
  refine one rfl (by rw [fOp_packR, fF_packR]; rfl) rfl (fun h x => ?_)
  simp

theorem RoundTrip.ifence {st} : RoundTrip.Statement (.ifence st) := by
  refine one rfl (by rw [fOp_packR, fF_packR]; rfl) rfl (fun h x => ?_)
  simp

theorem RoundTrip.lfence {st} : RoundTrip.Statement (.lfence st) := by
  refine one rfl (by rw [fOp_packR, fF_packR]; rfl) rfl (fun h x => ?_)
  simp

theorem RoundTrip.waitc {st a b} : RoundTrip.Statement (.waitc st a b) := by
  refine one rfl (by rw [fOp_packR, fF_packR]; rfl) rfl (fun h x => ?_)
  simp

theorem RoundTrip.cctlIl1 {st a off} : RoundTrip.Statement (.cctlIl1 st a off) := by
  refine two rfl (by rw [fOp_packR, fF_packR]; rfl) rfl ?_
  simp

theorem RoundTrip.cctlIrlc {st a off} : RoundTrip.Statement (.cctlIrlc st a off) := by
  refine two rfl (by rw [fOp_packR, fF_packR]; rfl) rfl ?_
  simp

theorem RoundTrip.cctlWbl2 {st a off} : RoundTrip.Statement (.cctlWbl2 st a off) := by
  refine two rfl (by rw [fOp_packR, fF_packR]; rfl) rfl ?_
  simp

theorem RoundTrip.copy {st d a b sub} : RoundTrip.Statement (.copy st d a b sub) := by
  refine two rfl (by rw [fOp_packR, fF_packR]; rfl) rfl ?_
  simp

theorem RoundTrip.dcopy {st d a b sub c} : RoundTrip.Statement (.dcopy st d a b sub c) := by
  refine two rfl (by rw [fOp_packR, fF_packR]; rfl) rfl ?_
  simp

theorem RoundTrip.ctabld {st d a} : RoundTrip.Statement (.ctabld st d a) := by
  refine one rfl (by rw [fOp_packR, fF_packR]; rfl) rfl (fun h x => ?_)
  simp

theorem RoundTrip.secfg {st d a b} : RoundTrip.Statement (.secfg st d a b) := by
  refine one rfl (by rw [fOp_packR, fF_packR]; rfl) rfl (fun h x => ?_)
  simp

theorem RoundTrip.sego {st d} : RoundTrip.Statement (.sego st d) := by
  refine one rfl (by rw [fOp_packR, fF_packR]; rfl) rfl (fun h x => ?_)
  simp

theorem RoundTrip.sestop {st d} : RoundTrip.Statement (.sestop st d) := by
  refine one rfl (by rw [fOp_packR, fF_packR]; rfl) rfl (fun h x => ?_)
  simp

theorem RoundTrip.sltake {st d a} : RoundTrip.Statement (.sltake st d a) := by
  refine one rfl (by rw [fOp_packR, fF_packR]; rfl) rfl (fun h x => ?_)
  simp

theorem RoundTrip.slgive {st a b} : RoundTrip.Statement (.slgive st a b) := by
  refine one rfl (by rw [fOp_packR, fF_packR]; rfl) rfl (fun h x => ?_)
  simp

theorem RoundTrip.spawn {st a} : RoundTrip.Statement (.spawn st a) := by
  refine one rfl (by rw [fOp_packR, fF_packR]; rfl) rfl (fun h x => ?_)
  simp

theorem RoundTrip.spawnR {st a} : RoundTrip.Statement (.spawnR st a) := by
  refine one rfl (by rw [fOp_packR, fF_packR]; rfl) rfl (fun h x => ?_)
  simp

theorem RoundTrip.tdone {st} : RoundTrip.Statement (.tdone st) := by
  refine one rfl (by rw [fOp_packR, fF_packR]; rfl) rfl (fun h x => ?_)
  simp

theorem RoundTrip.hista {st a} : RoundTrip.Statement (.hista st a) := by
  refine one rfl (by rw [fOp_packR, fF_packR]; rfl) rfl (fun h x => ?_)
  simp

theorem RoundTrip.histl {st d a} : RoundTrip.Statement (.histl st d a) := by
  refine one rfl (by rw [fOp_packR, fF_packR]; rfl) rfl (fun h x => ?_)
  simp

theorem RoundTrip.labort {st} : RoundTrip.Statement (.labort st) := by
  refine one rfl (by rw [fOp_packR, fF_packR]; rfl) rfl (fun h x => ?_)
  simp

theorem RoundTrip.abchk {st} : RoundTrip.Statement (.abchk st) := by
  refine one rfl (by rw [fOp_packR, fF_packR]; rfl) rfl (fun h x => ?_)
  simp

theorem RoundTrip.bkprog {st a b c} : RoundTrip.Statement (.bkprog st a b c) := by
  refine two rfl (by rw [fOp_packR, fF_packR]; rfl) rfl ?_
  simp

theorem RoundTrip.bklaunch {st a b fs} : RoundTrip.Statement (.bklaunch st a b fs) := by
  refine two rfl (by rw [fOp_packR, fF_packR]; rfl) rfl ?_
  simp

theorem RoundTrip.bkfence {st} : RoundTrip.Statement (.bkfence st) := by
  refine one rfl (by rw [fOp_packR, fF_packR]; rfl) rfl (fun h x => ?_)
  simp

theorem RoundTrip.tcfg {st a b} : RoundTrip.Statement (.tcfg st a b) := by
  refine one rfl (by rw [fOp_packR, fF_packR]; rfl) rfl (fun h x => ?_)
  simp

theorem RoundTrip.mma {st d a b fs imm7} : RoundTrip.Statement (.mma st d a b fs imm7) := by
  refine two rfl (by rw [fOp_packR, fF_packR]; rfl) rfl ?_
  simp

theorem RoundTrip.mmas {st d a b sub fs imm7} : RoundTrip.Statement (.mmas st d a b sub fs imm7) := by
  refine two rfl (by rw [fOp_packR, fF_packR]; rfl) rfl ?_
  simp

theorem RoundTrip.mzero {st d} : RoundTrip.Statement (.mzero st d) := by
  refine one rfl (by rw [fOp_packR, fF_packR]; rfl) rfl (fun h x => ?_)
  simp

theorem RoundTrip.mld {st d a b} : RoundTrip.Statement (.mld st d a b) := by
  refine two rfl (by rw [fOp_packR, fF_packR]; rfl) rfl ?_
  simp

theorem RoundTrip.mst {st d a b} : RoundTrip.Statement (.mst st d a b) := by
  refine two rfl (by rw [fOp_packR, fF_packR]; rfl) rfl ?_
  simp

theorem RoundTrip.mfill {st d a b} : RoundTrip.Statement (.mfill st d a b) := by
  refine one rfl (by rw [fOp_packR, fF_packR]; rfl) rfl (fun h x => ?_)
  simp

theorem RoundTrip.mdrain {st d a b sub imm7} : RoundTrip.Statement (.mdrain st d a b sub imm7) := by
  refine two rfl (by rw [fOp_packR, fF_packR]; rfl) rfl ?_
  simp

theorem RoundTrip.acqa {st d a} : RoundTrip.Statement (.acqa st d a) := by
  refine one rfl (by rw [fOp_packR, fF_packR]; rfl) rfl (fun h x => ?_)
  simp

theorem RoundTrip.rela {st} : RoundTrip.Statement (.rela st) := by
  refine one rfl (by rw [fOp_packR, fF_packR]; rfl) rfl (fun h x => ?_)
  simp

theorem RoundTrip.msync {st} : RoundTrip.Statement (.msync st) := by
  refine one rfl (by rw [fOp_packR, fF_packR]; rfl) rfl (fun h x => ?_)
  simp

theorem RoundTrip.sysr {st d num} : RoundTrip.Statement (.sysr st d num) := by
  refine one rfl (by rw [fOp_packI, fF_packI]; rfl) rfl (fun h x => ?_)
  simp

theorem RoundTrip.sysw {st d num} : RoundTrip.Statement (.sysw st d num) := by
  refine one rfl (by rw [fOp_packI, fF_packI]; rfl) rfl (fun h x => ?_)
  simp only [Instr.wf, Bool.not_eq_true'] at h
  simp [h]

theorem RoundTrip.syswRingd {st d num} : RoundTrip.Statement (.syswRingd st d num) := by
  refine one rfl (by rw [fOp_packI, fF_packI]; rfl) rfl (fun h x => ?_)
  simp [Instr.wf, BitVec.le_def, ← BitVec.toNat_inj] at h
  have hs : sysSpecial num = true := by simp [sysSpecial, BitVec.le_def, ← BitVec.toNat_inj]; omega
  simp [hs, BitVec.le_def, ← BitVec.toNat_inj]
  split_ifs <;> first | rfl | omega

theorem RoundTrip.syswRingtag {st d num} : RoundTrip.Statement (.syswRingtag st d num) := by
  refine one rfl (by rw [fOp_packI, fF_packI]; rfl) rfl (fun h x => ?_)
  simp [Instr.wf, BitVec.le_def, ← BitVec.toNat_inj] at h
  have hs : sysSpecial num = true := by simp [sysSpecial, BitVec.le_def, ← BitVec.toNat_inj]; omega
  simp [hs, BitVec.le_def, ← BitVec.toNat_inj]
  split_ifs <;> first | rfl | omega

theorem RoundTrip.syswVbstat {st d num} : RoundTrip.Statement (.syswVbstat st d num) := by
  refine one rfl (by rw [fOp_packI, fF_packI]; rfl) rfl (fun h x => ?_)
  simp [Instr.wf, BitVec.le_def, ← BitVec.toNat_inj] at h
  have hs : sysSpecial num = true := by simp [sysSpecial, BitVec.le_def, ← BitVec.toNat_inj]; omega
  simp [hs, BitVec.le_def, ← BitVec.toNat_inj]
  split_ifs <;> first | rfl | omega

theorem RoundTrip.syswNbstat {st d num} : RoundTrip.Statement (.syswNbstat st d num) := by
  refine one rfl (by rw [fOp_packI, fF_packI]; rfl) rfl (fun h x => ?_)
  simp [Instr.wf, BitVec.le_def, ← BitVec.toNat_inj] at h
  have hs : sysSpecial num = true := by simp [sysSpecial, BitVec.le_def, ← BitVec.toNat_inj]; omega
  simp [hs, BitVec.le_def, ← BitVec.toNat_inj]
  split_ifs <;> first | rfl | omega

theorem RoundTrip.syswLstate {st d num} : RoundTrip.Statement (.syswLstate st d num) := by
  refine one rfl (by rw [fOp_packI, fF_packI]; rfl) rfl (fun h x => ?_)
  simp [Instr.wf, BitVec.le_def, ← BitVec.toNat_inj] at h
  have hs : sysSpecial num = true := by simp [sysSpecial, BitVec.le_def, ← BitVec.toNat_inj]; omega
  simp [hs, BitVec.le_def, ← BitVec.toNat_inj]
  split_ifs <;> first | rfl | omega

theorem RoundTrip.syswLpc {st d num} : RoundTrip.Statement (.syswLpc st d num) := by
  refine one rfl (by rw [fOp_packI, fF_packI]; rfl) rfl (fun h x => ?_)
  simp [Instr.wf, BitVec.le_def, ← BitVec.toNat_inj] at h
  have hs : sysSpecial num = true := by simp [sysSpecial, BitVec.le_def, ← BitVec.toNat_inj]; omega
  simp [hs, BitVec.le_def, ← BitVec.toNat_inj]
  split_ifs <;> first | rfl | omega

theorem RoundTrip.syswHistbin {st d num} : RoundTrip.Statement (.syswHistbin st d num) := by
  refine one rfl (by rw [fOp_packI, fF_packI]; rfl) rfl (fun h x => ?_)
  simp [Instr.wf, BitVec.le_def, ← BitVec.toNat_inj] at h
  have hs : sysSpecial num = true := by simp [sysSpecial, BitVec.le_def, ← BitVec.toNat_inj]; omega
  simp [hs, BitVec.le_def, ← BitVec.toNat_inj]
  split_ifs <;> first | rfl | omega

theorem RoundTrip.trap {st b} : RoundTrip.Statement (.trap st b) := by
  refine one rfl (by rw [fOp_packR, fF_packR]; rfl) rfl (fun h x => ?_)
  simp

theorem RoundTrip.tret {st} : RoundTrip.Statement (.tret st) := by
  refine one rfl (by rw [fOp_packR, fF_packR]; rfl) rfl (fun h x => ?_)
  simp

theorem RoundTrip.tretSkip {st} : RoundTrip.Statement (.tretSkip st) := by
  refine one rfl (by rw [fOp_packR, fF_packR]; rfl) rfl (fun h x => ?_)
  simp

theorem RoundTrip.tretEsc {st} : RoundTrip.Statement (.tretEsc st) := by
  refine one rfl (by rw [fOp_packR, fF_packR]; rfl) rfl (fun h x => ?_)
  simp

theorem RoundTrip.bkpt {st b} : RoundTrip.Statement (.bkpt st b) := by
  refine one rfl (by rw [fOp_packR, fF_packR]; rfl) rfl (fun h x => ?_)
  simp

theorem RoundTrip.savew {st a} : RoundTrip.Statement (.savew st a) := by
  refine one rfl (by rw [fOp_packR, fF_packR]; rfl) rfl (fun h x => ?_)
  simp

theorem RoundTrip.savewDone {st} : RoundTrip.Statement (.savewDone st) := by
  refine one rfl (by rw [fOp_packR, fF_packR]; rfl) rfl (fun h x => ?_)
  simp

theorem RoundTrip.restw {st a} : RoundTrip.Statement (.restw st a) := by
  refine one rfl (by rw [fOp_packR, fF_packR]; rfl) rfl (fun h x => ?_)
  simp

theorem RoundTrip.rep {st count sd sa sb} : RoundTrip.Statement (.rep st count sd sa sb) := by
  refine one rfl (by rw [fOp_packI, fF_packI]; rfl) rfl (fun h x => ?_)
  simp

theorem RoundTrip.lakeNop : RoundTrip.Statement (.lakeNop) := by
  refine lake rfl (by rw [lOp_packLake]; rfl) ?_
  simp

theorem RoundTrip.xld : RoundTrip.Statement (.xld) := by
  refine lake rfl (by rw [lOp_packLake]; rfl) ?_
  simp

theorem RoundTrip.rowrd {n} : RoundTrip.Statement (.rowrd n) := by
  refine lake rfl (by rw [lOp_packLake]; rfl) ?_
  simp

theorem RoundTrip.mac8 {sat} : RoundTrip.Statement (.mac8 sat) := by
  refine lake rfl (by rw [lOp_packLake]; rfl) ?_
  simp

theorem RoundTrip.mac4 {sat} : RoundTrip.Statement (.mac4 sat) := by
  refine lake rfl (by rw [lOp_packLake]; rfl) ?_
  simp

theorem RoundTrip.mach {sat} : RoundTrip.Statement (.mach sat) := by
  refine lake rfl (by rw [lOp_packLake]; rfl) ?_
  simp

theorem RoundTrip.accz {ea n1} : RoundTrip.Statement (.accz ea n1) := by
  refine lake rfl (by rw [lOp_packLake]; rfl) ?_
  simp

theorem RoundTrip.accsc {ea off} : RoundTrip.Statement (.accsc ea off) := by
  refine lake rfl (by rw [lOp_packLake]; rfl) ?_
  simp

theorem RoundTrip.accadd {ea eb} : RoundTrip.Statement (.accadd ea eb) := by
  refine lake rfl (by rw [lOp_packLake]; rfl) ?_
  simp

theorem RoundTrip.outw {ea n1} : RoundTrip.Statement (.outw ea n1) := by
  refine lake rfl (by rw [lOp_packLake]; rfl) ?_
  simp

theorem RoundTrip.rcadd {set imm} : RoundTrip.Statement (.rcadd set imm) := by
  refine lake rfl (by rw [lOp_packLake]; rfl) ?_
  simp

theorem RoundTrip.ccadd {set imm} : RoundTrip.Statement (.ccadd set imm) := by
  refine lake rfl (by rw [lOp_packLake]; rfl) ?_
  simp

theorem RoundTrip.loop {l n} : RoundTrip.Statement (.loop l n) := by
  refine lake rfl (by rw [lOp_packLake]; rfl) ?_
  simp

theorem RoundTrip.lend {l} : RoundTrip.Statement (.lend l) := by
  refine lake rfl (by rw [lOp_packLake]; rfl) ?_
  simp

theorem RoundTrip.lakeSync : RoundTrip.Statement (.lakeSync) := by
  refine lake rfl (by rw [lOp_packLake]; rfl) ?_
  simp

theorem RoundTrip.flagsC {mask} : RoundTrip.Statement (.flagsC mask) := by
  refine lake rfl (by rw [lOp_packLake]; rfl) ?_
  simp

theorem RoundTrip.flagsR {ea} : RoundTrip.Statement (.flagsR ea) := by
  refine lake rfl (by rw [lOp_packLake]; rfl) ?_
  simp

theorem RoundTrip.trapl {n} : RoundTrip.Statement (.trapl n) := by
  refine lake rfl (by rw [lOp_packLake]; rfl) ?_
  simp

theorem RoundTrip.halt : RoundTrip.Statement (.halt) := by
  refine lake rfl (by rw [lOp_packLake]; rfl) ?_
  simp

theorem RoundTrip.deviceReset {x0} : RoundTrip.Statement (.deviceReset x0) := event rfl

theorem RoundTrip.firmwareFetchRetry {x0} : RoundTrip.Statement (.firmwareFetchRetry x0) := event rfl

theorem RoundTrip.getVersion {x0} : RoundTrip.Statement (.getVersion x0) := event rfl

theorem RoundTrip.getCapabilities {x0} : RoundTrip.Statement (.getCapabilities x0) := event rfl

theorem RoundTrip.negotiateAlgorithms {x0} : RoundTrip.Statement (.negotiateAlgorithms x0) := event rfl

theorem RoundTrip.getDigests {x0} : RoundTrip.Statement (.getDigests x0) := event rfl

theorem RoundTrip.getCertificate {x0} : RoundTrip.Statement (.getCertificate x0) := event rfl

theorem RoundTrip.challenge {x0 x1} : RoundTrip.Statement (.challenge x0 x1) := event rfl

theorem RoundTrip.getMeasurements {x0} : RoundTrip.Statement (.getMeasurements x0) := event rfl

theorem RoundTrip.keyExchange {x0} : RoundTrip.Statement (.keyExchange x0) := event rfl

theorem RoundTrip.keySlotLoad {x0 x1} : RoundTrip.Statement (.keySlotLoad x0 x1) := event rfl

theorem RoundTrip.keySlotClear {x0} : RoundTrip.Statement (.keySlotClear x0) := event rfl

theorem RoundTrip.sqDoorbell {x0 x1 x2} : RoundTrip.Statement (.sqDoorbell x0 x1 x2) := event rfl

theorem RoundTrip.sqEnable {x0 x1} : RoundTrip.Statement (.sqEnable x0 x1) := event rfl

theorem RoundTrip.lotAccept {x0 x1} : RoundTrip.Statement (.lotAccept x0 x1) := event rfl

theorem RoundTrip.waitSemaphoreRead {x0} : RoundTrip.Statement (.waitSemaphoreRead x0) := event rfl

theorem RoundTrip.lotGateOpen {x0} : RoundTrip.Statement (.lotGateOpen x0) := event rfl

theorem RoundTrip.vatPlace {x0} : RoundTrip.Statement (.vatPlace x0) := event rfl

theorem RoundTrip.cohabPlace {x0} : RoundTrip.Statement (.cohabPlace x0) := event rfl

theorem RoundTrip.warpDrainDone {x0} : RoundTrip.Statement (.warpDrainDone x0) := event rfl

theorem RoundTrip.vatRestorePlace {x0} : RoundTrip.Statement (.vatRestorePlace x0) := event rfl

theorem RoundTrip.vatLeave {x0} : RoundTrip.Statement (.vatLeave x0) := event rfl

theorem RoundTrip.lotComplete {x0} : RoundTrip.Statement (.lotComplete x0) := event rfl

theorem RoundTrip.driverDoorbell {x0 x1} : RoundTrip.Statement (.driverDoorbell x0 x1) := event rfl

theorem RoundTrip.ctxnew {x0} : RoundTrip.Statement (.ctxnew x0) := event rfl

theorem RoundTrip.ctxreset {x0} : RoundTrip.Statement (.ctxreset x0) := event rfl

theorem RoundTrip.tlbinv {x0} : RoundTrip.Statement (.tlbinv x0) := event rfl

theorem RoundTrip.tlbinvComplete {x0} : RoundTrip.Statement (.tlbinvComplete x0) := event rfl

theorem RoundTrip.ctxfree {x0} : RoundTrip.Statement (.ctxfree x0) := event rfl

theorem RoundTrip.driverBadOpcode {x0} : RoundTrip.Statement (.driverBadOpcode x0) := event rfl

theorem RoundTrip.fsvcResume {x0 x1} : RoundTrip.Statement (.fsvcResume x0 x1) := event rfl

theorem RoundTrip.fsvcFaillot {x0 x1} : RoundTrip.Statement (.fsvcFaillot x0 x1) := event rfl

theorem RoundTrip.fsvcFailctx {x0 x1} : RoundTrip.Statement (.fsvcFailctx x0 x1) := event rfl

theorem RoundTrip.feataccWrite {x0 x1} : RoundTrip.Statement (.feataccWrite x0 x1) := event rfl

theorem RoundTrip.pwrlimWrite {x0 x1} : RoundTrip.Statement (.pwrlimWrite x0 x1) := event rfl

theorem RoundTrip.plcfgWrite {x0 x1} : RoundTrip.Statement (.plcfgWrite x0 x1) := event rfl

theorem RoundTrip.registerWrite {x0 x1 x2} : RoundTrip.Statement (.registerWrite x0 x1 x2) := event rfl

theorem RoundTrip.powerGrantPeriod : RoundTrip.Statement (.powerGrantPeriod) := event rfl

theorem RoundTrip.heartbeatSend {x0} : RoundTrip.Statement (.heartbeatSend x0) := event rfl

theorem RoundTrip.hubIntervalTick : RoundTrip.Statement (.hubIntervalTick) := event rfl

theorem RoundTrip.dltoExpiry {x0} : RoundTrip.Statement (.dltoExpiry x0) := event rfl

theorem RoundTrip.dieTakeDown {x0} : RoundTrip.Statement (.dieTakeDown x0) := event rfl

theorem RoundTrip.dieResetStart {x0} : RoundTrip.Statement (.dieResetStart x0) := event rfl

theorem RoundTrip.dieResetDone {x0} : RoundTrip.Statement (.dieResetDone x0) := event rfl

theorem RoundTrip.packetReceive {x0} : RoundTrip.Statement (.packetReceive x0) := event rfl

theorem RoundTrip.flitCrcFail {x0 x1} : RoundTrip.Statement (.flitCrcFail x0 x1) := event rfl

theorem RoundTrip.neighbourLinkRetrainFail {x0} : RoundTrip.Statement (.neighbourLinkRetrainFail x0) := event rfl

theorem RoundTrip.acktoExpiry {x0} : RoundTrip.Statement (.acktoExpiry x0) := event rfl

theorem RoundTrip.gStoreAck {x0} : RoundTrip.Statement (.gStoreAck x0) := event rfl

theorem RoundTrip.loadComplete {x0} : RoundTrip.Statement (.loadComplete x0) := event rfl

theorem RoundTrip.storePerformed {x0} : RoundTrip.Statement (.storePerformed x0) := event rfl

theorem RoundTrip.atomicComplete {x0} : RoundTrip.Statement (.atomicComplete x0) := event rfl

theorem RoundTrip.mordantLineReturn {x0} : RoundTrip.Statement (.mordantLineReturn x0) := event rfl

theorem RoundTrip.prmPushRequest {x0 x1} : RoundTrip.Statement (.prmPushRequest x0 x1) := event rfl

theorem RoundTrip.splitDataArrive {x0 x1} : RoundTrip.Statement (.splitDataArrive x0 x1) := event rfl

theorem RoundTrip.copyComplete {x0} : RoundTrip.Statement (.copyComplete x0) := event rfl

theorem RoundTrip.dcopyComplete {x0} : RoundTrip.Statement (.dcopyComplete x0) := event rfl

theorem RoundTrip.tableLoadComplete {x0} : RoundTrip.Statement (.tableLoadComplete x0) := event rfl

theorem RoundTrip.histlComplete {x0} : RoundTrip.Statement (.histlComplete x0) := event rfl

theorem RoundTrip.matrixOperandComplete {x0} : RoundTrip.Statement (.matrixOperandComplete x0) := event rfl

theorem RoundTrip.matrixComplete {x0} : RoundTrip.Statement (.matrixComplete x0) := event rfl

theorem RoundTrip.streamBox {x0 x1} : RoundTrip.Statement (.streamBox x0 x1) := event rfl

theorem RoundTrip.acqaGrant {x0} : RoundTrip.Statement (.acqaGrant x0) := event rfl

theorem RoundTrip.taskEnter {x0 x1} : RoundTrip.Statement (.taskEnter x0 x1) := event rfl

theorem RoundTrip.taskRetire {x0 x1} : RoundTrip.Statement (.taskRetire x0 x1) := event rfl

theorem RoundTrip.binFormWarp {x0 x1} : RoundTrip.Statement (.binFormWarp x0 x1) := event rfl

theorem RoundTrip.overflowRefill {x0 x1} : RoundTrip.Statement (.overflowRefill x0 x1) := event rfl

theorem RoundTrip.abortFlagArrive {x0 x1} : RoundTrip.Statement (.abortFlagArrive x0 x1) := event rfl

theorem RoundTrip.clauseIssue : RoundTrip.Statement (.clauseIssue) := event rfl

theorem RoundTrip.clauseBoundary : RoundTrip.Statement (.clauseBoundary) := event rfl

theorem RoundTrip.rungServiceTimeout {x0} : RoundTrip.Statement (.rungServiceTimeout x0) := event rfl

theorem RoundTrip.barrierTimeout {x0} : RoundTrip.Statement (.barrierTimeout x0) := event rfl

theorem RoundTrip.stageParkTimeout {x0} : RoundTrip.Statement (.stageParkTimeout x0) := event rfl

theorem RoundTrip.slotParkTimeout {x0} : RoundTrip.Statement (.slotParkTimeout x0) := event rfl

theorem RoundTrip.presenceTimeout {x0} : RoundTrip.Statement (.presenceTimeout x0) := event rfl

theorem RoundTrip.secfgParkTimeout {x0} : RoundTrip.Statement (.secfgParkTimeout x0) := event rfl

theorem RoundTrip.acqaWaitTimeout {x0} : RoundTrip.Statement (.acqaWaitTimeout x0) := event rfl

theorem RoundTrip.ovfStall {x0} : RoundTrip.Statement (.ovfStall x0) := event rfl

theorem RoundTrip.vatStopForce {x0} : RoundTrip.Statement (.vatStopForce x0) := event rfl

theorem RoundTrip.evictForce {x0} : RoundTrip.Statement (.evictForce x0) := event rfl

theorem RoundTrip.saveRestoreTimeout {x0} : RoundTrip.Statement (.saveRestoreTimeout x0) := event rfl

theorem RoundTrip.hostCxlMemAccess {x0 x1 x2} : RoundTrip.Statement (.hostCxlMemAccess x0 x1 x2) := event rfl

theorem RoundTrip.lakeProgramLoad {x0} : RoundTrip.Statement (.lakeProgramLoad x0) := event rfl

theorem RoundTrip.lakeCommandStart {x0} : RoundTrip.Statement (.lakeCommandStart x0) := event rfl

theorem RoundTrip.lakeTimeout {x0} : RoundTrip.Statement (.lakeTimeout x0) := event rfl

theorem RoundTrip.lakeCommandEnd {x0} : RoundTrip.Statement (.lakeCommandEnd x0) := event rfl

theorem RoundTrip.peerPortLinkLoss {x0} : RoundTrip.Statement (.peerPortLinkLoss x0) := event rfl

theorem RoundTrip.domainAccessReceive {x0 x1 x2 x3} : RoundTrip.Statement (.domainAccessReceive x0 x1 x2 x3) := event rfl

theorem RoundTrip.hostBar2Access {x0 x1 x2} : RoundTrip.Statement (.hostBar2Access x0 x1 x2) := event rfl

theorem RoundTrip.hubDieLoss : RoundTrip.Statement (.hubDieLoss) := event rfl

theorem RoundTrip.uncorrectableError {x0} : RoundTrip.Statement (.uncorrectableError x0) := event rfl

end Sys2Proof.Laws
end

