-- ==== Sys2Proof/Machine/Container.lean ====
section
/-! DEFINITION. The Bilhan container that the host keeps (spec/10 R237) and the driver's choice of a native section for a
partition (R238). The device reads neither; the chosen image becomes the code object that CODEVA names. -/

namespace Sys2Proof.Machine

/-- A section entry (R237 Table 1). -/
inductive SectionKind where
  | native
  | portable
  | symbols
  deriving DecidableEq, Repr

structure ContainerSection where
  kind : SectionKind
  vmaj : BitVec 8
  vmin : BitVec 8
  step : BitVec 8
  xuse : Bool
  off : Nat
  len : Nat
  deriving DecidableEq, Repr

/-- A code object in a section has the section's key: its major, its minor, and where it uses X-class slots its stepping. -/
def ContainerSection.keyOk (n : ContainerSection) (file : List Byte) : Bool :=
  let c := codeHeader ((file.drop n.off).take 256)
  n.kind != .native || (c.vmaj == n.vmaj && c.vmin == n.vmin && c.xuse == n.xuse && (!n.xuse || c.step == n.step))

/-- An entry of 32 bytes; `none` for a reserved kind, a reserved field that is not 0, a section that is misplaced. -/
def containerEntry (size : Nat) (e : List Byte) : Option ContainerSection :=
  let kind : Option SectionKind := match word e 0 % 256 with | 1 => some .native | 2 => some .portable | 3 => some .symbols | _ => none
  let off := (dwordAt e 8).toNat
  let len := (dwordAt e 16).toNat
  if word e 4 / 2 != 0 || (e.drop 24).any (· != 0) || off % 256 != 0 || size < off + len then none
  else kind.map (fun k =>
    { kind := k, vmaj := BitVec.ofNat 8 (word e 0 / 2 ^ 8), vmin := BitVec.ofNat 8 (word e 0 / 2 ^ 16), step := BitVec.ofNat 8 (word e 0 / 2 ^ 24),
      xuse := word e 4 % 2 == 1, off := off, len := len })

/-- The sections of a well-formed container: at most one portable and at most one symbols section, the native ones with their objects' keys. -/
def containerSections (file : List Byte) : Option (List ContainerSection) :=
  let n := word file 4 / 2 ^ 16
  let at' := (dwordAt file 8).toNat
  if file.length < 64 || word file 0 != 0x43484C42 || word file 4 % 2 ^ 16 != 1 || n == 0 || 1024 < n || at' % 8 != 0
      || ((file.drop 0x10).take 0x30).any (· != 0) || file.length < at' + 32 * n then none
  else
    let es := (List.range n).map (fun i => containerEntry file.length ((file.drop (at' + 32 * i)).take 32))
    let l := es.filterMap id
    let count (k : SectionKind) : Nat := (l.filter (·.kind == k)).length
    if es.all Option.isSome && l.all (·.keyOk file) && count .portable ≤ 1 && count .symbols ≤ 1 then some l else none

/-- The native section fits a device of a major, a minor and a stepping. -/
def ContainerSection.fits (n : ContainerSection) (isaMin step : BitVec 8) : Bool :=
  n.kind == .native && n.vmaj == 4 && n.vmin ≤ isaMin && (!n.xuse || n.step == step)

/-- Of two sections that fit, the first is preferred: the higher minor; on a tie the one with X-class slots. -/
def ContainerSection.prefers (a b : ContainerSection) : Bool :=
  b.vmin < a.vmin || (a.vmin == b.vmin && (a.xuse || !b.xuse))

/-- R238: the native section that the driver uses; `none` where it finalises the portable one. -/
def chooseNative (isaMin step : BitVec 8) (l : List ContainerSection) : Option ContainerSection :=
  (l.filter (·.fits isaMin step)).foldl (fun r n => match r with
    | some m => if m.prefers n then r else some n
    | none => some n) none

/-- The choice of the driver for this device. -/
def State.nativeSection (s : State) (file : List Byte) : Option ContainerSection :=
  (containerSections file).bind (chooseNative s.hub.isaMin Config.stepping)

end Sys2Proof.Machine
end

