-- ==== Sys2Proof/Tests/Slice0.lean ====
section
/-! SUPPORT. Tests: ill-formed terms that the checks refuse; every constructor's decoding shown by a word written from the spec's
encoding tables (spec/11 R253, R254, spec/14 R328, spec/16 R367) and by the spec's worked words; for every obligation a state
and operands that meet its hypotheses, clause by clause; a few instructions on values worked in the spec or by hand. -/

namespace Sys2Proof.Tests

set_option Elab.async false

open Sys2Proof Sys2Proof.Machine

/-! ### Well-formedness -/

/-- One ill-formed term for each check of WellFormed (spec/11 R255). -/
theorem test_wf_integer : [Instr.imad 0 1 2 3 3 4, .bfi 0 1 2 3 4 0, .bfi 0 1 2 3 4 33, .bfx 0 1 2 3 2 1, .bfx 0 1 2 3 0 0, .bfx 0 1 2 3 0 33,
    .icmpp 0 1 2 10 0 0 0 0, .icmpp 0 1 2 0 0 0 0 2, .icmpp 0 1 2 0 0 1 0 0, .icmpp 0 1 2 0 0 0 1 0, .setwb 0 31, .setwb 0 225].all
    (fun i => !i.wf) = true := by decide

theorem test_wf_float : [Instr.fcmpp 0 1 2 8 0 0 0 0, .fcmpp 0 1 2 0 0 1 0 0, .fdp2 0 1 2 3 0 2 4, .hfma2 0 1 2 3 0 2 4, .hadd2X 0 1 2 3 0 2,
    .hmul2X 0 1 2 3 0 2, .idp4 0 1 2 3 4 5, .cvt 0 1 2 0 12 0, .cvt 0 1 2 0 3 0, .cvt 0 1 2 0 0 12, .cvt 0 1 2 0 0 3, .cvtsTo 0 1 2 0 0 8,
    .cvtsFrom 0 1 2 0 8, .chld 0 8 2, .chrun 0 1 2 3 8 1, .chrun 0 1 2 3 0 0, .chrun 0 1 2 3 0 17].all (fun i => !i.wf) = true := by decide

theorem test_wf_control : [Instr.kcmpp 0 96 97 10 0 0 0 0, .klane 0 96 1 33, .kpopm 0 96 97 3, .enrol 0 8 96, .jwait 0 8, .barn 0 16 96,
    .stgadv 0 2 96 0, .stgadv 0 0 96 1, .stgset 0 1 96 1, .stgwl 0 2 0 0, .lxchAt 0 1 2 3 2 0, .lxchBack 0 1 2 3 1 4, .lxchFwd 0 1 2 3 2 0,
    .lxchFlip 0 1 2 3 1 4, .ltest 0 3 0 0 0, .pmask 0 1 16, .lsame 0 1 2 2, .lfold 0 1 2 11, .scanx 0 1 2 11 0, .scanx 0 1 2 0 2].all
    (fun i => !i.wf) = true := by decide

def xa0 : Xa := { sco := 0, ord := 0, md := 0, prm := 0, spl := 0, sz := 4, sub := 0, off := 0 }

theorem test_wf_memory : ([{ xa0 with sco := 6 }, { xa0 with ord := 2 }, { xa0 with ord := 3 }, { xa0 with sco := 1 }, { xa0 with md := 1 },
      { xa0 with prm := 1 }, { xa0 with ord := 1, sco := 2, prm := 1 }, { xa0 with ord := 1, spl := 1 }, { xa0 with sz := 7 },
      { xa0 with sub := 2 }].all (fun x => !(Instr.ld 0 1 2 x).wf) &&
    !(Instr.lds 0 1 2 { xa0 with spl := 1 }).wf &&
    [{ xa0 with sz := 0 }, { xa0 with sz := 2 }, { xa0 with sz := 7 }, { xa0 with ord := 1 }, { xa0 with prm := 1 }, { xa0 with spl := 1 }].all
      (fun x => !(Instr.st 0 2 1 x).wf) && !(Instr.sts 0 2 1 { xa0 with md := 1 }).wf &&
    [{ xa0 with sz := 3 }, { xa0 with sz := 6 }, { xa0 with sub := 13 }, { xa0 with sz := 5, sub := 10 }, { xa0 with md := 1 }].all
      (fun x => !(Instr.atom 0 1 2 3 x).wf && !(Instr.atoms 0 1 2 3 x).wf) &&
    [{ xa0 with sub := 9 }, { xa0 with ord := 1 }, { xa0 with ord := 3 }].all (fun x => !(Instr.red 0 2 3 x).wf)) = true := by decide

theorem test_wf_rest : [Instr.pref 0 2 2 0, .fence 0 6, .fence 0 16, .fence 0 10, .waitc 0 0 1, .waitc 0 7 1, .waitc 0 1 64, .copy 0 96 98 100 2,
    .dcopy 0 96 98 100 8 101, .ctabld 0 8 96, .secfg 0 2 96 98, .sego 0 2, .sestop 0 2, .sltake 0 96 8, .slgive 0 8 96, .spawnR 0 8, .spawnR 0 96,
    .histl 0 16 96, .tcfg 0 64 0, .mma 0 16 96 100 0 0, .mma 0 0 96 100 0 32, .mmas 0 0 96 100 2 0 0, .mzero 0 16, .mld 0 16 96 98,
    .mst 0 16 96 98, .mfill 0 16 1 96, .mdrain 0 1 16 96 0 1, .mdrain 0 1 0 96 2 1, .mdrain 0 1 0 96 0 0, .mdrain 0 1 0 96 0 9,
    .sysw 0 96 0x70, .syswRingd 0 96 0x90, .syswRingtag 0 96 0xB0, .syswVbstat 0 96 0x71, .syswNbstat 0 96 0x150, .syswLstate 0 96 0x3A,
    .syswLpc 0 96 0x39, .syswHistbin 0 96 0x300, .trap 0 127, .rep 0 0 3 0 0, .rowrd 0, .rowrd 193, .accz 15 1, .accsc 0 2, .accsc 0 4036,
    .outw 1 15].all (fun i => !i.wf) = true := by decide

/-! ### Decoding -/

/-- Words and their extension words read as the instructions given, with or without an extension word. -/
def reads (l : List (Word × Word × Instr × Bool)) : Bool :=
  l.all (fun e => match decodeWord e.1 e.2.1 with | .ok r => r == (e.2.2.1, e.2.2.2) | .error _ => false)
def readsLake (l : List (Word × Instr)) : Bool := l.all (fun e => decodeLake e.1 == some e.2)

/-- The spec's own worked words (spec/11 R253–R264, spec/12, spec/13, spec/14, spec/15, spec/07). -/
theorem test_decode_worked : reads [
    (0x00004103, 0, .iadd 0 1 2 3, false), (0x04013FFD, 0, .movi 0 4 0x3FFD, false), (0x04388000, 0x12345678, .limm 0 98 0x12345678, true),
    (0x04400020, 0, .setwb 0 32, false), (0x01C00083, 0x09000000, .icmpp 0 1 3 2 2 0 0 0, true), (0x11014082, 0x40000000, .faddRm 0 5 1 2 1, true),
    (0xD3218100, 0x00010000, .cvtsTo 3 6 2 0 1 0, true), (0x1D8A0418, 0x0C000004, .chrun 0 40 8 24 3 4, true), (0x1D008080, 0, .tint 0 2 1, false),
    (0x282E0010, 0, .braPred 0 3 1 0x10, false), (0x28400200, 0, .brx 0 4, false), (0x28600040, 0, .call 0 0x40, false),
    (0x28802D80, 0, .ret 0 91, false), (0x28A00000, 0, .exit 0, false), (0x28E00064, 0, .sleep 0 100, false), (0x29003A00, 0, .enrol 0 0 116, false),
    (0x29200000, 0, .jwait 0 0, false), (0x29403F7F, 0, .dret 0 126 127, false), (0x2A20F280, 0, .barn 0 3 101, false),
    (0x2B003265, 0, .stgbeg 0 100 101, false), (0x2B398000, 0x00800000, .stgnext 0 102 1, true), (0x361A356C, 0, .copy 0 104 106 108 0, true),
    (0x363A356C, 0x08003700, .dcopy 0 104 106 108 2 110, true), (0x3640F400, 0, .ctabld 0 3 104, false), (0x3660346C, 0, .secfg 0 0 104 108, false),
    (0x36D98080, 0, .sltake 0 102 1, false), (0x36E000E6, 0, .slgive 0 1 102, false), (0x37000A00, 0, .spawn 0 20, false)] = true := by decide +kernel

theorem test_decode_worked2 : reads [
    (0x37001001, 0, .spawnR 0 32, false), (0x3760B400, 0, .histl 0 2 104, false), (0x37800000, 0, .labort 0, false), (0x37A00000, 0, .abchk 0, false),
    (0x3D1D3A80, 0, .acqa 0 116 117, false), (0x34804502, 0x60400000, .atom 0 1 10 2 { xa0 with sco := 3 }, true), (0x3E400005, 0, .trap 0 5, false),
    (0x3E600001, 0, .tretSkip 0, false), (0x3E800000, 0, .bkpt 0 0, false), (0x3EA03200, 0, .savew 0 100, false), (0x3EC03200, 0, .restw 0 100, false),
    (0x3EA00001, 0, .savewDone 0, false), (0x3F000350, 0, .rep 0 3 1 1 0, false), (0x3800346C, 0x00003680, .bkprog 0 104 108 109, true),
    (0x3820356C, 0x00010000, .bklaunch 0 106 108 1, true), (0x38400000, 0, .bkfence 0, false)] = true := by decide +kernel

theorem test_decode_worked_lake : readsLake [
    (0x04000000, .xld), (0x08000080, .rowrd 128), (0x0C000000, .mac8 0), (0x183C0000, .accz 0 15), (0x1C400100, .accsc 1 256), (0x20040000, .accadd 0 1),
    (0x24880000, .outw 2 2), (0x28000001, .rcadd 0 1), (0x2C040000, .ccadd 1 0), (0x30000000, .loop 0 0), (0x34000000, .lend 0), (0x38000000, .lakeSync),
    (0x3CC40000, .flagsR 3), (0x40000005, .trapl 5), (0x44000000, .halt)] = true := by decide +kernel

theorem test_decode_integer : reads [
    (0x00014307, 0x00000000, .iadd 0 5 6 7, false),
    (0x40214307, 0x00000000, .isub 1 5 6 7, false),
    (0x80414307, 0x00000000, .imul 2 5 6 7, false),
    (0xC0614307, 0x00000000, .imulh 3 5 6 7, false),
    (0x00814307, 0x00000000, .imin 0 5 6 7, false),
    (0x40A14307, 0x00000000, .imax 1 5 6 7, false),
    (0x80C14300, 0x00000000, .iabs 2 5 6, false),
    (0xC0E14300, 0x00000000, .ineg 3 5 6, false),
    (0x01014307, 0x04000480, .imad 0 5 6 7 1 9, true),
    (0x41214307, 0x00000000, .iadd64 1 5 6 7, false),
    (0x81414307, 0x00000000, .isub64 2 5 6 7, false),
    (0xC1614307, 0x00000488, .bfi 3 5 6 7 9 8, true),
    (0x01814307, 0x04000008, .bfx 0 5 6 7 1 8, true),
    (0x41A14307, 0x00480000, .sel 1 5 6 7 4 1, true),
    (0x81C00307, 0x25C80001, .icmpp 2 6 7 9 3 4 1 1, true),
    (0xC2014307, 0x00000000, .and 3 5 6 7, false),
    (0x02214307, 0x00000000, .or 0 5 6 7, false),
    (0x42414307, 0x00000000, .xor 1 5 6 7, false),
    (0x82614300, 0x00000000, .not 2 5 6, false),
    (0xC2814307, 0x00000000, .shl 3 5 6 7, false),
    (0x02A14307, 0x00000000, .shr 0 5 6 7, false),
    (0x42C14307, 0x00000000, .sar 1 5 6 7, false),
    (0x82E14307, 0x00000000, .rol 2 5 6 7, false),
    (0xC3014307, 0x00000000, .shl64 3 5 6 7, false),
    (0x03214307, 0x00000000, .shr64 0 5 6 7, false),
    (0x43414300, 0x00000000, .popc 1 5 6, false),
    (0x83614300, 0x00000000, .clz 2 5 6, false),
    (0xC3814300, 0x00000000, .brev 3 5 6, false),
    (0x03A14300, 0x00000000, .mov 0 5 6, false),
    (0x44016AAA, 0x00000000, .movi 1 5 0x2aaa, false),
    (0x44388000, 0x89ABCDEF, .limm 1 98 0x89ABCDEF, true),
    (0x844000E0, 0x00000000, .setwb 2 224, false),
    (0x84614300, 0x00000008, .movxR 2 5 6 8, true),
    (0xC4800307, 0x00000008, .movxW 3 6 7 8, true)] = true := by decide +kernel

theorem test_decode_float : reads [
    (0x10014307, 0x00000000, .fadd 0 5 6 7, false),
    (0x50214307, 0x00000000, .fsub 1 5 6 7, false),
    (0x90414307, 0x00000000, .fmul 2 5 6 7, false),
    (0xD0614307, 0x00000000, .fmin 3 5 6 7, false),
    (0x10814307, 0x00000000, .fmax 0 5 6 7, false),
    (0x50A14300, 0x00000000, .fneg 1 5 6, false),
    (0x90C14300, 0x00000000, .fabs 2 5 6, false),
    (0xD0E14300, 0x00000000, .fclass 3 5 6, false),
    (0x11014307, 0x80000000, .faddRm 0 5 6 7 2, true),
    (0x51214307, 0x80000000, .fsubRm 1 5 6 7 2, true),
    (0x91414307, 0x80000000, .fmulRm 2 5 6 7 2, true),
    (0xD1614307, 0x80000480, .ffma 3 5 6 7 2 9, true),
    (0x11800307, 0x1DC80001, .fcmpp 0 6 7 7 3 4 1 1, true),
    (0x51A14300, 0x80000000, .frint 1 5 6 2, true),
    (0x91C14307, 0x84000480, .fdp2 2 5 6 7 2 1 9, true),
    (0xD2014307, 0x00000000, .hadd2 3 5 6 7, false),
    (0x12214307, 0x00000000, .hmul2 0 5 6 7, false),
    (0x52414307, 0x84000480, .hfma2 1 5 6 7 2 1 9, true),
    (0x92614307, 0x84000000, .hadd2X 2 5 6 7 2 1, true),
    (0xD2814307, 0x84000000, .hmul2X 3 5 6 7 2 1, true),
    (0x12A14307, 0x04000480, .idp4 0 5 6 7 1 9, true),
    (0x53014300, 0x84000008, .cvt 1 5 6 2 1 8, true),
    (0x93214300, 0x80050007, .cvtsTo 2 5 6 2 5 7, true),
    (0xD3414300, 0x00050007, .cvtsFrom 3 5 6 5 7, true),
    (0x1C014300, 0x00000000, .frcp 0 5 6, false),
    (0x5C214300, 0x00000000, .frsq 1 5 6, false),
    (0x9C414300, 0x00000000, .fsqrt 2 5 6, false),
    (0xDC614300, 0x00000000, .fexp2 3 5 6, false),
    (0x1C814300, 0x00000000, .flog2 0 5 6, false),
    (0x5CA14300, 0x00000000, .fsin 1 5 6, false),
    (0x9CC14300, 0x00000000, .fcos 2 5 6, false),
    (0xDD014300, 0x00000000, .tint 3 5 6, false),
    (0x1D200300, 0x00000000, .tintld 0 6, false),
    (0x5D400000, 0x00000000, .tintsw 1, false),
    (0x9D614300, 0x00000000, .chld 2 5 6, false),
    (0xDD814307, 0x04000008, .chrun 3 5 6 7 1 8, true)] = true := by decide +kernel

theorem test_decode_uniform : reads [
    (0x20014307, 0x00000000, .kadd 0 5 6 7, false),
    (0x60214307, 0x00000000, .ksub 1 5 6 7, false),
    (0xA0414307, 0x00000000, .kmul 2 5 6 7, false),
    (0xE0614307, 0x00000000, .kand 3 5 6 7, false),
    (0x20814307, 0x00000000, .kor 0 5 6 7, false),
    (0x60A14307, 0x00000000, .kxor 1 5 6 7, false),
    (0xA0C14307, 0x00000000, .kshl 2 5 6 7, false),
    (0xE0E14307, 0x00000000, .kshr 3 5 6 7, false),
    (0x21014300, 0x00000000, .kmov 0 5 6, false),
    (0x61216AAA, 0x00000000, .kmovi 1 5 0x2aaa, false),
    (0xA1400307, 0x25C80001, .kcmpp 2 6 7 9 3 4 1 1, true),
    (0xE1614307, 0x00000000, .klane 3 5 6 7, false),
    (0x21814301, 0x00000000, .kpopm 0 5 6 1, false)] = true := by decide +kernel

theorem test_decode_control : reads [
    (0x6801FFFD, 0x00000000, .bra 1 0x1FFFD, false),
    (0xA833FFFD, 0x00000000, .braPred 2 4 1 0x1FFFD, false),
    (0xE8400300, 0x00000000, .brx 3 6, false),
    (0x2861FFFD, 0x00000000, .call 0 0x1FFFD, false),
    (0x68800300, 0x00000000, .ret 1 6, false),
    (0xA8A00000, 0x00000000, .exit 2, false),
    (0xE8C00000, 0x00000000, .nop 3, false),
    (0x28E02AAA, 0x00000000, .sleep 0 0x2aaa, false),
    (0x69014300, 0x00000000, .enrol 1 5 6, false),
    (0xA921C000, 0x00000000, .jwait 2 7, false),
    (0xE9400307, 0x00000000, .dret 3 6 7, false),
    (0x29600000, 0x00000000, .park 0, false),
    (0x69800000, 0x00000000, .yield 1, false),
    (0xAA000000, 0x00000000, .barv 2, false),
    (0xEA214300, 0x00000000, .barn 3 5 6, false),
    (0x2A400000, 0x00000000, .bleave 0, false),
    (0x6B000307, 0x00000000, .stgbeg 1 6 7, false),
    (0xAB214000, 0x01800000, .stgnext 2 5 3, true),
    (0xEB40404D, 0x00000000, .stgadv 3 1 0 77, false),
    (0x2B603200, 0x00000000, .stgset 0 0 100 0, false),
    (0x6B804003, 0x00000000, .stgwl 1 1 0 3, false),
    (0xABA00000, 0x00000000, .stgend 2, false)] = true := by decide +kernel

theorem test_decode_lanes : reads [
    (0xF0014307, 0x00000480, .lxchAt 3 5 6 7 0 9, true),
    (0x30214307, 0x00000480, .lxchBack 0 5 6 7 0 9, true),
    (0x70414307, 0x04000000, .lxchFwd 1 5 6 7 1 0, true),
    (0xB0614307, 0x00000480, .lxchFlip 2 5 6 7 0 9, true),
    (0xF0800000, 0x05C80000, .ltest 3 1 3 4 1, true),
    (0x30A14480, 0x00000000, .pmask 0 5 9, false),
    (0x70C14301, 0x00000000, .lsame 1 5 6 1, false),
    (0xB1014300, 0x04000000, .lfold 2 5 6 1, true),
    (0xF1214300, 0x28000001, .scanx 3 5 6 10 1, true),
    (0x31414307, 0x01800480, .isect 0 5 6 7 9 3, true),
    (0x71614307, 0x01800480, .bmpos 1 5 6 7 9 3, true)] = true := by decide +kernel

theorem test_decode_memory : reads [
    (0xB4014300, 0x0151FFFC, .ld 2 5 6 { sco := 0, ord := 0, md := 0, prm := 0, spl := 1, sz := 5, sub := 1, off := 65532 }, true),
    (0xF4200307, 0x74600010, .st 3 6 7 { sco := 3, ord := 2, md := 1, prm := 0, spl := 0, sz := 6, sub := 0, off := 16 }, true),
    (0x34414300, 0x6A210002, .lds 0 5 6 { sco := 3, ord := 1, md := 0, prm := 1, spl := 0, sz := 2, sub := 1, off := 2 }, true),
    (0x74600307, 0x00308000, .sts 1 6 7 { sco := 0, ord := 0, md := 0, prm := 0, spl := 0, sz := 3, sub := 0, off := 32768 }, true),
    (0xB4814307, 0xB8590008, .atom 2 5 6 7 { sco := 5, ord := 3, md := 0, prm := 0, spl := 0, sz := 5, sub := 9, off := 8 }, true),
    (0xF4A14307, 0x284C0004, .atoms 3 5 6 7 { sco := 1, ord := 1, md := 0, prm := 0, spl := 0, sz := 4, sub := 12, off := 4 }, true),
    (0x34C00307, 0x504A7FFC, .red 0 6 7 { sco := 2, ord := 2, md := 0, prm := 0, spl := 0, sz := 4, sub := 10, off := 32764 }, true),
    (0x74E00300, 0x00011234, .pref 1 6 1 0x1234, true),
    (0xB5000580, 0x00000000, .fence 2 11, false),
    (0xF5200000, 0x00000000, .ifence 3, false),
    (0x35400000, 0x00000000, .lfence 0, false),
    (0x7560033F, 0x00000000, .waitc 1 6 63, false),
    (0xB5800300, 0x00008001, .cctlIl1 2 6 0x8001, true),
    (0xF5800300, 0x00018001, .cctlIrlc 3 6 0x8001, true),
    (0x35800300, 0x00028001, .cctlWbl2 0 6 0x8001, true)] = true := by decide +kernel

theorem test_decode_async : reads [
    (0x76014307, 0x04000000, .copy 1 5 6 7 1, true),
    (0xB6214307, 0x04000480, .dcopy 2 5 6 7 1 9, true),
    (0xF6414300, 0x00000000, .ctabld 3 5 6, false),
    (0x36604307, 0x00000000, .secfg 0 1 6 7, false),
    (0x76804000, 0x00000000, .sego 1 1, false),
    (0xB6A04000, 0x00000000, .sestop 2 1, false),
    (0xF6C14300, 0x00000000, .sltake 3 5 6, false),
    (0x36E00307, 0x00000000, .slgive 0 6 7, false),
    (0x77000300, 0x00000000, .spawn 1 6, false),
    (0xB7000801, 0x00000000, .spawnR 2 16, false),
    (0xF7200000, 0x00000000, .tdone 3, false),
    (0x37400300, 0x00000000, .hista 0 6, false),
    (0x77614300, 0x00000000, .histl 1 5 6, false),
    (0xB7800000, 0x00000000, .labort 2, false),
    (0xF7A00000, 0x00000000, .abchk 3, false),
    (0x38000307, 0x00000480, .bkprog 0 6 7 9, true),
    (0x78200307, 0x00050000, .bklaunch 1 6 7 5, true),
    (0xB8400000, 0x00000000, .bkfence 2, false)] = true := by decide +kernel

theorem test_decode_matrix : reads [
    (0xFC000307, 0x00000000, .tcfg 3 6 7, false),
    (0x3C214307, 0x00050008, .mma 0 5 6 7 5 8, true),
    (0x7C414307, 0x04050008, .mmas 1 5 6 7 1 5 8, true),
    (0xBC614000, 0x00000000, .mzero 2 5, false),
    (0xFC814307, 0x00000000, .mld 3 5 6 7, true),
    (0x3CA14307, 0x00000000, .mst 0 5 6 7, true),
    (0x7CC14307, 0x00000000, .mfill 1 5 6 7, false),
    (0xBCE14307, 0x04000008, .mdrain 2 5 6 7 1 8, true),
    (0xFD014300, 0x00000000, .acqa 3 5 6, false),
    (0x3D200000, 0x00000000, .rela 0, false),
    (0x7D400000, 0x00000000, .msync 1, false)] = true := by decide +kernel

theorem test_decode_system : reads [
    (0xBE0142FF, 0x00000000, .sysr 2 5 0x2ff, false),
    (0xFE214041, 0x00000000, .sysw 3 5 0x41, false),
    (0x3E21408F, 0x00000000, .syswRingd 0 5 0x8f, false),
    (0x7E2140AF, 0x00000000, .syswRingtag 1 5 0xaf, false),
    (0xBE214070, 0x00000000, .syswVbstat 2 5 0x70, false),
    (0xFE21414F, 0x00000000, .syswNbstat 3 5 0x14f, false),
    (0x3E21403B, 0x00000000, .syswLstate 0 5 0x3b, false),
    (0x7E214038, 0x00000000, .syswLpc 1 5 0x38, false),
    (0xBE214200, 0x00000000, .syswHistbin 2 5 0x200, false),
    (0xFE400005, 0x00000000, .trap 3 5, false),
    (0x3E600000, 0x00000000, .tret 0, false),
    (0x7E600001, 0x00000000, .tretSkip 1, false),
    (0xBE600002, 0x00000000, .tretEsc 2, false),
    (0xFE800007, 0x00000000, .bkpt 3 7, false),
    (0x3EA00300, 0x00000000, .savew 0 6, false),
    (0x7EA00001, 0x00000000, .savewDone 1, false),
    (0xBEC00300, 0x00000000, .restw 2 6, false),
    (0xFF003F90, 0x00000000, .rep 3 63 2 1 0, false)] = true := by decide +kernel

theorem test_decode_lake : readsLake [
    (0x00000000, .lakeNop),
    (0x04000000, .xld),
    (0x080000C0, .rowrd 192),
    (0x0C040000, .mac8 1),
    (0x10040000, .mac4 1),
    (0x14040000, .mach 1),
    (0x1B840000, .accz 14 1),
    (0x1F800FC0, .accsc 14 4032),
    (0x23B40000, .accadd 14 13),
    (0x27840000, .outw 14 1),
    (0x2804FFFE, .rcadd 1 65534),
    (0x2C04FFFE, .ccadd 1 65534),
    (0x30040ABC, .loop 1 2748),
    (0x34040000, .lend 1),
    (0x38000000, .lakeSync),
    (0x3C000015, .flagsC 21),
    (0x3F840000, .flagsR 14),
    (0x4000004D, .trapl 77),
    (0x44000000, .halt)] = true := by decide +kernel

/-! ### States -/

/-- One warp of 32 lanes of a vat with 256 lane registers and a window of 16 KiB, inside a clause, every feature accessible. -/
def bed : State :=
  let s := { State.reset.placeCode 0 with agenda := [] }
  { s with hub := { s.hub with featacc := features }, vats := s.vats.set 0 (some { placedVat with scr := 16, acc := 16 }) }

def bedW (f : Warp → Warp) : State := bed.modW f
def bedV (f : Vat → Vat) : State := bed.modV f
def bedL (f : Lot → Lot) : State := bed.modLot 0 f
def bedC (f : Context → Context) : State := bed.modCtx 0 f
/-- With operations under way, numbered from 0. -/
def bedOps (os : List Op) : State := { bed with ops := (List.range os.length).zip (os.map some), nextOp := os.length }
/-- With k registers holding values. -/
def withK (s : State) (l : List (Code × Word)) : State := l.foldl (fun s e => s.putK e.1 e.2) s
/-- With lane registers holding one value in every lane. -/
def withV (s : State) (l : List (Code × Word)) : State := l.foldl (fun s e => s.putD e.1 (fun _ => e.2)) s
/-- A MAT-warp. -/
def bedM : State := { bed with warps := bed.warps.set 0 { placedWarp with mat := true } }

/-! ### Witnesses: for each obligation, states and operands that meet the hypotheses of its clauses -/

theorem witness_IntegerTable : [0x00, 0x01, 0x02, 0x03, 0x04, 0x05, 0x06, 0x07, 0x10, 0x11, 0x12, 0x13, 0x14, 0x15, 0x16, 0x17, 0x1A, 0x1B, 0x1C, 0x1D].all
    (fun k => bed.clear (laneSig k 0 0 [95, 127]) && bed.clear (laneSig k 3 95 [0])) = true := by decide +kernel

theorem witness_IntegerExtended :
    ([(0x09, 2), (0x0A, 2), (0x18, 1), (0x19, 1)].all (fun k => [(0, 94, 126), (94, 0, 96)].all (fun e =>
      bed.clear { slot := k.1, ok := lanePair e.1 && aligned e.2.1 2 && aligned e.2.2 k.2, stall := 0, uses := [(e.1, 2), (e.2.1, 2), (e.2.2, k.2)] }))) = true ∧
    (let imm : BitVec 7 := 32; bed.clear { laneSig 0x08 0 0 [95, 127, 3] with ok := isLane 0 && decide ((2 : BitVec 4) ≤ 2) } ∧
      bed.clear { laneSig 0x0B 0 0 [95, 127, 3] with ok := isLane 0 && (decide (1 ≤ imm) && decide (imm ≤ 32)) } ∧
      bed.clear { laneSig 0x0C 0 0 [95, 127] with ok := isLane 0 && decide ((1 : BitVec 4) ≤ 1) && decide (1 ≤ imm) && decide (imm ≤ 32) } ∧
      bed.clear { laneSig 0x0D 0 0 [95, 127] with preds := [7] } ∧
      bed.clear { slot := 0x0E, stall := 0, ok := cmpOk 9 9 7 1 1, dst := false, pdst := true, uses := [(95, 1), (127, 1)], preds := cmbPreds 0 7 1 }) := by
  decide +kernel

theorem witness_IntegerOperations : 1 ≤ 1 ∧ 1 ≤ 32 ∧ (31 : Word).toNat < 32 ∧ 31 < min 32 (32 - (0 : Word).toNat) ∧ 32 ≤ (32 : Word).toNat := by decide

/-- MOVX at the last register of the allotment. -/
theorem witness_Moves : bed.clear (laneSig 0x20 0 0 []) ∧ bed.clear { slot := 0x21, stall := 0, uses := [(127, 1)] } ∧
    bed.clear { slot := 0x22, stall := 0, ok := (224 : BitVec 8).toNat % 32 == 0 && decide ((224 : BitVec 8) ≤ 224) } ∧
    (let s := withV { bed with lots := (bedL (fun l => { l with record := { l.record with flags := 2 } })).lots } [(1, 255)]
     s.checked = true ∧ (∀ l ∈ s.lanes, s.movxIndex 1 0 l < s.laneRegs) ∧
     (∀ l ∈ s.lanes, ∀ p ∈ s.w.pending, s.w.dist < p.due → p.cell / 32 ≠ s.movxIndex 1 0 l) ∧
     (∀ l ∈ s.lanes, cellV (s.movxIndex 1 0 l) l ∉ s.w.poisoned) ∧ s.clear (laneSig 0x23 0 0 [1]) ∧
     s.clear { slot := 0x24, stall := 0, dst := false, uses := [(1, 1), (127, 1)] }) := by decide +kernel

theorem witness_FloatResults : ([0x80, 0x81, 0x82, 0x83, 0x84, 0x88, 0x89, 0x8A].all (fun k => bed.clear (laneSig k 0 0 [95, 127])) &&
    [0x85, 0x86, 0x87, 0x8D].all (fun k => bed.clear (laneSig k 0 95 [0]))) = true ∧
    bed.clear { laneSig 0x8B 0 0 [1, 2, 3] with ok := isLane 0 && true } ∧
    bed.clear { slot := 0x8C, stall := 0, ok := cmpOk 7 7 7 1 1, dst := false, pdst := true, uses := [(95, 1), (127, 1)], preds := cmbPreds 0 7 1 } ∧
    bed.clear { laneSig 0x8E 0 0 [1, 2, 3] with ok := isLane 0 && decide ((1 : BitVec 4) ≤ 1) } := by decide +kernel

/-- The largest finite number, an infinity is no NaN, a quiet and a signalling NaN. -/
theorem witness_FloatSigns : (f32.decode 0x7F7FFFFF).isNan = false ∧ (f32.decode 0xFF800000).isNan = false ∧ (f32.decode 0x7FC00000).isNan = true ∧
    (f32.decode 0x7FC00000).isSnan = false ∧ (f32.decode 0xFF800001).isNan = true ∧ (f32.decode 0xFF800001).isSnan = true := by decide +kernel

theorem witness_FloatOther : ([0x90, 0x91].all (fun k => bed.clear (laneSig k 0 0 [95, 127])) &&
    [0xE0, 0xE1, 0xE2, 0xE3, 0xE4, 0xE5, 0xE6].all (fun k => bed.clear (laneSig k 0 95 [0]))) = true ∧
    bed.clear { laneSig 0x92 0 0 [1, 2, 3] with ok := isLane 0 && decide ((1 : BitVec 4) ≤ 1) } ∧
    bed.clear { laneSig 0x93 0 0 [1, 2] with ok := isLane 0 && decide ((1 : BitVec 4) ≤ 1) } ∧
    bed.clear { laneSig 0x94 0 0 [1, 2] with ok := isLane 0 && decide ((0 : BitVec 4) ≤ 1) } ∧
    bed.clear { laneSig 0x95 0 0 [1, 2, 3] with ok := isLane 0 && decide ((3 : BitVec 4) ≤ 3) } ∧
    [(0, 8), (8, 0), (9, 9), (11, 11), (5, 6)].all (fun e =>
      let na := if cvtWide e.1 then 2 else 1
      let nd := if cvtWide e.2 then 2 else 1
      bed.clear { slot := 0x98, stall := 0, ok := isLane 94 && !cvtReserved e.1 && !cvtReserved e.2 && aligned 126 na && aligned 94 nd, uses := [(94, nd), (126, na)] }) ∧
    bed.clear { laneSig 0x99 0 0 [1] with ok := isLane 0 && elementOk (bed.fslot 0) 3 } ∧
    bed.clear { laneSig 0x9A 0 0 [1] with ok := isLane 0 && elementOk (bed.fslot 0) 0 } := by decide +kernel

theorem witness_UniformResults : [0x100, 0x101, 0x102, 0x103, 0x104, 0x105, 0x106, 0x107].all (fun k =>
      bed.clear { kSig k 0 96 [127, 100] with ok := isK 96 && isK 127 && isK 100 }) ∧
    bed.clear (kSig 0x108 0 127 [0]) ∧ bed.clear (kSig 0x109 0 96 []) ∧
    bed.clear { slot := 0x10A, stall := 0, ok := cmpOk 9 9 7 1 1 && isK 96 && isK 127, dst := false, pdst := true, uses := [(96, 1), (127, 1)], preds := cmbPreds 7 7 1 } ∧
    [0, 31, 32].all (fun b => bed.clear { slot := 0x10B, stall := 0, ok := isK 96 && isLane 95 && decide (b ≤ 32), uses := [(96, 1), (95, 1)], preds := [7], pdst := true }) ∧
    [0, 2].all (fun b => bed.clear { slot := 0x10C, stall := 0, ok := isK 96 && isK 127 && decide (b ≤ 2), uses := [(96, 1), (127, 1)] }) := by decide +kernel

theorem witness_CrossLaneResults : [0x180, 0x181, 0x182, 0x183].all (fun k => [(0, 95), (1, 0)].all (fun e =>
      bed.clear { slot := k, stall := 0, ok := isLane 0 && isLane 95 && (e.1 == 0 || e.1 == 1 && e.2 == 0), uses := [(0, 1), (95, 1), (127, 1)] ++ (if e.1 == 1 then [] else [(e.2, 1)]), preds := [7], pdst := true })) ∧
    bed.clear { slot := 0x184, stall := 0, ok := decide ((2 : BitVec 4) ≤ 2), preds := [7, 0], pdst := true } ∧
    bed.clear { slot := 0x185, stall := 0, ok := decide ((15 : Code) < 16), uses := [(127, 1)], preds := [7] } ∧
    [0, 1].all (fun b => bed.clear { slot := 0x186, stall := 0, ok := isLane 0 && isLane 94 && decide (b ≤ 1) && (!(b == 1) || aligned 94 2), uses := [(0, 1), (94, if b == 1 then 2 else 1)] }) ∧
    bed.clear { slot := 0x188, stall := 0, ok := isLane 95 && decide ((10 : BitVec 4) ≤ 10), uses := [(127, 1), (95, 1)] } ∧
    bed.clear { slot := 0x189, stall := 0, ok := isLane 0 && isLane 95 && decide ((10 : BitVec 4) ≤ 10) && decide ((1 : BitVec 7) ≤ 1), uses := [(0, 1), (95, 1)] } ∧
    bed.clear { slot := 0x18A, stall := 0, ok := isLane 0 && isLane 1 && isLane 95 && kPair 126, uses := [(0, 1), (1, 1), (95, 1), (126, 2)], preds := [7], pdst := true } ∧
    bed.clear { slot := 0x18B, stall := 0, ok := isLane 0 && isK 96 && isK 127 && kPair 98, uses := [(0, 1), (96, 1), (127, 1), (98, 2)], preds := [7], pdst := true } := by decide +kernel

/-- Both targets of a branch within the code, agreeing lanes, disagreeing lanes with and without a handler; targets that are no
headers. -/
theorem witness_Transfers :
    (let c := bed.w.clause
     bed.isHeader 0 (c.hdr + 4 * (3 : BitVec 17).signExtend 32) = true ∧ bed.isHeader 0 (c.hdr + 4 * (0 : BitVec 17).signExtend 32) = true ∧
     bed.isHeader 0 (c.hdr + 4 * (1 : BitVec 17).signExtend 32) = false ∧ bed.isHeader 0 (c.hdr + 4 * (0x1FFFF : BitVec 17).signExtend 32) = false) ∧
    (∀ l ∈ bed.lanes, bed.readPX 0 0 l = false) ∧ maskWhere (fun l => inMask bed.w.clause.enabled l && bed.readPX 0 1 l) ≠ 0 ∧
    [bed, bedW (fun w => { w with hdep := 1 }), bedW (fun w => { w with trap := { w.trap with tmode := true } })].all (fun s =>
      s.clear { slot := 0x140, stall := 0 } && s.clear { slot := 0x141, stall := 0, preds := [7] } && s.clear { slot := 0x142, stall := 0, dst := false, uses := [(95, 1)] } &&
      s.clear { slot := 0x143, stall := 0, uses := [(s.w.linkCode, 1)] } && s.clear { slot := 0x144, stall := 0, dst := false, uses := [(91, 1)] } &&
      !s.abortDue s.cur) ∧
    (let s := bedW (fun w => { w with dhv := 1, clause := { w.clause with enabled := 1 } })
     s.clear { slot := 0x140, stall := 0 } ∧ s.w.diverges = true ∧ bed.w.diverges = false ∧ inMask s.w.clause.enabled 0 = true ∧
     inMask s.w.clause.enabled 31 = false ∧ s.w.clause.hdr ≠ s.w.clause.hdr + BitVec.ofNat 32 (4 * (hdrN s.w.clause.word + 1))) ∧
    (let s := withV bed [(0, 0x8C)]
     let t := withV bed [(0, 0x84)]
     (∀ l ∈ s.lanes, s.isHeader s.cur (s.readOp 0 l) = true) ∧ s.clear { slot := 0x142, stall := 0, dst := false, uses := [(0, 1)] } ∧
     maskWhere (fun l => inMask t.w.clause.enabled l && !t.isHeader t.cur (t.readOp 0 l)) ≠ 0 ∧
     t.clear { slot := 0x144, stall := 0, dst := false, uses := [(0, 1)] }) ∧
    placedWarp.hdep = 0 ∧ { placedWarp with hdep := 2 }.bank = 2 ∧ 3 ≤ { placedWarp with trap := { placedWarp.trap with tmode := true } }.bank := by
  decide +kernel

/-- BLEAVE whose lanes have left already, whose lanes complete the vat barrier, and whose lanes do not. -/
theorem witness_PlainControl :
    bed.clear { slot := 0x146, stall := 0 } ∧ bed.clear { slot := 0x147, stall := 0 } ∧ (0x3FFF : BitVec 14) ≠ 0 ∧
    bed.clear { slot := 0x148, stall := 0, ok := decide ((7 : Code) < 8) && isK 127, uses := [(127, 1)] } ∧ bed.w.replay = none ∧
    [bed, bedW (fun w => { w with masks := { w.masks with blmask := 0xFFFFFFFF } }), bedW (fun w => { w with masks := { w.masks with blmask := 1 } })].all
      (fun s => s.clear { slot := 0x152, stall := 0 } && s.w.replay.isNone) ∧
    bed.w.clause.enabled &&& ~~~ (0xFFFFFFFF : Lanes) = 0 ∧ bed.w.clause.enabled &&& ~~~ (1 : Lanes) ≠ 0 := by decide +kernel

def leaving : State := bedW (fun w => { w with clause := { w.clause with enabled := 0x80000001 } })

theorem witness_LanesLeave :
    (let s := leaving
     s.clear { slot := 0x145, stall := 0 } ∧ s.w.hdep = 0 ∧ s.w.trap.tmode = false ∧ s.w.saveRestore = false ∧
     s.w.clause.enabled &&& s.w.masks.lmask ≠ 0 ∧ s.w.readyIn (s.w.masks.lmask &&& ~~~ (s.w.clause.enabled &&& s.w.masks.lmask)) ≠ 0 ∧ s.w.wpark = false) ∧
    (let s := bedV (fun v => { v with stgslot := [(63, slotMake 0 7)] })
     s.clear { slot := 0x145, stall := 0 } ∧ s.w.masks.lmask &&& ~~~ (s.w.clause.enabled &&& s.w.masks.lmask) = 0 ∧ s.w.async = [] ∧
     s.v.trapWarp ≠ some s.cur ∧ (∀ i < 64, slotRun (s.v.stgslot.get i) = true → i = 63) ∧ s.releaseReady s.cur 1 s.nextOp = true) ∧
    [bedW (fun w => { w with dhv := 1, clause := { w.clause with enabled := 1 } }), bedW (fun w => { w with dhv := 1 })].all (fun s =>
      s.clear { slot := 0x14B, stall := 0 } && s.clear { slot := 0x14C, stall := 0 } && s.w.hdep == 0 && !s.w.trap.tmode && !s.w.saveRestore &&
      !s.w.sgact && s.w.dhvEn && s.w.cause.isNone && s.w.lanesIn 0 != 0) ∧
    bed.w.masks.amask &&& ~~~ (1 : Lanes) ≠ 0 ∧ bed.w.masks.amask &&& ~~~ bed.w.clause.enabled = 0 := by decide +kernel

def joining (ja : Lanes) : State :=
  bedW (fun w => { w with clause := { w.clause with enabled := 1 }, lstate := if ja = 0 then [] else [(1, 1)],
                          masks := { w.masks with jm := [(7, 3)], ja := if ja = 0 then [] else [(7, ja)] } })

def returning (h : BitVec 2) : State :=
  withK (bedW (fun w => { w with hdep := h, lpc := setPcs [] allLanes (fun _ => 0x8C) })) [(126, 0x8C), (127, 1)]

theorem witness_JoinsAndReturns :
    [joining 0, joining 2].all (fun s => s.clear { slot := 0x149, stall := 0, ok := decide ((7 : Code) < 8) } && s.w.hdep == 0 && !s.w.trap.tmode &&
      !s.w.saveRestore && (List.range 8).all (fun j => s.w.masks.jm.get j == 0 || s.w.masks.jm.get j != s.w.masks.ja.get j) && !s.w.wpark) ∧
    (let s := joining 0
     let made := s.w.clause.enabled &&& s.w.masks.jm.get 7
     s.w.masks.ja.get 7 ||| made ≠ s.w.masks.jm.get 7 ∧ s.w.readyIn (s.w.masks.lmask &&& ~~~ made) ≠ 0) ∧
    (let s := joining 2
     let made := s.w.clause.enabled &&& s.w.masks.jm.get 7
     s.w.masks.ja.get 7 ||| made = s.w.masks.jm.get 7 ∧ made ≠ 0) ∧
    [returning 1, returning 2].all (fun s =>
      s.clear { slot := 0x14A, stall := 0, ok := isK 126 && isK 127, uses := [(126, 1), (127, 1)] } && s.isHeader s.cur (s.readK 126)) ∧
    (let s := returning 1
     s.w.hdep = 1 ∧ s.w.wpark = false ∧ maskWhere (fun l => inMask (s.readK 127) l && inMask s.w.masks.lmask l && s.w.lstate.get l == 0 &&
       s.w.lpc.get l == s.readK 126) ≠ 0) ∧ (returning 2).w.hdep = 2 := by decide +kernel

/-- A .G store of the warp that is not performed yet. -/
def pendingStore : Op := { (default : Op) with cls := .st, work := .store true [{ key := 0, val := 1, slot := 0 }] }

def gathering (ops : List Op) (vb n : Word) : State :=
  let s := withK (bedOps ops) [(127, n)]
  s.modV (fun v => { v with vbstat := vb })

theorem witness_Barriers :
    [gathering [] 0x00200000 1024, gathering [] 0x00210000 32, gathering [pendingStore] 0x00200000 1].all (fun s =>
      s.clear { slot := 0x150, stall := 0 } && s.clear { slot := 0x151, stall := 0, ok := decide ((15 : Code) < 16) && isK 127, uses := [(127, 1)] } &&
      !s.abortDue s.cur && s.w.clause.enabled &&& ~~~ s.w.masks.lmask == 0 && s.w.hdep == 0 && !s.w.trap.tmode && !s.w.saveRestore &&
      decide (s.w.num < s.v.nwarp) && s.cur == warpKey s.w.vat s.w.num && s.w.evict == .running && decide (1 ≤ (s.readK 127).toNat) && decide ((s.readK 127).toNat ≤ 1024) &&
      vbExpect (s.v.nbstat.get 15) == 0) ∧
    (gathering [pendingStore] 0x00200000 1).releaseReady 0 1 1 = false ∧ (gathering [] 0x00200000 1).releaseReady 0 1 0 = true ∧
    (let s := (gathering [] 0 32).modW (fun w => { w with masks := { w.masks with blmask := 0xFFFFFFFF } })
     s.w.clause.enabled &&& ~~~ s.w.masks.blmask = 0 ∧ s.clear { slot := 0x150, stall := 0 } = true) ∧
    (let s := gathering [] 0x00200000 1024
     vbExpect s.v.vbstat ≤ vbArrived s.v.vbstat + countLanes s.w.clause.enabled ∧ countLanes s.w.clause.enabled < 1024) ∧
    (let s := gathering [] 0x00210000 32
     vbArrived s.v.vbstat + countLanes s.w.clause.enabled < vbExpect s.v.vbstat ∧ (s.readK 127).toNat ≤ countLanes s.w.clause.enabled) ∧
    -- another warp of the vat waits at the barrier
    (let s := (gathering [] 0x00210001 32).modV (fun v => { v with nwarp := 2 })
     let s : State := { s with warps := s.warps.set 1 { placedWarp with num := 1, lstate := [(3, 2)], barid := [(3, 31)] } }
     1 ∈ warpKeys s.w.vat s.v ∧ inMask (s.warp 1).masks.lmask 3 = true ∧ (s.warp 1).lstate.get 3 = 2 ∧ (s.warp 1).barid.get 3 = 31 ∧
     (s.warp 1).evict = .running) := by
  decide +kernel

def staged (state : BitVec 2) (xh : Bool) (next : Word) (slots : Map Word) (ops : List Op) : State :=
  (withK (bedOps ops) [(96, 9), (97, 64), (98, 65)]).modV (fun v => { v with
    stage := { next := next, oldest := 0, n := 9, xh := xh, wm1 := 3, state := state }, stgslot := slots })

theorem witness_StageTable :
    (let beg : Sig := { slot := 0x158, stall := 0, ok := isK 96 && isK 97, uses := [(96, 1), (97, 1)] }
     let beg' : Sig := { slot := 0x158, stall := 0, ok := isK 96 && isK 98, uses := [(96, 1), (98, 1)] }
     let idle := staged 0 false 0 [] []
     let busy := staged 1 false 0 [] []
     idle.clear beg = true ∧ idle.v.stage.state ≠ 1 ∧ (idle.readK 97).toNat = 64 ∧ idle.clear beg' = true ∧ 64 < (idle.readK 98).toNat ∧
     busy.clear beg = true ∧ busy.v.stage.state = 1) ∧
    (let next : Sig := { slot := 0x159, stall := 0, ok := isK 127, uses := [(127, 1)], preds := [7], pdst := true }
     [staged 0 false 0 [] [], staged 3 false 0 [] [], staged 1 false 1 [(0, slotMake 0 0)] [], staged 2 true 9 [] [], staged 1 true 9 [] [],
       staged 1 false 4 [] [], staged 1 false 3 [] []].all (fun s => s.clear next && !s.abortDue s.cur) ∧
     (staged 1 false 1 [(0, slotMake 0 0)] []).v.currentSlot 0 = some 0 ∧ (staged 1 false 4 [] []).v.currentSlot 0 = none ∧
     (staged 1 false 4 [] []).v.window = 4) ∧
    (let g (k : Nat) (d : Code) (a b : Code) : Sig :=
       { slot := k, stall := 0, ok := if d == 1 then a == 0 else d == 0 && isK a && b == 0, uses := if d = 0 then [(a, 1)] else [] }
     [staged 1 false 1 [] [], staged 1 false 1 [(0, slotMake 0 255)] [], staged 1 false 1 [(0, slotMake 0 255)] [pendingStore]].all (fun s =>
       [0x15A, 0x15B, 0x15C].all (fun k => s.clear (g k 1 0 127) && s.clear (g k 0 97 0)) && s.clear { slot := 0x15D, stall := 0 }) ∧
     (staged 1 false 1 [(0, slotMake 0 255)] [pendingStore]).releaseReady 0 1 1 = false ∧ (staged 1 false 1 [(0, slotMake 0 255)] []).releaseReady 0 1 0 = true ∧
     (staged 1 false 1 [(0, slotMake 0 255)] []).v.stageReached 0 9 = true ∧
     (staged 1 false 2 [(0, slotMake 1 3), (1, slotMake 0 0)] []).v.stageReached 1 3 = false ∧
     (staged 1 false 2 [(0, slotMake 1 3), (1, slotMake 0 0)] []).v.stageReached 1 2 = true) := by decide +kernel

/-- The end of an iteration: another older, another newer, and none left of all that were handed out. -/
theorem witness_StageTable_end :
    (let x := slotMake 0 7
     let v (xh : Bool) (slots : Map Word) : Vat := { placedVat with stage := { next := 9, oldest := 0, n := 9, xh := xh, wm1 := 63, state := 1 }, stgslot := slots }
     (v false [(0, x), (8, x)]).unended 0 = true ∧
     ({ v true [(0, x), (8, x)] with stgslot := [(0, x &&& 0xFFFF7FFF), (8, x)] }).unended 8 = true ∧
     (∀ m < 8, ({ v true [(0, x), (8, x)] with stgslot := [(0, x &&& 0xFFFF7FFF), (8, x)] }).unended (0 + BitVec.ofNat 32 m) = false) ∧
     (∀ m < 64, ({ v true [(8, x)] with stgslot := [(8, x &&& 0xFFFF7FFF)] }).unended (0 + BitVec.ofNat 32 m) = false) ∧
     (∀ i < 64, slotRun (({ v true [(8, x)] with stgslot := [(8, x &&& 0xFFFF7FFF)] }).stgslot.get i) = false)) := by decide +kernel

/-- A lane that accesses memory (v3:v2), the window by its address (v5:v4) and by an offset (v6). -/
def reaching (ops : List Op) : State :=
  withV ((bedOps ops).modW (fun w => { w with clause := { w.clause with enabled := 0x80000000 } })) [
    (2, 0x20000), (4, BitVec.ofNat 32 windowBase), (5, BitVec.ofNat 32 (windowBase / 2 ^ 32)), (6, 16384)]

def xaLd : Xa := { xa0 with sco := 5, ord := 1 }
def xaSplit : Xa := { xa0 with spl := 1, sz := 5 }

theorem witness_Loads :
    [(2, xa0), (2, xaLd), (4, xa0), (2, xaSplit), (2, { xa0 with sz := 6, off := 0xFFF0 })].all (fun e =>
      let s := reaching []
      let n := szRegs e.2.sz
      let r := s.lanesAt false e.1 e.2.off (szBytes e.2.sz) .read true
      s.clear { slot := 0x1A0, stall := 0, ok := isLane 8 && aligned 8 n && aligned e.1 2 && loadXaOk false e.2, uses := [(8, n), (e.1, 2)],
                legal := e.2.spl == 0 || s.w.bank == 0 || s.w.bank == 3 } &&
      !s.countFull .ld && !s.lakeFenced && !s.acquiring && e.2.prm == 0 && !s.touchesAbsent r.2 && !s.atomicOn (accessKeys (szBytes e.2.sz) r.2) &&
      r.2.all (·.committed) && !anyHeld r.2) ∧
    [reaching []].all (fun s =>
      let r := s.lanesAt true 6 0xFFFC 4 .read true
      s.clear { slot := 0x1A2, stall := 0, ok := isLane 0 && aligned 0 1 && loadXaOk true xa0, uses := [(0, 1), (6, 1)] } && r.2.all (·.committed) &&
      !s.touchesAbsent r.2 && !anyHeld r.2) := by decide +kernel

/-- The last location of the window, the first beyond it, one below it, and a misaligned one. -/
theorem witness_LaneAccess :
    let s := reaching []
    let o (off : BitVec 16) : Int := (s.readOp 6 31).toNat + off.toInt
    o 0xFFFC % 4 = 0 ∧ 0 ≤ o 0xFFFC ∧ o 0xFFFC + 4 ≤ 1024 * s.v.scr ∧ o 0 % 4 = 0 ∧ 1024 * s.v.scr < o 0 + 4 ∧ o 0xBFFC % 4 = 0 ∧ o 0xBFFC < 0 ∧
    o 0xFFFE % 4 ≠ 0 := by decide +kernel

theorem witness_Stores :
    [(2, { xa0 with sco := 5, ord := 2, md := 1 }), (4, { xa0 with sco := 3, ord := 2, sz := 6 }), (2, { xa0 with sz := 1 })].all (fun e =>
      let s := reaching []
      let n := szRegs e.2.sz
      let xs := (s.lanesAt false e.1 e.2.off (szBytes e.2.sz) .write false).2
      s.clear { slot := 0x1A1, stall := 0, ok := aligned e.1 2 && aligned 8 n && storeXaOk false e.2, dst := false, uses := [(e.1, 2), (8, n)] } &&
      !s.countFull .st && !s.acquiring && xs.all (·.committed) && !anyHeld xs && s.releaseReady s.cur e.2.sco.toNat s.nextOp) ∧
    [bed.putD 6 (fun l => BitVec.ofNat 32 (16 * l))].all (fun s =>
      let xs := (s.lanesAt true 6 0 16 .write false).2
      s.clear { slot := 0x1A3, stall := 0, ok := aligned 8 4 && storeXaOk true { xa0 with sz := 6 }, dst := false, uses := [(6, 1), (8, 4)] } &&
      xs.all (·.committed) && !anyHeld xs && xs.map (·.place) == (List.range 32).map (fun l => .window (16 * l))) := by decide +kernel

theorem witness_Atomics :
    [(2, { xa0 with sco := 5, ord := 3, sz := 5, sub := 9 }), (4, { xa0 with sco := 1, ord := 2, sub := 12 })].all (fun e =>
      let s := reaching []
      let n := szRegs e.2.sz
      let m := atomRegs e.2
      let xs := (s.lanesAt false e.1 e.2.off (szBytes e.2.sz) .write true).2
      s.clear { slot := 0x1A4, stall := 0, ok := isLane 12 && aligned 12 n && aligned e.1 2 && aligned 8 m && !groupsOverlap 12 n 8 m && atomXaOk false e.2,
                uses := [(12, n), (e.1, 2), (8, m)] } &&
      !s.countFull .at && !s.acquiring && !s.touchesAbsent xs && xs.all (·.committed) && !anyHeld xs && s.releaseReady s.cur e.2.sco.toNat s.nextOp) ∧
    [bed.putD 6 (fun l => BitVec.ofNat 32 (4 * l))].all (fun s =>
      let xs := (s.lanesAt true 6 0 4 .write true).2
      s.clear { slot := 0x1A5, stall := 0, ok := isLane 12 && aligned 12 1 && aligned 8 1 && !groupsOverlap 12 1 8 1 && atomXaOk false xa0,
                uses := [(12, 1), (6, 1), (8, 1)] } &&
      xs.map (·.place) == (List.range 32).map (fun l => .window (4 * l)) && !s.touchesAbsent xs && !anyHeld xs) ∧
    (reaching []).clear { slot := 0x1A6, stall := 0, ok := aligned 2 2 && aligned 8 1 && atomXaOk true xa0, dst := false, uses := [(2, 2), (8, 1)] } := by
  decide +kernel

theorem witness_AtomicOperations : 0 < 32 ∧ (7 : Word) = 7 ∧ (7 : Word) ≠ 8 ∧ (5 : Word).toNat ≤ (5 : Word).toNat ∧ ¬ (5 : Word).toNat ≤ (4 : Word).toNat := by
  decide

def loading : Op := { (default : Op) with cls := .ld, work := .load [⟨0, 32, 7⟩] [] false 0 }
def farLoad : LoadAcc := { (default : LoadAcc) with key := 0x20000, sz := 4, cells := [64] }
def atomicOp : Op := { (default : Op) with cls := .at, work := .atomic [{ (default : AtomAcc) with key := 0x20000, size := 4, cell := some 32 }] [⟨1, 33, 9⟩] }

theorem witness_FencesAndCaches :
    (let s := reaching []
     s.clear { slot := 0x1A7, stall := 0, ok := aligned 2 2 && decide ((1 : BitVec 4) ≤ 1), dst := false, uses := [(2, 2)] } ∧
     s.clear { slot := 0x1AC, stall := 0, ok := aligned 2 2, dst := false, uses := [(2, 2)] } ∧ s.countFull .st = false ∧ s.dieOf s.cur < 4 ∧
     (s.lanesAt false 2 0xFFFF 1 .read false).2.all (fun x => x.code != some 0x14 && x.code != some 0x15 && x.place != .held) ∧
     (s.lanesAt false 2 0xFFFF 1 .read false).2.map (·.place) = [.mem 0x1FFFF 0 0] ∧
     [0, 5, 13].all (fun a : Code => s.clear { slot := 0x1A8, stall := 0, ok := decide (a < 16) && decide ((a.extractLsb' 0 3).toNat ≤ 5) &&
       (!a.getLsbD 3 || decide (3 ≤ (a.extractLsb' 0 3).toNat)) }) ∧ s.fenceReady 5 = true ∧ (5 : Code).getLsbD 3 = false ∧
     (s.takeFence s.cur 5).releaseReady s.cur 5 s.nextOp = true ∧
     s.clear { slot := 0x1A9, stall := 0 } ∧ s.clear { slot := 0x1AA, stall := 0 } ∧ s.opsOf s.cur = []) ∧
    (let s := reaching [pendingStore, loading]
     s.clear { slot := 0x1A8, stall := 0, ok := true } ∧ s.fenceReady 0 = false ∧ s.clear { slot := 0x1AA, stall := 0 } ∧
     (∃ e ∈ s.opsOf s.cur, e.2.cls = .st ∧ e.2.complete = false) ∧
     [1, 2, 3, 4, 5, 6].all (fun a : Code => s.clear { slot := 0x1AB, stall := 0, ok := (classOf a.toNat).isSome && decide ((63 : Code) < 64) }) ∧
     s.count s.cur .ld = 1 ∧ s.count s.cur .mx = 0) ∧
    -- a store of another warp that the FENCE has to wait for
    (let s := (reaching [{ pendingStore with warp := 1, work := .store false [{ key := 0, val := 1, slot := 0 }] }]).modW (fun w => { w with heard := [⟨1, 0, 4, [0]⟩] })
     s.fenceReady 4 = true ∧ (s.takeFence s.cur 4).releaseReady s.cur 4 s.nextOp = false) ∧
    (let s := bedW (fun w => { w with prmWait := some [0] })
     (s.warp 0).prmWait = some [0] ∧ s.ops = [] ∧ (s.die (dieOfCore 0)).state ≠ .silent) := by decide +kernel

/-- Two stores of a line under one key, the second to the byte read. -/
theorem witness_PerformedBytes :
    let bs : List WByte := [{ key := 129, val := 1, slot := 0 }, { key := 128, val := 2, slot := 0 }, { key := 4000, val := 2, slot := 9 }]
    ∀ b ∈ bs, lineOf b.key = lineOf 128 → bed.hub.keys.get b.slot.toNat = bed.hub.keys.get (0 : BitVec 10).toNat := by decide +kernel

def hostByte : WByte := { key := 2 ^ 51, val := 3, slot := 0 }

def pendingLoad : Op := { loading with work := .load [⟨0, 32, 7⟩] [farLoad] true 1, reported := true }
def pendingBed : State := (bedOps [pendingLoad]).modW (fun w => { w with evict := .saved })

theorem witness_Completions_reported (l : Nat) : pendingBed.laneReported pendingLoad l = false := by
  have ha : (pendingBed.warp 0).async = [] ∧ (pendingBed.warp 0).trap.tmode = false ∧ (pendingBed.warp 0).swapFault = none ∧
      (pendingBed.vat (pendingBed.warp 0).vat).deferred = [] := by decide +kernel
  have hw : pendingLoad.warp = 0 := rfl
  simp [State.laneReported, hw, ha]

/-- A plain load of one lane from memory, a split one whose lane is pending, in a warp that is saved; stores and an atomic. -/
theorem witness_Completions :
    (let s := bedOps [loading, { loading with work := .load [⟨0, 32, 7⟩] [] true 1 }, { pendingStore with work := .store false [{ key := 128, val := 1, slot := 0 }] },
       pendingStore, { pendingStore with work := .store true [hostByte] }, { pendingStore with work := .store true [{ key := 256, val := 1, slot := 0 }], owed := 1 }, atomicOp]
     (∀ n < 7, ∃ o ∈ (s.op n).toList, o.complete = false ∧ o.reported = false ∧ o.performed = false) ∧
     [2, 3, 4, 6].all (fun n => (s.op n).any (fun o => s.performable n o)) ∧
     s.ackDies 0 [0] ≠ 0 ∧ s.ackDies 0 [2 ^ 51] = 0 ∧ 1 &&& s.silentBut 0 = 0 ∧ s.ackSilent 0 atomicOp.work.writeKeys = false ∧
     [[128], [0], [2 ^ 51], atomicOp.work.writeKeys].all (fun ks => !s.unanswered 0 ks && !s.homeSilent 0 ks && !s.sendHeld pendingStore ks) ∧ s.waitingLanes 0 loading [] = 0 ∧
     s.waitingLanes 1 loading [farLoad] = 0) ∧
    (let s := pendingBed
     s.op 0 = some pendingLoad ∧ s.waitingLanes 0 pendingLoad [farLoad] = 0 ∧ pendingLoad.complete = false ∧ (s.warp 0).evict ≠ .running) := by
  decide +kernel

/-- The window's address and one of memory in pairs of k registers: k2, k4 (4 KiB on), k6; a size in k8, others in k9 and k10. -/
def winLo (n : Nat) : Word := BitVec.ofNat 32 (windowBase + n)
def winHi : Word := BitVec.ofNat 32 (windowBase / 2 ^ 32)
def engaged (s : State) (n x y : Word) : State :=
  withK s [(98, winLo 0), (99, winHi), (100, winLo 4096), (101, winHi), (102, 0x20000), (104, n), (105, x), (106, y)]
def withCore (s : State) (f : Core → Core) : State := s.modCore 0 f
def aTable : CodeTable := { owner := some 0, wide := false, counts := [2], symbols := [3, 9] }

theorem witness_CopiesIssue :
    [(98, 102), (102, 100), (98, 100)].all (fun p : Code × Code => [4, 4096].all (fun n : Word =>
      let s := engaged bed n 0 0
      s.clear { slot := 0x1B0, stall := 0, ok := kPair p.1 && kPair p.2 && isK 104 && decide ((1 : BitVec 4) ≤ 1), dst := false, uses := [(p.1, 2), (p.2, 2), (104, 1)] } &&
      !s.countFull .cp && !s.acquiring && s.w.replay.isNone && decide (4 ≤ (s.readK 104).toNat) && (s.readK 104).toNat % 4 == 0 &&
      decide ((s.readK 104).toNat ≤ 2 ^ 24) && (s.readPair p.1 0).toNat % 4 == 0 && (s.readPair p.2 0).toNat % 4 == 0 &&
      !s.badWindow (s.readPair p.1 0) n.toNat && !s.badWindow (s.readPair p.2 0) n.toNat && !s.linesBusy (windowLines (s.readPair p.1 0) n.toNat))) ∧
    [engaged (withCore bed (fun c => { c with tables := [(7, aTable)] })) 32767 1 0].all (fun s =>
      let dst := s.readPair 98 0
      let size := ((s.readK 104).toNat + 1) / 2
      s.clear { slot := 0x1B1, stall := 0, ok := kPair 98 && kPair 102 && isK 104 && isK 105 && decide ((7 : BitVec 4) < 8), dst := false,
                uses := [(98, 2), (102, 2), (104, 1), (105, 1)] } &&
      inWindow dst && decide (1 ≤ (s.readK 104).toNat) && decide ((s.readK 104).toNat ≤ 2 ^ 24) && s.readK 105 != 0 &&
      (s.myCore.tables.get 7).owner == some s.w.vat && !(s.myCore.tables.get 7).counts.isEmpty && !s.tableLoading 0 2 7 &&
      !s.badWindow dst size && !s.linesBusy (windowLines dst size)) := by decide +kernel

def copyOp (dst src : Nat) (n : Nat) : Op :=
  { (default : Op) with cls := .cp, work := .copy (BitVec.ofNat 64 (windowBase + dst)) (BitVec.ofNat 64 (windowBase + src)) n [] }

/-- A copy to the last bytes of the window, and to the bytes just below its source. -/
theorem witness_CopyWindow :
    [(16380, 0, 4), (0, 256, 256)].all (fun e =>
      let s := (bedOps [copyOp e.1 e.2.1 e.2.2]).modV (fun v => { v with absent := [(0, 1), (1, 2), (127, 1)] })
      match s.op 0 with
      | some o => match o.work with
        | .copy dst src n m => m.isEmpty && !o.complete && inWindow src && inWindow dst && decide (0 < n) && s.v.inScratch (windowOff src) n && s.v.inScratch (windowOff dst) n &&
            decide (windowOff src + n ≤ windowOff dst ∨ windowOff dst + n ≤ windowOff src) && (windowLines dst n).all (fun l => 0 < s.v.absent.get l) &&
            decide (s.v.scr ≤ 2 ^ 14)
        | _ => false
      | none => false) = true := by decide +kernel

theorem witness_Decompression :
    let o : Op := { (default : Op) with cls := .cp, work := .dcopy (BitVec.ofNat 64 windowBase) (BitVec.ofNat 64 (windowBase + 64)) 3 1 7 }
    let s := withCore (bedOps [o]) (fun c => { c with tables := [(7, aTable)] })
    s.op 0 = some o ∧ o.complete = false ∧ s.decoding 0 (fun k _ => k < 0) = false ∧
    (s.readSome 0 0 0 (.loose 0) (rangePieces (BitVec.ofNat 64 (windowBase + 64)) 1) []).2.2 = none := by decide +kernel

def tableImage (bits counts n : Nat) (syms : List Byte) : List Byte :=
  natToBytes 4 (bits + 16 * n) ++ natToBytes 32 counts ++ syms
def chainImage (op : Nat) : List Byte := natToBytes 32 1 ++ natToBytes 64 op
/-- A scratchpad that holds bytes from offset 0 on. -/
def filled (bs : List Byte) : State := engaged (bedV (fun v => { v with scratch := Map.setFrom [] 0 bs })) 0 0 0

theorem witness_TableLoads :
    [(0x1B2, 4, 37, some 7), (0xE9, 16, 2064, none), (0xEB, 32, 96, some 7)].all (fun e =>
      [(98, true), (106, false)].all (fun k : Code × Bool =>
        let s := withK (filled (tableImage 0 1 1 [5])) [(106, winLo 2), (107, winHi)]
        let va := s.readPair k.1 0
        s.clear { slot := e.1, stall := 0, ok := (match e.2.2.2 with | some d => decide ((d : Code) < 8) | none => true) && kPair k.1, dst := false, uses := [(k.1, 2)] } &&
        decide (va.toNat % e.2.1 = 0) == k.2 && !s.countFull .cp && !s.imageWaits va e.2.2.1 && !s.rangeAbsent va e.2.2.1)) ∧
    (let s := filled (tableImage 0 1 1 [5])
     (s.myCore.tables.get 7).owner = none ∧ s.myCore.tintOwner = none ∧ (s.myCore.chains.get 7).owner = none ∧ s.decoding 0 (fun _ t => t == 7) = false ∧
     s.w.vat = 0 ∧ [4, 37, 96].all (fun n => match (s.readImage (s.readPair 98 0) n).2 with | .ok bs => bs.length == n | .error _ => false) ∧
     (match (s.readImage (s.readPair 98 0) 4).2 with | .ok bs => 0x24 + imageSyms bs == 37 | .error _ => false) = true) ∧
    (withCore bed (fun c => { c with tintOwner := some 1 })).myCore.tintOwner ≠ some bed.w.vat := by decide +kernel

theorem witness_TableLoads_complete :
    tintValid (List.replicate 2064 0) = true ∧ chainValid (chainImage 0x06109000) = true ∧ tableValid (tableImage 1 2 2 [255, 0]) = true ∧
    tintValid (List.replicate 8 0 ++ List.replicate 8 1) = false ∧ chainValid (chainImage 0xFFFFFFFF) = false ∧ tableValid (tableImage 0 1 2 [5, 5]) = false ∧
    (let s := bedOps [{ (default : Op) with cls := .cp, work := .table 2 7 (tableImage 1 2 2 [255, 0]) }]
     (s.op 0).isSome = true ∧ (s.op 0).all (fun o => !o.complete) = true ∧ (s.vat (s.warp 0).vat).stop = none ∧ (s.warp 0).masks.lmask ≠ 0) := by decide +kernel

def chained (ops : List Word) (owner : Option Nat) : State :=
  withCore bed (fun c => { c with chains := [(7, { owner := some 0, consts := [0, 0, 0, 0], ops := ops })], tintOwner := owner, tintLoaded := true })

theorem witness_TintChain :
    (let s := chained [0x06109000] (some 0)
     s.clear { laneSig 0xE8 0 0 [95] with ok := isLane 0 && s.tintUsable } ∧ s.clear { slot := 0xEA, stall := 0 } ∧ s.myCore.tintOwner = some s.w.vat ∧
     s.myCore.tintLoaded = true ∧ s.tableLoading 0 0 0 = false) ∧
    [(1, 95), (16, 80)].all (fun e : Nat × Code =>
      let fits (c : Code) : Bool := decide (c.toNat + e.1 ≤ 96)
      let ok := decide ((7 : BitVec 4) < 8) && decide (1 ≤ e.1) && decide (e.1 ≤ 16) && fits e.2 && fits 0 && fits e.2
      bed.clear { slot := 0xEC, stall := 0, ok := ok, uses := [(e.2, e.1), (0, e.1), (e.2, e.1)] }) ∧
    (let s := chained [0x06109000] none
     let ch := s.myCore.chains.get 7
     ch.owner = some s.w.vat ∧ ch.ops ≠ [] ∧ s.tableLoading 0 1 7 = false ∧ (ch.ops.takeWhile (fun w => chOp w != 0)).any (fun w => chOp w == 9) = false ∧
     s.v.regs ≤ 31 ∧ (List.range 16).all (fun e => s.lanes.all (fun l => s.incoming s.cur (s.w.cell e l) == none)) = true) ∧
    (let s := chained [0x26100000] (some 0)
     ((s.myCore.chains.get 7).ops.takeWhile (fun w => chOp w != 0)).any (fun w => chOp w == 9) = true ∧ s.tintUsable = true) := by decide +kernel

/-- Ring 7 of a kind with two slots of 128 bytes, its pointers and its tags. -/
def ringed (s : State) (kind p q tags : Nat) : State :=
  (engaged s 0 1 2).modV (fun v => { v with
    ringd := [(7, BitVec.ofNat 64 (1 * 2 ^ 32 + kind * 2 ^ 38 + p * 2 ^ 40 + q * 2 ^ 46))], ringtag := [(7, BitVec.ofNat 128 tags)] })

theorem witness_RingSlots :
    [ringed bed 0 0 0 0, ringed bed 1 0 1 8, ringed bed 1 0 0 1, ringed bed 2 1 0 2, ringed bedM 3 0 1 8, ringed bed 2 0 0 1].all (fun s =>
      s.clear { slot := 0x1B6, stall := 0, ok := isK 127 && decide ((7 : Code) < 8), uses := [(127, 1)], roleOk := ringRole s.w.mat 7 (rdKind (s.v.ringd.get 7)) } &&
      s.clear { slot := 0x1B7, stall := 0, ok := decide ((7 : Code) < 8) && isK 106, dst := false, uses := [(106, 1)],
                roleOk := ringRole s.w.mat 7 (rdKind (s.v.ringd.get 7)) } && s.slotWaiters 0 7 true == [] && s.slotWaiters 0 7 false == []) ∧
    (let s := ringed bed 1 0 1 8
     rdKind (s.v.ringd.get 7) = 1 ∧ rdQptr (s.v.ringd.get 7) = rdNm1 (s.v.ringd.get 7) ∧ tagOf (s.v.ringtag.get 7) 1 = 2 ∧ rdNm1 (s.v.ringd.get 7) < (s.readK 106).toNat) ∧
    (let s := ringed bed 2 1 0 2
     rdKind (s.v.ringd.get 7) = 2 ∧ tagOf (s.v.ringtag.get 7) 1 = 0 ∧ rdPptr (s.v.ringd.get 7) ≤ rdNm1 (s.v.ringd.get 7)) ∧
    (let s := ringed bed 1 0 0 1
     tagOf (s.v.ringtag.get 7) 0 ≠ 2) ∧
    (let s := ringed bed 2 0 0 1
     (s.readK 104).toNat ≤ rdNm1 (s.v.ringd.get 7) ∧ tagOf (s.v.ringtag.get 7) 0 = 1 ∧ (s.readK 105).toNat ≤ rdNm1 (s.v.ringd.get 7) ∧ tagOf (s.v.ringtag.get 7) 1 ≠ 1) ∧
    (let s := ringed bedM 3 0 1 8
     s.w.mat = true ∧ s.matrixBusy = false ∧ s.releaseReady s.cur 1 s.nextOp = true) ∧
    (let s := (ringed bed 1 0 1 8).modW (fun w => { w with hold := .parked (.slot 7) })
     s.v.ringQuiet.get 7 = false ∧ (s.slotWaiters 0 7 false).headD s.w.num = s.w.num ∧
     (s.modV (fun v => { v with ringQuiet := [(7, true)] })).v.ringQuiet.get 7 = true ∧ (s.w.hold == .parked (.slot 7)) = true) ∧
    (let s := { ringed bed 1 0 1 8 with ops := [(0, some pendingStore)], nextOp := 1 }
     s.releaseReady s.cur 1 s.nextOp = false) := by decide +kernel

def aTlr : List Byte := natToBytes 8 0x20000 ++ natToBytes 4 (8 + 7 * 64) ++ natToBytes 4 2 ++ natToBytes 48 0
def streaming (x : StreamEngine) (kind tags : Nat) : State :=
  withCore (ringed bed kind 0 0 tags) (fun c => { c with engines := [(1, x)] })
def held : StreamEngine := { (default : StreamEngine) with holder := some 0, tlrVa := 0x20000 }

theorem witness_StreamControl :
    [streaming default 1 0, streaming held 1 0, streaming { held with busy := true } 1 0, streaming { held with holder := some 3 } 1 0].all (fun s =>
      s.clear { slot := 0x1B3, stall := 0, ok := decide ((1 : Code) < 2) && kPair 102 && isK 105, dst := false, uses := [(102, 2), (105, 1)] } &&
      s.clear { slot := 0x1B3, stall := 0, ok := decide ((1 : Code) < 2) && kPair 104 && isK 105, dst := false, uses := [(104, 2), (105, 1)] } &&
      s.clear { slot := 0x1B4, stall := 0, ok := decide ((1 : Code) < 2) } && s.clear { slot := 0x1B5, stall := 0, ok := decide ((1 : Code) < 2) } &&
      s.w.replay.isNone && !s.countFull .cp && !s.imageWaits 0x20000 64 && (s.readPair 102 0).toNat % 64 == 0) ∧
    ((withK bed [(104, 32)]).readPair 104 0).toNat % 64 ≠ 0 ∧ held.holder = some bed.w.vat ∧ held.busy = false ∧
    (streaming held 1 0).v.tlrInvalid (tlrOf aTlr) = false ∧ (streaming held 2 0).v.tlrInvalid (tlrOf aTlr) = true := by decide +kernel

def going (sepos : Word) : StreamEngine := { held with busy := true, tlr := aTlr, ring := 7, sepos := sepos }

/-- The last box but one and the last, a ring without a free slot, and a traversal that is over. -/
theorem witness_StreamBoxes :
    [(0, 0), (1, 0), (0, 1), (2, 0)].all (fun e =>
      let s := streaming (going (BitVec.ofNat 32 e.1)) 1 e.2
      let x := s.engine 0 1
      let t := tlrOf x.tlr
      let m := (s.modVat 0 (fun v => v.takeSlot 7 true)).moveElements 0 0 0 t (t.boxAt x.sepos.toNat) (rdOff (s.v.ringd.get 7) 0) t.elements 0
      x.holder == some 0 && x.busy && !x.flt && x.slot.isNone && t.total == 2 && !s.vatAborted 0 && tagOf (s.v.ringtag.get 7) 0 == e.2 && m.2.isNone) = true := by
  decide +kernel

/-- A slot the engine cannot take: the vat runs, the vat has stopped; a traversal that has moved all its boxes. -/
theorem witness_StreamBoxes_waits :
    (let s := streaming (going 0) 1 1
     let x := s.engine 0 1
     let t := tlrOf x.tlr
     x.holder == some 0 && x.busy && !x.flt && x.slot.isNone && decide (x.sepos.toNat < t.total) && !s.vatAborted 0 &&
       decide (tagOf (s.v.ringtag.get 7) 0 ≠ (if t.dir then 2 else 0)) && !s.warpsStopped 0 &&
       (let z := (s.modVat 0 (fun v => { v with stop := some 5 })).modW (fun w => { w with stopped := true })
        z.warpsStopped 0 && (z.engine 0 1).slot.isNone && decide (tagOf (z.v.ringtag.get 7) 0 ≠ (if t.dir then 2 else 0)))) = true := by
  decide +kernel

/-- An engine that a replay restarts within a box: it goes on in the slot it has, and SESTOP waits for it. -/
theorem witness_StreamBoxes_inBox :
    [false, true].all (fun stop =>
      let s := streaming { going 0 with slot := some 1, stopping := stop } 1 4
      let x := s.engine 0 1
      let t := tlrOf x.tlr
      let m := s.moveElements 0 0 0 t (t.boxAt x.sepos.toNat) (rdOff (s.v.ringd.get 7) 1) t.elements 0
      x.inBox && x.holder == some s.w.vat && m.2.isNone &&
      s.clear { slot := 0x1B5, stall := 0, ok := decide ((1 : Code) < 2) }) = true := by decide +kernel

theorem witness_Histograms :
    (let s := engaged bed 256 0 0
     s.clear { slot := 0x1BA, stall := 0, dst := false, uses := [(95, 1)] } ∧
     [98, 102, 104].all (fun a => s.clear { slot := 0x1BB, stall := 0, ok := decide ((15 : Code) < 16) && kPair a, dst := false, uses := [(a, 2)] }) ∧
     (s.readPair 98 0).toNat % 256 = 0 ∧ ((engaged bed 128 0 0).readPair 104 0).toNat % 256 ≠ 0 ∧ s.countFull .st = false ∧ s.acquiring = false ∧
     inWindow (s.readPair 98 0) = true ∧ s.badWindow (s.readPair 98 0) 2048 = false) ∧
    (let s := bedOps [{ (default : Op) with cls := .st, work := .histl 15 (BitVec.ofNat 64 (windowBase + 14336)) }]
     (s.op 0).isSome = true ∧ (s.op 0).all (fun o => !o.complete) = true ∧ s.releaseReady 0 3 0 = true ∧ inWindow (BitVec.ofNat 64 (windowBase + 14336)) = true ∧
     s.v.inScratch (windowOff (BitVec.ofNat 64 (windowBase + 14336))) 2048 = true) := by decide +kernel

/-- An engine whose TLR stands in memory reads it. -/
def tlrInMemory : State := { streaming held 1 0 with mem := (streaming held 1 0).mem.setFrom 0x20000 aTlr }

theorem witness_StreamControl_tlr : (tlrInMemory.readTlr (tlrInMemory.engine tlrInMemory.w.core 1).tlrVa).2 = .ok aTlr ∧
    (tlrInMemory.engine 0 1).holder = some tlrInMemory.w.vat ∧ tlrInMemory.v.tlrInvalid (tlrOf aTlr) = false ∧
    tlrInMemory.imageWaits (tlrInMemory.engine tlrInMemory.w.core 1).tlrVa 64 = false := by
  refine ⟨?_, by decide +kernel⟩
  have hi : (match (tlrInMemory.readImage 0x20000 64).2 with | .ok bs => bs == aTlr | .error _ => false) = true := by decide +kernel
  have hw : inWindow 0x20000#64 = false := by decide +kernel
  have hm : (List.range 64).map (fun i => tlrInMemory.decrypted ((tlrInMemory.tlrAt 0x20000#64).1 + i) (tlrInMemory.tlrAt 0x20000#64).2) = aTlr := by decide +kernel
  have hc : ∀ k, tlrInMemory.myCore.tlrCache.get k = [] := fun k => by
    have : tlrInMemory.myCore.tlrCache = [] := by decide +kernel
    rw [this]; rfl
  have hv : (tlrInMemory.engine tlrInMemory.w.core 1).tlrVa = 0x20000 := by decide +kernel
  have hp : (List.range 8).flatMap (fun i => (aTlr.drop (8 * i)).take 8) = aTlr := by decide +kernel
  rw [hv, State.readTlr]
  cases h : (tlrInMemory.readImage 0x20000 64).2 with
  | error m => rw [h] at hi; cases hi
  | ok bs =>
    rw [h] at hi
    have hb : bs = aTlr := by simpa using hi
    simp [hw, hm, hb, hc, hp]
/-- A MAT-warp with its extents (8 rows, 8 columns, K = 128), with two quads of k registers: base in the window, stride 128. -/
def arrayed (mat : Bool) (ops : List Op) : State :=
  let s := withK (bedOps ops) [(100, winLo 0), (101, winHi), (102, 128), (103, 0), (104, winLo 1024), (105, winHi), (106, 128), (107, 0), (108, 0x00000000),
    (109, 0x00070007), (110, 240), (111, 241)]
  ((s.modV (fun v => { v with mcfg := 3, scr := 16 })).modW (fun w => { w with mat := mat })).modLot 0 (fun l => { l with record := { l.record with fslot := [(0, 2)] } })
def mxOp (work : Work) : Op := { (default : Op) with cls := .mx, work := work }
def readingOp : Op := mxOp (.matrix 5 15 [winLo 0, winHi, 32, 0] [] 0 0 0 0)

theorem witness_MatrixIssue :
    [arrayed true [], arrayed true [readingOp]].all (fun s => s.clear { slot := 0x1E0, stall := 0, ok := decide ((63 : Code) < 64) }) ∧
    (arrayed true []).matrixIdle = true ∧ (arrayed true [readingOp]).matrixIdle = false ∧
    [(1, 0, true), (2, 32, true), (2, 64, true), (4, 0, false), (5, 0, false)].all (fun e =>
      [arrayed true [], (arrayed true [readingOp]).modW (fun w => { w with matrixOp := some 0 })].all (fun s =>
        let f := s.fslot 0
        let ok := if e.2.2 then isK 100 && aligned 100 4 && isK 104 && aligned 104 4 && decide ((31 : BitVec 7) < 32) && slIsInt f == slIsInt f &&
            (!(31 : BitVec 7).getLsbD 3 || slIsInt f) && (e.2.1 == 0 || s.v.extentK % 128 == 0)
          else kPair 100 && isK 102
        s.clear { slot := 0x1E0 + e.1, stall := 0, dst := false, uses := if e.2.2 then [(100, 4), (104, 4)] else [(100, 2), (102, 1)], tile := some 15,
                  ok := decide ((15 : Code) < 16) && ok } &&
        (s.w.matrixOp.isSome || (s.tileRefused 15).isNone && s.w.replay.isNone && !s.countFull .mx && !s.acquiring))) ∧
    (let s := arrayed true []
     let x := MatArg.of [s.readK 100, s.readK 101, s.readK 102, s.readK 103] 0
     x.va.toNat % 16 = 0 ∧ x.stride % 16 = 0 ∧ [0, 32, 64].all (fun n => (x.ranges s.v.extentK n 7).all (fun r => !s.rangeAbsent r.1 r.2))) ∧
    (arrayed true [readingOp]).matReading 0 = true ∧ (arrayed true [mxOp (.tileStore [] [] [])]).matReading 0 = false := by decide +kernel

theorem witness_TileWrites :
    (let s := arrayed true []
     s.clear { slot := 0x1E3, stall := 0, ok := decide ((15 : Code) < 16), tile := some 15 } ∧ s.tileRefused 15 = none ∧ s.countFull .mx = false ∧ s.acquiring = false) ∧
    [(108, 0, 0), (109, 7, 7)].all (fun e : Code × Nat × Nat =>
      let s := arrayed false []
      let inside := decide (e.2.1 < s.v.rows) && decide (e.2.2 < s.v.cols)
      ((s.readK e.1).extractLsb' 0 16).toNat == e.2.1 && ((s.readK e.1).extractLsb' 16 16).toNat == e.2.2 && (s.tileRefused 15).isNone &&
      s.clear { slot := 0x1E6, stall := 0, dst := false, uses := [(95, 1), (e.1, 1)], tile := some 15, ok := decide ((15 : Code) < 16) && isLane 95 && isK e.1 && inside } &&
      [(1, 95), (8, 88)].all (fun n : Nat × Code =>
        let ok := isLane n.2 && decide ((15 : Code) < 16) && isK e.1 && decide ((1 : BitVec 4) < 2) && decide (1 ≤ n.1) && decide (n.1 ≤ 8) &&
          decide (n.2.toNat + n.1 ≤ 96) && inside
        s.clear { slot := 0x1E7, stall := 0, uses := [(n.2, n.1), (e.1, 1)], tile := some 15, ok := ok })) ∧
    (let s := arrayed true [readingOp]
     (s.op 0 = some readingOp) ∧ s.matReading 0 = true ∧ s.matPresent readingOp = true ∧ ((s.landTiles 0).matWork 0 readingOp).2.stop.isNone = true) ∧
    [mxOp (.tileStore [] [(3, 1)] [(4095, 7)]), mxOp (.drain [(0, ⟨0, 32, 0⟩)] [(0, 0)]), { mxOp (.drain [(0, ⟨0, 32, 0⟩)] [(0, 0)]) with late := true }].all (fun o =>
      let s := arrayed true [o]
      s.op 0 == some o && !o.complete && !s.matBehind 0 o && !s.writesHeld o (match o.work with | .tileStore bs _ _ => bs | _ => [])) := by decide +kernel

/-- One group of 32 products, three products in one group, and accumulators that pass either end of the range. -/
theorem witness_IntegerProducts :
    (List.replicate 32 (true, 7)).length = (List.replicate 32 (false, 9)).length ∧ (List.replicate 32 (true, 7)).length ≤ 32 * 1 ∧
    ([(true, 2147483648), (false, 1), (false, 0)] : List (Bool × Nat)).length = 3 ∧
    (2 ^ 31 - 1 : Int) < (0x7FFFFFFF : Word).toInt + 1 ∧ (0x80000000 : Word).toInt - 1 < (-2 ^ 31 : Int) := by decide

/-- The largest request that is not denied, and the first that is; an answer; an operation of the array under way. -/
theorem witness_AccumulatorSpace :
    (let s := arrayed true []
     let g (a : Code) : Sig := { slot := 0x1E8, stall := 0, ok := isK 127 && isK a && (s.readK a).toNat != 0, uses := [(127, 1), (a, 1)] }
     s.clear (g 110) = true ∧ s.clear (g 111) = true ∧ s.w.acqAnswer = none ∧ (s.readK 110).toNat + (s.v.acc + s.v.granted) = 256 ∧
     256 < (s.readK 111).toNat + (s.v.acc + s.v.granted) ∧ s.acqWaiters 0 = [] ∧ s.w.resident = true ∧ (s.readK 110).toNat ≤ s.accFree 0 ∧
     s.clear { slot := 0x1E9, stall := 0 } ∧ s.clear { slot := 0x1EA, stall := 0 } ∧ s.matSynced .rela = true ∧ s.matSynced .msync = true) ∧
    (let s := (arrayed true []).modW (fun w => { w with acqAnswer := some 16 })
     s.clear { slot := 0x1E8, stall := 0, ok := isK 127 && isK 110 && (s.readK 110).toNat != 0, uses := [(127, 1), (110, 1)] } ∧ s.w.acqAnswer = some 16) ∧
    (let s := arrayed true [readingOp]
     s.clear { slot := 0x1E9, stall := 0 } ∧ s.matSynced .rela = false ∧ s.matSynced .msync = false) ∧
    (let s := (arrayed true []).modW (fun w => { w with hold := .parked (.acqa 240) })
     s.acqWaiters 0 = [(0, 240)] ∧ 240 ≤ s.accFree 0 ∧ ¬ 241 ≤ s.accFree 0) := by decide +kernel

/-- A record of the entry point at 0x80, with one read key and one write key, and its code object's function. -/
def aRecord : List Word := [0x20, 1 + 8, 0, 0, 0, 0, 0, 0, 5, 0, 0, 0, 0, 6, 0, 0]
def withFunc (s : State) : State :=
  s.modLot 0 (fun l => { l with code := { l.code with funcs := [{ eoff := 0x80, regs := 2, scr := 0, acc := 0, lote := true, taske := true }] } })
def onDie (s : State) (f : Die → Die) : State := withFunc (s.modDie 0 f)
def aTask (p : TaskPlace) : Task := { (default : Task) with words := aRecord, place := p }

theorem witness_Spawning :
    (let s := withFunc { (reaching []) with mem := (reaching []).mem.setFrom 0x20000 (aRecord.flatMap wordBytes) }
     let r := s.lanesAt false 2 0 64 .read true
     let u := r.2.foldl (fun t x => match x.place with | .mem key slot ca => t.fillLine s.w.core key slot ca | _ => t) (r.1.bindLoads (accessKeys 64 r.2))
     let far := r.2.flatMap (fun x => match x.place with
       | .mem key _ ca => if s.farFrom 0 key ca then (List.range 64).map (key + ·) else []
       | _ => [])
     (s.clear { slot := 0x1B8, stall := 0, ok := aligned 2 2, dst := false, uses := [(2, 2)] } && !s.abortDue s.cur && s.w.spawnDone == 0 &&
      s.releaseReady s.cur 3 s.nextOp && decide ((s.die 0).tableUsed + s.lanes.length ≤ 4096) && (s.ctx 0).spilled 0 == 0 && s.l.code.recordOk aRecord &&
      !s.acquiring && !s.lakeFenced && !s.homeSilent 0 far && !s.unanswered 0 (accessKeys 64 r.2) && !anyHeld r.2 && !s.touchesAbsent r.2 && !s.atomicOn (accessKeys 64 r.2) &&
      r.2.all (fun x => match u.laneRecord x with | .ok ws => ws == aRecord | .error _ => false)) = true) ∧
    (let s := withFunc ((List.range 16).foldl (fun s i => s.putD (80 + BitVec.ofNat 7 i) (fun _ => aRecord.getD i 0)) bed)
     (s.clear { slot := 0x1B8, stall := 0, ok := aligned 80 16 && decide ((80 : Code) ≤ 80), dst := false, uses := [(80, 16)] } &&
      s.lanes.all (fun l => (List.range 16).map (fun i => s.readOp (80 + BitVec.ofNat 7 i) l) == aRecord) && s.l.code.recordOk aRecord) = true) := by
  decide +kernel

/-- What TaskFlow says of a record's keys as they enter: the map of the pool, the tiles, the tasks before it. -/
def entering (s : State) (n : Nat) (wr : List (BitVec 64)) (preds : List Nat) : Bool :=
  let d := s.die 0
  let t := d.tasks.get n
  let m := s.mapEntries 0 0
  let w := m.1.resolveWrites 0 0 t.words (List.range (recNwr t.words)) m.2.1 []
  let rd := (List.range (recNrd t.words)).map (fun i => mapOf m.2.1 (recKey t.words i))
  let meets (a b : List (BitVec 64)) : Bool := a.any b.contains
  d.tasks.wf && d.tasks.firstKey (fun _ t => decide (t.ctx = 0) && t.place == .waiting) == some n && !t.spilled && !d.released.contains n &&
    m.2.2.isNone && w.2.2.isNone && w.2.1 == wr &&
    ((w.1.die 0).entries 0).filterMap (fun e =>
      if meets e.2.wr rd || meets e.2.wr w.2.1 || meets e.2.rd w.2.1 || stencilPred e.2 t then some e.1 else none) == preds

/-- A record with nothing before it, one behind a task that writes what it reads, and one of a context whose
pool cannot be read, whose write key names a tile in use. -/
theorem witness_TaskFlow_enter :
    entering (onDie bed (fun d => { d with tasks := [(0, aTask .waiting)] })) 0 [6 * 4096] [] = true ∧
    entering (onDie bed (fun d => { d with tasks := [(0, { aTask .table with wr := [5 * 4096] }), (1, aTask .waiting)] })) 1 [6 * 4096] [0] = true ∧
    entering ((onDie bed (fun d => { d with tasks := [(0, { aTask .table with rd := [6 * 4096] }), (1, aTask .waiting)] })).modCtx 0 (fun c =>
       { c with poolVa := BitVec.ofNat 64 windowBase, poolTiles := 4 })) 1 [6 * 4096] [0] = true ∧
    ((onDie bed (fun d => { d with tasks := [(0, { aTask .waiting with spilled := true })] })).die 0).tasks.firstKey
      (fun _ t => decide (t.ctx = 0) && t.place == .waiting) = some 0 := by decide +kernel

/-- A task whose retirement waits, and one whose last operation has ended; a bin just due, a full bin; a spilled record, one discarded; a
SPAWN just at its limit. -/
theorem witness_TaskFlow :
    (let s := onDie (bedOps [loading]) (fun d => { d with tasks :=
       [(0, aTask .running), (1, { aTask .running with retiring := some [0] }), (2, { aTask .running with retiring := some [9] }), (3, { aTask .table with preds := [2] })] })
     (s.die 0).tasks.wf = true ∧ ((s.die 0).tasks.get 0).retiring = none ∧ (s.op 0).isSome = true ∧ s.op 9 = none ∧
     (∀ n < 3, ((s.die 0).tasks.get n).place = .running) ∧ ((s.die 0).tasks.get 3).preds = [2]) ∧
    (let b : Bin := { ctx := 0, lot := 0, entry := 0x20, tasks := [0], since := 0 }
     let s := { onDie bed (fun d => { d with tasks := [(0, aTask (.bin 63))], bins := [(62, some { b with tasks := List.range 32, since := 18 }), (63, some b)] }) with gtime := 18 }
     let d := s.die 0
     d.tasks.wf = true ∧ d.bins.get 63 = some b ∧ (s.lot 0).phase = .running ∧ (s.lot 0).status = 0 ∧ d.btim.toNat * 1000 ≤ (s.gtime - b.since) * 1400 ∧
     ¬ d.btim.toNat * 1000 ≤ (17 - b.since) * 1400 ∧ d.state = .live ∧ ((s.lot 0).code.taskFunc b.entry).isSome = true ∧
     (d.bins.get 62).map (fun b => b.tasks.length) = some 32 ∧
     (chooseCore { nvec := 1, nmat := 0, regs := 2, scr := 0, acc := 0 } 0 (s.candidates [0])).isSome = true) ∧
    [TaskPlace.waiting, .retired].all (fun p =>
      let s := (onDie bed (fun d => { d with tasks := [(0, { aTask p with spilled := true })] })).modCtx 0 (fun c =>
        { c with ovfVa := 0x40000, ovfPages := 4, ovf := [(0, 127)] })
      let c := s.ctx 0
      (s.die 0).tasks.wf && c.spilled 0 == 1 && decide ((s.die 0).tableUsed < 4096) && !c.refillStopped.getLsbD 0 && !c.faulted &&
      (s.die 0).tasks.firstKey (fun _ t => decide (t.ctx = 0) && t.spilled) == some 0 && ((s.die 0).tasks.get 0).place == p &&
      (match (s.agentRead 0 0 (c.ringVa 0 (c.ovf.get 0).toNat) 64 190).2 with | .ok bs => bs.length == 64 | .error _ => false)) = true ∧
    (let s := { bedW (fun w => { w with hold := .parked .spawn, spawnDone := 1 }) with gtime := 2000000 }
     (s.warp 0).hold = .parked .spawn ∧ (s.warp 0).holdSince + 2000000 ≤ s.gtime ∧ (s.warp 0).clause.enabled &&& ~~~ (s.warp 0).spawnDone ≠ 0) := by
  decide +kernel

theorem witness_LotAbort :
    (let s := bedW (fun w => { w with tasks := (List.range 32).map (fun l => (l, some l)) })
     s.clear { slot := 0x1B9, stall := 0, roleOk := s.lanes.all (fun l => (s.w.tasks.get l).isSome) } ∧ inMask s.w.tdone 31 = false ∧ s.w.tasks.get 31 = some 31) ∧
    [bedL (fun l => { l with record := { l.record with flags := 4 } }), bedL (fun l => { l with abort := true, abortDies := 1, record := { l.record with flags := 4 } })].all
      (fun s => s.clear { slot := 0x1BC, stall := 0, legal := s.l.record.flags.getLsbD 2 } && s.clear { slot := 0x1BD, stall := 0 } && s.w.async.isEmpty &&
        s.v.trapWarp != some s.cur) ∧
    bed.abortDue 0 = false ∧ (bedL (fun l => { l with abort := true, abortDies := 1 })).abortDue 0 = true ∧
    (bedL (fun l => { l with abort := true, abortDies := 1 })).l.abortDies.getLsbD 3 = false := by decide +kernel

def sysNums : List Nat :=
  [0x01, 0x02, 0x03, 0x04, 0x05, 0x06, 0x07, 0x08, 0x09, 0x0A, 0x0B, 0x0C, 0x0D, 0x0E, 0x0F, 0x10, 0x11, 0x12, 0x13] ++ (List.range 24).map (0x20 + ·) ++
  [0x40, 0x41, 0x42, 0x43, 0x48, 0x49, 0x4A, 0x4B, 0x4C, 0x4D, 0x50, 0x51, 0x52, 0x53, 0x54, 0x55, 0x56] ++ (List.range 16).map (0x60 + ·) ++
  [0x70, 0x74, 0x75, 0x76, 0x77, 0x78, 0x79, 0x7A] ++ (List.range 48).map (0x80 + ·) ++ [0xB0, 0xB1, 0xB2, 0xB3]
def sysArrays : List Nat := [0xC0, 0xFF, 0x100, 0x13F, 0x140, 0x14F, 0x200, 0x2FF]

theorem witness_SysRead :
    [0x00, 0x38, 0x39, 0x3A, 0x3B, 0x3C, 0x3D].all (fun n =>
      bed.clear { slot := 0x1F0, stall := 0, ok := sysAssigned n && (isLane 95 || !sysPerLane n), uses := [(95, 1)] }) ∧
    (sysNums ++ sysArrays).all (fun n => [95, 127].all (fun d : Code =>
      bed.clear { slot := 0x1F0, stall := 0, ok := sysAssigned n && (isLane d || !sysPerLane n), uses := [(d, 1)] })) ∧
    ((streaming held 1 0).engine 0 1).holder = some 0 ∧ (bed.engine 0 0).holder = none ∧ (bed.engine 0 1).holder = none := by decide +kernel

theorem witness_SysWrite :
    [bed, bedW (fun w => { w with trap := { w.trap with tmode := true } }), bedW (fun w => { w with trap := { w.trap with rmode := true } })].all (fun s =>
      ([0x11, 0x3D, 0x41, 0x42, 0x43, 0x50, 0x51, 0x52, 0x53, 0x54, 0x74, 0x75, 0x76, 0x77, 0x78, 0x79, 0xB0, 0xB1, 0xC0, 0xFF, 0x00, 0x13F].all (fun n =>
        [95, 127].all (fun d : Code => s.clear { slot := 0x1F1, stall := 0, ok := sysAssigned n, dst := false, uses := [(d, 1)] })))) ∧
    ((streaming held 1 0).engine 0 1).holder = some bed.w.vat ∧ (bed.engine 0 1).holder ≠ some bed.w.vat := by decide +kernel

/-- Writes of RINGD3 that bind a busy engine's ring, that name a pointer beyond the last slot, and that are good; of barriers that
complete and that do not; of lane states where they may and may not be written. -/
theorem witness_SysWriteOwn :
    [0x80, 0x8F, 0x90, 0xAF, 0x70, 0x140, 0x14F, 0x3B, 0x38, 0x200, 0x2FF].all (fun n => [95, 127].all (fun d : Code =>
      bed.clear { slot := 0x1F1, stall := 0, ok := sysAssigned n, dst := false, uses := [(d, 1)] })) ∧
    (let s := streaming { held with busy := true, ring := 7 } 1 0
     (s.engine 0 1).holder = some s.w.vat ∧ (s.engine 0 1).busy = true ∧ (s.engine 0 1).ring.toNat = (0x8E - 0x80) / 2 ∧
     s.v.ringd.get 7 &&& 0xF800F800 = 0 ∧ s.v.ringd.get 7 >>> 52 = 0) ∧
    (let f (x : Word) (p k : Nat) : Nat := ((x ++ (0 : Word)).extractLsb' p k).toNat
     (f 0x00000040 38 2 ≠ 0 ∧ f 0x00000040 32 6 = 0) ∧ (f 0x00004001 32 6 = 1 ∧ f 0x00004001 46 6 = 1) ∧ f 0x00008001 32 6 < f 0x00008001 46 6) ∧
    (let y : Word := 0x00020001
     vbArrived y < vbExpect y ∧ vbExpect (0x00020002 : Word) ≤ vbArrived (0x00020002 : Word) ∧ vbExpect (0x00020002 : Word) ≠ 0 ∧ vbExpect (0x00000001 : Word) = 0) ∧
    (let s := withV (bedW (fun w => { w with hdep := 1, lstate := [(31, 1)] })) [(5, 0), (6, 4)]
     s.clear { slot := 0x1F1, stall := 0, ok := sysAssigned 0x3B, dst := false, uses := [(5, 1)] } = true ∧ (!s.w.saveRestore && (s.w.hdep != 0 || s.w.trap.tmode)) = true ∧
     s.w.async = [] ∧ s.v.trapWarp ≠ some s.cur ∧ inMask (s.w.clause.enabled &&& s.w.masks.lmask) 31 = true ∧ s.w.lstate.get 31 = 1 ∧
     (s.readOp 5 31).extractLsb' 0 3 = 0 ∧ (s.readOp 6 30).extractLsb' 0 3 = 4 ∧ s.w.lstate.get 30 = 0) := by decide +kernel

def trapping (code : CodeHeader → CodeHeader) (f : Warp → Warp) : State :=
  (bedL (fun l => { l with code := code l.code })).modW (fun w => f { w with clause := { w.clause with issue := 0xFF, enabled := 0x0F } })
def vectors (c : CodeHeader) : CodeHeader := { c with tvec := 0xC0, vvec := 0x100 }

theorem witness_Traps :
    [trapping vectors (fun w => { w with trap := { w.trap with tvmask := 1 } }), (trapping vectors id).modV (fun v => { v with vvmask := 1 }),
      trapping id id].all (fun s => s.clear { slot := 0x1F2, stall := 0, ok := decide ((126 : Code) ≤ 126) } && s.clear { slot := 0x1F4, stall := 0 } &&
        !s.w.saveRestore && s.w.replay.isNone && s.v.stop.isNone && s.v.trapWarp.isNone && !s.trappedElsewhere s.cur && s.fqRoom s.l.ctx && s.w.masks.lmask != 0 && !s.c.faulted && !s.c.resetting &&
        (s.vats.get s.w.vat).isSome && s.v.place != .gone && !s.w.trap.tmode && s.w.hdep == 0) ∧
    (let s := trapping vectors (fun w => { w with trap := { w.trap with tvmask := 1 } })
     s.l.code.tvec ≠ 0 ∧ s.w.trap.tvmask.getLsbD 0 = true ∧ (0x80 : BitVec 8) ≤ 0x80 + 126 ∧ (0x80 : BitVec 8) ≤ 0xFF) ∧
    (let s := (trapping vectors id).modV (fun v => { v with vvmask := 1 })
     s.w.trap.tvmask.getLsbD 0 = false ∧ s.l.code.vvec ≠ 0 ∧ s.v.vvmask.getLsbD 0 = true) ∧
    (let s := (trapping vectors id).modV (fun v => { v with trapWarp := some 1 })
     s.trappedElsewhere s.cur = true ∧ s.w.trap.tmode = false ∧ s.v.stop = none) ∧
    (let s := (trapping id id).modCtx 0 (fun c => { c with fqwi := 32 })
     s.fqRoom s.l.ctx = false ∧ s.trappedElsewhere s.cur = false ∧ s.c.faulted = false) := by decide +kernel

/-- A warp in its trap handler: the fault, the trapped lanes and how they go on. -/
def handling (rung : BitVec 3) (replay : Bool) (flm : Lanes) (resume : Resume) (idx : Nat) : State :=
  trapping vectors (fun w => { w with trap := { w.trap with
    tmode := true, tmsk := true, trpc := 0x84, trmask := 0xFF, frec := { (default : FaultRecord) with code := 0x0A, rung := rung, replay := replay, flm := flm, fpc := 0x84 },
    clause := { w.clause with idx := idx }, resume := resume, issue := 0xFF } })

theorem witness_Traps_return :
    [handling 0 false 1 .after 1, handling 0 false 1 .after 2, handling 0 true 1 .after 1, handling 1 false 1 .after 1].all (fun s =>
      let set := maskWhere (fun l => inMask s.w.trap.trmask l && inMask s.w.masks.lmask l && !inMask s.w.trap.lpcWritten l && (s.w.hdep != 0 || s.w.lstate.get l == 0))
      let past := maskWhere (fun l => inMask s.w.trap.trmask l && inMask s.w.masks.lmask l && !inMask s.w.trap.lpcWritten l &&
        (s.w.hdep != 0 || (s.skipPending s.cur s.w.trap.frec).w.lstate.get l == 0))
      past != 0 && ((if s.w.trap.frec.replay then s.w.trap.frec.flm else 0) ||| s.w.trap.frec.rest) == (if s.w.trap.frec.replay then 1 else 0) && s.w.lanesIn 1 != s.w.masks.lmask &&
      s.clear { slot := 0x1F3, stall := 0, legal := s.w.trap.tmode } && !s.w.saveRestore && set != 0 && s.w.trap.clause.rep.isNone && s.w.trap.frec.flm &&& set != 0 &&
      s.v.deferred.isEmpty && (s.locate s.cur s.w.trap.trpc 1 1).idx == 1) ∧
    (let s := handling 0 false 1 .after 1
     s.w.trap.clause.idx + s.wordLen 0 s.w.trap.clause ≤ hdrN s.w.trap.clause.word) ∧
    (let s := handling 0 false 1 .after 2
     hdrN s.w.trap.clause.word < s.w.trap.clause.idx + s.wordLen 0 s.w.trap.clause) ∧
    (let s := (handling 0 false 1 .again 1).modV (fun v => { v with vvmask := 0x400 })
     s.w.trap.resume ≠ .boundary ∧ s.l.code.vvec ≠ 0 ∧ s.v.vvmask.getLsbD s.w.trap.frec.code.toNat = true ∧ s.v.trapWarp = none ∧ s.w.masks.lmask ≠ 0 ∧
     s.clear { slot := 0x1F3, stall := 0, legal := s.w.trap.tmode } = true) ∧
    (let s := { bed with mem := putWords bed.mem [(0x10084, 4, 0x3F000350), (0x10088, 4, 0x00004103)] }
     let c := s.w.clause
     s.clear { slot := 0x1F8, stall := 0, ok := repOk (s.peek s.cur (c.pc + 4)).2 4 1 1 0 } = true ∧ s.w.replay = none ∧ c.rep = none ∧ c.idx + 1 ≤ hdrN c.word) := by
  decide +kernel

/-- A warp that waits, since time 0, in a vat whose rung takes every code; the last nanosecond before its time and the time. -/
def waiting (f : Warp → Warp) (now : Nat) : State :=
  { (trapping vectors f).modV (fun v => { v with vvmask := 0xFFFFFFFF }) with gtime := now }

theorem witness_Timeouts :
    [waiting id 0, waiting (fun w => { w with hold := .parked .stgnext }) 200000].all (fun s =>
      let w := s.warp 0
      (s.lot 0).code.vvec != 0 && s.v.vvmask.getLsbD 0x10 && s.v.vvmask.getLsbD 0x11 && s.v.trapWarp.isNone && !w.saveRestore && w.masks.lmask != 0 && s.v.stop.isNone &&
      !(w.trap.tmode && w.trap.frec.rung == 1) && w.onCore && (warpKeys 0 s.v).contains 0 && (warpKeys 0 s.v).all (fun j => decide (0 ≤ j))) ∧
    [Park.stgnext, .stgwl, .slot 7, .presence, .secfg 1, .acqa 1].all (fun p =>
      let w := ((waiting (fun w => { w with hold := .parked p }) 199999).warp 0)
      w.hold == .parked p && w.holdSince + 200000 == 200000) ∧
    (let s := waiting (fun w => { w with lstate := [(31, 2)], barSince := [(31, 7)], trap := { w.trap with tmode := true } }) 200007
     (∃ l ∈ lanesOf ((s.warp 0).lanesIn 2), (s.warp 0).barSince.get l + 200000 ≤ s.gtime) ∧ ¬ 200006 ≥ (s.warp 0).barSince.get 31 + 200000 ∧
     (s.warp 0).trap.tmode = true ∧ (s.warp 0).serviceWait = false ∧ (s.warp 0).faultPends = false ∧ (s.warp 0).saveRestore = false ∧ (s.warp 0).phase = .word ∧ (s.warp 0).hold = .free ∧
     (waiting (fun w => { w with phase := .boundary }) 0).w.phase ≠ .word ∧ (s.warp 0).evict = .running ∧ (s.warp 0).trap.frec.rung = 0 ∧ (s.warp 0).trap.offeredAt + 20000 ≤ s.gtime ∧
     19999 < (s.warp 0).trap.offeredAt + rungTimeout (s.warp 0).trap.frec.rung) ∧
    (let s := waiting (fun w => { w with swapFault := some default, evict := .saved }) 2000000
     (s.warp 0).trap.tmode = false ∧ (s.warp 0).swapFault.isSome = true ∧ (s.warp 0).serviceWait = false ∧ s.v.place = .resident ∧ (s.warp 0).evict ≠ .running ∧ (s.warp 0).evict ≠ .restore ∧
     s.overdueOp 0 = none ∧ (s.warp 0).trap.offeredAt + 2000000 ≤ s.gtime ∧ s.ctxs.get 0 ≠ none ∧ (s.ctx 0).part = (s.ctx (s.lot s.v.lot).ctx).part ∧ (s.ctx 0).resetting = false) ∧
    (let o : Op := { loading with work := .load [] [{ farLoad with key := 2 * 2 ^ 48 + 5 * 2 ^ 40 }] false 0 }
     let s := { waiting id 2000000 with ops := [(0, some o)], nextOp := 1 }
     (s.warp 0).trap.tmode = false ∧ (s.warp 0).swapFault = none ∧ s.v.stop = none ∧ (s.overdueOp 0).isSome = true ∧
     ({ s with gtime := 1999999 }).overdueOp 0 = none) ∧
    (let s := (waiting id 2000000).modV (fun v => { v with stop := some 0 })
     (s.vat 0).stop = some 0 ∧ 0 + 2000000 ≤ s.gtime ∧ (waiting id 0).v.stop = none) ∧
    (let s := waiting (fun w => { w with evict := .requested, phase := .boundary, trap := { w.trap with tmode := true } }) 20000
     (s.warp 0).saveRestore = false ∧ (s.warp 0).evict = .requested ∧ (s.warp 0).trap.tmode = true ∧ (s.warp 0).faultPends = false ∧ (s.warp 0).serviceWait = false ∧ (s.warp 0).phase ≠ .word ∧
     (s.warp 0).trap.offeredAt + rungTimeout (s.warp 0).trap.frec.rung ≤ s.gtime) ∧
    [fun w : Warp => { w with evict := .save }, fun w => { w with evict := .save, trap := { w.trap with smode := true } },
      fun w => { w with evict := .restore, trap := { w.trap with rmode := true } }].all (fun f =>
      let s := waiting f 2000000
      ((s.warp 0).evict == .save || ((s.warp 0).evict == .restore && (s.warp 0).trap.rmode)) && !(s.warp 0).faultWait &&
      decide ((s.warp 0).modeAt + 2000000 ≤ s.gtime) && s.v.stop.isNone && !(s.ctx (s.lot s.v.lot).ctx).resetting) = true := by decide +kernel

/-! Eviction. A warp in save mode, with k2 an address. -/

def saving (f : Warp → Warp) (va : BitVec 64) : State :=
  withK (bedW (fun w => f { w with evict := .save, trap := { w.trap with smode := true } })) [(98, va.setWidth 32), (99, va.extractLsb' 32 32)]
/-- A warp in restore mode, of a vat of which it alone was evicted, before a block of which all but the first byte is 0. -/
def restoring (va : BitVec 64) (first : Byte) : State :=
  let s := withK (bedW (fun w => { w with evict := .restore, trap := { w.trap with rmode := true } })) [(98, va.setWidth 32), (99, va.extractLsb' 32 32)]
  { s with mem := s.mem.set 0x20000 first }
/-- A drained warp, and one that still has a lane waiting for data. -/
def drained (f : Warp → Warp) : State :=
  (bedV (fun v => { v with image := some (0, v.imageBytes 1) })).modW (fun w => f { w with evict := .drain, evictReason := 2 })
/-- A code object at 0x10000 with one function, and an image header of version 4 at 0x100000. -/
def comingBack (version : Nat) : State :=
  let s := (bedL (fun l => { l with status := 2 })).modVat 0 (fun v => { v with
    place := .saved, image := some (0, 0x1000), imageWhole := true, regs := 31 })
  let s := s.modWarp 0 (fun w => { w with evict := .saved, resident := false })
  { s with mem := putWords s.mem [(0x10000, 4, 0x4E484C42), (0x10004, 4, 0x00000204), (0x10008, 4, 0x300), (0x1000C, 4, 1), (0x10010, 4, 0x100),
      (0x10040, 4, 0x200), (0x10044, 4, 0x100), (0x10100, 4, 0x200), (0x10108, 4, 1), (0x100004, 4, version)] }

theorem witness_SaveRestore_save :
    [BitVec.ofNat 64 windowBase, BitVec.ofNat 64 (windowBase + 14336), 0x20000].all (fun va =>
      let s := saving id va
      s.clear { slot := 0x1F5, stall := 0, ok := kPair 98, dst := false, uses := [(98, 2)], legal := true } && s.readPair 98 0 == va &&
      va.toNat % 2048 == 0 && !s.countFull .st && !s.acquiring && s.w.saveRestore &&
      (if inWindow va then decide (windowOff va + 2048 ≤ 1024 * s.v.scr) else (s.writePieces s.w.core s.l.ctx 40 (rangePieces va 2048) []).2.toOption.isSome)) ∧
    (let s := saving id 0x20800
     s.clear { slot := 0x1F5, stall := 0, legal := s.w.trap.smode } = true ∧ s.opsOf s.cur = [] ∧ s.v.stop = none ∧
     (s.modV (fun v => { v with stop := some 0 })).v.stop ≠ none) ∧
    (let s := { saving id 0x20800 with ops := [(0, some { loading with warp := 0 })], nextOp := 1 }
     s.clear { slot := 0x1F5, stall := 0, legal := s.w.trap.smode } = true ∧ s.opsOf s.cur ≠ []) ∧
    (saving id 0x20400).clear { slot := 0x1F5, stall := 0, ok := kPair 98, dst := false, uses := [(98, 2)], legal := true } = true ∧
    ((saving id 0x20400).readPair 98 0).toNat % 2048 ≠ 0 := by decide +kernel

theorem witness_SaveRestore_load :
    [(1, true), (2, false)].all (fun e : Byte × Bool =>
      let s := restoring 0x20000 e.1
      let va := s.readPair 98 0
      s.clear { slot := 0x1F6, stall := 0, ok := kPair 98, dst := false, uses := [(98, 2)], legal := s.w.trap.rmode } &&
      va.toNat % 2048 == 0 && !s.imageWaits va 2048 && !s.rangeAbsent va 2048 &&
      (match (s.readImage va 2048).2 with | .ok bs => blockOk bs == e.2 | .error _ => false) &&
      !s.v.imageWhole && s.w.swapFault.isNone && s.w.away == 0 && s.v.deferred.isEmpty) ∧
    ((restoring 0x20400 1).readPair 98 0).toNat % 2048 ≠ 0 := by decide +kernel

/-- The drained warp as it is about to be saved, and what the save area's header then leaves. -/
def saveBegun : State := (drained id).setWarp 0 { (drained id).warp 0 with evict := .save }
def headed : State := { saveBegun with
  mem := [(0x1000, 1), (0x1001, 0x20), (0x2000, 1), (0x2001, 0x30), (0x3000, 0xF), (0x10080, 2), (0x100040, 1)],
  tlb := [(260, [⟨0, 0, 30, 0xF⟩]), (516, [⟨0, 0, 39, 0x3001⟩, ⟨0, 0, 48, 0x2001⟩])], lineKey := [(8192, .plain), (8193, .plain)] }

theorem saveBegun_header : saveBegun.saveHeader 0 = (headed, none) := by
  refine Prod.ext ?_ ?_ <;> decide +kernel

theorem headed_writes :
    (headed.agentWrites 0 [(saveBegun.imageVa 0, headed.imageHeader 0), (saveBegun.imageVa 0 + 0x800, headed.controlBlock 0)]).2 = none := by decide +kernel

theorem witness_SaveRestore_drain :
    (let s := drained (fun w => { w with lstate := [(31, 3)] })
     (s.warp 0).evict ≠ .requested ∧ (s.warp 0).lanesIn 3 ≠ 0) ∧
    (let s := drained id
     let w := s.warp 0
     let y := s.vat w.vat
     w.evict = .drain ∧ s.count 0 .ld = 0 ∧ s.count 0 .st = 0 ∧ s.count 0 .at = 0 ∧ w.lanesIn 3 = 0 ∧ y.imageWhole = false ∧
     w.vat = 0 ∧ w.num = 0 ∧ (s.lot y.lot).ctx = 0 ∧ (s.setWarp 0 { w with evict := .save, modeAt := s.gtime }).resizeImage w.vat = some saveBegun) ∧
    (let s := (drained (fun w => { w with outside := some default })).modVat 0 (fun v => { v with scr := 128 })
     let w := s.warp 0
     (s.setWarp 0 { w with evict := .save, modeAt := s.gtime }).resizeImage w.vat = none ∧ w.outside.isSome = true ∧ w.evict = .drain) ∧
    (saveBegun.saveHeader 0).2 = none ∧
    ((saveBegun.saveHeader 0).1.agentWrites 0 [(saveBegun.imageVa 0, (saveBegun.saveHeader 0).1.imageHeader 0),
      (saveBegun.imageVa 0 + BitVec.ofNat 64 (0x800 + 2048 * 0), (saveBegun.saveHeader 0).1.controlBlock 0)]).2 = none := by
  rw [saveBegun_header]
  exact ⟨by decide +kernel, by decide +kernel, by decide +kernel, rfl, headed_writes⟩

theorem witness_SaveRestore_return :
    [(0x00000204, true), (0x00000205, false), (0x00000304, false)].all (fun e =>
      let s := comingBack e.1
      let v := s.vat 0
      (s.vats.get 0).isSome && s.mayReturn 0 && !(s.returnWaits 0) && !(s.mayReturnPart 0) && (s.placeFor v.lot v.need).isSome && ((match (s.restoreFault 0).2 with | .ok none => true | _ => false) == e.2) &&
      !(s.ctx (s.lot v.lot).ctx).faulted && (warpKeys 0 v).all (fun i => (s.warp i).vat == 0)) ∧
    bed.mayReturn 0 = false ∧ bed.mayReturnPart 0 = false := by decide +kernel

/-- A lot of higher PRIO that fits is served first. -/
theorem witness_SaveRestore_waits :
    (let s := comingBack 0x00000204
     let l := s.lot 0
     State.returnWaits (s.setLot 1 { l with phase := .running, status := 0, nextVat := 0, record := { l.record with prio := 3, gx := 1, gy := 1, gz := 1 } }) 0) = true := by
  decide +kernel
/-! Lake engines. Engine 0 with a command under way, of one row of 32 bytes at 0x20000, an input of 16 bytes at 0x20040 and an output of
128 bytes at 0x20080. -/

def lakeBytes (scale exoff : Nat) : List Byte :=
  natToBytes 4 0x10000 ++ natToBytes 4 32 ++ natToBytes 8 0x20000 ++ natToBytes 4 0 ++ natToBytes 4 16 ++ natToBytes 8 0x20040 ++
    natToBytes 8 0x20080 ++ natToBytes 4 128 ++ natToBytes 4 scale ++ natToBytes 4 exoff ++ List.replicate 12 0
def lakeEntry (job : LakeJob) : LakeEntry := { job := job, op := 0, warp := 0, ctx := 0, after := [] }
def laked (run : Option LakeCommand) (jobs : List LakeJob) : State :=
  let s := bedOps [{ (default : Op) with cls := .bk, work := .lake 0 true }]
  { s with lake := s.lake.set 0 { program := [], queue := jobs.map lakeEntry, run := run } }
def lakeRun : LakeCommand :=
  { LakeCommand.fresh 3 0 [] with blocks := [(0x200, some (0x20000, 0))], wl := List.replicate 4 0x11, lr := 255, lcol := 64, ib := [1, 2, 3] }

/-- A running command, with a format of each sort: an 8-bit and a 4-bit float, the integers, the 16-bit floats, one with scale exponents. -/
theorem witness_LakeWords :
    [(0x30, 0, 8), (0x11, 1, 4), (0x02, 2, 8), (0x03, 3, 4), (0x84, 4, 16), (0x85, 5, 16), (0x830, 0, 8)].all (fun e : Word × Nat × Nat =>
      let s := laked (some lakeRun) [.command (lakeBytes 0 0) e.1]
      let w := e.2.2
      slKind e.1 == e.2.1 && slWidth e.1 == w && (s.eng s.curEng).run == some lakeRun &&
      (s.eng s.curEng).queue == [lakeEntry (.command (lakeBytes 0 0) e.1)] && lakeRun.status.isNone &&
      lakeRun.wl.length != 0 && lakeRun.lcol.toNat % (4 * w) == 0 &&
      decide (lakeRun.ibb.toNat ≤ lakeRun.lcol.toNat) && decide (lakeRun.lcol.toNat + lakeRun.wl.length ≤ lakeRun.ibb.toNat + 4096)) ∧
    ((slScl 0x830 = 2 ∧ slScl 0x30 ≠ 2) ∧ slIsInt 0x02 = true ∧ slIsInt 0x30 = false) ∧
    (let s := laked (some lakeRun) [.command (lakeBytes 0 0) 0x30]
     let r := lakeRec (lakeBytes 0 0)
     let c := lakeRun
     (s.outputsHeld s.curEng = false ∧ c.cc.toNat % 16 = 0 ∧ (List.range 16).all (fun i => !s.poisoned (c.place (r.inva + BitVec.ofNat 64 i).toNat).1) = true) ∧
     (c.rc.toNat < r.nrow ∧ c.cc.toNat + 32 ≤ r.rlen ∧ r.rlen < c.cc.toNat + 33 ∧
       (List.range 32).all (fun i => !s.poisoned (c.place (r.rowva + BitVec.ofNat 64 i).toNat).1) = true) ∧
     r.nrow ≤ { c with rc := 1 }.rc.toNat ∧ { c with cc := 8 }.cc.toNat % 16 ≠ 0 ∧
     c.oc.toNat + 64 * (1 + 1) ≤ r.olen ∧ r.olen < c.oc.toNat + 64 * (2 + 1) ∧
     (let u := { s with poison := [(0x400, 8)] }
      u.poisoned (c.place r.rowva.toNat).1 = true ∧ (c.blocks.get (r.rowva.toNat / 256)).isSome = true) ∧
     c.lc0 = 0 ∧ { c with lc0 := 1 }.lc0 = 1 ∧ 2 ≤ ({ c with lc0 := 2 } : LakeCommand).lc0.toNat) := by decide +kernel

/-- k2 an address, k4 an engine, k5 the words of a program and where they go; a Lake operation's record at the address. -/
def lakeAsk (s : State) (a e n : Word) : State := withK s [(98, a), (99, 0), (100, e), (101, n)]

theorem witness_LakeCommands_issue :
    [(0, 1), (95, 0x03FF0001)].all (fun e : Word × Word =>
      let s := lakeAsk bed 0x20000 e.1 e.2
      let va := s.readPair 98 0
      s.clear { slot := 0x1C0, stall := 0, ok := kPair 98 && isK 100 && isK 101, dst := false, uses := [(98, 2), (100, 1), (101, 1)] } &&
      s.clear { slot := 0x1C1, stall := 0, ok := kPair 98 && isK 100, dst := false, uses := [(98, 2), (100, 1)] } &&
      (let x := s.readK 101
       (x.extractLsb' 0 11).toNat != 0 && decide ((x.extractLsb' 16 10).toNat + (x.extractLsb' 0 11).toNat ≤ 1024) && x &&& 0xFC00F800 == 0) &&
      (s.readK 100).toNat == 256 * 0 + e.1.toNat && decide (e.1.toNat < 96) && (s.part s.c.part).ldt.contains 0 &&
      va.toNat % 64 == 0 && !s.dieGone 0 && !s.badWindow va 64 && !s.countFull .bk && !s.acquiring && !s.imageWaits va 64 && !s.imageWaits va 4 && !s.rangeAbsent va 64 &&
      (s.readImage va 64).2.toOption.isSome && (s.readImage va 4).2.toOption.isSome) ∧
    ((lakeAsk bed 0x20000 96 0x04000001).readK 100).toNat = 96 ∧ (0x04000001 : Word) &&& 0xFC00F800 ≠ 0 ∧
    (0x03FF0002 : Word).extractLsb' 16 10 + 2 = (1 : BitVec 10) ∧
    ((lakeAsk bed 0x20002 0 1).readPair 98 0).toNat % 4 ≠ 0 ∧
    (let s := (lakeAsk bed 0x20000 0x300 1).modPart 0 (fun p => { p with ldt := [0, 3] })
     let s := s.modDie 3 (fun d => { d with state := .lost })
     (s.readK 100).toNat = 256 * 3 + 0 ∧ 3 ∈ (s.part s.c.part).ldt ∧ s.dieGone 3 = true) ∧
    bed.clear { slot := 0x1C2, stall := 0 } = true := by decide +kernel

theorem witness_LakeCommands_run :
    (bed.lakeStarts 0 (bed.eng 0) = false) ∧
    (let s := laked none [.program 1023 [7]]
     s.lakeStarts 0 (s.eng 0) = true ∧ (s.op 0).map (·.warp) = some 0 ∧ (s.warp 0).masks.lmask ≠ 0 ∧ s.ops.wf = true) ∧
    (let r (bs : List Byte) (slot : Word) := (lakeRec bs).invalid slot
     r (lakeBytes 0 32) 0x830 = true ∧ r (lakeBytes 0 31) 0x830 = false ∧ r (lakeBytes 0 0) 0x30 = false) ∧
    (let s := laked none [.command (lakeBytes 0 0) 0x30]
     let u := { s with lake := [(32, s.eng 0)] }
     s.lakeStarts 0 (s.eng 0) = true ∧ (s.lakeBlocks 0 0 (lakeRec (lakeBytes 0 0))).fail = some (3, 0x20000) ∧
     u.lakeStarts 32 (u.eng 32) = true ∧ (u.lakeBlocks 32 0 (lakeRec (lakeBytes 0 0))).fail = none ∧ (s.lakeBlocks 0 0 (lakeRec (lakeBytes 0 0))).held = false ∧
     (let z := u.lakeBlocks 32 0 (lakeRec (lakeBytes 0 0))
      z.s.ackSilent (32 / 96) (({ (default : LakeCommand) with blocks := z.blocks }).outKeys (lakeRec (lakeBytes 0 0))) = false)) ∧
    (let s := { laked (some lakeRun) [.command (lakeBytes 0 0) 0x30] with gtime := 10000000 }
     (s.eng 0).run = some lakeRun ∧ lakeRun.status = none ∧ lakeRun.startedAt + 10000000 ≤ s.gtime ∧ 9999999 < lakeRun.startedAt + 10000000 ∧
     (bed.eng 0).run = none ∧ (let u : State := { s with curEng := 0 }; (u.fetchLake = none)) ∧
     (let u := s.modEng 0 (fun g => { g with program := [(3, some (0, 0x44000000))] }); ({ u with curEng := 0 } : State).fetchLake = some .halt)) ∧
    [0x00, 0x09, 0x0B, 0xFF].all (fun code =>
      let y := { lakeRun with status := some code }
      let s := laked (some y) [.command (lakeBytes 0 0) 0x30]
      (s.eng 0).run == some y && !s.lakeHeldFor 0 y.outputs 0 && (s.eng 0).queue.length == 1 && (s.op 0).isSome && (s.op 0).all (fun o => o.owed == 0 && o.warp == 0) && ((s.opsOf 0).filter (fun q => decide (q.2.cls = .bk))).map (·.1) == [0] &&
      (s.warp 0).masks.lmask != 0 && (s.vat 0).stop.isNone) := by decide +kernel
/-! From a queue to a core. A queue whose next record, at 0x20000, is of one vat of one warp, with the code object at 0x10000. -/

def codeWords : List (Nat × Nat × Nat) :=
  [(0x10000, 4, 0x4E484C42), (0x10004, 4, 0x00000204), (0x10008, 4, 0x300), (0x1000C, 4, 1), (0x10010, 4, 0x100),
   (0x10040, 4, 0x200), (0x10044, 4, 0x100), (0x10100, 4, 0x200), (0x10108, 4, 1)]
def recordWords (l : List (Nat × Nat)) : List (Nat × Nat × Nat) := l.map (fun e => (0x20000 + e.1, 4, e.2))
def goodRecord : List (Nat × Nat) := [(0, 1), (8, 0x10000), (0x14, 1), (0x20, 1), (0x24, 1), (0x28, 1), (0x30, 0x30000)] ++ (List.range 8).map (fun i => (0x60 + 4 * i, 0x30))
def aQueue : Queue := { wi := 17, ri := 16, base := 0x20, log2n := 0, err := false, en := true }
def queued (ws : List (Nat × Nat)) : State :=
  let s := bedC (fun c => { c with queues := [(15, aQueue)] })
  { s with mem := putWords [] (placedWords 0 ++ codeWords ++ recordWords ws) }
/-- Half the memory lies at a SILENT die 3, with a table at 0x30000 that translates from 2^48. -/
def silenced (s : State) : State :=
  let s := (s.modPart 0 (fun p => { p with ldt := [0, 3] })).modDie 3 (fun d => { d with state := .silent })
  { s with mem := putWords s.mem [(0x1008, 8, 0x30001)] }
def gated (flags : BitVec 16) (f : Lot → Lot) : State :=
  bedL (fun l => f { l with phase := .gated, record := { l.record with flags := flags, wsemva := 0x20000, wsemval := 1, cplva := 0x30000 } })

theorem witness_LotAcceptance_record :
    [(goodRecord, 0, 0), ((8, 0x10010) :: goodRecord, 0, 6), ((0x14, 33) :: goodRecord, 0, 3), ((0x14, 0) :: goodRecord, 0, 3), ((0, 2) :: goodRecord, 0, 1),
      ((0x5C, 1) :: goodRecord, 0, 2), ((0x18, 257) :: goodRecord, 0, 4), ((0x28, 0) :: goodRecord, 0, 5), ((0x30, 0x30040) :: goodRecord, 64, 0)].all
      (fun e : List (Nat × Nat) × Nat × BitVec 8 =>
        let s := queued e.1.reverse
        let c := s.ctx 0
        let d := c.queues.get 15
        let bs := s.takeRecord 0 15
        let r := lotRecord bs
        let u := s.modCtx 0 (fun c => { c with queues := c.queues.modify 15 (fun d => { d with ri := d.ri + 1, shots := d.shots.set d.ri.toNat [] }) })
        let x := u.launchXlat 0 r.cplva .write 400
        let k := x.1.checkLot 0 r bs
        !s.physHeld 0 0x20000 256 && (s.hub.devst == .ready) && (s.ctxs.get 0).isSome && d.en && d.ri != d.wi && !c.faulted && !c.resetting && !s.gatedLot 0 15 &&
        r.cplva.toNat % 128 == e.2.1 &&
        (e.2.1 != 0 || ((match x.2 with | .ok _ _ _ => true | _ => false) && k.2.map (·.1) == some e.2.2 && (e.2.2 != 0 || !k.1.tooLarge 0 r)))) = true := by
  decide +kernel

/-- The address of the completion record has no translation, or its walk waits for a SILENT die, or the code object lies there. -/
theorem witness_LotAcceptance_held :
    [(queued ((0x34, 512) :: goodRecord).reverse, 0), (silenced (queued ((0x34, 0x10000) :: goodRecord).reverse), 1), (silenced (queued goodRecord), 2)].all
      (fun e : State × Nat =>
        let s := e.1
        let c := s.ctx 0
        let d := c.queues.get 15
        let bs := s.takeRecord 0 15
        let r := lotRecord bs
        let u := s.modCtx 0 (fun c => { c with queues := c.queues.modify 15 (fun d => { d with ri := d.ri + 1, shots := d.shots.set d.ri.toNat [] }) })
        let x := u.launchXlat 0 (if e.2 == 2 then 0x40000 else r.cplva) .write 400
        !s.physHeld 0 0x20000 256 && (s.hub.devst == .ready) && (s.ctxs.get 0).isSome && d.en && d.ri != d.wi && !c.faulted && !c.resetting && !s.gatedLot 0 15 &&
        r.cplva.toNat % 128 == 0 && (match x.2 with
          | .fault _ _ => e.2 == 0
          | .held => e.2 == 1
          | .ok _ _ _ => e.2 == 2 && (x.1.checkLot 0 r bs).2.isNone
          | .lost _ => false)) = true := by decide +kernel

theorem witness_LotAcceptance_gates :
    (let s := bedC (fun c => { c with queues := [(15, { aQueue with shots := [(16, List.replicate 256 1)] })] })
     let d := (s.ctx 0).queues.get 15
     (d.shots.get d.ri.toNat).length = 256 ∧ d.shots.get d.ri.toNat ≠ s.physRead 0 (d.base.toNat * 4096) 256 ∧ d.en = true) ∧
    (decide (bed.hub.devst = .ready) && (bed.ctxs.get 0).isSome) = true ∧
    (gated 0 id).gatedLot 0 0 = true ∧
    (let s := gated 0x10 id
     let l := s.lot 0
     (s.lots.get 0).isSome = true ∧ l.phase = .gated ∧ l.record.flags.getLsbD 4 = true ∧ l.waitMet = false ∧ (s.ctx l.ctx).faulted = false ∧
     (match (s.launchLook l.ctx l.record.wsemva 500).2 with | .ok _ _ _ => true | _ => false) = true ∧ s.lots.wf = true) ∧
    (let s := gated 0x10 (fun l => { l with record := { l.record with wsemva := 2 ^ 41 } })
     (match (s.launchLook 0 (s.lot 0).record.wsemva 500).2 with | .fault _ _ => true | _ => false) = true) ∧
    (let s := silenced (gated 0x10 (fun l => { l with record := { l.record with wsemva := 0x10000 } }))
     (match (s.launchLook 0 (s.lot 0).record.wsemva 500).2 with | .held => true | _ => false) = true) ∧
    (let s := gated 0x18 (fun l => { l with waitMet := true })
     let l := s.lot 0
     (s.lots.get 0).isSome = true ∧ l.phase = .gated ∧ l.status = 0 ∧ l.waitMet = true ∧ l.record.flags.getLsbD 3 = true ∧ (∀ k < 0, (s.lot k).phase = .complete) ∧
     (s.ctx l.ctx).faulted = false ∧ s.lots.wf = true) := by decide +kernel

/-- A lot with vats still to place on empty cores. -/
def placing (flags : BitVec 16) (regs : Nat) : State :=
  let s := bedL (fun l => { l with nextVat := 0, record := { l.record with flags := flags, regs := regs, gx := 2, nvec := 2 } })
  { s with vats := [], warps := [] }
def leavingVat (f : Warp → Warp) : State := bedW (fun w => f { w with masks := { w.masks with amask := 0, lmask := 0 } })
/-- A lot that has nothing left to run. -/
def finished (status : BitVec 8) (cplva : BitVec 64) : State :=
  let s := bedL (fun l => { l with status := status, record := { l.record with cplva := cplva, flags := 0x40 } })
  { s with vats := [], warps := [] }

theorem witness_VatsAndLots :
    [0, 1].all (fun flags =>
      let s := placing flags 31
      s.placing 0 && !s.servedFirst 0 && decide ((s.lot 0).record.nvec + (s.lot 0).record.nmat ≤ 32) && (s.lot 0).record.flags.getLsbD 0 == (flags == 1) &&
      (chooseCore (s.lot 0).record.need (s.ringStart 0) (s.candidates (s.placeDies 0))).isSome && (s.cohabAll 0).isSome) ∧
    (let s := { placing 0 31 with dies := [] }
     s.placing 0 = true ∧ s.servedFirst 0 = false ∧ (s.candidates (s.placeDies 0)).all (fun y => (y.2.fits (s.lot 0).record.need).isNone) = true ∧ s.cohabAll 0 = none) ∧
    bed.placing 0 = false ∧ bed.mayLeave 0 = false ∧ (leavingVat id).mayLeave 0 = true ∧ bed.lotOver 0 = false ∧
    (let s := finished 0 0x30000
     s.lotOver 0 = true ∧ (s.lot 0).status = 0 ∧ (s.lot 0).record.flags.getLsbD 5 = false ∧ (s.lot 0).tacc < 2 ^ 64 ∧ (s.lot 0).vatsDone < 2 ^ 32 ∧
     s.postedBehind (s.lot 0).ctx = false ∧
     (match (s.launchXlat (s.lot 0).ctx (s.lot 0).record.cplva .write 480).2 with | .ok pa _ _ => !s.ackSilent hubDie [s.memKey 0 pa] | _ => false) = true) ∧
    (let s := silenced (finished 0 (2 ^ 48))
     s.lotOver 0 = true ∧ (match (s.launchXlat (s.lot 0).ctx (s.lot 0).record.cplva .write 480).2 with | .held => true | _ => false) = true) ∧
    (let s := finished 0 (2 ^ 41)
     (match (s.launchXlat (s.lot 0).ctx (s.lot 0).record.cplva .write 480).2 with | .fault _ _ => true | _ => false) = true) ∧
    (finished 1 0x30000).lotOver 0 = true ∧ ((finished 1 0x30000).lot 0).status ≠ 0 := by decide +kernel
/-! Driver commands. A command at 0x20000 of partition 0's ring, and the descriptor of CTXNEW at 0x30000. -/

def commanded (op ctx va : Nat) (desc : List (Nat × Nat × Nat)) (f : Context → Context) : State :=
  let s := (bedC f).modPart 0 (fun p => { p with dcdesc := { wi := 1, ri := 0, base := 0x20, log2n := 12, err := false, en := true } })
  { s with mem := putWords [] (placedWords 0 ++ [(0x20000, 4, op + 2 ^ 16 * ctx), (0x20008, 4, va)] ++ desc) }

theorem witness_DriverCommands :
    [(0, 0), (5, 0), (255, 0), (1, 512), (2, 512), (3, 65535), (4, 512), (2, 1), (3, 511), (4, 1), (1, 0), (1, 511), (2, 0), (3, 0), (4, 0)].all (fun e : Nat × Nat =>
      let s := commanded e.1 e.2 0x30000 [] id
      let p := s.part 0
      let d := p.dcdesc
      let bs := s.physRead 0 (d.base.toNat * 4096 + 64 * (d.ri.toNat % 2 ^ (d.log2n.toNat + 4))) 64
      !s.physHeld 0 0x20000 64 && !s.physHeld 0 0x30000 256 && s.hub.devst == .ready && d.en && d.ri != d.wi && p.command.isNone && (bs.headD 0).toNat == e.1 && word bs 0 / 2 ^ 16 == e.2 &&
      ((s.ctxs.get e.2).isSome && (s.ctx e.2).part == 0) == (e.2 == 0)) = true := by decide +kernel

theorem witness_DriverCommands_ctxnew :
    [(0, 0), (0x30, 1), (0x20, 4096)].all (fun e : Nat × Nat =>
      let s := commanded 1 511 0x30000 [(0x30000 + e.1, 4, e.2), (0x30000, 4, if e.1 = 0 then 0x1000 else 0)] id
      let va := dwordAt (s.physRead 0 0x20000 64) 8
      let x := s.physRead 0 va.toNat 256
      va == 0x30000 && (s.ctxs.get 511).isNone &&
      ((va.toNat % 256 == 0 && (x.drop 0x30).all (· == 0) && (dwordAt x 8).toNat % 65536 == 0 && (dwordAt x 0x10).toNat % 4096 == 0 &&
        (dwordAt x 0x20).toNat % 65536 == 0) == (e.2 == 0))) = true := by decide +kernel

theorem witness_DriverCommands_ends :
    (let s := commanded 4 0 0 [] (fun c => { c with queues := [(3, aQueue)] })
     ((s.ctx 0).queues.get 3).en = true ∧ (silenced s).physHeld 0 0x10000 64 = true) ∧
    (let s := { commanded 4 0 0 [] id with lots := [(0, some { placedLot with phase := .complete })] }
     (∀ e ∈ (s.ctx 0).queues, e.2.en = false) ∧ s.lotsOf 0 (· != .complete) = []) ∧
    (let s := commanded 2 0 0 [] id
     s.lots.wf = true ∧ s.vats.wf = true ∧ (s.part 0).command = none) ∧
    (let y : DriverCommand := { op := 3, pa := 0, ctx := 0, va := 0, pages := 1, before := 1, lw := [] }
     let z : DriverCommand := { y with op := 2 }
     let s := bedOps [{ loading with work := .load [] [default] false 0 }]
     bed.translatedDone y = true ∧ s.translatedDone y = false ∧ bed.translatedDone z = true ∧ bed.resetOver 0 = false ∧
     ({ bed with vats := [], lots := [] } : State).resetOver 0 = true ∧ ((bed.modPart 0 (fun p => { p with command := some y })).part 0).command = some y) := by
  decide +kernel

/-- A context with an outstanding record of its vat, or of a die's overflow refill. -/
def serving (refill : Option Nat) (f : Warp → Warp) : State :=
  (bedC (fun c => { c with services := [{ (default : Service) with seq := 7, refill := refill }], refillStopped := 2 })).modW f

theorem witness_FaultAnswers :
    [none, some 1].all (fun r =>
      let s := serving r id
      let c := s.ctx 0
      (s.hub.devst == .ready) && (s.ctxs.get 0).isSome && !c.faulted && !c.resetting && s.vats.wf &&
      (match c.services.find? (fun x => x.seq == 7) with
        | some x => x.refill == r && (s.vat x.vat).place != .gone && (s.vat x.vat).stop.isNone && !(s.warp x.warp).serviceWait && (s.lot x.lot).status == 0
        | none => false)) ∧
    (let s := serving none (fun w => { w with serviceWait := true, swapFault := some default })
     (s.warp 0).serviceWait = true ∧ (s.warp 0).onCore = true ∧ (s.warp 0).swapFault = some default) ∧
    (∀ x ∈ (serving none id).c.services, x.seq ≠ 8) := by decide +kernel
/-! The management plane and the dies. -/

/-- A manifest with dies 0 and 1 present in one partition, and with the other two in a second. -/
def aManifest (present : List Nat) : Manifest :=
  { (default : Manifest) with
    parts := [[0, 1], [2, 3]], launchProcs := [1, 1], devnum := 9, routes := [(2, 5)],
    cores := present.flatMap (fun d => (List.range 44).map (fun i => (d, i % 8, i / 8))) }
def aBoot (f : Boot → Boot) : Boot :=
  f { fetchOk := true, imageSigOk := true, memoryOk := true, manifestSigOk := true, minor := 2, microcode := 0, stageDigests := [7], manifest := aManifest [0, 2] }

theorem witness_Management :
    manifestOk (aManifest [0, 2]) = true ∧ manifestOk (aManifest [0]) = false ∧
    [aBoot id, aBoot (fun b => { b with fetchOk := false }), aBoot (fun b => { b with imageSigOk := false }), aBoot (fun b => { b with memoryOk := false }),
      aBoot (fun b => { b with manifestSigOk := false }), aBoot (fun b => { b with manifest := aManifest [0] })].length = 6 ∧
    (bed.hub.devst = .ready ∧ (bed.part 0).ldt ≠ [] ∧ (bed.part 1).ldt = [] ∧ bed.hub.featFrozen = false ∧ bed.lineSlot.wf = true ∧
      bed.lineSlot.get 5 ≠ (1 : BitVec 10) ∧ bed.ctxIn 0 0 = true ∧ (∀ e ∈ bed.ctxs, ∀ c ∈ e.2, c.part = 0)) ∧
    ((bed.die 0).part = 0 ∧ (bed.die 0).state ≠ .absent) ∧
    (bedC (fun c => { c with lwdesc := [(7, lwMask)] })).c.lwdesc.get 7 &&& ~~~ lwMask = 0 ∧ (bedC id).c.lwOld.get 7 = none ∧
    (let s : State := { bed with hub := { bed.hub with devst := .failed, devCode := 2, retryAt := 5 }, gtime := 10000000005 }
     s.hub.devst = .failed ∧ s.hub.devCode = 2 ∧ s.hub.retryAt + 10000000000 ≤ s.gtime ∧ 10000000004 < s.hub.retryAt + 10000000000) ∧
    (bed.gtime < 10000 * (bed.hub.periods + 1) ∧ 10000 * (bed.hub.periods + 1) ≤ ({ bed with gtime := 10000 } : State).gtime) ∧
    (∃ r ∈ [(2, 5)], r.1 = 2 ∧ (r.2, 0) ∈ [(5, 0)]) ∧ bed.hub.featacc.getLsbD 10 = true := by decide +kernel

def died (d : Nat) (f : Die → Die) : State := bed.modDie d f
def aPacket : Packet := { src := 0, inc := 0, dst := 1, part := 0, payload := .other }

/-- Dies in each state; a silent die just before its time and at it; packets from each kind of source to each kind of destination; a store
whose acknowledgements are late. -/
theorem witness_DieStates :
    (let s := { died 0 (fun d => { d with state := .silent, silentAt := 7 }) with gtime := 10007 }
     let late (s : State) (now : Nat) : Prop := (s.die 0).state = .silent ∧ (s.die 0).silentAt + 1000 * max 10 s.hub.dlto.toNat ≤ now
     (s.die 0).state = .silent ∧ s.hub.held.filter (fun p => p.dst == 0) = [] ∧ s.posted.isEmpty = true ∧ late { s with hub := { s.hub with dlto := 10 } } 10007 ∧
     ¬ late { s with hub := { s.hub with dlto := 10 } } 10006) ∧
    ((bed.die 0).state = .live ∧ (bed.die 1).state = .absent ∧ bed.ctxs.get 0 ≠ none ∧ bed.c.tdmask &&& 1 ≠ 0 ∧ bed.c.resetting = false ∧
      bed.v.place = .resident ∧ (1 : BitVec 4).getLsbD (bed.v.core / 44) = true) ∧
    (bed.gtime < 1000 * (bed.hub.intervals + 1) ∧ 1000 * (bed.hub.intervals + 1) ≤ ({ bed with gtime := 1000 } : State).gtime) ∧
    (max 1 (16 : BitVec 8).toNat ≤ (if ({ (default : Die) with missed := 15 }).flit then 0 else 15 + 1)) ∧
    (died 0 (fun d => { d with state := .lost })).die 0 ≠ bed.die 0 ∧ ((died 0 (fun d => { d with state := .resetting })).die 0).state = .resetting ∧
    (let s := died 1 (fun d => { d with state := .live })
     let p := aPacket
     p.src < 4 ∧ (s.die p.src).state ≠ .absent ∧ p.dst < 4 ∧ p.dst = (p.src + 1) % 4 ∧ s.hub.rerouted = [] ∧ p.part = (s.die p.src).part ∧
     (s.die p.dst).part = p.part ∧ (s.die p.dst).state = .live ∧ s.hub.incCopies.get (4 * p.dst + p.src) - p.inc = 0 ∧
     s.hub.incCopies.get (4 * p.dst + p.src) - { p with inc := 128 }.inc = 128 ∧ s.hub.incCopies.get (4 * p.dst + p.src) - { p with inc := 127 }.inc = 129) ∧
    (bed.die aPacket.dst).state = .absent ∧ { aPacket with part := 1 }.part ≠ (bed.die 0).part ∧
    ((died 1 (fun d => { d with state := .silent })).die 1).state = .silent ∧ ((died 0 (fun d => { d with state := .lost })).die 0).state = .lost ∧
    ((bedOps [{ pendingStore with owed := 1 }]).op 0).map (fun o => o.owed.getLsbD 0) = some true ∧
    (bed.homeOfKey (128 * 0x400) ≠ none ∧ bed.homeOfKey (2 ^ 51) = none) ∧
    bed.liveWarp 0 = some 0 := by decide +kernel

theorem witness_DieStates_ackto :
    (let s := { (bedOps [{ pendingStore with owed := 1 }]).modDie 1 (fun d => { d with state := .live }) with gtime := 50000 }
     (s.op 0).map (fun y => (y.work, y.complete, y.release, y.owed != 0)) = some (.store true [{ key := 0, val := 1, slot := 0 }], false, false, true) ∧
     (∃ y ∈ s.op 0, y.issuedAt + 1000 * max 5 (s.part (s.ctx y.ctx).part).ackto.toNat ≤ s.gtime ∧
       49999 < y.issuedAt + 1000 * max 5 (s.part (s.ctx y.ctx).part).ackto.toNat ∧ (s.pushEarlier 0 y).coReady 0 y = true ∧ (s.vat (s.warp y.warp).vat).stop = none ∧
       (s.ctx (s.ctxOf y.warp)).faulted = false ∧ (s.ctx (s.ctxOf y.warp)).resetting = false) ∧
     ∃ o ∈ s.op 0, 0 ∈ o.work.writeKeys) := by decide +kernel

/-- A partition whose fault is worked on since 3 ns, with a die it took down. -/
def runged (now : Nat) (x : DieState) (faulted : Bool) : State :=
  { ((bedC (fun c => { c with faulted := faulted })).modDie 0 (fun d => { d with state := x })).modPart 0
      (fun p => { p with rungAt := some 3, rungDies := 1 }) with gtime := now }

/-- The partition rung done, not done before and at its 20 ms; the links of a die; a packet to a lost and to a resetting die. -/
theorem witness_DieStates_rung :
    ((runged 0 .live true).rungDone 0 = true ∧ (runged 20000002 .lost true).rungDone 0 = false ∧ (runged 20000003 .live false).rungDone 0 = false) ∧
    (((runged 20000003 .live false).part 0).rungAt = some 3 ∧ (runged 20000003 .live false).gtime = 3 + 20000000) ∧
    ((2 : Nat) = (1 + 1) % 4 ∧ (0 : Nat) = (1 + 3) % 4 ∧ (3 : Nat) = (1 + 2) % 4) ∧
    [DieState.lost, .resetting].all (fun x => ((died 1 (fun d => { d with state := x })).die 1).state == x) = true ∧
    (bed.c.resetting = false ∧ bed.c.faulted = false ∧ bed.fqRoom 0 = true) := by decide +kernel

/-- Accesses from outside that nothing holds up, and that a SILENT die does. -/
theorem witness_Management_outside :
    (let bytes (n : Nat) (s : State) : List Nat := (s.peerBytes 0 0x20000 (List.replicate n 1)).map (fun b => b.key)
     let mute := bed.modDie 0 (fun d => { d with state := .silent })
     bed.bytesHeld = false ∧ bed.physHeld 0 0x20000 8 = false ∧ bed.ackSilent hubDie (bytes 8 bed) = false ∧
     mute.physHeld 0 0x20000 8 = true ∧ mute.ackSilent hubDie (bytes 4 mute) = true ∧ (1024 + 7) % 1024 = (7 : BitVec 10).toNat ∧ 8 % 1024 ≠ (7 : BitVec 10).toNat) := by decide +kernel

/-- Before the boot; a context that is not there and one that is. -/
theorem witness_Management_reads :
    State.reset.hub.devst ≠ .ready ∧ (bed.hub.devst = .ready ∧ (bed.part 0).ldt ≠ [] ∧ bed.ctxIn 0 0 = true ∧ bed.ctxIn 0 7 = false) := by decide

/-- spec/01 Table 4. -/
theorem test_stackSites :
    [0, 1, 2, 3].map (fun d => [0, 1, 2].map (fun st => (stackFaces d st, stackSite d st))) =
      [[(1, 6), (2, 7), (3, 8)], [(2, 9), (3, 10), (0, 11)], [(3, 0), (0, 1), (1, 2)], [(0, 3), (1, 4), (2, 5)]] := by decide

/-- spec/01 Table 2. -/
theorem test_linkLanes : LinkSide.module .hub 2 3 = 12 ∧ LinkSide.lane .hub 3 1 = 62 ∧ LinkSide.lane .counterClockwise 0 0 = 63 ∧ LinkSide.lane .clockwise 2 5 = 5 := by decide

/-- spec/10 Table 4: on a device at 4.3 the driver copies the 4.3 section, at 4.2 the 4.2 section. -/
theorem test_chooseNative :
    let n (v : BitVec 8) : ContainerSection := { kind := .native, vmaj := 4, vmin := v, step := 0, xuse := false, off := 0, len := 0 }
    chooseNative 3 1 [n 2, n 3] = some (n 3) ∧ chooseNative 2 1 [n 2, n 3] = some (n 2) ∧ chooseNative 1 1 [n 2, n 3] = none := by decide
/-! Clauses. A warp that is to check the header at 0x80, with the words that follow it. -/

def clausal (hdr : Word) (ws : List Nat) (f : Warp → Warp) : State :=
  let s := bedW (fun w => f { w with phase := .header, clause := { w.clause with hdr := hdr, word := 0, idx := 0, enabled := 0 } })
  { s with mem := putWords [] (placedWords 0 ++ (List.range ws.length).map (fun i => (0x10080 + 4 * i, 4, ws.getD i 0))) }
/-- A clause that the header check refuses (spec/11 R250). -/
def badClause (pc h : Word) (slots : List (Nat × Nat)) : Bool :=
  let fld (k len : Nat) : Nat := (h.extractLsb' k len).toNat
  let n := fld 0 4
  let cls (op : Nat) : Nat := if op ≤ 0x33 then 0 else if op ≤ 0x3B then 1 else if op ≤ 0x3D then 2 else 3
  let free (k : Nat) : Bool := k == 0x146 || k == 0x1F8 || k == 0x1FF
  let ends (k : Nat) : Bool := decide ((0x140 ≤ k ∧ k ≤ 0x145) ∨ (0x149 ≤ k ∧ k ≤ 0x14C) ∨ k = 0x150 ∨ k = 0x151 ∨ (0x1F2 ≤ k ∧ k ≤ 0x1F6))
  let noRep (k : Nat) : Bool := decide ((0x140 ≤ k ∧ k < 0x160) ∨ k = 0x22 ∨ 0x1F0 ≤ k)
  n == 0 || fld 29 3 != 0 || fld 11 3 == 7 || fld 20 3 == 7 || (fld 11 3 == 0 && fld 14 6 != 0) || (fld 20 3 == 0 && fld 23 6 != 0) ||
    (fld 6 1 == 0 && fld 7 4 != 0) || decide (64 < pc.toNat % 64 + 4 * (n + 1)) ||
    slots.any (fun e => (!free e.2 && cls (e.2 / 8) != fld 4 2) || (slotLong e.2 && e.1 == n) ||
      (ends e.2 && e.1 + (if slotLong e.2 then 1 else 0) != n) || (e.2 == 0x1F8 && e.1 == n)) ||
    (slots.zip (slots.drop 1)).any (fun p => p.1.2 == 0x1F8 && noRep p.2.2)
/-- The header is read; whether it is refused; whether its waits are over. -/
def checks (s : State) (bad waits : Bool) : Bool :=
  let pc := s.w.clause.hdr
  let f := s.fetch s.cur pc
  let h := f.2.2
  let u := f.1.modW (fun w => { w with clause := { w.clause with word := h } })
  let fld (k len : Nat) : Nat := (h.extractLsb' k len).toNat
  let n := fld 0 4
  let slots := clauseSlots 16 1 ((List.range n).map (fun i => (f.1.peek s.cur (pc + BitVec.ofNat 32 (4 * (i + 1)))).2))
  let wait (c t : Nat) : Bool := match classOf c with | some x => decide (u.count s.cur x ≤ t) | none => true
  (s.code s.cur).inText pc && (match f.2.1 with | .ok _ _ _ => true | _ => false) && f.1.isHeader s.cur pc && badClause pc h slots == bad &&
    (wait (fld 11 3) (fld 14 6) && wait (fld 20 3) (fld 23 6)) == waits
def opWord (k : Nat) : Nat := k * 2 ^ 21

/-- Refused: no word, reserved bits, wait class 7, a threshold without a class, a predicate field without the bit, a clause across 64
bytes, a word of another class, a long word last, a transfer not last, REP last, REP before a transfer. -/
theorem witness_Clauses_header :
    [[0], [0x20000001], [0x3801], [0x700001], [0x4001], [0x800001], [0x81], [1, opWord 0x1A0], [0x11, opWord 0x1A0], [0x32, opWord 0x1F4, 0],
      [0x31, opWord 0x1F8], [0x32, opWord 0x1F8, opWord 0x1F4]].all (fun ws => checks (clausal 0x80 ws id) true true) ∧
    checks (clausal 0xBC (14 :: List.replicate 14 0 ++ [1]) id) true true ∧
    (let s := clausal 0x100 [2] id
     (s.code s.cur).inText 0x100 = false) ∧
    (let s := clausal 0x84 [2] id
     let f := s.fetch s.cur 0x84
     (s.code s.cur).inText 0x84 = true ∧ (match f.2.1 with | .ok _ _ _ => true | _ => false) = true ∧ f.1.isHeader s.cur 0x84 = false) := by decide +kernel

theorem witness_Clauses_issue :
    checks (clausal 0x80 [2] id) false true ∧
    checks (clausal 0x80 [0x42] id) false true ∧
    (let s := (clausal 0x80 [0x42] (fun w => { w with pending := [{ cell := cellPn 0 0, value := 1, due := 5, born := 0 }] })).modLot 0
       (fun l => { l with record := { l.record with flags := 2 } })
     let u := (s.fetch s.cur 0x80).1
     checks s false true = true ∧ (0x42 : Word).getLsbD 6 = true ∧ u.checked = true ∧ u.w.shortStall [] [(0x42 : Word).extractLsb' 7 3] = true) ∧
    (let s := { clausal 0x80 [0x802] (fun w => { w with dhv := 1 }) with ops := [(0, some loading)], nextOp := 1 }
     checks s false false = true ∧ ((s.fetch s.cur 0x80).1.modW (fun w => { w with clause := { w.clause with word := 0x802 } })).splitDue 0x802 = none) ∧
    (let s := { clausal 0x80 [0x802] (fun w => { w with dhv := 1 }) with
       ops := [(0, some { loading with work := .load [⟨0, 32, 7⟩] [] true 3, lanes := 7 })], nextOp := 1 }
     checks s false false = true ∧
     ((s.fetch s.cur 0x80).1.modW (fun w => { w with clause := { w.clause with word := 0x802 } })).splitDue 0x802 = some (0, 3)) := by decide +kernel

/-- A bad target in a trap handler, at its vector and behind it; at the entry of an event, at depth 1 and at depth 2; elsewhere. -/
theorem witness_Clauses_target :
    [(0x40, 0), (0x80, 1)].all (fun e : Word × Nat =>
      let s := clausal e.1 [0] (fun w => { w with trap := { w.trap with tmode := true } })
      let s := s.modLot 0 (fun l => { l with code := { l.code with tvec := 0x40 } })
      s.w.trap.tmode && !s.w.saveRestore && (e.1 == BitVec.ofNat 32 (if s.w.trap.frec.rung = 0 then (s.code s.cur).tvec else (s.code s.cur).vvec)) == (e.2 == 0)) = true ∧
    [1, 2].all (fun d =>
      let s := clausal 0x300 [0] (fun w => { w with hdep := d, dhv := 0x201, ev1 := { w.ev1 with evrec := 4 }, ev2 := { w.ev2 with evrec := 4 } })
      !s.w.trap.tmode && s.w.hdep == d && s.w.clause.hdr == BitVec.ofNat 32 (512 * (s.w.dhv.toNat / 512) + 64 * 4)) = true ∧
    (clausal 0x300 [0] id).w.trap.tmode = false ∧ (clausal 0x300 [0] id).w.hdep = 0 := by decide +kernel

/-- A warp at a boundary. -/
def bounded (f : Warp → Warp) : State := bedW (fun w => f { w with phase := .boundary })

theorem witness_Clauses_boundary :
    ((bounded id).modV (fun v => { v with stop := some 0 })).v.stop ≠ none ∧
    (bounded (fun w => { w with evict := .requested })).w.drains = true ∧
    (let s := (bounded id).modV (fun v => { v with trapWarp := some 7 })
     s.v.stop = none ∧ s.w.drains = false ∧ s.v.trapWarp ≠ none ∧ s.v.trapWarp ≠ some s.cur ∧ s.w.saveRestore = false) ∧
    [bounded (fun w => { w with async := [default] }), bounded (fun w => { w with trap := { w.trap with smode := true } }),
      bounded (fun w => { w with trap := { w.trap with tmode := true } }), bounded (fun w => { w with wpark := true }),
      bounded (fun w => { w with masks := { w.masks with lmask := 0 } }), bounded id].all (fun s =>
        s.v.stop.isNone && !s.w.drains && s.v.trapWarp.isNone && (s.w.async == [] || (s.w.async.map (·.rung)) == [0])) ∧
    (let live (s : State) : Bool := s.v.stop.isNone && !s.w.drains && s.v.trapWarp.isNone && s.w.async.isEmpty && !s.w.saveRestore && !s.w.trap.tmode &&
       s.w.masks.lmask != 0 && !s.w.wpark
     let due (s : State) (l : Nat) : Bool := inMask s.w.masks.lmask l && s.w.lstate.get l == 0 && !inMask s.w.masks.amask l &&
       decide ((s.w.sgcfg.extractLsb' 16 16).toNat ≤ (s.w.pkage.get l).toNat)
     let free (s : State) : Bool := live s && !s.w.sgact && (List.range 32).all (fun l => !due s l)
     (let g (f : Warp → Warp) : State := bounded (fun w => f { w with sgact := true, sgrem := 1, masks := { w.masks with sggrp := 3 } })
      live (g id) = true ∧ (g id).w.sgrem ≠ 0 ∧ (g id).w.readyIn (g id).w.masks.sggrp ≠ 0 ∧
      live (g (fun w => { w with sgrem := 0, dhv := 1 })) = true ∧ (g (fun w => { w with dhv := 1 })).w.dhvEn = true ∧
      (g (fun w => { w with sgrem := 0 })).w.dhvEn = false ∧ (g id).w.readyIn (g id).w.masks.lmask ≠ 0 ∧
      (g (fun w => { w with lstate := [(0, 1), (1, 1)] })).w.readyIn 3 = 0 ∧
      (let p (f : Warp → Warp) : State := g (fun w => f { w with wpark := true })
       let plain (s : State) : Bool := s.v.stop.isNone && !s.w.drains && s.v.trapWarp.isNone && s.w.async.isEmpty && !s.w.saveRestore && !s.w.trap.tmode
       let past := p (fun w => { w with dhv := 1, lstate := [(0, 1), (1, 1)] })
       plain (p id) = true ∧ (p id).w.sgact = true ∧ (p id).w.sgrem ≠ 0 ∧ (p id).w.readyIn (p id).w.masks.sggrp ≠ 0 ∧
       plain past = true ∧ past.w.masks.lmask ≠ 0 ∧ past.w.sgact = true ∧ past.w.hdep = 0 ∧ past.w.readyIn past.w.masks.sggrp = 0 ∧ past.w.dhvEn = true)) ∧
     (let s := bounded (fun w => { w with sgcfg := 0x00050010, pkage := [(4, 5), (9, 6)], masks := { w.masks with amask := 1 } })
      live s = true ∧ s.w.sgact = false ∧ due s 9 = true ∧ (List.range 32).all (fun l => !due s l || decide (s.w.pkage.get l ≤ 6)) = true ∧ due s 4 = true) ∧
     [bounded (fun w => { w with hdep := 2, masks := { w.masks with ham2 := 3 }, dretWait := 1 }),
       bounded (fun w => { w with hdep := 2, masks := { w.masks with ham2 := 3, ham1 := 5 }, dretWait := 3, dretMask := [(0, 4)] }),
       bounded (fun w => { w with hdep := 2, masks := { w.masks with ham2 := 3, ham1 := 5 }, dretWait := 3 }),
       bounded (fun w => { w with hdep := 1, cause := some { evrec := 4, evpc := 0, evt := 0, evf := 0, evtk := 0, evm := 0 } }),
       bounded (fun w => { w with hdep := 1 }), bounded (fun w => { w with hdep := 1, masks := { w.masks with ham1 := 3 } }),
       bounded (fun w => { w with hdep := 1, dhv := 0x201, masks := { w.masks with ham1 := 3 } }), bounded id,
       bounded (fun w => { w with dhv := 0x201, cause := some { evrec := 5, evpc := 0, evt := 0, evf := 0, evtk := 0, evm := 0 } }),
       bounded (fun w => { w with dhv := 0x201, masks := { w.masks with arrl := 3 } }), bounded (fun w => { w with dhv := 0x201 }),
       bounded (fun w => { w with dhv := 0x201, masks := { w.masks with amask := 0 }, sgcfg := 0x10000100 }),
       bounded (fun w => { w with dhv := 0x201, sgcfg := 0x10000100, masks := { w.masks with amask := 0 }, lstate := (List.range 32).map (fun l => (l, 1)) })].all free) := by decide +kernel

theorem witness_WholeFaults :
    [(Instr.iadd 1 5 6 7, 0), (.ld 0 8 2 xa0, 1), (.enrol 0 1 96, 0), (.tret 0, 0), (.restw 0 98, 0)].all (fun e =>
      match encode e.1 with
      | x :: _ => decodeWord x ((encode e.1).getD 1 0) == .ok (e.1, slotLong (x.extractLsb' 21 9).toNat)
      | [] => false) ∧
    [bedW (fun w => { w with clause := { w.clause with enabled := 0 } }), { bed with hub := { bed.hub with featacc := 0 } },
      bedW (fun w => { w with trap := { w.trap with smode := true } }), bedW (fun w => { w with trap := { w.trap with tmode := true } }),
      bedW (fun w => { w with hdep := 2 }), bedM].map (fun s => (s.w.bank, s.w.clause.enabled == 0, s.w.mat)) =
      [(0, true, false), (0, false, false), (4, false, false), (3, false, false), (2, false, false), (0, false, true)] ∧
    (let s := bedW (fun w => { w with pending := [{ cell := cellPn 0 0, value := 1, due := 5, born := 0 }], clause := { w.clause with idx := 1, word := 0x42, enabled := 0 } })
     s.w.clause.idx = 1 ∧ s.w.clause.word.getLsbD 6 = true ∧ s.w.replay = none ∧ s.w.shortStall [] [s.w.clause.word.extractLsb' 7 3] = true) ∧
    (xaOf 0).spl = 0 ∧ (bed.slotLegal 0x1A0 0 0 = true ∧ bed.slotLegal 0x1F3 0 0 = false) := by decide +kernel
/-! Steps: a warp at a boundary, at a header and inside a clause, in a turn of the agenda and by itself; a Lake engine; an event. -/

/-- Some lanes enabled. -/
def only (m : Lanes) (s : State) : State := s.modW (fun w => { w with clause := { w.clause with enabled := m } })
def standing (phase : Phase) (w : Nat) (agenda : List Turn) : State :=
  let s := bedW (fun x => { x with phase := phase })
  { s with mem := putWords [] (placedWords w), agenda := agenda }

theorem witness_StepRuns :
    [Phase.boundary, .header, .word].all (fun p =>
      let s := standing p 0 [{ dt := 7, who := .warp 0 }]
      let t := State.takeSlot { State.elapse { s with agenda := [] } 7 with cur := 0 }
      let z := standing p 0 []
      let u := State.takeSlot { z.elapse 1 with cur := 0 }
      s.agenda == [{ dt := 7, who := .warp 0 }] && (match z.nextDue with | some (.warp 0) => true | _ => false) &&
      (State.elapse { s with agenda := [] } 7).chosen 0 &&
      [t, u].all (fun t => t.w.swapFault.isNone && t.w.canTurn && !t.vatTrapHolds 0 && !t.asleep t.w && t.heldAtSafePoint.isNone && t.w.phase == p)) ∧
    [(0, true), (0x1FD * 2 ^ 21, false)].all (fun e : Nat × Bool =>
      let t := (standing .word e.1 []).markStart
      let c := t.w.clause
      let f := t.fetch 0 c.pc c.hdr
      c.rep.isNone && (match f.2.1 with | .ok _ _ _ => true | _ => false) && f.2.2 == BitVec.ofNat 32 e.1 &&
      (match decodeWord f.2.2 0 with | .ok _ => e.2 | .error .unassigned => !e.2 | _ => false)) ∧
    (let s : State := { bed with hub := { bed.hub with microcode := 1 <<< 0x1FD } }
     let t := only 0 (bed.modLot 0 (fun l => { l with record := { l.record with flags := 0 } }))
     slotAssigned 0x1FD = false ∧ s.hub.microcode.getLsbD 0x1FD = true ∧ bed.hub.microcode.getLsbD 0x1FD = false ∧ bed.w.clause.enabled ≠ 0 ∧
     t.w.clause.enabled = 0 ∧ t.checked = false ∧ slotFeature 0x1FD = none) ∧
    (let s := { laked (some { lakeRun with pc := 1023 }) [.command (lakeBytes 0 0) 0x30] with agenda := [{ dt := 1, who := .engine 0 }] }
     let s := s.modEng 0 (fun e => { e with program := [(1023, some (0, 0))] })
     (State.fetchLake { State.elapse { s with agenda := [] } 1 with curEng := 0 }).isSome = true) ∧
    (let s := { (laked (some lakeRun) [.command (lakeBytes 0 0) 0x30]).modEng 0 (fun e => { e with program := [(3, some (0, 0))] }) with warps := [] }
     (match s.nextDue with | some (.engine 0) => true | _ => false) = true ∧
     (State.fetchLake { s.elapse 1 with curEng := 0 }).isSome = true ∧
     (∃ c x xs ctx w, (s.eng s.curEng).run = some c ∧ (s.eng s.curEng).queue = x :: xs ∧ c.status = none ∧ c.pc.toNat < 1024 ∧
       (s.eng s.curEng).program.get c.pc.toNat = some (ctx, w) ∧ ctx = x.ctx)) ∧
    (encode (.vatPlace 0) = [] ∧ Instr.vatPlace 0 ≠ .clauseIssue ∧ Instr.vatPlace 0 ≠ .clauseBoundary) ∧
    (State.reset.agenda = [] ∧ State.reset.nextDue.isNone = true ∧
      State.chosen { (standing .word 0 []) with warps := (standing .word 0 []).warps.set 1 { placedWarp with placed := 1 } } 1 = false) := by
  refine ⟨by decide +kernel, by decide +kernel, by decide +kernel, by decide +kernel, ⟨by decide +kernel, by decide +kernel, ?_⟩, by decide +kernel, by decide +kernel, by decide +kernel⟩
  exact ⟨lakeRun, lakeEntry (.command (lakeBytes 0 0) 0x30), [], 0, 0, by decide +kernel⟩

/-- A state that meets the invariant, from which a step goes on. -/
theorem witness_StepInvariant :
    let s := standing .word 0 [{ dt := 1, who := .warp 0 }]
    s.Inv ∧ ∃ t, step s = .next t := by
  refine ⟨by unfold State.Inv; decide +kernel, ?_⟩
  have h : (match step (standing .word 0 [{ dt := 1, who := .warp 0 }]) with | .next _ => true | _ => false) = true := by decide +kernel
  revert h
  cases step (standing .word 0 [{ dt := 1, who := .warp 0 }]) with
  | next t => exact fun _ => ⟨t, rfl⟩
  | fault _ => exact fun h => by simp at h
  | refused _ => exact fun h => by simp at h

theorem witness_RoundTrip : (Instr.iadd 0 1 2 3).wf = true ∧ (Instr.ld 0 8 2 xaSplit).wf = true ∧ (Instr.mac8 1).wf = true := by decide

/-! ### Values worked in the spec -/

/-- An instruction's words run. -/
def ran (x y : Word) (s : State) : State :=
  match decodeWord x y with
  | .ok (i, _) => (match exec i s with | .next t => t | _ => s)
  | .error _ => s
def vAt (s : State) (n l : Nat) : Word := s.w.final (cellV n l)
def pAt (s : State) (n l : Nat) : Word := s.w.final (cellPn n l)
def kAt (s : State) (n : Nat) : Word := s.w.final (cellKn n)
/-- A lane register with a value in each of the first lanes. -/
def lanesV (s : State) (d : Code) (vs : List Word) : State := s.putD d (fun l => vs.getD l 0)

/-- spec/12 R278: IADD v1, v2, v3. -/
theorem test_iadd : vAt (ran 0x00004103 0 (withV (only 1 bed) [(2, 0xFFFFFFFF), (3, 2)])) 1 0 = 1 := by decide +kernel

/-- spec/12 R279: SHL64 v4, v2, k0. -/
theorem test_shl64 :
    let s := match exec (.shl64 0 4 2 96) (withK (withV (only 1 bed) [(2, 0x80000000), (3, 1)]) [(96, 1)]) with | .next t => t | _ => bed
    (vAt s 4 0, vAt s 5 0) = (0, 3) := by decide +kernel

/-- spec/12 R280: ICMPP.LT.S p2, v1, v3. -/
theorem test_icmpp : pAt (ran 0x01C00083 0x09000000 (withV (only 1 bed) [(1, 0xFFFFFFFC), (3, 2)])) 2 0 = 1 := by decide +kernel

/-- spec/12 R281: MOVX.R v2, v1, 3 with VWB = 32. -/
theorem test_movx :
    let s := withV (only 1 bed) [(40, 77)]
    let s := (withV (s.modW (fun w => { w with vwb := 32 })) [(1, 5)])
    let t := match exec (.movxR 0 2 1 3) s with | .next t => t | _ => s
    vAt t 34 0 = 77 := by decide +kernel

/-- spec/12 R282: FADD.RTZ v5, v1, v2, with NX. -/
theorem test_fadd :
    let s := ran 0x11014082 0x40000000 (withV (only 1 bed) [(1, 0x3F800000), (2, 0x33800000)])
    (vAt s 5 0, s.w.fstat) = (0x3F800000, 0x10) := by decide +kernel

/-- spec/12 R284: FCMPP.NE p1, v4, v4 of a quiet NaN. -/
theorem test_fcmpp :
    let s := match exec (.fcmpp 0 4 4 1 1 0 0 0) (withV (only 1 bed) [(4, 0x7FC00000)]) with | .next t => t | _ => bed
    (pAt s 1 0, s.w.fstat) = (1, 0) := by decide +kernel

/-- spec/12 R285: FRINT.RDN v2, v1 of −2.5. -/
theorem test_frint :
    vAt (match exec (.frint 0 2 1 3) (withV (only 1 bed) [(1, 0xC0200000)]) with | .next t => t | _ => bed) 2 0 = 0xC0400000 := by decide +kernel

/-- spec/12 R286: FDP2.F16 v6, v2, v3, k0. -/
theorem test_fdp2 :
    let s := withK (withV (only 1 bed) [(2, 0x40003E00), (3, 0x34004000)]) [(96, 0x3F800000)]
    vAt (match exec (.fdp2 0 6 2 3 0 0 96) s with | .next t => t | _ => bed) 6 0 = 0x40900000 := by decide +kernel

/-- spec/12 R287: HMUL2.BF16 v2, v0, v1. -/
theorem test_hmul2 :
    let s := withV (only 1 bed) [(0, 0xBF804040), (1, 0x40803F00)]
    vAt (match exec (.hmul2X 0 2 0 1 0 1) s with | .next t => t | _ => bed) 2 0 = 0xC0803FC0 := by decide +kernel

/-- spec/12 R289: CVT.S32.F32.RTZ v3, v2 of −7.9, with NX. -/
theorem test_cvt :
    let s := match exec (.cvt 0 3 2 1 0 6) (withV (only 1 bed) [(2, 0xC0FCCCCD)]) with | .next t => t | _ => bed
    (vAt s 3 0, s.w.fstat) = (0xFFFFFFF9, 0x10) := by decide +kernel

/-- spec/12 R291: FRSQ v2, v1 of 4. -/
theorem test_frsq :
    let s := match exec (.frsq 0 2 1) (withV (only 1 bed) [(1, 0x40800000)]) with | .next t => t | _ => bed
    (vAt s 2 0, s.w.fstat) = (0x3F000000, 0) := by decide +kernel

/-- spec/13 R308: ENROL 0, k20. -/
theorem test_enrol :
    let s := withK (bedW (fun w => { w with masks := { w.masks with lmask := 0xF, amask := 0xF }, clause := { w.clause with enabled := 0xF } })) [(116, 0xFFFFFFFF)]
    (ran 0x29003A00 0 s).w.masks.jm.get 0 = 0xF := by decide +kernel

/-- spec/13 R319: PMASK k3, p1. -/
theorem test_pmask :
    let s := (only 0xD bed).modW (fun w => { w with regs := w.regs.setAll [(cellPn 1 0, 1), (cellPn 1 1, 1), (cellPn 1 2, 1)] })
    kAt (ran 0x30B8C080 0 s) 3 = 5 := by decide +kernel

/-- spec/13 R320: LSAME v5, v2. -/
theorem test_lsame :
    let s := ran 0x30C14100 0 (lanesV (only 0xF bed) 2 [7, 3, 7, 3])
    (List.range 4).map (vAt s 5) = [5, 10, 5, 10] := by decide +kernel

/-- spec/13 R321: LFOLD.MAX.S k2, v1. -/
theorem test_lfold :
    let s := lanesV (only 7 bed) 1 [0xFFFFFFFC, 9, 2]
    kAt (match exec (.lfold 0 98 1 2) s with | .next t => t | _ => bed) 2 = 9 := by decide +kernel

/-- spec/13 R324: BMPOS v9, k2, k3, k12, p4. -/
theorem test_bmpos :
    let s := ran 0x31627163 0x02003600 (withK (only 0xF bed) [(98, 0xB6), (99, 0xA5)])
    ((List.range 4).map (vAt s 9), kAt s 12, kAt s 13, pAt s 4 3) =
      ([0x00010001, 0x00020003, 0x00030004, 0xFFFFFFFF], 3, 0x00040005, 0) := by decide +kernel

/-- spec/13 R306: EXIT in two of four live lanes. -/
theorem test_exit :
    let s := bedW (fun w => { w with masks := { w.masks with amask := 3, lmask := 0xF }, clause := { w.clause with issue := 3, enabled := 3 } })
    (ran 0x28A00000 0 s).w.masks.lmask = 0xC := by decide +kernel

/-- An acquire load counts while it is under way, and writes its register when it completes (spec/05 R131). -/
theorem test_load :
    let s := { only 1 (withV bed [(2, 0x20000), (3, 0)]) with mem := putWords bed.mem [(0x20004, 4, 0xAABBCCDD)] }
    let t := match exec (.ld 0 8 2 { xa0 with off := 4, sco := 5, ord := 1 }) s with | .next t => t | _ => s
    let u := match exec (.loadComplete s.nextOp) t with | .next t => t | _ => s
    (vAt u 8 0, t.count 0 .ld, u.count 0 .ld) = (0xAABBCCDD, 1, 0) := by decide +kernel

/-- spec/13 R318: LXCH.FWD v3, v2, k1, 0 with k1 = 1 and v2 the lane number. -/
theorem test_lxch :
    let s := ran 0x3040C161 0x04000000 (withK (lanesV bed 2 ((List.range 32).map (BitVec.ofNat 32))) [(97, 1)])
    (vAt s 3 0, vAt s 3 30, vAt s 3 31, pAt s 7 30, pAt s 7 31) = (1, 31, 0, 0, 1) := by decide +kernel

/-- spec/13 R304: CALL, in a clause of two words at 0x80, leaves the successor in v91. -/
theorem test_call :
    let s := ({ bed with vats := bed.vats.set 0 (some { bed.v with regs := 15 }) }).modW (fun w => { w with clause := { w.clause with issue := 1, enabled := 1, idx := 2 } })
    let t := match exec (.call 0 0x10) s with | .next t => t | _ => s
    (vAt t 91 0, t.w.lpc.get 0) = (0x8C, 0xC0) := by decide +kernel

/-- An atomic that adds returns the old value and leaves the sum (spec/14 R331). -/
theorem test_atom :
    let s := { only 1 (withV bed [(2, 0x20000), (3, 0), (6, 5)]) with mem := putWords bed.mem [(0x20000, 4, 9)] }
    let t := match exec (.atom 0 8 2 6 xa0) s with | .next t => t | _ => s
    let u := match exec (.atomicComplete s.nextOp) t with | .next t => t | _ => s
    (vAt u 8 0, u.mem.get 0x20000) = (9, 14) := by decide +kernel

/-- The AES-256 example of the cipher's standard (FIPS 197, C.3), which spec/02 R56 names. -/
theorem test_aes :
    aesEncrypt (aesRoundKeys ((List.range 32).map (BitVec.ofNat 8))) ((List.range 16).map (fun i => BitVec.ofNat 8 (17 * i))) =
      natToBytes 16 0x8960494B9049FCEABF456751CAB7A28E := by decide +kernel
end Sys2Proof.Tests
end

section
/-! PROOFS. The life of a die (spec/01 R22–R31, R34–R37, R394, spec/07 R176, R186, spec/08 R205): what goes on whatever happens to a die
(`State.Onward`), the faults of contexts, the loss of dies, acknowledgement timeouts, heartbeats, resets, packets, links and uncorrectable
errors. -/

namespace Sys2Proof

/-! ### The sparse arrays: elements listed, elements kept by their index -/

/-- An element that is not the default is listed. -/
theorem Map.mem_of_get {α : Type} [Inhabited α] {m : Map α} {k : Nat} (h : m.get k ≠ default) : (k, m.get k) ∈ m := by
  induction m with
  | nil => exact absurd rfl h
  | cons e m ih =>
    obtain ⟨j, v⟩ := e
    by_cases hj : j = k
    · simp [Map.get, hj]
    · simp only [Map.get, hj, if_false] at h ⊢
      exact List.mem_cons_of_mem _ (ih h)

theorem Map.mem_of_get_eq_some {α : Type} {m : Map (Option α)} {k : Nat} {v : α} (h : m.get k = some v) : (k, some v) ∈ m :=
  h ▸ Map.mem_of_get (by rw [h]; exact Option.some_ne_none v)

/-- Elements kept for their index alone. -/
theorem Map.get_keep {α : Type} [Inhabited α] (m : Map α) (p : Nat → Bool) (k : Nat) :
    Map.get (m.keep (fun j _ => p j)) k = if p k then m.get k else default := by
  induction m with
  | nil => simp [Map.keep]
  | cons e m ih =>
    obtain ⟨j, v⟩ := e
    simp only [Map.keep, List.filter_cons] at ih ⊢
    by_cases hj : j = k
    · subst hj
      cases hp : p j <;> simp [hp, Map.get, ih]
    · cases hp : p j <;> simp [Map.get, hj, ih]

end Sys2Proof

namespace Sys2Proof.Machine

/-! ### What goes on whatever happens to a die -/

/-- A fault of a code has reached a context: it is faulted, or the fault waits for room in its fault queue. -/
def Context.Reports (c : Context) (code : BitVec 8) : Prop := c.faulted = true ∨ ∃ fr ∈ c.waiting, fr.code = code

/-- A context goes on: its reset is where it was, and no fault that has reached it, and no die that it has touched, is forgotten. -/
structure Context.Onward (c d : Context) : Prop where
  resetting : d.resetting = c.resetting
  faulted : c.faulted = true → d.faulted = true
  tdmask : ∀ m, c.tdmask &&& m ≠ 0 → d.tdmask &&& m ≠ 0
  reports : ∀ code, c.Reports code → d.Reports code

theorem Context.Onward.refl (c : Context) : c.Onward c := ⟨rfl, id, fun _ => id, fun _ => id⟩

theorem Context.Onward.trans {c d e : Context} (h : c.Onward d) (g : d.Onward e) : c.Onward e :=
  ⟨g.resetting.trans h.resetting, g.faulted ∘ h.faulted, fun m => g.tdmask m ∘ h.tdmask m, fun k => g.reports k ∘ h.reports k⟩

/-- Further faults may come to wait. -/
theorem Context.Onward.of_waiting {c d : Context} (hr : d.resetting = c.resetting) (hf : d.faulted = c.faulted) (ht : d.tdmask = c.tdmask)
    (hw : c.waiting ⊆ d.waiting) : c.Onward d where
  resetting := hr
  faulted h := hf ▸ h
  tdmask _ h := ht ▸ h
  reports _ := Or.imp (hf ▸ id) (fun ⟨fr, hm, hc⟩ => ⟨fr, hw hm, hc⟩)

/-- A context becomes faulted. -/
theorem Context.Onward.of_faulted {c d : Context} (hr : d.resetting = c.resetting) (hf : d.faulted = true) (ht : d.tdmask = c.tdmask) :
    c.Onward d := ⟨hr, fun _ => hf, fun _ h => ht ▸ h, fun _ _ => .inl hf⟩

/-- A vat stays on its core, and where it is, or is gone. -/
def Vat.Onward (v u : Vat) : Prop := u.core = v.core ∧ (u.place = v.place ∨ u.place = .gone)

theorem Vat.Onward.trans {v u x : Vat} (h : v.Onward u) (g : u.Onward x) : v.Onward x :=
  ⟨g.1.trans h.1, g.2.elim (fun e => h.2.imp e.trans e.trans) .inr⟩

/-- Nothing is left to be done of an operation, if it is there still. -/
def State.OpDone (s : State) (n : Nat) : Prop := ∀ o, s.op n = some o → o.complete = true ∧ o.performed = true

/-- A state goes on to another in which dies and their incarnations are as they were, every context and vat has only gone on, and what was
done of the operations is done. All that follows a die's loss, and every fault of a context, does so. -/
structure State.Onward (s t : State) : Prop where
  dies : t.dies = s.dies
  incCopies : t.hub.incCopies = s.hub.incCopies
  ctx : ∀ c, (s.ctx c).Onward (t.ctx c)
  ctxs : ∀ c, (s.ctxs.get c).isSome → (t.ctxs.get c).isSome
  vat : ∀ j, (s.vat j).Onward (t.vat j)
  vats : ∀ j, (s.vats.get j).isSome → (t.vats.get j).isSome
  done : ∀ n, s.OpDone n → t.OpDone n

theorem State.Onward.of_ctxs {s t : State} (hd : t.dies = s.dies) (hi : t.hub.incCopies = s.hub.incCopies)
    (hc : ∀ c, (s.ctx c).Onward (t.ctx c)) (hx : ∀ c, (s.ctxs.get c).isSome → (t.ctxs.get c).isSome)
    (hv : t.vats = s.vats) (ho : t.ops = s.ops) : s.Onward t where
  dies := hd
  incCopies := hi
  ctx := hc
  ctxs := hx
  vat j := by unfold State.vat; rw [hv]; exact ⟨rfl, .inl rfl⟩
  vats _ h := hv ▸ h
  done n h := by unfold State.OpDone State.op at *; rwa [ho]

theorem State.Onward.of_ops {s t : State} (hd : t.dies = s.dies) (hi : t.hub.incCopies = s.hub.incCopies) (hc : t.ctxs = s.ctxs)
    (hv : t.vats = s.vats) (ho : ∀ n, s.OpDone n → t.OpDone n) : s.Onward t where
  dies := hd
  incCopies := hi
  ctx c := by unfold State.ctx; rw [hc]; exact .refl _
  ctxs _ h := hc ▸ h
  vat j := by unfold State.vat; rw [hv]; exact ⟨rfl, .inl rfl⟩
  vats _ h := hv ▸ h
  done := ho

/-- A change of none of these parts of the state. -/
theorem State.Onward.of_same {s t : State} (hd : t.dies = s.dies) (hi : t.hub.incCopies = s.hub.incCopies) (hc : t.ctxs = s.ctxs)
    (hv : t.vats = s.vats) (ho : t.ops = s.ops) : s.Onward t :=
  .of_ops hd hi hc hv (fun n h => by unfold State.OpDone State.op at *; rwa [ho])

theorem State.Onward.refl (s : State) : s.Onward s := .of_same rfl rfl rfl rfl rfl

theorem State.Onward.trans {s t u : State} (h : s.Onward t) (g : t.Onward u) : s.Onward u where
  dies := g.dies.trans h.dies
  incCopies := g.incCopies.trans h.incCopies
  ctx c := (h.ctx c).trans (g.ctx c)
  ctxs c := g.ctxs c ∘ h.ctxs c
  vat j := (h.vat j).trans (g.vat j)
  vats j := g.vats j ∘ h.vats j
  done n := g.done n ∘ h.done n

theorem State.Onward.ite {c : Prop} [Decidable c] {s t u : State} (ht : s.Onward t) (hu : s.Onward u) : s.Onward (if c then t else u) := by
  split
  · exact ht
  · exact hu

/-- What a performed write reaches is none of these. -/
theorem State.SameBut.onward {s t : State} (h : s.SameBut t) : s.Onward t := by
  rw [h]; exact .of_same rfl rfl rfl rfl rfl

theorem State.Onward.die {s t : State} (h : s.Onward t) (d : Nat) : t.die d = s.die d := by unfold State.die; rw [h.dies]

theorem State.Onward.foldl {α : Type} {f : State → α → State} (hf : ∀ (s : State) x, s.Onward (f s x)) (xs : List α) (s : State) :
    s.Onward (xs.foldl f s) := by
  induction xs generalizing s with
  | nil => exact .refl s
  | cons x xs ih => exact (hf s x).trans (ih _)

/-- Of steps that all go on, one is taken from a state that the steps before it lead to, and the others follow. -/
theorem State.Onward.foldl_mem {α : Type} {f : State → α → State} (hf : ∀ (s : State) x, s.Onward (f s x)) {xs : List α} {x : α} (hx : x ∈ xs)
    (s : State) : ∃ u, s.Onward u ∧ (f u x).Onward (xs.foldl f s) := by
  induction xs generalizing s with
  | nil => cases hx
  | cons y ys ih =>
    rcases List.mem_cons.1 hx with rfl | hy
    · exact ⟨s, .refl s, .foldl hf ys _⟩
    · obtain ⟨u, hu, hs⟩ := ih hy (f s y)
      exact ⟨u, (hf s y).trans hu, hs⟩

/-! ### The updates of the state -/

theorem State.modWarp_onward (s : State) (k : Nat) (f : Warp → Warp) : s.Onward (s.modWarp k f) := .of_same rfl rfl rfl rfl rfl
theorem State.modLot_onward (s : State) (k : Nat) (f : Lot → Lot) : s.Onward (s.modLot k f) := .of_same rfl rfl rfl rfl rfl
theorem State.modPart_onward (s : State) (k : Nat) (f : Partition → Partition) : s.Onward (s.modPart k f) := .of_same rfl rfl rfl rfl rfl

theorem State.ctxs_setCtx (s : State) (j k : Nat) (c : Context) :
    (s.setCtx k c).ctxs.get j = if j = k then some c else s.ctxs.get j := Map.get_set s.ctxs j k (some c)
theorem State.vats_setVat (s : State) (j k : Nat) (v : Vat) :
    (s.setVat k v).vats.get j = if j = k then some v else s.vats.get j := Map.get_set s.vats j k (some v)

theorem State.modCtx_onward (s : State) (k : Nat) {f : Context → Context} (hf : (s.ctx k).Onward (f (s.ctx k))) : s.Onward (s.modCtx k f) := by
  refine .of_ctxs rfl rfl (fun c => ?_) (fun c h => ?_) rfl rfl
  · rw [State.ctx_modCtx]
    split
    · next e => exact e ▸ hf
    · exact .refl _
  · rw [State.modCtx, State.ctxs_setCtx]
    split
    · rfl
    · exact h

theorem State.setVat_onward (s : State) (k : Nat) {v : Vat} (hv : (s.vat k).Onward v) : s.Onward (s.setVat k v) where
  dies := rfl
  incCopies := rfl
  ctx c := .refl _
  ctxs _ h := h
  vat j := by
    rw [State.vat_setVat]
    split
    · next e => exact e ▸ hv
    · exact ⟨rfl, .inl rfl⟩
  vats j h := by
    rw [State.vats_setVat]
    split
    · rfl
    · exact h
  done _ h := h

theorem State.setOp_onward (s : State) (k : Nat) (o : Op) (ho : s.OpDone k → o.complete = true ∧ o.performed = true) :
    s.Onward (s.setOp k o) := by
  refine .of_ops rfl rfl rfl rfl (fun n h x hx => ?_)
  rw [State.op_setOp] at hx
  split at hx
  · next e => cases hx; exact ho (e ▸ h)
  · exact h x hx

/-- An operation as it was, in what is complete and performed of it. -/
theorem State.resetOp_onward (s : State) {k : Nat} {o p : Op} (hs : s.op k = some o) (hc : p.complete = o.complete)
    (hp : p.performed = o.performed) : s.Onward (s.setOp k p) :=
  s.setOp_onward k p (fun h => by rw [hc, hp]; exact h o hs)

theorem State.dropOp_onward (s : State) (k : Nat) : s.Onward (s.dropOp k) := by
  refine .of_ops rfl rfl rfl rfl (fun n h x hx => ?_)
  rw [State.op_dropOp] at hx
  split at hx
  · cases hx
  · exact h x hx

/-! ### Operations and memory -/

theorem State.report_onward (s : State) (k : Nat) (c : OpClass) : s.Onward (s.report k c) := by
  refine .foldl (fun u n => ?_) _ s
  split
  · next o ho =>
    split
    · exact u.dropOp_onward n
    · exact u.resetOp_onward ho rfl rfl
  · exact .refl u

theorem State.finish_onward (s : State) (n : Nat) {f : Op → Op} (hf : ∀ o, o.performed = true → (f o).performed = true) :
    s.Onward (s.finish n f) := by
  unfold State.finish
  split
  · exact .refl s
  · next o ho =>
    have hs : s.Onward (s.setOp n { f o with complete := true }) := s.setOp_onward n _ (fun h => ⟨rfl, hf o (h o ho).2⟩)
    exact hs.trans (State.report_onward _ _ _)

theorem State.finish_done (s : State) (n : Nat) {f : Op → Op} (hf : ∀ o, (f o).performed = true) : (s.finish n f).OpDone n := by
  unfold State.finish
  split
  · next h => exact fun o ho => by rw [h] at ho; cases ho
  · next o ho =>
    refine (State.report_onward _ _ _).done n (fun x hx => ?_)
    rw [State.op_setOp, if_pos rfl] at hx
    cases hx
    exact ⟨rfl, hf o⟩

theorem State.noteSync_onward (s : State) (keys : List Nat) (cs : List Carry) : s.Onward (s.noteSync keys cs) := by
  unfold State.noteSync
  split
  · exact .refl s
  · exact .of_same rfl rfl rfl rfl rfl

theorem State.performG_onward (s : State) (bs : List WByte) : s.Onward (s.performG bs) := (s.performG_keeps bs).1.onward
theorem State.performE_onward (s : State) (die : Nat) (bs : List WByte) : s.Onward (s.performE die bs) := (s.performE_keeps die bs).1.onward

theorem State.performStore_onward (s : State) (o : Op) (g : Bool) (bs : List WByte) : s.Onward (s.performStore o g bs) := by
  unfold State.performStore
  cases g
  · exact (s.performE_onward o.die bs).trans (State.noteSync_onward _ _ _)
  · exact (s.performG_onward bs).trans (State.noteSync_onward _ _ _)

/-- Nothing has changed but that some dies hold fewer copies of lines, and fewer stale bytes. -/
structure State.Drops (s t : State) : Prop where
  only : t = { s with copies := t.copies, stale := t.stale }
  copies : ∀ line e, (s.copies.get line).getLsbD e = false → (t.copies.get line).getLsbD e = false
  stale : ∀ k, s.stale.get k = none → t.stale.get k = none

theorem State.Drops.refl (s : State) : s.Drops s := ⟨rfl, fun _ _ => id, fun _ => id⟩

theorem State.Drops.trans {s t u : State} (h : s.Drops t) (g : t.Drops u) : s.Drops u :=
  ⟨by rw [g.only, h.only], fun l e => g.copies l e ∘ h.copies l e, fun k => g.stale k ∘ h.stale k⟩

theorem State.Drops.mem {s t : State} (h : s.Drops t) : t.mem = s.mem := by rw [h.only]
theorem State.Drops.ops {s t : State} (h : s.Drops t) : t.ops = s.ops := by rw [h.only]

theorem State.Drops.onward {s t : State} (h : s.Drops t) : s.Onward t := by
  rw [h.only]; exact .of_same rfl rfl rfl rfl rfl

theorem State.Drops.foldl {α : Type} {f : State → α → State} (hf : ∀ (s : State) x, s.Drops (f s x)) (xs : List α) (s : State) :
    s.Drops (xs.foldl f s) := by
  induction xs generalizing s with
  | nil => exact .refl s
  | cons x xs ih => exact (hf s x).trans (ih _)

/-- Of steps that all drop copies, what one has dropped stays so. -/
theorem State.Drops.foldl_mem {α : Type} {f : State → α → State} (hf : ∀ (s : State) x, s.Drops (f s x)) {xs : List α} {x : α}
    (hx : x ∈ xs) (s : State) : ∃ u : State, (f u x).Drops (xs.foldl f s) := by
  induction xs generalizing s with
  | nil => cases hx
  | cons y ys ih =>
    rcases List.mem_cons.1 hx with rfl | hy
    · exact ⟨s, .foldl hf ys _⟩
    · exact ih hy (f s y)

theorem State.dropCopy_copies (s : State) (die line l : Nat) :
    (s.dropCopy die line).copies.get l = if l = line then s.copies.get line &&& ~~~ dieBit die else s.copies.get l :=
  Map.get_modify s.copies l line (· &&& ~~~ dieBit die)

theorem State.dropCopy_stale (s : State) (die line k : Nat) :
    (s.dropCopy die line).stale.get k = if k / 2 ^ 58 = die ∧ lineOf (k % 2 ^ 58) = line then none else s.stale.get k := by
  show Map.get (Map.keep s.stale (fun k _ => !(k / 2 ^ 58 == die && lineOf (k % 2 ^ 58) == line))) k = _
  rw [Map.get_keep]
  simp only [Bool.not_eq_true', Bool.and_eq_false_imp, beq_iff_eq, beq_eq_false_iff_ne, ne_eq, ← not_and, ite_not]
  rfl

theorem State.dropCopy_drops (s : State) (die line : Nat) : s.Drops (s.dropCopy die line) where
  only := rfl
  copies l e h := by
    rw [State.dropCopy_copies]
    split
    · next hl => rw [BitVec.getLsbD_and, ← hl, h, Bool.false_and]
    · exact h
  stale k h := by
    rw [State.dropCopy_stale]
    split
    · rfl
    · exact h

theorem State.dropCopy_onward (s : State) (die line : Nat) : s.Onward (s.dropCopy die line) := (s.dropCopy_drops die line).onward

theorem State.invalidate_drops (s : State) (dies : BitVec 4) (bs : List WByte) : s.Drops (s.invalidate dies bs) := by
  unfold State.invalidate
  exact .foldl (fun u d => .foldl (fun u b => u.dropCopy_drops d (lineOf b.key)) bs u) _ s

theorem State.acknowledge_onward (s : State) (n : Nat) (dies : BitVec 4) : s.Onward (s.acknowledge n dies) := by
  unfold State.acknowledge
  split
  · next o ho =>
    split
    · next g bs _ =>
      simp only
      split
      · exact .refl s
      · split
        · split
          · exact s.resetOp_onward ho rfl rfl
          · exact ((s.resetOp_onward (p := { o with owed := 0 }) ho rfl rfl).trans (State.performStore_onward _ _ _ _)).trans
              (State.finish_onward _ _ (fun _ _ => rfl))
        · have hi := s.invalidate_drops dies bs
          split
          · exact hi.onward.trans (State.dropOp_onward _ _)
          · exact hi.onward.trans (State.resetOp_onward _ (o := o) (by unfold State.op; rw [hi.ops]; exact ho) rfl rfl)
    · exact .refl s
  · exact .refl s

/-! ### Accesses of the firmware -/

theorem State.touch_onward (s : State) (ctx : Nat) (dies : BitVec 4) : s.Onward (s.touch ctx dies) := by
  refine s.modCtx_onward ctx ⟨rfl, id, fun m h e => h ?_, fun _ => id⟩
  rw [BitVec.and_comm, BitVec.and_or_distrib_left] at e
  rw [BitVec.and_comm]
  exact (BitVec.or_eq_zero_iff.1 e).1

theorem State.tlbFill_onward (s : State) (key size : Nat) (e : TlbEntry) : s.Onward (s.tlbFill key size e) := by
  unfold State.tlbFill
  simp only
  split
  · exact .refl s
  · exact .of_same rfl rfl rfl rfl rfl

theorem State.noteWalk_onward (s : State) (pl ctx : Nat) (w : Walk) : s.Onward (s.noteWalk pl ctx w) := by
  have hu := (s.touch_onward ctx (w.touched ||| w.home)).trans
    (.foldl (fun u e => u.tlbFill_onward (walkCacheKey (placeDie pl)) 1024 e) w.uppers _)
  unfold State.noteWalk
  simp only
  split
  · refine (hu.trans ?_).trans (State.tlbFill_onward _ _ _ _)
    split
    · exact State.tlbFill_onward _ _ _ _
    · exact .refl _
  · exact hu

theorem State.evictCopy_onward (s : State) (die : Nat) : s.Onward (s.evictCopy die) := by
  unfold State.evictCopy
  simp only
  split
  · exact .refl s
  · exact s.dropCopy_onward _ _

theorem State.fillCopy_onward (s : State) (die key : Nat) (ca : BitVec 2) (slot : BitVec 10) : s.Onward (s.fillCopy die key ca slot) := by
  unfold State.fillCopy
  split
  · next h _ =>
    simp only
    have hd : s.Onward (if ca ≠ 2 ∧ s.staleUnder die (lineOf key) slot = true then s.dropCopy die (lineOf key) else s) := by
      split
      · exact s.dropCopy_onward _ _
      · exact .refl s
    generalize (if ca ≠ 2 ∧ s.staleUnder die (lineOf key) slot = true then s.dropCopy die (lineOf key) else s) = u at hd ⊢
    split
    · exact hd
    · exact (hd.trans (State.evictCopy_onward _ die)).trans (.of_same rfl rfl rfl rfl rfl)
  · exact .refl s

theorem State.readPieces_onward (s : State) (pl ctx : Nat) (vat : Option Nat) (x : Reader) (n : Nat) (ps : List (BitVec 64 × Nat))
    (acc : List Byte) : s.Onward (s.readPieces pl ctx vat x n ps acc).1 := by
  induction ps generalizing s n acc with
  | nil => exact .refl s
  | cons p ps ih =>
    obtain ⟨va, k⟩ := p
    have hw := s.noteWalk_onward pl ctx (s.translate pl ctx va .read n)
    unfold State.readPieces
    simp only
    split
    · split
      · exact ih _ _ _
      · exact .refl s
    · split
      · split
        · exact hw
        · split
          · exact hw
          · exact (hw.trans (State.fillCopy_onward _ _ _ _ _)).trans (ih _ _ _)
      all_goals exact hw

theorem State.writePieces_onward (s : State) (pl ctx n : Nat) (ps : List (BitVec 64 × Nat)) (acc : List (Nat × BitVec 10 × Nat)) :
    s.Onward (s.writePieces pl ctx n ps acc).1 := by
  induction ps generalizing s n acc with
  | nil => exact .refl s
  | cons p ps ih =>
    obtain ⟨va, k⟩ := p
    have hw := s.noteWalk_onward pl ctx (s.translate pl ctx va .write n)
    unfold State.writePieces
    simp only
    split
    · exact hw.trans (ih _ _ _)
    all_goals exact hw

theorem State.placeWrite_onward (s : State) (pl ctx : Nat) (va : BitVec 64) (bs : List Byte) (k : Nat) :
    s.Onward (s.placeWrite pl ctx va bs k).1 := by
  have hw := s.writePieces_onward pl ctx k (rangePieces va bs.length) []
  unfold State.placeWrite
  simp only
  split
  · split
    · exact hw
    · exact hw.trans (State.performG_onward _ _)
  · exact hw

theorem State.agentWrite_onward (s : State) (ctx : Nat) (va : BitVec 64) (bs : List Byte) (k pl : Nat) :
    s.Onward (s.agentWrite ctx va bs k pl).1 := by
  have hw := s.placeWrite_onward pl ctx va bs k
  unfold State.agentWrite
  simp only
  split
  · exact hw.trans (.of_same rfl rfl rfl rfl rfl)
  · exact .of_same rfl rfl rfl rfl rfl
  · exact hw

theorem State.saveNat_onward (s : State) (ctx off n : Nat) : s.Onward (s.saveNat ctx off n).1 := s.readPieces_onward _ _ _ _ _ _ _

theorem State.saveHeader_onward (s : State) (ctx : Nat) : s.Onward (s.saveHeader ctx).1 := by
  unfold State.saveHeader
  simp only
  split
  · exact s.agentWrite_onward _ _ _ _ _
  · exact (s.agentWrite_onward _ _ _ _ _).trans (State.agentWrite_onward _ _ _ _ _ _)

theorem State.signalBehind_onward (s : State) (ctx part vector : Nat) : s.Onward (s.signalBehind ctx part vector) := by
  unfold State.signalBehind
  split <;> exact .of_same rfl rfl rfl rfl rfl

theorem State.hubWrite_onward (s : State) (bs : List WByte) : s.Onward (s.hubWrite bs) := by
  rcases s.hubWrite_cases bs with e | e
  · rw [e]; exact s.performG_onward bs
  · rw [e]; exact .of_same rfl rfl rfl rfl rfl

/-! A change of a context's own records is none of what has become of its faults. -/

theorem State.setFqwi_onward (s : State) (ctx : Nat) (n : BitVec 16) : s.Onward (s.modCtx ctx (fun c => { c with fqwi := n })) :=
  s.modCtx_onward ctx (.of_waiting rfl rfl rfl (List.Subset.refl _))
theorem State.setTerminal_onward (s : State) (ctx : Nat) (fr : Option FaultRecord) :
    s.Onward (s.modCtx ctx (fun c => { c with terminal := fr })) :=
  s.modCtx_onward ctx (.of_waiting rfl rfl rfl (List.Subset.refl _))
theorem State.setSaveUsed_onward (s : State) (ctx : Nat) (used : Context → List (Nat × Nat)) :
    s.Onward (s.modCtx ctx (fun c => { c with saveUsed := used c })) :=
  s.modCtx_onward ctx (.of_waiting rfl rfl rfl (List.Subset.refl _))

theorem State.writeRecord_onward (s : State) (ctx : Nat) (fr : FaultRecord) : s.Onward (s.writeRecord ctx fr).1 := by
  unfold State.writeRecord
  simp only
  split
  · exact s.agentWrite_onward _ _ _ _ _
  · split
    · exact (s.agentWrite_onward _ _ _ _ _).trans (State.agentWrite_onward _ _ _ _ _ _)
    · exact ((s.agentWrite_onward _ _ _ _ _).trans (State.agentWrite_onward _ _ _ _ _ _)).trans (State.setFqwi_onward _ _ _)

theorem State.queueRecord_onward (s : State) (ctx : Nat) (fr : FaultRecord) : s.Onward (s.queueRecord ctx fr).1 := by
  have h1 := s.saveNat_onward ctx 0x10 2
  have h2 := h1.trans (State.saveNat_onward _ ctx 8 4)
  have h3 := h2.trans (State.saveHeader_onward _ ctx)
  have h4 := h3.trans (State.writeRecord_onward _ ctx fr)
  unfold State.queueRecord
  simp only
  split
  · exact h1
  · exact h2
  · split
    · exact h3
    · split
      · exact h4
      · exact h4.trans (State.signalBehind_onward _ _ _ _)

/-! ### A context's terminal fault -/

theorem State.freeImage_onward (s : State) (vk : Nat) : s.Onward (s.freeImage vk) := by
  unfold State.freeImage
  simp only
  split
  · exact (s.setSaveUsed_onward _ _).trans (State.setVat_onward _ vk (v := { s.vat vk with image := none }) ⟨rfl, .inl rfl⟩)
  · exact .refl s

theorem State.vatGone_onward (s : State) (vk : Nat) : s.Onward (s.modVat vk (fun v => { v with place := .gone })) :=
  s.setVat_onward vk ⟨rfl, .inr rfl⟩

theorem State.endVat_onward (s : State) (vk : Nat) : s.Onward (s.endVat vk) := by
  unfold State.endVat
  exact (((s.modLot_onward _ _).trans (State.freeImage_onward _ vk)).trans (State.vatGone_onward _ vk)).trans
    (.foldl (fun u k => u.modWarp_onward k _) _ _)

theorem State.stopVat_onward (s : State) (vk : Nat) (discard : Bool) : s.Onward (s.stopVat vk discard) := by
  unfold State.stopVat
  have hs : s.Onward (s.setVat vk { s.vat vk with stop := some ((s.vat vk).stop.getD s.gtime), discard := (s.vat vk).discard || discard }) :=
    s.setVat_onward vk ⟨rfl, .inl rfl⟩
  refine (hs.trans ?_).trans (.foldl (fun u k => u.modWarp_onward k _) _ _)
  split
  · exact State.endVat_onward _ vk
  · exact .refl _

theorem State.noteFirst_onward (s : State) (lot : Nat) (fr : FaultRecord) : s.Onward (s.noteFirst lot fr) := s.modLot_onward _ _

theorem State.failLots_onward (s : State) (ctx : Nat) (fr : FaultRecord) (ends : LotPhase → Bool) : s.Onward (s.failLots ctx fr ends) :=
  .foldl (fun u l => (u.noteFirst_onward l fr).trans (State.modLot_onward _ _ _)) _ s

/-- What follows the mark of a terminal fault on its context, before its record is queued. -/
theorem State.terminate_after (s : State) (ctx : Nat) (fr : FaultRecord) : ∃ u : State, s.Onward u ∧ (u.ctx ctx).faulted = true ∧
    u.Onward (s.terminate ctx fr) := by
  refine ⟨_, s.modCtx_onward ctx (.of_faulted rfl rfl rfl), ?_, (State.failLots_onward _ _ _ _).trans
    (.foldl (fun u v => u.stopVat_onward v false) _ _)⟩
  rw [State.ctx_modCtx, if_pos rfl]

theorem State.terminate_onward (s : State) (ctx : Nat) (fr : FaultRecord) : s.Onward (s.terminate ctx fr) := by
  obtain ⟨u, hu, -, ht⟩ := s.terminate_after ctx fr
  exact hu.trans ht

theorem State.terminate_faulted (s : State) (ctx : Nat) (fr : FaultRecord) : ((s.terminate ctx fr).ctx ctx).faulted = true := by
  obtain ⟨u, -, hf, ht⟩ := s.terminate_after ctx fr
  exact (ht.ctx ctx).faulted hf

theorem State.queueTerminal_onward (s : State) (ctx : Nat) (fr : FaultRecord) : s.Onward (s.queueTerminal ctx fr) :=
  (s.queueRecord_onward ctx fr).trans (State.setTerminal_onward _ _ _)

/-- A second code is written into the records that wait: their own codes stand. -/
theorem State.recordCode2_onward (s : State) (ctx : Nat) (dies : BitVec 4) : s.Onward (s.recordCode2 ctx dies) := by
  unfold State.recordCode2
  split
  · refine s.modCtx_onward ctx ⟨rfl, id, fun _ => id, fun code => Or.imp id ?_⟩
    rintro ⟨fr, hm, hc⟩
    refine ⟨_, List.mem_map_of_mem hm, ?_⟩
    split <;> exact hc
  · split
    · exact .refl s
    · exact (s.setTerminal_onward _ _).trans (State.agentWrite_onward _ _ _ _ _ _)

/-- A fault comes to wait in its context. -/
theorem State.addWaiting_onward (s : State) (ctx : Nat) (fr : FaultRecord) :
    s.Onward (s.modCtx ctx (fun c => { c with waiting := c.waiting ++ [fr] })) :=
  s.modCtx_onward ctx (.of_waiting rfl rfl rfl (List.subset_append_left _ _))

theorem State.fqRead_onward (s : State) (ctx : Nat) : s.Onward (s.fqRead ctx) := s.saveNat_onward _ _ _

/-- The fault of a context in its cases (R174, R175): nothing in one that is being reset; beside the first in a faulted one; terminal; terminal,
with the record waiting; or waiting. -/
theorem State.faultContext_cases (s : State) (ctx : Nat) (fr : FaultRecord) :
    ((s.ctx ctx).resetting = true ∧ s.faultContext ctx fr = s) ∨
    ((s.ctx ctx).faulted = true ∧ s.Onward (s.faultContext ctx fr)) ∨
    (s.fqRoom ctx = true ∧ s.faultContext ctx fr = (s.terminate ctx fr).queueTerminal ctx fr) ∨
    (fr.rung = 3 ∧ s.faultContext ctx fr = ((s.fqRead ctx).terminate ctx fr).modCtx ctx (fun c => { c with waiting := [fr] })) ∨
    ((s.fqRoom ctx = false ∧ fr.rung ≠ 3) ∧ s.faultContext ctx fr = (s.fqRead ctx).modCtx ctx (fun c => { c with waiting := c.waiting ++ [fr] })) := by
  unfold State.faultContext
  split
  · next h => exact .inl ⟨h, rfl⟩
  · split
    · next h =>
      refine .inr (.inl ⟨h, ?_⟩)
      split
      · exact (s.recordCode2_onward ctx fr.dies).trans (State.failLots_onward _ _ _ _)
      · exact .refl s
    · split
      · next h => exact .inr (.inr (.inl ⟨h, rfl⟩))
      · next h =>
        by_cases hr : fr.rung = 3
        · exact .inr (.inr (.inr (.inl ⟨hr, by simp [hr]⟩)))
        · have hb : (fr.rung == 3) = false := beq_eq_false_iff_ne.2 hr
          exact .inr (.inr (.inr (.inr ⟨⟨by simpa using h, hr⟩, by simp only [hb]; rfl⟩)))

/-- A faulted context's waiting records may be replaced. -/
theorem State.setWaiting_onward (s : State) (ctx : Nat) (frs : List FaultRecord) (h : (s.ctx ctx).faulted = true) :
    s.Onward (s.modCtx ctx (fun c => { c with waiting := frs })) :=
  s.modCtx_onward ctx (.of_faulted rfl h rfl)

theorem State.faultContext_onward (s : State) (ctx : Nat) (fr : FaultRecord) : s.Onward (s.faultContext ctx fr) := by
  rcases s.faultContext_cases ctx fr with ⟨-, e⟩ | ⟨-, h⟩ | ⟨-, e⟩ | ⟨-, e⟩ | ⟨-, e⟩
  · rw [e]; exact .refl s
  · exact h
  · rw [e]; exact (s.terminate_onward ctx fr).trans (State.queueTerminal_onward _ _ _)
  · rw [e]
    exact ((s.fqRead_onward ctx).trans (State.terminate_onward _ ctx fr)).trans (State.setWaiting_onward _ _ _ (State.terminate_faulted _ _ _))
  · rw [e]; exact (s.fqRead_onward ctx).trans (State.addWaiting_onward _ _ _)

/-- A fault at once reaches a context that is not being reset, that has room in its fault queue or is faulted already; and one of the
partition rung does so without room (R176). -/
theorem State.faultContext_faulted (s : State) (ctx : Nat) (fr : FaultRecord) (hr : (s.ctx ctx).resetting = false)
    (h : (s.ctx ctx).faulted = true ∨ s.fqRoom ctx = true ∨ fr.rung = 3) : ((s.faultContext ctx fr).ctx ctx).faulted = true := by
  rcases s.faultContext_cases ctx fr with ⟨e, -⟩ | ⟨hf, g⟩ | ⟨-, e⟩ | ⟨-, e⟩ | ⟨⟨hq, hg⟩, -⟩
  · rw [hr] at e; cases e
  · exact (g.ctx ctx).faulted hf
  · rw [e]; exact ((State.queueTerminal_onward _ _ _).ctx ctx).faulted (s.terminate_faulted ctx fr)
  · rw [e, State.ctx_modCtx, if_pos rfl]; exact State.terminate_faulted _ _ _
  · rcases h with h | h | h
    · exact ((s.faultContext_onward ctx fr).ctx ctx).faulted h
    · rw [hq] at h; cases h
    · exact absurd h hg

/-- A fault reaches every context that is not being reset. -/
theorem State.faultContext_reports (s : State) (ctx : Nat) (fr : FaultRecord) (hr : (s.ctx ctx).resetting = false) :
    ((s.faultContext ctx fr).ctx ctx).Reports fr.code := by
  by_cases h : (s.ctx ctx).faulted = true ∨ s.fqRoom ctx = true ∨ fr.rung = 3
  · exact .inl (s.faultContext_faulted ctx fr hr h)
  · obtain ⟨hf, hq, hg⟩ := by simpa only [not_or] using h
    rcases s.faultContext_cases ctx fr with ⟨e, -⟩ | ⟨e, -⟩ | ⟨e, -⟩ | ⟨e, -⟩ | ⟨-, e⟩
    · rw [hr] at e; cases e
    · exact absurd e hf
    · exact absurd e hq
    · exact absurd e hg
    · rw [e, State.ctx_modCtx, if_pos rfl]
      exact .inr ⟨fr, by simp, rfl⟩

/-! ### Writes that were held for a SILENT die -/

theorem State.reach_onward (s : State) (k : Nat) (ns : List Nat) : s.Onward (s.reach k ns) := by
  unfold State.reach
  split
  · exact .refl s
  · exact s.modWarp_onward _ _

theorem State.heardBy_onward (s : State) (k : Nat) (acquire : Bool) (scope : Nat) (cs : List Carry) :
    s.Onward (s.heardBy k acquire scope cs) := by
  unfold State.heardBy State.hear
  split
  · exact .refl s
  · cases acquire
    · exact s.modWarp_onward _ _
    · exact (s.reach_onward _ _).trans (State.modWarp_onward _ _ _)

theorem State.performAtomic_onward (s : State) (o : Op) (a : AtomAcc) : s.Onward (s.performAtomic o a).1 := by
  unfold State.performAtomic
  simp only
  split
  · exact (((s.performG_onward _).trans (State.noteSync_onward _ _ _)).trans (State.heardBy_onward _ _ _ _ _)).trans
      (.of_same rfl rfl rfl rfl rfl)
  · exact ((s.performG_onward _).trans (State.noteSync_onward _ _ _)).trans (State.heardBy_onward _ _ _ _ _)

theorem State.peerStore_onward (s : State) (g : Bool) (bs : List WByte) : s.Onward (s.peerStore g bs) := by
  unfold State.peerStore
  split
  · exact s.performG_onward bs
  · have hp := s.performE_onward hubDie bs
    simp only
    split
    · exact hp
    · exact (hp.trans (State.setOp_onward _ _ _ (fun _ => ⟨rfl, rfl⟩))).trans (.of_same rfl rfl rfl rfl rfl)

theorem State.peerAccess_onward (s : State) (part pa : Nat) (acc : DomainAccess) : s.Onward (s.peerAccess part pa acc) := by
  cases acc with
  | read n => exact .of_same rfl rfl rfl rfl rfl
  | store g bs => exact s.peerStore_onward g _
  | atomic scope wide sub b c =>
    exact .ite (.refl s) ((s.performAtomic_onward _ _).trans (.of_same rfl rfl rfl rfl rfl))

theorem State.outside_onward (s : State) (part pa : Nat) (acc : DomainAccess) : s.Onward (s.outside part pa acc) :=
  .ite (.of_same rfl rfl rfl rfl rfl) (s.peerAccess_onward part pa acc)

theorem State.sendPieces_onward (s : State) (pl ctx : Nat) (ps : List (BitVec 64 × Nat)) (bs : List Byte) :
    s.Onward (s.sendPieces pl ctx ps bs) := by
  induction ps generalizing s bs with
  | nil => exact .refl s
  | cons p ps ih =>
    obtain ⟨va, k⟩ := p
    refine State.Onward.trans ?_ (ih _ _)
    split
    · exact s.placeWrite_onward _ _ _ _ _
    · exact .refl s

theorem State.sendOne_onward (s : State) (p : Posted) : s.Onward (s.sendOne p) := by
  cases p with
  | range pl ctx va bs =>
    have hw := s.agentWrite_onward ctx va bs 240 pl
    unfold State.sendOne
    simp only
    split
    · exact s.sendPieces_onward _ _ _ _
    · exact hw.trans (State.faultContext_onward _ _ _)
    · exact hw
  | bytes bs => exact s.hubWrite_onward _
  | irq ctx part v => exact s.signalBehind_onward _ _ _
  | access part pa acc => exact s.outside_onward _ _ _

theorem State.sendPosted_onward (s : State) : s.Onward s.sendPosted := by
  have h0 : s.Onward { s with posted := [] } := .of_same rfl rfl rfl rfl rfl
  exact h0.trans (.foldl State.sendOne_onward s.posted _)

/-! ### Dies as bits -/

/-- A mask names a die. -/
theorem and_dieBit_ne_zero (m : BitVec 4) (d : Nat) : m &&& dieBit d ≠ 0 ↔ m.getLsbD d = true := by
  have hb : m &&& dieBit d = if m.getLsbD d then dieBit d else 0 := BitVec.and_twoPow m d
  rw [hb]
  by_cases h : m.getLsbD d = true
  · have hd : d < 4 := BitVec.lt_of_getLsbD h
    have hall : ∀ d < 4, dieBit d ≠ 0 := by decide
    simpa only [h, if_true, iff_true] using hall d hd
  · simp [h]

theorem mem_setBits {n : Nat} (m : BitVec n) (d : Nat) : d ∈ setBits m ↔ m.getLsbD d = true := by
  rw [setBits, List.mem_filter, List.mem_range]
  exact ⟨And.right, fun h => ⟨BitVec.lt_of_getLsbD h, h⟩⟩

theorem setBits_nodup {n : Nat} (m : BitVec n) : (setBits m).Nodup := List.nodup_range.filter _

theorem setBits_dieBit {d : Nat} (h : d < 4) : setBits (dieBit d) = [d] := by
  have hall : ∀ d < 4, setBits (dieBit d) = [d] := by decide
  exact hall d h

/-- The dies of a mask as the bits of their numbers. -/
theorem dieBits_setBits (m : BitVec 4) : (setBits m).foldl (fun r d => r ||| dieBit d) 0 = m := by
  revert m; decide

/-! ### What a declaration does -/

/-- One die is declared LOST. -/
def State.declareDie (s : State) (d : Nat) : State :=
  (s.modDie d Die.lose).modHub (fun h => { h with incCopies := h.incCopies.set (16 + d) ((s.die d).inc + 1) })

theorem State.declareLost_eq (s : State) (dies : BitVec 4) : s.declareLost dies = (setBits dies).foldl State.declareDie s := rfl

theorem State.declareDie_die (s : State) (d e : Nat) : (s.declareDie d).die e = if e = d then (s.die d).lose else s.die e :=
  s.die_modDie e d Die.lose

theorem State.declareDie_incCopies (s : State) (d e : Nat) :
    (s.declareDie d).hub.incCopies.get (16 + e) = if e = d then (s.die d).inc + 1 else s.hub.incCopies.get (16 + e) := by
  show (s.hub.incCopies.set (16 + d) ((s.die d).inc + 1)).get (16 + e) = _
  rw [Map.get_set]
  simp only [Nat.add_left_cancel_iff]

theorem State.declareDies_die (ds : List Nat) (hn : ds.Nodup) (s : State) (e : Nat) :
    (ds.foldl State.declareDie s).die e = if e ∈ ds then (s.die e).lose else s.die e := by
  induction ds generalizing s with
  | nil => rfl
  | cons d ds ih =>
    obtain ⟨hd, hn⟩ := List.nodup_cons.1 hn
    rw [List.foldl_cons, ih hn, State.declareDie_die]
    by_cases he : e = d
    · subst he; simp [hd]
    · simp [he]

theorem State.declareDies_incCopies (ds : List Nat) (hn : ds.Nodup) (s : State) (e : Nat) :
    (ds.foldl State.declareDie s).hub.incCopies.get (16 + e) = if e ∈ ds then (s.die e).inc + 1 else s.hub.incCopies.get (16 + e) := by
  induction ds generalizing s with
  | nil => rfl
  | cons d ds ih =>
    obtain ⟨hd, hn⟩ := List.nodup_cons.1 hn
    rw [List.foldl_cons, ih hn, State.declareDie_die, State.declareDie_incCopies]
    by_cases he : e = d
    · subst he; simp [hd]
    · simp [he]

theorem State.declareDies_same (ds : List Nat) (s : State) :
    (ds.foldl State.declareDie s).ctxs = s.ctxs ∧ (ds.foldl State.declareDie s).vats = s.vats := by
  induction ds generalizing s with
  | nil => exact ⟨rfl, rfl⟩
  | cons d ds ih => exact ih (s.declareDie d)

theorem State.declareLost_die (s : State) (dies : BitVec 4) (e : Nat) :
    (s.declareLost dies).die e = if dies.getLsbD e then (s.die e).lose else s.die e := by
  rw [State.declareLost_eq, State.declareDies_die _ (setBits_nodup dies)]
  simp only [mem_setBits]

theorem State.declareLost_incCopies (s : State) (dies : BitVec 4) {e : Nat} (h : dies.getLsbD e = true) :
    (s.declareLost dies).hub.incCopies.get (16 + e) = (s.die e).inc + 1 := by
  rw [State.declareLost_eq, State.declareDies_incCopies _ (setBits_nodup dies), if_pos ((mem_setBits dies e).2 h)]

theorem State.declareLost_ctx (s : State) (dies : BitVec 4) (c : Nat) : (s.declareLost dies).ctx c = s.ctx c := by
  rw [State.ctx, State.declareLost_eq, (State.declareDies_same _ s).1]; rfl

theorem State.declareLost_vat (s : State) (dies : BitVec 4) (j : Nat) : (s.declareLost dies).vat j = s.vat j := by
  rw [State.vat, State.declareLost_eq, (State.declareDies_same _ s).2]; rfl

theorem State.loseOp_onward (s : State) (dies : BitVec 4) (n : Nat) : s.Onward (s.loseOp dies n) := by
  have ha := s.acknowledge_onward n dies
  unfold State.loseOp
  simp only
  split
  · exact ha
  · next o ho =>
    have hset (w : Work) : s.Onward ((s.acknowledge n dies).setOp n { o with work := w }) :=
      ha.trans (State.resetOp_onward _ ho rfl rfl)
    split
    · split
      · exact ha.trans (State.resetOp_onward _ ho rfl rfl)
      · exact ha.trans (State.dropOp_onward _ n)
    · split
      · split
        · exact ha
        · split
          · exact ha.trans (State.finish_onward _ n (fun _ _ => rfl))
          · exact hset _
      · exact hset _
      · exact hset _
      · split
        · exact ha
        · split
          · exact ha.trans (State.dropOp_onward _ n)
          · exact hset _
      · exact ha

theorem State.loseLake_onward (s : State) (dies : BitVec 4) : s.Onward (s.loseLake dies) := by
  have h0 : s.Onward { s with lake := s.lake.keep (fun k _ => dies &&& dieBit (k / 96) == 0) } := .of_same rfl rfl rfl rfl rfl
  exact h0.trans (.foldl (f := fun s n => s.finish n id) (fun u n => u.finish_onward n (fun _ => id)) _ _)

theorem State.loseStorage_onward (s : State) (dies : BitVec 4) : s.Onward (s.loseStorage dies) := .of_same rfl rfl rfl rfl rfl

theorem State.noteLost_onward (s : State) (dies : BitVec 4) : s.Onward (s.noteLost dies) := .of_same rfl rfl rfl rfl rfl

/-- What a lost vat is before its lot and its warps are told. -/
theorem State.loseVat_after (s : State) (vk : Nat) : ((s.freeImage vk).modVat vk (fun v => { v with place := .gone })).Onward (s.loseVat vk) :=
  (State.modLot_onward _ _ _).trans (.foldl (fun u k => u.modWarp_onward k _) _ _)

theorem State.loseVat_onward (s : State) (vk : Nat) : s.Onward (s.loseVat vk) :=
  ((s.freeImage_onward vk).trans (State.vatGone_onward _ vk)).trans (s.loseVat_after vk)

theorem Vat.Onward.gone {v u : Vat} (h : v.Onward u) (hv : v.place = .gone) : u.place = .gone := h.2.elim (fun e => e.trans hv) id

theorem State.loseVat_gone (s : State) (vk : Nat) : ((s.loseVat vk).vat vk).place = .gone := by
  refine ((s.loseVat_after vk).vat vk).gone ?_
  rw [State.vat_modVat, if_pos rfl]

/-- DIE_LOST of one context, if its mask names one of the dies. -/
def State.lostContext (dies : BitVec 4) (s : State) (e : Nat × Option Context) : State :=
  match e.2 with
  | some _ =>
    if (s.ctx e.1).tdmask &&& dies != 0 then
      s.faultContext e.1 { (default : FaultRecord) with
        code := fDieLost, rung := 2, dies := dies, vatnum := 0xFFFFFFFF, gtime := BitVec.ofNat 64 s.gtime }
    else s
  | none => s

theorem State.lostContexts_eq (s : State) (dies : BitVec 4) : s.lostContexts dies = s.ctxs.foldl (State.lostContext dies) s := rfl

theorem State.lostContext_onward (dies : BitVec 4) (s : State) (e : Nat × Option Context) : s.Onward (State.lostContext dies s e) := by
  unfold State.lostContext
  split
  · split
    · exact s.faultContext_onward _ _
    · exact .refl s
  · exact .refl s

theorem State.lostContexts_onward (s : State) (dies : BitVec 4) : s.Onward (s.lostContexts dies) :=
  .foldl (State.lostContext_onward dies) _ s

/-- DIE_LOST reaches every context whose mask names one of the dies (R34). -/
theorem State.lostContexts_reports (s : State) (dies : BitVec 4) (c : Nat) (hc : (s.ctxs.get c).isSome) (ht : (s.ctx c).tdmask &&& dies ≠ 0)
    (hr : (s.ctx c).resetting = false) : ((s.lostContexts dies).ctx c).Reports fDieLost := by
  obtain ⟨y, hy⟩ := Option.isSome_iff_exists.1 hc
  rw [State.lostContexts_eq]
  obtain ⟨u, hu, hs⟩ := State.Onward.foldl_mem (State.lostContext_onward dies) (Map.mem_of_get_eq_some hy) s
  refine (hs.ctx c).reports _ ?_
  have hm : ((u.ctx c).tdmask &&& dies != 0) = true := bne_iff_ne.2 ((hu.ctx c).tdmask dies ht)
  simp only [State.lostContext, hm, if_true]
  exact u.faultContext_reports c _ ((hu.ctx c).resetting.trans hr)

theorem State.mem_vatsOnDies (s : State) (dies : BitVec 4) {j : Nat} (hj : (s.vats.get j).isSome) (hp : (s.vat j).place = .resident)
    (hd : dies.getLsbD ((s.vat j).core / 44) = true) : j ∈ s.vatsOnDies dies := by
  obtain ⟨v, hv⟩ := Option.isSome_iff_exists.1 hj
  have he : s.vat j = v := by rw [State.vat, hv]; rfl
  rw [he] at hp hd
  refine List.mem_filterMap.2 ⟨(j, some v), Map.mem_of_get_eq_some hv, ?_⟩
  exact if_pos ⟨hp, (and_dieBit_ne_zero _ _).2 hd⟩

/-- What a declaration does to operations, engines and storage. -/
def State.loseWork (s : State) (ds : BitVec 4) : State :=
  (((s.ops.map (·.1)).foldl (fun s n => s.loseOp ds n) s).loseLake ds).loseStorage ds

theorem State.loseWork_onward (s : State) (ds : BitVec 4) : s.Onward (s.loseWork ds) :=
  ((State.Onward.foldl (fun u n => u.loseOp_onward ds n) _ s).trans (State.loseLake_onward _ ds)).trans (State.loseStorage_onward _ ds)

/-- What it does to the vats and lots. -/
def State.loseVats (s : State) (ds : BitVec 4) : State := ((s.vatsOnDies ds).foldl State.loseVat s).noteLost ds

theorem State.loseVats_onward (s : State) (ds : BitVec 4) : s.Onward (s.loseVats ds) :=
  (State.Onward.foldl State.loseVat_onward _ s).trans (State.noteLost_onward _ ds)

theorem State.loseVats_gone (s : State) (ds : BitVec 4) {j : Nat} (h : j ∈ s.vatsOnDies ds) : ((s.loseVats ds).vat j).place = .gone := by
  obtain ⟨x, -, hx⟩ := State.Onward.foldl_mem State.loseVat_onward h s
  exact ((hx.trans (State.noteLost_onward _ ds)).vat j).gone (x.loseVat_gone j)

theorem State.dieDown_eq (s : State) {ds : BitVec 4} (hds : ds ≠ 0) :
    s.dieDown ds = ((((s.declareLost ds).loseWork ds).loseVats ds).lostContexts ds).sendPosted := by
  have h0 : (ds == 0) = false := beq_eq_false_iff_ne.2 hds
  simp only [State.dieDown, h0, Bool.false_eq_true, if_false]
  rfl

theorem State.tellContexts_onward (s : State) (ds : BitVec 4) : s.Onward (s.lostContexts ds).sendPosted :=
  (s.lostContexts_onward ds).trans (State.sendPosted_onward _)

theorem State.dieDown_onward (s : State) {ds : BitVec 4} (hds : ds ≠ 0) : (s.declareLost ds).Onward (s.dieDown ds) := by
  rw [s.dieDown_eq hds]
  exact ((State.loseWork_onward _ ds).trans (State.loseVats_onward _ ds)).trans (State.tellContexts_onward _ ds)

theorem State.dieDown_die (s : State) {ds : BitVec 4} (hds : ds ≠ 0) (e : Nat) :
    (s.dieDown ds).die e = if ds.getLsbD e then (s.die e).lose else s.die e := by
  rw [(s.dieDown_onward hds).die, State.declareLost_die]

theorem State.dieDown_incCopies (s : State) {ds : BitVec 4} {e : Nat} (h : ds.getLsbD e = true) (hds : ds ≠ 0) :
    (s.dieDown ds).hub.incCopies.get (16 + e) = (s.die e).inc + 1 := by
  rw [(s.dieDown_onward hds).incCopies, State.declareLost_incCopies s ds h]

/-- A die's loss reaches every context that has touched it (R34). -/
theorem State.dieDown_reports (s : State) {ds : BitVec 4} (hds : ds ≠ 0) {c : Nat} (hc : (s.ctxs.get c).isSome)
    (ht : (s.ctx c).tdmask &&& ds ≠ 0) (hr : (s.ctx c).resetting = false) : ((s.dieDown ds).ctx c).Reports fDieLost := by
  have hau := ((s.declareLost ds).loseWork_onward ds).trans (State.loseVats_onward _ ds)
  have hctx := hau.ctx c
  rw [State.declareLost_ctx] at hctx
  have hsome := hau.ctxs c (by rw [State.declareLost_eq, (State.declareDies_same _ s).1]; exact hc)
  rw [s.dieDown_eq hds]
  exact ((State.sendPosted_onward _).ctx c).reports _
    (State.lostContexts_reports _ ds c hsome (hctx.tdmask ds ht) (hctx.resetting.trans hr))

/-- No vat is left on a lost die. -/
theorem State.dieDown_gone (s : State) {ds : BitVec 4} (hds : ds ≠ 0) {j : Nat} (hj : (s.vats.get j).isSome)
    (hp : (s.vat j).place = .resident ∨ (s.vat j).place = .gone) (hd : ds.getLsbD ((s.vat j).core / 44) = true) :
    ((s.dieDown ds).vat j).place = .gone := by
  have hab := (s.declareLost ds).loseWork_onward ds
  have hvat := hab.vat j
  rw [State.declareLost_vat] at hvat
  have hsome := hab.vats j (by rw [State.declareLost_eq, (State.declareDies_same _ s).2]; exact hj)
  rw [s.dieDown_eq hds]
  refine ((State.tellContexts_onward _ ds).vat j).gone ?_
  generalize (s.declareLost ds).loseWork ds = b at hvat hsome ⊢
  by_cases hg : (b.vat j).place = .gone
  · exact ((b.loseVats_onward ds).vat j).gone hg
  · have hres : (b.vat j).place = .resident := by
      rcases hp with hp | hp
      · exact (hvat.2.resolve_right hg).trans hp
      · exact absurd (hvat.gone hp) hg
    exact b.loseVats_gone ds (b.mem_vatsOnDies ds hsome hres (hvat.1 ▸ hd))

/-- The loss of some dies in what is seen of it: the dies and their incarnations, the contexts and the vats. -/
def State.Lost (s t : State) (ds : BitVec 4) : Prop :=
  (∀ e < 4, ds.getLsbD e = true → (t.die e).state = .lost ∧ (t.die e).inc = (s.die e).inc + 1 ∧ (t.die e).tasks = [] ∧
    t.hub.incCopies.get (16 + e) = (s.die e).inc + 1) ∧
  (∀ e < 4, ds.getLsbD e = false → (t.die e).state = (s.die e).state ∧ (t.die e).inc = (s.die e).inc) ∧
  (∀ c y, s.ctxs.get c = some y → y.tdmask &&& ds ≠ 0 → y.resetting = false → (t.ctx c).Reports fDieLost) ∧
  ∀ j v, s.vats.get j = some v → v.place = .resident → ds.getLsbD (v.core / 44) = true → (t.vat j).place = .gone

/-- Dies go down in a state that follows another one: what the former had, as far as the loss is concerned, is lost. -/
theorem State.Onward.dieDown_lost {s u : State} (h : s.Onward u) {ds : BitVec 4} (hds : ds ≠ 0) : s.Lost (u.dieDown ds) ds := by
  refine ⟨fun e _ he => ?_, fun e _ he => ?_, fun c y hy hm hr => ?_, fun j v hv hp hd => ?_⟩
  · rw [u.dieDown_die hds, if_pos he, u.dieDown_incCopies he hds, h.die]
    exact ⟨rfl, rfl, rfl, rfl⟩
  · rw [u.dieDown_die hds, he, h.die]
    exact ⟨rfl, rfl⟩
  · have hon := h.ctx c
    rw [show s.ctx c = y by rw [State.ctx, hy]; rfl] at hon
    exact u.dieDown_reports hds (h.ctxs c (by rw [hy]; rfl)) (hon.tdmask ds hm) (hon.resetting.trans hr)
  · obtain ⟨hcore, hplace⟩ := h.vat j
    rw [show s.vat j = v by rw [State.vat, hv]; rfl] at hcore hplace
    exact u.dieDown_gone hds (h.vats j (by rw [hv]; rfl)) (hplace.imp_left (fun e => e.trans hp)) (hcore ▸ hd)

theorem State.dieDown_lost (s : State) {ds : BitVec 4} (hds : ds ≠ 0) : s.Lost (s.dieDown ds) ds := (State.Onward.refl s).dieDown_lost hds

theorem State.dieDown_zero (s : State) : s.dieDown 0 = s := rfl

/-! ### Faults at the context rung -/

theorem State.faultWarp_after (s : State) (k : Nat) (fr : FaultRecord) (resume : Resume) :
    (s.faultContext (s.ctxOf k) fr).Onward (s.faultWarp k fr resume) := by
  unfold State.faultWarp
  exact .ite (.ite (.refl _) (State.modWarp_onward _ _ _)) (State.modWarp_onward _ _ _)

theorem State.ctxOf_noteFirst (s : State) (lot : Nat) (fr : FaultRecord) (k : Nat) : (s.noteFirst lot fr).ctxOf k = s.ctxOf k := by
  have hl (j : Nat) : ((s.noteFirst lot fr).lot j).ctx = (s.lot j).ctx := by
    unfold State.noteFirst
    rw [State.lot_modLot]
    split
    · next e =>
      rw [e]
      split
      · rfl
      · split <;> rfl
    · rfl
  exact hl _

/-- A fault that no service answers, offered to the context rung: it reaches the warp's context. -/
theorem State.offerContext_reports (s : State) (k : Nat) (fr : FaultRecord) (resume : Resume) (hs : ({ fr with rung := 2 } : FaultRecord).serviceable = false)
    (hr : (s.ctx (s.ctxOf k)).resetting = false) :
    s.Onward (s.offerContext k fr resume) ∧ ((s.offerContext k fr resume).ctx (s.ctxOf k)).Reports fr.code := by
  have hn := s.noteFirst_onward (s.vat (s.warp k).vat).lot { fr with rung := 2 }
  have hk := s.ctxOf_noteFirst (s.vat (s.warp k).vat).lot { fr with rung := 2 } k
  have hr' := ((hn.ctx (s.ctxOf k)).resetting).trans hr
  unfold State.offerContext
  simp only [hs]
  generalize s.noteFirst (s.vat (s.warp k).vat).lot { fr with rung := 2 } = u at hn hk hr' ⊢
  split
  · next h =>
    have hf : (u.ctx (s.ctxOf k)).faulted = true := by simpa [hr'] using h
    exact ⟨hn, .inl hf⟩
  · have hw := u.faultWarp_after k { fr with rung := 2 } resume
    rw [hk] at hw
    exact ⟨hn.trans ((u.faultContext_onward _ _).trans hw), (hw.ctx _).reports _ (u.faultContext_reports _ _ hr')⟩

/-! ### Acknowledgement timeouts (R205) -/

/-- Nothing has changed but memory, what is kept of it, and the operations. -/
def State.Performs (s t : State) : Prop :=
  t = { s with mem := t.mem, cores := t.cores, copies := t.copies, stale := t.stale, sync := t.sync, lineKey := t.lineKey,
               lineSlot := t.lineSlot, poison := t.poison, ops := t.ops }

theorem State.Performs.refl (s : State) : s.Performs s := rfl

theorem State.Performs.trans {s t u : State} (h : s.Performs t) (g : t.Performs u) : s.Performs u := by
  unfold State.Performs at *
  rw [g, h]

theorem State.SameBut.performs {s t : State} (h : s.SameBut t) : s.Performs t := by
  unfold State.SameBut at h
  rw [h]; rfl

theorem State.Performs.foldl {α : Type} {f : State → α → State} (hf : ∀ (s : State) x, s.Performs (f s x)) (xs : List α) (s : State) :
    s.Performs (xs.foldl f s) := by
  induction xs generalizing s with
  | nil => exact .refl s
  | cons x xs ih => exact (hf s x).trans (ih _)

theorem State.report_performs (s : State) (k : Nat) (c : OpClass) : s.Performs (s.report k c) := by
  refine .foldl (fun u n => ?_) _ s
  split
  · split <;> rfl
  · rfl

theorem State.finish_performs (s : State) (n : Nat) (f : Op → Op) : s.Performs (s.finish n f) := by
  unfold State.finish
  split
  · rfl
  · exact State.Performs.trans (t := s.setOp n _) rfl (State.report_performs _ _ _)

theorem State.performStore_performs (s : State) (o : Op) (g : Bool) (bs : List WByte) : s.Performs (s.performStore o g bs) := by
  have hs (t : State) (keys : List Nat) (cs : List Carry) : t.Performs (t.noteSync keys cs) := by
    unfold State.noteSync
    split <;> rfl
  unfold State.performStore
  cases g
  · exact (s.performE_keeps o.die bs).1.performs.trans (hs _ _ _)
  · exact (s.performG_keeps bs).1.performs.trans (hs _ _ _)

theorem State.performHeld_performs (s : State) (n : Nat) (o : Op) (f : Op → Op) : s.Performs (s.performHeld n o f) := by
  unfold State.performHeld
  split
  · exact (s.performStore_performs _ _ _).trans (State.finish_performs _ _ _)
  · rfl

theorem State.pushEarlier_performs (s : State) (n : Nat) (o : Op) : s.Performs (s.pushEarlier n o) := by
  refine .foldl (fun u e => ?_) _ s
  split
  · split
    · exact u.performHeld_performs _ _ _
    · rfl
  · rfl

/-- A store counted complete with acknowledgements missing (R205). -/
theorem State.completeLost_store (s : State) (n : Nat) (o : Op) (missing : BitVec 4) {g : Bool} {bs : List WByte} (hw : o.work = .store g bs) :
    s.Performs (s.completeLost n o missing) ∧ (s.completeLost n o missing).OpDone n := by
  unfold State.completeLost
  simp only [hw]
  refine ⟨(s.performStore_performs o true bs).trans (State.Performs.trans ?_ (State.finish_performs _ _ _)), State.finish_done _ _ (fun _ => rfl)⟩
  rfl

theorem State.acktoExpiry_store (s : State) (n : Nat) {y : Op} {bs : List WByte} (ho : s.op n = some y) (hw : y.work = .store true bs)
    (hb : bs ≠ []) (hc : y.complete = false) (hr : y.release = false) :
    execAcktoExpiry n s = .next (if y.issuedAt + s.acktoNs y.ctx ≤ s.gtime then s.ackLossStore n y else s) := by
  have hscope : y.releaseScope = none := by simp [Op.releaseScope, hw, hr]
  have hkeys : (y.work.writeKeys.isEmpty) = false := by
    rw [hw]; cases bs with
    | nil => exact absurd rfl hb
    | cons b bs => rfl
  have hg : y.work.isG = true := by rw [hw]; rfl
  unfold execAcktoExpiry
  simp only [ho, hscope, hc, hkeys, hg, List.isEmpty_nil, Bool.not_true, Bool.and_false, Bool.not_false, Bool.and_true, Bool.false_eq_true,
    if_false, if_true, decide_eq_true_eq]
  split <;> rfl

/-- ACK_LOSS of a warp whose vat is not being stopped reaches its context. -/
theorem State.ackLoss_reports (s : State) (k : Nat) {r : Raise} (hc : r.code = fAckLoss) (hstop : (s.vat (s.warp k).vat).stop = none)
    (hr : (s.ctx (s.ctxOf k)).resetting = false) :
    s.Onward (s.ackLoss k r) ∧ ((s.ackLoss k r).ctx (s.ctxOf k)).Reports fAckLoss := by
  have hcode : (s.record k r).code = fAckLoss := hc
  have hserv : ({ s.record k r with rung := 2 } : FaultRecord).serviceable = false := by
    simp only [FaultRecord.serviceable, hcode]; rfl
  simp only [State.ackLoss, hstop, Option.isSome_none, Bool.false_eq_true, if_false]
  exact hcode ▸ s.offerContext_reports k (s.record k r) .boundary hserv hr

/-- ACK_LOSS of a .G store whose place in the coherence order has come, or that stores which only a SILENT home holds back have taken there. -/
theorem State.ackLossStore_spec (s : State) (n : Nat) {y : Op} {bs : List WByte} (hw : y.work = .store true bs) (ho : y.owed ≠ 0)
    (hco : (s.pushEarlier n y).coReady n y = true) (hstop : (s.vat (s.warp y.warp).vat).stop = none)
    (hr : (s.ctx (s.ctxOf y.warp)).resetting = false) :
    ((s.ackLossStore n y).ctx (s.ctxOf y.warp)).Reports fAckLoss ∧ (s.ackLossStore n y).OpDone n := by
  have hm : (if (y.owed != 0) = true then y.owed else s.silentAcks y) = y.owed := if_pos (bne_iff_ne.2 ho)
  have hz : (y.owed == 0) = false := beq_eq_false_iff_ne.2 ho
  obtain ⟨hp, hd⟩ := (s.pushEarlier n y).completeLost_store n y y.owed hw
  have hsp := (s.pushEarlier_performs n y).trans hp
  unfold State.ackLossStore
  simp only [hm, hz, hco, Bool.false_eq_true, if_false, Bool.not_true, Bool.or_false]
  generalize (s.pushEarlier n y).completeLost n y y.owed = u at hd hsp ⊢
  have hctx : u.ctxOf y.warp = s.ctxOf y.warp := by rw [hsp]; rfl
  have hvat : (u.vat (u.warp y.warp).vat).stop = (s.vat (s.warp y.warp).vat).stop := by rw [hsp]; rfl
  have hreset : u.ctx (s.ctxOf y.warp) = s.ctx (s.ctxOf y.warp) := by rw [hsp]; rfl
  rw [← hctx] at hr hreset ⊢
  have hloss (r : Raise) (hc : r.code = fAckLoss) := u.ackLoss_reports y.warp hc (hvat.trans hstop) (hreset ▸ hr)
  refine ⟨(hloss _ ?_).2, (hloss _ ?_).1.done n hd⟩ <;> rfl

/-! ### Heartbeats and silence (spec/01 R23, R31) -/

/-- A SILENT die whose DLTO has run out, in the terms of the registers. -/
def State.Expired (s : State) (d : Nat) : Prop :=
  (s.die d).state = .silent ∧ (s.die d).silentAt + 1000 * max 10 s.hub.dlto.toNat ≤ s.gtime

theorem State.dltoOver_iff (s : State) (d : Nat) : s.dltoOver d = true ↔ s.Expired d := by
  simp only [State.dltoOver, Bool.and_eq_true, beq_iff_eq, decide_eq_true_eq]
  rfl

theorem and_not_dieBit_getLsbD (m : BitVec 4) {d : Nat} (hd : d < 4) : (m &&& ~~~ dieBit d).getLsbD d = false := by
  simp [dieBit, hd]

/-- A die that has been told of some bytes holds no copy of their lines, and no stale byte of theirs. -/
theorem State.invalidate_clears (s : State) {d : Nat} (hd : d < 4) {bs : List WByte} {b : WByte} (hb : b ∈ bs) :
    ((s.invalidate (dieBit d) bs).copies.get (lineOf b.key)).getLsbD d = false ∧
      (b.key < 2 ^ 58 → (s.invalidate (dieBit d) bs).stale.get (staleKey d b.key) = none) := by
  have he : s.invalidate (dieBit d) bs = bs.foldl (fun s b => s.dropCopy d (lineOf b.key)) s := by
    rw [State.invalidate, setBits_dieBit hd]; rfl
  obtain ⟨u, hu⟩ := State.Drops.foldl_mem (f := fun s (b : WByte) => s.dropCopy d (lineOf b.key)) (fun u b => u.dropCopy_drops d (lineOf b.key)) hb s
  rw [he]
  refine ⟨hu.copies _ _ ?_, fun hk => hu.stale _ ?_⟩
  · rw [State.dropCopy_copies, if_pos rfl]
    exact and_not_dieBit_getLsbD _ hd
  · rw [State.dropCopy_stale, if_pos]
    unfold staleKey
    exact ⟨by omega, congrArg lineOf (by omega)⟩

/-- The invalidations of one operation are delivered to a die. -/
def State.deliverInval (d : Nat) (s : State) (e : Nat × Option Op) : State :=
  match e.2 with
  | some o => if o.owed &&& dieBit d != 0 then s.invalidate (dieBit d) (o.work.writeKeys.map (fun k => ⟨k, 0, 0⟩)) else s
  | none => s

theorem State.deliverInvals_eq (s : State) (d : Nat) : s.deliverInvals d = s.ops.foldl (State.deliverInval d) s := rfl

theorem State.deliverInval_drops (d : Nat) (s : State) (e : Nat × Option Op) : s.Drops (State.deliverInval d s e) := by
  unfold State.deliverInval
  split
  · split
    · exact s.invalidate_drops _ _
    · exact .refl s
  · exact .refl s

theorem State.deliverInvals_drops (s : State) (d : Nat) : s.Drops (s.deliverInvals d) := .foldl (State.deliverInval_drops d) _ s

theorem State.deliverInvals_clears (s : State) {d m : Nat} {y : Op} (hy : s.op m = some y) (hd : d < 4) (ho : y.owed.getLsbD d = true)
    {key : Nat} (hk : key ∈ y.work.writeKeys) : ((s.deliverInvals d).copies.get (key / 128)).getLsbD d = false := by
  rw [State.deliverInvals_eq]
  obtain ⟨u, hu⟩ := State.Drops.foldl_mem (State.deliverInval_drops d) (Map.mem_of_get_eq_some hy) s
  have hne : (y.owed &&& dieBit d != 0) = true := bne_iff_ne.2 ((and_dieBit_ne_zero _ _).2 ho)
  refine hu.copies _ _ ?_
  simp only [State.deliverInval, hne, if_true]
  exact (u.invalidate_clears hd (List.mem_map_of_mem hk)).1

theorem State.flitArrives_live (s : State) (d : Nat) (h : (s.die d).state = .live) :
    s.flitArrives d = s.modDie d (fun x => { x with flit := true }) := by simp only [State.flitArrives, h]

theorem State.flitArrives_none (s : State) (d : Nat) (h : (s.die d).state ≠ .live) (hs : (s.die d).state ≠ .silent ∨ s.Expired d) :
    s.flitArrives d = s := by
  unfold State.flitArrives
  split
  · next e => exact absurd e h
  · next e =>
    have hd := (s.dltoOver_iff d).2 (hs.resolve_left (fun g => g e))
    simp only [hd, if_true]
  · rfl

theorem State.modHub_die (s : State) (f : Hub → Hub) (d : Nat) : (s.modHub f).die d = s.die d := rfl

/-- A SILENT die is heard of in time, with nothing held for it but invalidations: it is LIVE, and they have reached it. -/
theorem State.flitArrives_back (s : State) (d : Nat) (h : (s.die d).state = .silent) (he : ¬ s.Expired d)
    (hh : s.hub.held.filter (fun p => p.dst == d) = []) (hp : s.posted = []) :
    (s.flitArrives d).die d = { s.die d with state := .live, missed := 0, flit := true } ∧ (s.flitArrives d).mem = s.mem ∧
      ∀ m y, s.op m = some y → d < 4 → y.owed.getLsbD d = true → ∀ key ∈ y.work.writeKeys,
        ((s.flitArrives d).copies.get (key / 128)).getLsbD d = false := by
  have hover : s.dltoOver d = false := Bool.eq_false_iff.2 (fun g => he ((s.dltoOver_iff d).1 g))
  obtain ⟨u, hu⟩ : ∃ u, u = (s.modDie d (fun x => { x with state := .live, missed := 0, flit := true })).modHub
    (fun h => { h with held := h.held.filter (fun p => p.dst != d) }) := ⟨_, rfl⟩
  have hdrops := u.deliverInvals_drops d
  have hposted : (u.deliverInvals d).posted = [] := by rw [hdrops.only, hu]; exact hp
  have hback : s.flitArrives d = { u.deliverInvals d with posted := [] } := by
    simp only [State.flitArrives, h, hover, hh, Bool.false_eq_true, if_false, List.foldl_nil, ← hu, State.sendPosted, hposted]
  rw [hback]
  refine ⟨?_, ?_, fun m y hy hd ho key hk => ?_⟩
  · show (u.deliverInvals d).die d = _
    rw [hdrops.onward.die, hu]
    rw [State.modHub_die, State.die_modDie, if_pos rfl]
  · show (u.deliverInvals d).mem = _
    rw [hdrops.mem, hu]; rfl
  · have hyu : u.op m = some y := by rw [hu]; exact hy
    exact u.deliverInvals_clears hyu hd ho hk

/-- The end of an interval for a die. -/
def Die.interval (x : Die) (limit now : Nat) : Die :=
  let missed := if x.flit then 0 else x.missed + 1
  if x.state = .live then
    (if limit ≤ missed then { x with state := .silent, missed := missed, flit := false, silentAt := now } else { x with missed := missed, flit := false })
  else x

theorem Die.interval_live (x : Die) (limit now : Nat) (h : x.state = .live) : x.interval limit now =
    if limit ≤ (if x.flit then 0 else x.missed + 1)
    then { x with state := .silent, missed := (if x.flit then 0 else x.missed + 1), flit := false, silentAt := now }
    else { x with missed := (if x.flit then 0 else x.missed + 1), flit := false } := if_pos h

theorem Die.interval_other (x : Die) (limit now : Nat) (h : x.state ≠ .live) : x.interval limit now = x := if_neg h

theorem State.interval_die (s : State) (d e : Nat) :
    (s.interval d).die e = if e = d then (s.die d).interval s.hub.missLimit s.gtime else s.die e := by
  by_cases hl : (s.die d).state = .live
  · have hb : ((s.die d).state != .live) = false := by rw [hl]; rfl
    rw [Die.interval_live _ _ _ hl]
    simp only [State.interval, hb, Bool.false_eq_true, if_false]
    generalize (if (s.die d).flit = true then 0 else (s.die d).missed + 1) = m
    by_cases hm : s.hub.missLimit ≤ m
    · rw [if_pos hm, if_pos hm]
      exact s.die_modDie e d (fun x => { x with state := .silent, missed := m, flit := false, silentAt := s.gtime })
    · rw [if_neg hm, if_neg hm]
      exact s.die_modDie e d (fun x => { x with missed := m, flit := false })
  · rw [Die.interval_other _ _ _ hl, State.interval, if_pos (bne_iff_ne.2 hl)]
    split
    · next h => rw [h]
    · rfl

theorem State.interval_same (s : State) (d : Nat) : (s.interval d).hub.missLimit = s.hub.missLimit ∧ (s.interval d).gtime = s.gtime ∧
    (s.interval d).hub.intervals = s.hub.intervals ∧ (s.interval d).mem = s.mem := by
  unfold State.interval
  simp only
  generalize (if (s.die d).flit = true then 0 else (s.die d).missed + 1) = m
  split
  · exact ⟨rfl, rfl, rfl, rfl⟩
  · split <;> exact ⟨rfl, rfl, rfl, rfl⟩

theorem State.intervals_die (ds : List Nat) (hn : ds.Nodup) (s : State) (e : Nat) :
    (ds.foldl State.interval s).die e = if e ∈ ds then (s.die e).interval s.hub.missLimit s.gtime else s.die e := by
  induction ds generalizing s with
  | nil => rfl
  | cons d ds ih =>
    obtain ⟨hd, hn⟩ := List.nodup_cons.1 hn
    obtain ⟨hl, hg, -, -⟩ := s.interval_same d
    rw [List.foldl_cons, ih hn, State.interval_die, hl, hg]
    by_cases he : e = d
    · subst he; simp [hd]
    · simp [he]

theorem State.intervals_same (ds : List Nat) (s : State) :
    (ds.foldl State.interval s).hub.intervals = s.hub.intervals ∧ (ds.foldl State.interval s).mem = s.mem := by
  induction ds generalizing s with
  | nil => exact ⟨rfl, rfl⟩
  | cons d ds ih =>
    obtain ⟨-, -, hi, hm⟩ := s.interval_same d
    exact ⟨(ih _).1.trans hi, (ih _).2.trans hm⟩

theorem execHubIntervalTick_early (s : State) (h : s.gtime < 1000 * (s.hub.intervals + 1)) : execHubIntervalTick s = .next s := if_pos h

theorem execHubIntervalTick_due (s : State) (h : 1000 * (s.hub.intervals + 1) ≤ s.gtime) :
    ∃ t, execHubIntervalTick s = .next t ∧ t.hub.intervals = s.hub.intervals + 1 ∧ t.mem = s.mem ∧
      ∀ d < 4, t.die d = (s.die d).interval (max 1 s.hub.hbmiss.toNat) s.gtime := by
  obtain ⟨u, hu⟩ : ∃ u, u = s.modHub (fun h => { h with intervals := h.intervals + 1 }) := ⟨_, rfl⟩
  obtain ⟨hi, hm⟩ := u.intervals_same [0, 1, 2, 3]
  refine ⟨[0, 1, 2, 3].foldl State.interval u, ?_, ?_, ?_, fun d hd => ?_⟩
  · rw [hu]; exact if_neg (by omega)
  · rw [hi, hu]; rfl
  · rw [hm, hu]; rfl
  · rw [State.intervals_die _ (by decide), if_pos, hu]
    · rfl
    · simp only [List.mem_cons, List.not_mem_nil, or_false]; omega

/-! ### Dies declared LOST, reset and back (R31) -/

/-- The dies of a mask whose time has run out. -/
theorem execDltoExpiry_eq (dies : BitVec 4) (s : State) :
    execDltoExpiry dies s = .next (s.dieDown (((setBits dies).filter s.dltoOver).foldl (fun m d => m ||| dieBit d) 0)) := by
  rw [List.foldl_filter]; rfl

theorem execDltoExpiry_none (dies : BitVec 4) (s : State) (h : ∀ e < 4, dies.getLsbD e = true → ¬ s.Expired e) :
    execDltoExpiry dies s = .next s := by
  have hf : (setBits dies).filter s.dltoOver = [] := by
    rw [List.filter_eq_nil_iff]
    intro e he g
    have hb := (mem_setBits dies e).1 he
    exact h e (BitVec.lt_of_getLsbD hb) hb ((s.dltoOver_iff e).1 g)
  rw [execDltoExpiry_eq, hf]; rfl

theorem execDltoExpiry_all (dies : BitVec 4) (s : State) (h : ∀ e < 4, dies.getLsbD e = true → s.Expired e) :
    execDltoExpiry dies s = .next (s.dieDown dies) := by
  have hf : (setBits dies).filter s.dltoOver = setBits dies := by
    rw [List.filter_eq_self]
    intro e he
    have hb := (mem_setBits dies e).1 he
    exact (s.dltoOver_iff e).2 (h e (BitVec.lt_of_getLsbD hb) hb)
  rw [execDltoExpiry_eq, hf, dieBits_setBits]

theorem execDieTakeDown_live (d : Nat) (s : State) (h : (s.die d).state = .live) : execDieTakeDown d s = .next (s.dieDown (dieBit d)) := by
  simp only [execDieTakeDown, h, beq_self_eq_true, if_true]

theorem execDieTakeDown_other (d : Nat) (s : State) (h : (s.die d).state ≠ .live) : execDieTakeDown d s = .next s := by
  simp only [execDieTakeDown, beq_eq_false_iff_ne.2 h, Bool.false_eq_true, if_false, State.dieDown_zero]

theorem execDieResetStart_other (d : Nat) (s : State) (h : (s.die d).state ≠ .lost) : execDieResetStart d s = .next s :=
  if_pos (bne_iff_ne.2 h)

theorem execDieResetStart_lost (d : Nat) (s : State) (h : (s.die d).state = .lost) :
    ∃ t, execDieResetStart d s = .next t ∧ t.die d = { s.die d with state := .resetting } ∧
      ∀ key, t.mem.get key = if s.homeOfKey key = some d then 0 else s.mem.get key := by
  have hb : ((s.die d).state != .lost) = false := by rw [h]; rfl
  unfold execDieResetStart
  simp only [hb, Bool.false_eq_true, if_false]
  refine ⟨_, rfl, ?_, fun key => ?_⟩
  · rw [State.die_modDie, if_pos rfl]; rfl
  · rw [State.modDie_mem]
    refine (Map.get_keep s.mem (fun k => !(s.homeOfKey k == some d)) key).trans ?_
    by_cases hk : s.homeOfKey key = some d
    · simp only [hk, beq_self_eq_true, Bool.not_true, Bool.false_eq_true, if_false, if_true]; rfl
    · simp only [hk, beq_eq_false_iff_ne.2 hk, Bool.not_false, if_true, if_false]

theorem execDieResetDone_other (d : Nat) (s : State) (h : (s.die d).state ≠ .resetting) : execDieResetDone d s = .next s :=
  if_pos (bne_iff_ne.2 h)

/-- Every holder's copy of a die's incarnation. -/
theorem get_setHolders (m : Map (BitVec 8)) (d : Nat) (inc : BitVec 8) {h : Nat} (hh : h < 5) :
    ([0, 1, 2, 3, 4].foldl (fun m holder => m.set (4 * holder + d) inc) m).get (4 * h + d) = inc := by
  have key : ∀ (hs : List Nat) (m : Map (BitVec 8)), (h ∈ hs ∨ m.get (4 * h + d) = inc) →
      (hs.foldl (fun m holder => m.set (4 * holder + d) inc) m).get (4 * h + d) = inc := by
    intro hs
    induction hs with
    | nil => intro m hm; exact hm.resolve_left List.not_mem_nil
    | cons x xs ih =>
      intro m hm
      refine ih _ ?_
      rcases hm with hm | hm
      · rcases List.mem_cons.1 hm with rfl | hm
        · exact .inr (Map.get_set_self _ _ _)
        · exact .inl hm
      · refine .inr ?_
        rw [Map.get_set]
        split
        · rfl
        · exact hm
  exact key _ m (.inl (by simp only [List.mem_cons, List.not_mem_nil, or_false]; omega))

theorem execDieResetDone_resetting (d : Nat) (s : State) (h : (s.die d).state = .resetting) :
    ∃ t, execDieResetDone d s = .next t ∧ t.mem = s.mem ∧ t.die d = { s.die d with state := .live, missed := 0, flit := false } ∧
      ∀ h < 5, t.hub.incCopies.get (4 * h + d) = (s.die d).inc := by
  have hb : ((s.die d).state != .resetting) = false := by rw [h]; rfl
  unfold execDieResetDone
  simp only [hb, Bool.false_eq_true, if_false]
  refine ⟨_, rfl, rfl, ?_, fun h hh => get_setHolders _ d _ hh⟩
  rw [State.modHub_die, State.die_modDie, if_pos rfl]

/-! ### Packets (spec/01 R22, R25, R29, R394) -/

theorem execPacketReceive_noSource (p : Packet) (s : State) (h : 4 ≤ p.src ∨ (s.die p.src).state = .absent) :
    execPacketReceive p s = .next s := by
  have hb : (decide (4 ≤ p.src) || (s.die p.src).state == .absent) = true := by simpa using h
  simp only [execPacketReceive, hb, if_true]

/-- A packet over a neighbour link that no reroute has taken away (R22): none but the two ends see it. -/
structure State.ByNeighbour (s : State) (p : Packet) : Prop where
  src : p.src < 4
  present : (s.die p.src).state ≠ .absent
  dst : p.dst < 4
  next : p.dst = (p.src + 1) % 4
  direct : s.hub.rerouted = []

section
variable {p : Packet} {s : State} (hp : s.ByNeighbour p)
include hp

theorem State.ByNeighbour.viaHub : s.viaHub p = false := by
  obtain ⟨hs, -, hd, hn, hr⟩ := hp
  have h4 : ¬ p.dst = 4 := by omega
  have h2 : ¬ p.dst = (p.src + 2) % 4 := by omega
  simp [State.viaHub, hr, h4, h2]

theorem State.ByNeighbour.receive : execPacketReceive p s =
    if p.part ≠ (s.die p.src).part ∨ ((s.die p.dst).state ≠ .absent ∧ (s.die p.dst).part ≠ p.part)
    then .next (s.modHub (fun h => { h with log := h.log ++ [.partitionDrop p] })) else .next (s.deliverPacket p) := by
  have hb : (decide (4 ≤ p.src) || (s.die p.src).state == .absent) = false := by
    simp [hp.src, hp.present]
  simp only [execPacketReceive, hb, hp.viaHub, Bool.false_eq_true, if_false, hp.dst, decide_true, Bool.true_and, Bool.or_eq_true,
    Bool.and_eq_true, bne_iff_ne]

theorem State.ByNeighbour.receive_drop (h : p.part ≠ (s.die p.src).part ∨ (s.die p.dst).part ≠ p.part) (hd : (s.die p.dst).state ≠ .absent) :
    execPacketReceive p s = .next (s.modHub (fun h => { h with log := h.log ++ [.partitionDrop p] })) := by
  rw [hp.receive, if_pos (h.imp_right (fun g => ⟨hd, g⟩))]

theorem State.ByNeighbour.deliver (h : p.part = (s.die p.src).part) (hd : (s.die p.dst).state = .absent ∨ (s.die p.dst).part = p.part) :
    execPacketReceive p s = .next (s.deliverPacket p) := by
  rw [hp.receive, if_neg]
  rintro (g | ⟨g, k⟩)
  · exact g h
  · exact hd.elim g k

theorem State.ByNeighbour.notHub : (p.dst == 4) = false := beq_eq_false_iff_ne.2 (by have := hp.dst; omega)

theorem State.ByNeighbour.receive_absent (h : p.part = (s.die p.src).part) (hd : (s.die p.dst).state = .absent) :
    execPacketReceive p s = .next (s.modHub (fun h => { h with log := h.log ++ [.absentDrop p] })) := by
  simp only [hp.deliver h (.inl hd), State.deliverPacket, hp.notHub, hd, Bool.false_eq_true, if_false]

theorem State.ByNeighbour.receive_silent (h : p.part = (s.die p.src).part) (hb : (s.die p.dst).part = p.part)
    (hd : (s.die p.dst).state = .silent) : execPacketReceive p s = .next (s.modHub (fun h => { h with held := h.held ++ [p] })) := by
  simp only [hp.deliver h (.inr hb), State.deliverPacket, hp.notHub, hd, Bool.false_eq_true, if_false]

theorem State.ByNeighbour.receive_gone (h : p.part = (s.die p.src).part) (hb : (s.die p.dst).part = p.part)
    (hd : (s.die p.dst).state = .lost ∨ (s.die p.dst).state = .resetting) (ho : p.payload = .other) : execPacketReceive p s = .next s := by
  rcases hd with hd | hd <;>
    simp only [hp.deliver h (.inr hb), State.deliverPacket, hp.notHub, hd, ho, Bool.false_eq_true, if_false]

theorem State.ByNeighbour.receive_live (h : p.part = (s.die p.src).part) (hb : (s.die p.dst).part = p.part)
    (hd : (s.die p.dst).state = .live) : execPacketReceive p s = .next (s.judge p) := by
  simp only [hp.deliver h (.inr hb), State.deliverPacket, hp.notHub, hd, Bool.false_eq_true, if_false]

end

theorem Die.stalePacket_eq (x : Die) : x.stalePacket = { x with stale := if x.stale = 0xFFFF then x.stale else x.stale + 1 } := by
  simp only [Die.stalePacket, beq_iff_eq]

/-- What R29 compares: how far the receiver's copy of the source's incarnation is ahead of the packet's. -/
def State.incDelta (s : State) (p : Packet) : BitVec 8 := s.hub.incCopies.get (4 * p.dst + p.src) - p.inc

/-- R29 at the receiver, case by case. -/
theorem State.judge_gone (s : State) (p : Packet) (h : (s.die p.src).state = .lost ∨ (s.die p.src).state = .resetting) :
    s.judge p = s.modDie p.src Die.stalePacket := by
  have hb : ((s.die p.src).state == .lost || (s.die p.src).state == .resetting) = true := by simpa using h
  simp only [State.judge, hb, if_true]

theorem State.judge_here (s : State) (p : Packet) (h : (s.die p.src).state = .live ∨ (s.die p.src).state = .silent) :
    s.judge p = if s.incDelta p = 0 then s.accept p else if s.incDelta p ≤ 128 then s.modDie p.src Die.stalePacket
      else s.modHub (fun h => { h with log := h.log ++ [.linkError p.src] }) := by
  have hb : ((s.die p.src).state == .lost || (s.die p.src).state == .resetting) = false := by
    rcases h with h | h <;> rw [h] <;> rfl
  simp only [State.judge, hb, Bool.false_eq_true, if_false, beq_iff_eq]
  rfl

theorem State.judge_accept (s : State) (p : Packet) (h : (s.die p.src).state = .live ∨ (s.die p.src).state = .silent) (hz : s.incDelta p = 0) :
    s.judge p = s.accept p := by rw [s.judge_here p h, if_pos hz]

theorem State.judge_stale (s : State) (p : Packet) (h : (s.die p.src).state = .live ∨ (s.die p.src).state = .silent) (hz : s.incDelta p ≠ 0)
    (hl : s.incDelta p ≤ 128) : s.judge p = s.modDie p.src Die.stalePacket := by rw [s.judge_here p h, if_neg hz, if_pos hl]

theorem State.judge_linkError (s : State) (p : Packet) (h : (s.die p.src).state = .live ∨ (s.die p.src).state = .silent)
    (hl : 128 < s.incDelta p) : s.judge p = s.modHub (fun h => { h with log := h.log ++ [.linkError p.src] }) := by
  have hz : s.incDelta p ≠ 0 := fun e => by rw [e] at hl; exact absurd hl (by decide)
  rw [s.judge_here p h, if_neg hz, if_neg (by bv_omega)]

theorem State.accept_other (s : State) (p : Packet) (h : p.payload = .other) : s.accept p = s := by simp only [State.accept, h]

/-- An invalidation reaches its die: the die's copies of the lines of the store are gone. -/
theorem State.accept_inval (s : State) (p : Packet) {m : Nat} {o : Op} (hd : p.dst < 4) (h : p.payload = .inval m) (ho : s.op m = some o) :
    (s.accept p).mem = s.mem ∧ (s.accept p).ops = s.ops ∧ ∀ key ∈ o.work.writeKeys,
      ((s.accept p).copies.get (key / 128)).getLsbD p.dst = false ∧ (key < 2 ^ 58 → (s.accept p).stale.get (staleKey p.dst key) = none) := by
  have he : s.accept p = s.invalidate (dieBit p.dst) (o.work.writeKeys.map (fun k => ⟨k, 0, 0⟩)) := by simp only [State.accept, h, ho]
  have hdrops := s.invalidate_drops (dieBit p.dst) (o.work.writeKeys.map (fun k => ⟨k, 0, 0⟩))
  rw [he]
  exact ⟨hdrops.mem, hdrops.ops, fun key hk => s.invalidate_clears hd (List.mem_map_of_mem (f := fun k => (⟨k, 0, 0⟩ : WByte)) hk)⟩

/-! ### Links (spec/01 R17, R22) -/

theorem linkTo_hub {e : Nat} (h : e < 4) : linkTo e 4 = some .hub := by simp [linkTo, h]

theorem linkTo_clockwise {e : Nat} (h : e < 4) : linkTo e ((e + 1) % 4) = some .clockwise := by
  have h4 : ¬ (e + 1) % 4 = 4 := by omega
  simp [linkTo, clockwiseOf, h, h4]

theorem linkTo_counterClockwise {e : Nat} (h : e < 4) : linkTo e ((e + 3) % 4) = some .counterClockwise := by
  have h4 : ¬ (e + 3) % 4 = 4 := by omega
  have h1 : ¬ (e + 3) % 4 = (e + 1) % 4 := by omega
  simp [linkTo, clockwiseOf, counterClockwiseOf, h, h4, h1]

/-- A die has no link to itself, to the opposite die, or beyond the package. -/
theorem linkTo_none {e y : Nat} (h : 4 ≤ e ∨ y = e ∨ y = (e + 2) % 4 ∨ 5 ≤ y) : linkTo e y = none := by
  unfold linkTo clockwiseOf counterClockwiseOf
  split
  · rfl
  · rw [if_neg (by omega), if_neg (by omega), if_neg (by omega)]

/-- The compute die's end of a link, which the error log speaks of, and the other one. -/
theorem execFlitCrcFail_some {src dst k l : Nat} {side : LinkSide} (s : State)
    (h : linkTo (if dst < 4 then dst else src) (if dst < 4 then src else dst) = some side) :
    execFlitCrcFail src ⟨dst, k, l⟩ s = .next (s.modHub (fun h => { h with log := h.log ++
      [.flitError src dst (side.module (if dst < 4 then dst else src) k) (side.lane (if dst < 4 then dst else src) l)] })) := by
  simp only [execFlitCrcFail, h]

theorem execFlitCrcFail_none {src dst k l : Nat} (s : State)
    (h : linkTo (if dst < 4 then dst else src) (if dst < 4 then src else dst) = none) : execFlitCrcFail src ⟨dst, k, l⟩ s = .next s := by
  simp only [execFlitCrcFail, h]

/-- A neighbour link that works: both its dies are LIVE and of one partition, and their traffic still takes it. -/
def State.LinkWorks (s : State) (d : Nat) : Prop :=
  d < 4 ∧ (s.die d).state = .live ∧ (s.die ((d + 1) % 4)).state = .live ∧ (s.die d).part = (s.die ((d + 1) % 4)).part ∧ d ∉ s.hub.rerouted

theorem execNeighbourLinkRetrainFail_cases (d : Nat) (s : State) :
    (s.LinkWorks d → execNeighbourLinkRetrainFail d s =
      .next (s.modHub (fun h => { h with rerouted := h.rerouted ++ [d], log := h.log ++ [.reroute d] }))) ∧
    (¬ s.LinkWorks d → execNeighbourLinkRetrainFail d s = .next s) := by
  have hb : (decide (4 ≤ d) || (s.die d).state != .live || (s.die (clockwiseOf d)).state != .live
      || (s.die d).part != (s.die (clockwiseOf d)).part || s.hub.rerouted.contains d) = true ↔ ¬ s.LinkWorks d := by
    simp only [State.LinkWorks, clockwiseOf, Bool.or_eq_true, decide_eq_true_eq, bne_iff_ne, List.contains_iff_mem, not_and_or, not_not,
      or_assoc, Nat.not_lt, ne_eq]
  exact ⟨fun h => if_neg (fun g => hb.1 g h), fun h => if_pos (hb.2 h)⟩

/-! ### Uncorrectable errors (spec/07 R176, R186) -/

/-- One context of the partition is faulted. -/
def State.faultIn (part : Nat) (fr : FaultRecord) (s : State) (e : Nat × Option Context) : State :=
  match e.2 with
  | some c => if c.part = part then s.faultContext e.1 { fr with rung := 3, replay := false } else s
  | none => s

theorem State.faultPartition_eq (s : State) (part : Nat) (fr : FaultRecord) : s.faultPartition part fr =
    s.ctxs.foldl (State.faultIn part fr) (s.modPart part (fun p => { p with rungAt := some (p.rungAt.getD s.gtime) })) := rfl

theorem State.faultIn_onward (part : Nat) (fr : FaultRecord) (s : State) (e : Nat × Option Context) : s.Onward (State.faultIn part fr s e) := by
  unfold State.faultIn
  split
  · exact .ite (s.faultContext_onward _ _) (.refl s)
  · exact .refl s

theorem State.faultPartition_onward (s : State) (part : Nat) (fr : FaultRecord) : s.Onward (s.faultPartition part fr) :=
  (s.modPart_onward part _).trans (.foldl (State.faultIn_onward part fr) _ _)

/-- The partition rung faults every context of the partition that is not being reset (R176). -/
theorem State.faultPartition_faulted (s : State) (part : Nat) (fr : FaultRecord) {c : Nat} {y : Context} (hy : s.ctxs.get c = some y)
    (hp : y.part = part) (hr : y.resetting = false) : ((s.faultPartition part fr).ctx c).faulted = true := by
  rw [State.faultPartition_eq]
  obtain ⟨u, hu, hs⟩ := State.Onward.foldl_mem (State.faultIn_onward part fr) (Map.mem_of_get_eq_some hy)
    (s.modPart part (fun p => { p with rungAt := some (p.rungAt.getD s.gtime) }))
  have hc : s.ctx c = y := by rw [State.ctx, hy]; rfl
  refine (hs.ctx c).faulted ?_
  have hin : State.faultIn part fr u (c, some y) = u.faultContext c { fr with rung := 3, replay := false } := if_pos hp
  rw [hin]
  exact u.faultContext_faulted c _ ((((s.modPart_onward part _).trans hu).ctx c).resetting.trans (hc ▸ hr)) (.inr (.inr rfl))

theorem execUncorrectableError_taskArray (d k : Nat) (s : State) (h : (s.ctxs.get k).isSome = true) (hr : (s.ctx k).resetting = false) :
    ∃ t, execUncorrectableError (.taskArray d k) s = .next t ∧
      ((s.ctx k).faulted = true ∨ s.fqRoom k = true → (t.ctx k).faulted = true) ∧ (t.ctx k).Reports fEcc :=
  ⟨_, if_pos h, fun hf => s.faultContext_faulted k _ hr (hf.imp_right .inl), s.faultContext_reports k _ hr⟩

/-- A distributor's error takes its die down. -/
theorem execUncorrectableError_distributor (d : Nat) (s : State) (h : (s.die d).state = .live) (hd : d < 4) :
    ∃ t, execUncorrectableError (.distributor d) s = .next t ∧ s.Lost t (dieBit d) := by
  have hon := s.faultPartition_onward (s.die d).part s.eccRecord
  have hl : (((s.faultPartition (s.die d).part s.eccRecord).die d).state == .live) = true := by rw [hon.die, h]; rfl
  have hne : dieBit d ≠ 0 := by
    have hall : ∀ d < 4, dieBit d ≠ 0 := by decide
    exact hall d hd
  refine ⟨_, rfl, ?_⟩
  rw [State.takeDownFor, if_pos hl]
  exact (hon.trans (State.modPart_onward _ _ _)).dieDown_lost hne

/-- An error in a vat's arrays waits for the clause boundary of its lowest live warp (R171). -/
theorem execUncorrectableError_vatArray (k j : Nat) (v : Vat) (s : State) (hv : s.vats.get k = some v) (hp : v.place = .resident)
    (hs : v.stop = none) (hj : s.liveWarp k = some j) : ∃ t fr, execUncorrectableError (.vatArray k) s = .next t ∧
      t = s.setWarp j { s.warp j with async := (s.warp j).async ++ [fr] } ∧ fr.code = 0x0B ∧ fr.rung = 1 := by
  have hk : s.vat k = v := by rw [State.vat, hv]; rfl
  have hb : (v.place != .resident || v.stop.isSome) = false := by rw [hp, hs]; rfl
  refine ⟨_, { s.record j { code := fEcc, flm := 0, fpc := 0, info := Config.freeWord s.fresh 0 } with rung := 1 }, rfl, ?_, rfl, rfl⟩
  simp only [State.vatEcc, hk, hb, hj, Bool.false_eq_true, if_false]
  rfl

theorem execUncorrectableError_memoryLine (line : Nat) (s : State) (h : s.homeOfKey (128 * line) ≠ none) :
    execUncorrectableError (.memoryLine line) s = .next { s with poison := s.poison.set line (BitVec.allOnes 128) } :=
  if_pos (Option.isSome_iff_ne_none.2 h)

theorem execUncorrectableError_noLine (line : Nat) (s : State) (h : s.homeOfKey (128 * line) = none) :
    execUncorrectableError (.memoryLine line) s = .next s := if_neg (by rw [h]; exact Bool.false_ne_true)

/-- The partition rung resolved, at its 20 ms, and before (R176). -/
theorem State.partitionRung_cases (s : State) (k at' : Nat) (h : (s.part k).rungAt = some at') :
    (s.rungDone k = true → s.partitionRung k = s.modPart k (fun p => { p with rungAt := none, rungDies := 0 })) ∧
    (s.rungDone k = false → at' + 20000000 ≤ s.gtime → (s.partitionRung k).hub.devst = .booting ∧ (s.partitionRung k).ctxs = []) ∧
    (s.rungDone k = false → s.gtime < at' + 20000000 → s.partitionRung k = s) := by
  simp only [State.partitionRung, h]
  refine ⟨fun hd => if_pos hd, fun hd ht => ?_, fun hd ht => ?_⟩
  · simp only [hd, Bool.false_eq_true, if_false, if_pos ht]
    exact ⟨rfl, rfl⟩
  · simp only [hd, Bool.false_eq_true, if_false, if_neg (Nat.not_le.2 ht)]

/-- Settles O53: every clause is one of the lemmas above; the loss of dies is `State.Onward.dieDown_lost`, and what becomes of a late store
`State.ackLossStore_spec`. -/
theorem dieStates : Obligations.DieStates := by
  intro s d dies p src dst n line k l x bit hub expired faults lost a b stale log delta recv o acktoNs
  have hbit : bit d = dieBit d := rfl
  -- the loss of dies, whatever brings it about
  have hlost (i : Instr) (ds : BitVec 4) (h : ds ≠ 0 → ∃ t, exec i s = .next t ∧ s.Lost t ds) : lost i ds := fun hds => h hds
  refine ⟨?heard, ?back, ?unheard, ?early, ?interval, ?inTime, ?expiry, ?notTaken, ?takeDown, ?notStarted, ?resetStart, ?notDone, ?resetDone,
    ?noSource, ?packets, ?flits, ?links, ?noOp, ?ackto, ?mordant, ?hubLoss, ?laneRegister, ?predicate, ?memoryLine, ?noLine, ?taskArray,
    ?partition, ?translation, ?distributor, ?vatArray, ?rung⟩
  case heard => exact fun h => congrArg _ (s.flitArrives_live d h)
  case back =>
    intro h he hh hp
    obtain ⟨hdie, hmem, hcopies⟩ := s.flitArrives_back d h he hh hp
    exact ⟨_, rfl, hdie, hmem, hcopies⟩
  case unheard => exact fun h hs => congrArg _ (s.flitArrives_none d h hs)
  case early => exact execHubIntervalTick_early s
  case interval => exact execHubIntervalTick_due s
  case inTime => exact execDltoExpiry_none dies s
  case expiry => exact fun h => hlost _ _ (fun hds => ⟨_, execDltoExpiry_all dies s h, s.dieDown_lost hds⟩)
  case notTaken => exact execDieTakeDown_other d s
  case takeDown => exact fun _ h => hlost _ _ (fun hds => ⟨_, execDieTakeDown_live d s h, hbit ▸ s.dieDown_lost hds⟩)
  case notStarted => exact execDieResetStart_other d s
  case resetStart => exact execDieResetStart_lost d s
  case notDone => exact execDieResetDone_other d s
  case resetDone => exact fun h _ => execDieResetDone_resetting d s h
  case noSource => exact execPacketReceive_noSource p s
  case packets =>
    intro hs ha hd hn hr
    have hp : s.ByNeighbour p := ⟨hs, ha, hd, hn, hr⟩
    refine ⟨fun h hb => hp.receive_drop h hb, fun h hb => hp.receive_absent h hb, fun h hb => ⟨fun hx => hp.receive_silent h hb hx,
      fun hx ho => hp.receive_gone h hb hx ho, fun hx => ?_⟩⟩
    have hj : recv (s.judge p) := hp.receive_live h hb hx
    have hstale : s.modDie p.src Die.stalePacket = stale := congrArg (s.modDie p.src) (funext Die.stalePacket_eq)
    refine ⟨fun hg => ?_, fun hg => ⟨fun hz hl => ?_, fun hl => ?_, fun hz ho => ?_, fun m q hz hi hq => ?_⟩⟩
    · rwa [s.judge_gone p hg, hstale] at hj
    · rwa [s.judge_stale p hg hz hl, hstale] at hj
    · rwa [s.judge_linkError p hg hl] at hj
    · rwa [s.judge_accept p hg hz, s.accept_other p ho] at hj
    · rw [s.judge_accept p hg hz] at hj
      exact ⟨_, hj, s.accept_inval p hd hi hq⟩
  case flits =>
    refine ⟨fun he => ⟨fun hy => ?_, fun hy => ?_, fun hy => ?_⟩, fun h => execFlitCrcFail_none s (linkTo_none h)⟩
    · exact execFlitCrcFail_some s ((congrArg (linkTo _) hy).trans (linkTo_hub he))
    · exact execFlitCrcFail_some s ((congrArg (linkTo _) hy).trans (linkTo_clockwise he))
    · exact execFlitCrcFail_some s ((congrArg (linkTo _) hy).trans (linkTo_counterClockwise he))
  case links => exact execNeighbourLinkRetrainFail_cases d s
  case noOp =>
    intro h
    rw [exec_acktoExpiry, execAcktoExpiry, show s.op n = none from h]
  case ackto =>
    intro y bs ho hw hb hc hr
    have hrun := s.acktoExpiry_store n ho hw hb hc hr
    refine ⟨fun ht => ?_, fun ht hne hco hstop _ hreset => ?_⟩
    · exact hrun.trans (congrArg _ (if_neg (Nat.not_le.2 ht)))
    · obtain ⟨hrep, hdone⟩ := s.ackLossStore_spec n hw hne hco hstop hreset
      exact ⟨_, hrun.trans (congrArg _ (if_pos ht)), hrep, hdone⟩
  case mordant => rfl
  case hubLoss => exact ⟨_, rfl, rfl, rfl, rfl, rfl⟩
  case laneRegister => rfl
  case predicate => rfl
  case memoryLine => exact execUncorrectableError_memoryLine line s
  case noLine => exact execUncorrectableError_noLine line s
  case taskArray => exact execUncorrectableError_taskArray d k s
  case partition =>
    rintro site (rfl | rfl)
    · exact ⟨_, rfl, fun c y hy hp hr => s.faultPartition_faulted k _ hy hp hr⟩
    · exact ⟨_, rfl, fun c y hy hp hr => s.faultPartition_faulted k _ hy hp hr⟩
  case translation => exact ⟨_, rfl, rfl⟩
  case distributor => exact fun h hd => hlost _ _ (fun _ => execUncorrectableError_distributor d s h hd)
  case vatArray => exact fun v hv hp hs j hj => execUncorrectableError_vatArray k j v s hv hp hs hj
  case rung => exact fun at' h => s.partitionRung_cases k at' h

end Sys2Proof.Machine
end

section
/-! PROOFS. What every step keeps (spec/03 R73, `State.Inv`) and the reset state: a lemma for each function of the model that makes a state, in
the model's order, says that the state it leaves meets the invariant where the state it starts from does. Nearly all of them touch neither memory
nor FEATACC but through the few that do: the stores performed, the lines discarded, the reset and the write of FEATACC. -/

namespace Sys2Proof.Machine

/-- The state that an outcome leaves, if it leaves one, meets the invariant. -/
def OutInv : Out → Prop
  | .next t => t.Inv
  | _ => True

theorem OutInv.next {t : State} (h : t.Inv) : OutInv (.next t) := h

/-- Only memory and FEATACC count. -/
theorem State.Inv.of_eq {s t : State} (h : s.Inv) (hm : t.mem = s.mem) (hh : t.hub.featacc = s.hub.featacc) : t.Inv := by
  unfold State.Inv
  rw [hm, hh]
  exact h

theorem State.Inv.of_wf {s t : State} (h : s.Inv) (hm : s.mem.wf = true → t.mem.wf = true) (hh : t.hub = s.hub) : t.Inv := by
  obtain ⟨hw, hf⟩ := h
  exact ⟨hm hw, hh ▸ hf⟩

theorem State.Inv.foldl {α : Type} {f : State → α → State} {xs : List α} {s : State} (hf : ∀ u x, u.Inv → (f u x).Inv) (h : s.Inv) :
    (xs.foldl f s).Inv := by
  induction xs generalizing s with
  | nil => exact h
  | cons x xs ih => exact ih (hf s x h)

theorem State.modHub_inv {s : State} {f : Hub → Hub} (hf : (f s.hub).featacc = s.hub.featacc) (h : s.Inv) : (s.modHub f).Inv := h.of_eq rfl hf

/-- The same of a fold that gathers something beside the state. -/
theorem State.Inv.foldl_fst {α β : Type} {f : State × β → α → State × β} {xs : List α} {r : State × β}
    (hf : ∀ r x, r.1.Inv → (f r x).1.Inv) (h : r.1.Inv) : (xs.foldl f r).1.Inv := by
  induction xs generalizing r with
  | nil => exact h
  | cons x xs ih => exact ih (hf r x h)

theorem State.SameBut.hub_eq {s t : State} (g : s.SameBut t) : t.hub = s.hub := by rw [g]

theorem State.performG_inv {s : State} {bs : List WByte} (h : s.Inv) : (s.performG bs).Inv :=
  h.of_wf (s.performG_keeps bs).2 (s.performG_keeps bs).1.hub_eq

theorem State.performE_inv {s : State} {die : Nat} {bs : List WByte} (h : s.Inv) : (s.performE die bs).Inv :=
  h.of_wf (s.performE_keeps die bs).2 (s.performE_keeps die bs).1.hub_eq

section

variable {s : State} {st : BitVec 2} {d a b c : Code} {sub : BitVec 4} {pd ps : BitVec 3} {pn : BitVec 1} {imm7 : BitVec 7}
  {k n ctx vk die core warp part lot eng fn op : Nat} {va : BitVec 64} {dies : BitVec 4} {o : Op} {g : Sig} {fr : FaultRecord}
  {num : BitVec 14}

/-! #### Operations in flight -/

theorem State.setWarp_inv {w : Warp} (h : s.Inv) : (s.setWarp k w).Inv := h
theorem State.modWarp_inv {f : Warp → Warp} (h : s.Inv) : (s.modWarp k f).Inv := State.setWarp_inv h
theorem State.setW_inv {w : Warp} (h : s.Inv) : (s.setW w).Inv := State.setWarp_inv h
theorem State.modW_inv {f : Warp → Warp} (h : s.Inv) : (s.modW f).Inv := State.setW_inv h
theorem State.setVat_inv {v : Vat} (h : s.Inv) : (s.setVat k v).Inv := h
theorem State.modVat_inv {f : Vat → Vat} (h : s.Inv) : (s.modVat k f).Inv := State.setVat_inv h
theorem State.modV_inv {f : Vat → Vat} (h : s.Inv) : (s.modV f).Inv := State.modVat_inv h
theorem State.setLot_inv {l : Lot} (h : s.Inv) : (s.setLot k l).Inv := h
theorem State.modLot_inv {f : Lot → Lot} (h : s.Inv) : (s.modLot k f).Inv := State.setLot_inv h
theorem State.setCtx_inv {c : Context} (h : s.Inv) : (s.setCtx k c).Inv := h
theorem State.modCtx_inv {f : Context → Context} (h : s.Inv) : (s.modCtx k f).Inv := State.setCtx_inv h
theorem State.setOp_inv (h : s.Inv) : (s.setOp k o).Inv := h
theorem State.dropOp_inv (h : s.Inv) : (s.dropOp k).Inv := h
theorem State.modPart_inv {f : Partition → Partition} (h : s.Inv) : (s.modPart k f).Inv := h
theorem State.modDie_inv {f : Die → Die} (h : s.Inv) : (s.modDie k f).Inv := h
theorem State.modCore_inv {f : Core → Core} (h : s.Inv) : (s.modCore k f).Inv := h
theorem State.modEng_inv {f : LakeEngine → LakeEngine} (h : s.Inv) : (s.modEng k f).Inv := h
theorem State.tick_inv (h : s.Inv) : s.tick.Inv := h

theorem State.report_inv {c : OpClass} (h : s.Inv) : (s.report warp c).Inv := by
  unfold State.report
  dsimp only
  refine State.Inv.foldl (fun u x hu => ?_) h
  split
  · split
    · exact State.dropOp_inv hu
    · exact State.setOp_inv hu
  · exact hu

theorem State.startOp_inv {cls : OpClass} {work : Work} {lanes : Lanes} (h : s.Inv) : (s.startOp cls work lanes va).Inv := h

/-! #### Memory, translation and the caches -/

theorem State.touch_inv (h : s.Inv) : (s.touch ctx dies).Inv := State.modCtx_inv h

theorem State.tlbFill_inv {key size : Nat} {e : TlbEntry} (h : s.Inv) : (s.tlbFill key size e).Inv := by
  unfold State.tlbFill
  dsimp only
  split <;> exact h

theorem State.noteWalk_inv {pl : Nat} {w : Walk} (h : s.Inv) : (s.noteWalk pl ctx w).Inv := by
  unfold State.noteWalk
  dsimp only
  split
  · refine State.tlbFill_inv ?_
    split
    · exact State.tlbFill_inv (State.Inv.foldl (fun _ _ hu => State.tlbFill_inv hu) (State.touch_inv h))
    · exact State.Inv.foldl (fun _ _ hu => State.tlbFill_inv hu) (State.touch_inv h)
  · exact State.Inv.foldl (fun _ _ hu => State.tlbFill_inv hu) (State.touch_inv h)

theorem State.dropCopy_inv {line : Nat} (h : s.Inv) : (s.dropCopy die line).Inv := h

theorem State.evictCopy_inv (h : s.Inv) : (s.evictCopy die).Inv := by
  unfold State.evictCopy
  dsimp only
  split
  · exact h
  · exact State.dropCopy_inv h

theorem State.fillCopy_inv {key : Nat} {ca : BitVec 2} {slot : BitVec 10} (h : s.Inv) : (s.fillCopy die key ca slot).Inv := by
  unfold State.fillCopy
  dsimp only
  split
  · split
    · split
      · exact State.dropCopy_inv h
      · exact State.evictCopy_inv (State.dropCopy_inv h)
    · split
      · exact h
      · exact State.evictCopy_inv h
  · exact h

theorem State.keepStale_inv {key : Nat} (h : s.Inv) : (s.keepStale key dies).Inv := by
  unfold State.keepStale
  refine State.Inv.foldl (fun u x hu => ?_) h
  split <;> exact hu

theorem State.dropL1_inv {line : Nat} (h : s.Inv) : (s.dropL1 dies line).Inv := by
  unfold State.dropL1
  split <;> exact h

theorem State.freshen_inv {key : Nat} (h : s.Inv) : (s.freshen die key).Inv := State.dropL1_inv h

theorem State.readPieces_inv {s : State} {pl ctx : Nat} {vat : Option Nat} {x : Reader} {n : Nat} {ps : List (BitVec 64 × Nat)}
    {acc : List Byte} (h : s.Inv) : (s.readPieces pl ctx vat x n ps acc).1.Inv := by
  induction ps generalizing s n acc with
  | nil => exact h
  | cons p ps ih =>
    unfold State.readPieces
    dsimp only
    split
    · split
      · exact ih h
      · exact h
    · split
      · split
        · exact State.noteWalk_inv h
        · split
          · exact State.noteWalk_inv h
          · exact ih (State.fillCopy_inv (State.noteWalk_inv h))
      all_goals exact State.noteWalk_inv h

theorem State.writePieces_inv {s : State} {pl ctx n : Nat} {ps : List (BitVec 64 × Nat)} {acc : List (Nat × BitVec 10 × Nat)} (h : s.Inv) :
    (s.writePieces pl ctx n ps acc).1.Inv := by
  induction ps generalizing s n acc with
  | nil => exact h
  | cons p ps ih =>
    unfold State.writePieces
    dsimp only
    split
    · exact ih (State.noteWalk_inv h)
    all_goals exact State.noteWalk_inv h

theorem State.agentRead_inv (h : s.Inv) : (s.agentRead ctx die va n k).1.Inv := State.readPieces_inv h

theorem State.placeWrite_inv {pl : Nat} {bs : List Byte} (h : s.Inv) : (s.placeWrite pl ctx va bs k).1.Inv := by
  unfold State.placeWrite
  dsimp only
  split
  · split
    · exact State.writePieces_inv h
    · exact State.performG_inv (State.writePieces_inv h)
  · exact State.writePieces_inv h

theorem State.agentWrite_inv {bs : List Byte} {pl : Nat} (h : s.Inv) : (s.agentWrite ctx va bs k pl).1.Inv := by
  unfold State.agentWrite
  dsimp only
  split
  · exact State.placeWrite_inv h
  · exact h
  · exact State.placeWrite_inv h

theorem State.hubWrite_inv {bs : List WByte} (h : s.Inv) : (s.hubWrite bs).Inv := by
  unfold State.hubWrite
  split
  · exact h
  · exact State.performG_inv h

theorem State.reach_inv {ns : List Nat} (h : s.Inv) : (s.reach k ns).Inv := by
  unfold State.reach
  split
  · exact h
  · exact State.modWarp_inv h

theorem State.hear_inv {acquire : Option Nat} {cs : List Carry} (h : s.Inv) : (s.hear k acquire cs).Inv := by
  unfold State.hear
  dsimp only
  split
  · exact h
  · refine State.modWarp_inv ?_
    split
    · exact State.reach_inv h
    · exact h

theorem State.takeOver_inv (h : s.Inv) : (s.takeOver k).Inv := State.reach_inv h

theorem State.noteSync_inv {keys : List Nat} {cs : List Carry} (h : s.Inv) : (s.noteSync keys cs).Inv := by
  unfold State.noteSync
  split <;> exact h

theorem State.noteRelease_inv {scope : Nat} (h : s.Inv) : (s.noteRelease warp scope).Inv := by
  unfold State.noteRelease
  dsimp only
  split
  · exact h
  · exact State.modVat_inv h

theorem State.takeFence_inv {scope : Nat} (h : s.Inv) : (s.takeFence k scope).Inv := State.reach_inv h

theorem State.giveFence_inv {scope : Nat} (h : s.Inv) : (s.giveFence k scope).Inv := by
  unfold State.giveFence
  dsimp only
  split
  · exact h
  · exact State.modWarp_inv h

theorem State.fetch_inv {off hdr : Word} (h : s.Inv) : (s.fetch warp off hdr).1.Inv := by
  unfold State.fetch
  dsimp only
  split
  · exact h
  · split
    · split
      · exact State.noteWalk_inv h
      · split
        · split
          · exact State.noteWalk_inv h
          · exact State.modCore_inv (State.noteWalk_inv h)
        · split
          · exact State.fillCopy_inv (State.noteWalk_inv h)
          · exact State.modCore_inv (State.fillCopy_inv (State.noteWalk_inv h))
    · exact State.noteWalk_inv h

/-! #### Faults, traps and the fault queue -/

theorem State.noteFirst_inv (h : s.Inv) : (s.noteFirst lot fr).Inv := State.modLot_inv h

theorem State.saveHeader_inv (h : s.Inv) : (s.saveHeader ctx).1.Inv := by
  unfold State.saveHeader
  dsimp only
  split
  · exact State.agentWrite_inv h
  · exact State.agentWrite_inv (State.agentWrite_inv h)

theorem State.saveNat_inv {off : Nat} (h : s.Inv) : (s.saveNat ctx off n).1.Inv := State.agentRead_inv h
theorem State.fqRead_inv (h : s.Inv) : (s.fqRead ctx).Inv := State.saveNat_inv h
theorem State.signal_inv {vector : Nat} (h : s.Inv) : (s.signal part vector).Inv := State.modHub_inv rfl h

theorem State.signalBehind_inv {vector : Nat} (h : s.Inv) : (s.signalBehind ctx part vector).Inv := by
  unfold State.signalBehind
  split
  · exact h
  · exact State.signal_inv h

theorem State.writeRecord_inv (h : s.Inv) : (s.writeRecord ctx fr).1.Inv := by
  unfold State.writeRecord
  dsimp only
  split
  · exact State.agentWrite_inv h
  · split
    · exact State.agentWrite_inv (State.agentWrite_inv h)
    · exact State.modCtx_inv (State.agentWrite_inv (State.agentWrite_inv h))

theorem State.queueRecord_inv (h : s.Inv) : (s.queueRecord ctx fr).1.Inv := by
  unfold State.queueRecord
  dsimp only
  split
  · exact State.saveNat_inv h
  · exact State.saveNat_inv (State.saveNat_inv h)
  · split
    · exact State.saveHeader_inv (State.saveNat_inv (State.saveNat_inv h))
    · split
      · exact State.writeRecord_inv (State.saveHeader_inv (State.saveNat_inv (State.saveNat_inv h)))
      · exact State.signalBehind_inv (State.writeRecord_inv (State.saveHeader_inv (State.saveNat_inv (State.saveNat_inv h))))

theorem State.freeImage_inv (h : s.Inv) : (s.freeImage vk).Inv := by
  unfold State.freeImage
  dsimp only
  split
  · exact State.setVat_inv (State.modCtx_inv h)
  · exact h

theorem State.endVat_inv (h : s.Inv) : (s.endVat vk).Inv :=
  State.Inv.foldl (fun _ _ hu => State.modWarp_inv hu) (State.modVat_inv (State.freeImage_inv (State.modLot_inv h)))

theorem State.stopVat_inv {discard : Bool} (h : s.Inv) : (s.stopVat vk discard).Inv := by
  unfold State.stopVat
  dsimp only
  refine State.Inv.foldl (fun _ _ hu => State.modWarp_inv hu) ?_
  split
  · exact State.endVat_inv (State.setVat_inv h)
  · exact State.setVat_inv h

theorem State.recordCode2_inv (h : s.Inv) : (s.recordCode2 ctx dies).Inv := by
  unfold State.recordCode2
  dsimp only
  split
  · exact State.modCtx_inv h
  · split
    · exact h
    · exact State.agentWrite_inv (State.modCtx_inv h)

theorem State.failLots_inv {ends : LotPhase → Bool} (h : s.Inv) : (s.failLots ctx fr ends).Inv :=
  State.Inv.foldl (fun _ _ hu => State.modLot_inv (State.noteFirst_inv hu)) h

theorem State.terminate_inv (h : s.Inv) : (s.terminate ctx fr).Inv :=
  State.Inv.foldl (fun _ _ hu => State.stopVat_inv hu) (State.failLots_inv (State.modCtx_inv h))

theorem State.queueTerminal_inv (h : s.Inv) : (s.queueTerminal ctx fr).Inv := State.modCtx_inv (State.queueRecord_inv h)

theorem State.faultContext_inv (h : s.Inv) : (s.faultContext ctx fr).Inv := by
  unfold State.faultContext
  dsimp only
  split
  · exact h
  · split
    · split
      · exact State.failLots_inv (State.recordCode2_inv h)
      · exact h
    · split
      · exact State.queueTerminal_inv (State.terminate_inv h)
      · refine State.modCtx_inv ?_
        split
        · exact State.terminate_inv (State.fqRead_inv h)
        · exact State.fqRead_inv h

theorem State.takeWaiting_inv (h : s.Inv) : (s.takeWaiting ctx).Inv := by
  unfold State.takeWaiting
  dsimp only
  split
  · exact h
  · refine State.Inv.foldl (fun _ _ hu => State.faultContext_inv hu) ?_
    split
    · exact State.queueTerminal_inv (State.modCtx_inv h)
    · exact State.faultContext_inv (State.modCtx_inv h)

theorem State.allotImage_inv {t : State} (h : s.Inv) (e : s.allotImage vk = some t) : t.Inv := by
  unfold State.allotImage at e
  dsimp only at e
  split at e
  · exact Option.some.inj e ▸ h
  · split at e
    · cases e
    · obtain ⟨_, -, rfl⟩ := Option.map_eq_some_iff.1 e
      exact State.saveNat_inv h

theorem State.resizeImage_inv {t : State} (h : s.Inv) (e : s.resizeImage vk = some t) : t.Inv := by
  unfold State.resizeImage at e
  dsimp only at e
  split at e
  · cases e
  · split at e
    · exact Option.some.inj e ▸ h
    · split at e
      · cases e
      · obtain ⟨_, -, rfl⟩ := Option.map_eq_some_iff.1 e
        exact h

theorem State.sizeMiss_inv (h : s.Inv) : (s.sizeMiss vk).1.Inv := by
  unfold State.sizeMiss
  dsimp only
  split
  · exact State.saveNat_inv h
  · split
    · exact h
    · exact State.saveNat_inv h
  · exact State.saveNat_inv h

theorem State.requestWhole_inv {reason : BitVec 2} {t : State} (h : s.Inv) (e : s.requestWhole vk reason = some t) :
    t.Inv := by
  obtain ⟨u, hu, rfl⟩ := Option.map_eq_some_iff.1 e
  have hi : u.Inv := State.allotImage_inv h hu
  refine State.Inv.foldl (fun v _ hv => ?_) ?_
  · exact hv
  · exact hi

theorem State.queueService_inv (h : s.Inv) : (s.queueService k fr).Inv := by
  unfold State.queueService
  extract_lets ctx vk seq s1 size s2 r
  split
  · have h1 : s1.Inv := h
    have hsize : size.1.Inv := by
      simp only [size]
      split
      · exact State.sizeMiss_inv h1
      · exact h1
    have h2 : s2.Inv := by
      simp only [s2]
      split
      · next e =>
        split at e
        · exact (State.requestWhole_inv h1 e :)
        · cases e
      · exact hsize
    have hr : r.1.Inv := State.queueRecord_inv h2
    split
    · exact State.faultContext_inv hsize
    · exact State.faultContext_inv hr
    · exact hr
  · exact State.fqRead_inv h

theorem State.faultWarp_inv {resume : Resume} (h : s.Inv) : (s.faultWarp k fr resume).Inv := by
  unfold State.faultWarp
  dsimp only
  split
  · split
    · exact State.faultContext_inv h
    · exact State.modWarp_inv (State.faultContext_inv h)
  · exact State.modWarp_inv (State.faultContext_inv h)

theorem State.offerContext_inv {fr0 : FaultRecord} {resume : Resume} (h : s.Inv) : (s.offerContext k fr0 resume).Inv := by
  unfold State.offerContext
  dsimp only
  split
  · exact State.noteFirst_inv h
  · split
    · exact State.queueService_inv (State.modWarp_inv (State.noteFirst_inv h))
    · exact State.faultWarp_inv (State.noteFirst_inv h)

theorem State.defer_inv {resume : Resume} {rung : Nat} (h : s.Inv) : (s.defer k fr resume rung).Inv :=
  State.modWarp_inv (State.modVat_inv h)

theorem State.offerVat_inv {fr0 : FaultRecord} {resume : Resume} (h : s.Inv) : (s.offerVat k fr0 resume).Inv := by
  unfold State.offerVat
  dsimp only
  split
  · exact State.offerContext_inv (State.noteFirst_inv h)
  · split
    · split
      · exact State.offerContext_inv (State.noteFirst_inv h)
      · exact State.defer_inv (State.noteFirst_inv h)
    · split
      · exact State.offerContext_inv (State.noteFirst_inv h)
      · split
        · split
          · split
            · exact State.modWarp_inv (State.noteFirst_inv h)
            · exact State.modWarp_inv (State.modVat_inv (State.noteFirst_inv h))
          · split
            · exact State.modWarp_inv (State.noteFirst_inv h)
            · exact State.modWarp_inv (State.modVat_inv (State.noteFirst_inv h))
        · split
          · split
            · exact State.modWarp_inv (State.noteFirst_inv h)
            · exact State.modWarp_inv (State.modVat_inv (State.noteFirst_inv h))
          · split
            · exact State.modWarp_inv (State.noteFirst_inv h)
            · exact State.modWarp_inv (State.modVat_inv (State.noteFirst_inv h))

theorem State.offerWarp_inv {resume : Resume} (h : s.Inv) : (s.offerWarp k fr resume).Inv := by
  unfold State.offerWarp
  dsimp only
  split
  · exact State.defer_inv (State.noteFirst_inv h)
  · split
    · exact State.offerVat_inv (State.noteFirst_inv h)
    · exact State.setWarp_inv (State.noteFirst_inv h)

theorem State.raise_inv {r : Raise} {resume : Resume} (h : s.Inv) : (s.raise k r resume).Inv := by
  unfold State.raise
  dsimp only
  split
  · exact State.modWarp_inv h
  · split
    · exact State.faultWarp_inv (State.noteFirst_inv h)
    · split
      · exact State.offerVat_inv h
      · split
        · exact State.offerContext_inv h
        · exact State.offerWarp_inv h

theorem State.raiseHere_inv {code : BitVec 8} {info : Word} (h : s.Inv) : (s.raiseHere code info).Inv := State.raise_inv (State.modW_inv h)

theorem State.raiseLanes_inv {code : BitVec 8} {flm : Lanes} {cause : BitVec 4} {fva : BitVec 64} {rest : Option Lanes} (h : s.Inv) :
    (s.raiseLanes code flm cause fva dies rest).Inv :=
  State.raise_inv (State.modW_inv h)

theorem State.passOn_inv {resume : Resume} (h : s.Inv) : (s.passOn k fr resume).Inv := by
  unfold State.passOn
  split
  · exact State.offerVat_inv h
  · exact State.offerContext_inv h

theorem State.offerDeferred_inv {ds : List Deferred} (h : s.Inv) : (s.offerDeferred ds).Inv := by
  unfold State.offerDeferred
  refine State.Inv.foldl (fun u x hu => ?_) h
  split
  · exact State.offerWarp_inv hu
  · exact State.offerVat_inv hu

theorem State.releaseVat_inv (h : s.Inv) : (s.releaseVat vk).Inv :=
  State.offerDeferred_inv (State.Inv.foldl (fun _ _ hu => State.modWarp_inv hu) (State.modVat_inv h))

/-! #### Issue and retirement -/

theorem State.retire_inv (h : s.Inv) : (s.retire g).Inv := by
  unfold State.retire
  dsimp only
  split <;> exact State.setW_inv h

theorem State.retireAtBoundary_inv (h : s.Inv) : (s.retireAtBoundary g).Inv := State.setW_inv h

theorem State.issueEcc_inv {bad : Lanes} {eff : State → State} (h : s.Inv) (heff : ∀ u : State, u.Inv → (eff u).Inv) :
    (s.issueEcc g bad eff).Inv := by
  unfold State.issueEcc
  dsimp only
  split
  · split
    · exact State.modW_inv (State.retire_inv (State.modW_inv h))
    · split
      · exact State.raise_inv (State.modW_inv (State.retire_inv (State.modW_inv h)))
      · exact State.raise_inv (State.modW_inv (State.modW_inv (State.retire_inv (State.modW_inv h))))
  · split
    · exact State.modW_inv (heff _ (State.modW_inv h))
    · split
      · exact State.raise_inv (State.modW_inv (heff _ (State.modW_inv h)))
      · exact State.raise_inv (State.modW_inv (State.modW_inv (heff _ (State.modW_inv h))))

theorem State.issueRaw_inv {eff : State → State} (h : s.Inv) (heff : ∀ u : State, u.Inv → (eff u).Inv) : OutInv (s.issueRaw g eff) := by
  unfold State.issueRaw
  dsimp only
  split
  · exact State.raiseHere_inv h
  · split
    · exact State.retire_inv h
    · split
      · exact heff _ h
      · exact State.issueEcc_inv h (fun _ hu => heff _ hu)

theorem State.issue_inv {eff : State → State} (h : s.Inv) (heff : ∀ u : State, u.Inv → (eff u).Inv) : OutInv (s.issue g eff) :=
  State.issueRaw_inv h (fun _ hu => State.retire_inv (heff _ hu))

theorem State.stall_inv (h : s.Inv) : s.stall.Inv := State.modW_inv h
theorem State.park_inv {p : Park} (h : s.Inv) : (s.park p).Inv := State.modW_inv h

theorem State.pendLanes_inv {cell : Nat → Nat} {value : Nat → Word} {lat : Nat} (h : s.Inv) : (s.pendLanes cell value lat).Inv :=
  State.modW_inv h

theorem State.pendD_inv {value : Nat → Word} {lat : Nat} (h : s.Inv) : (s.pendD d value lat).Inv := State.pendLanes_inv h
theorem State.pendP_inv {p : BitVec 3} {value : Nat → Bool} {lat : Nat} (h : s.Inv) : (s.pendP p value lat).Inv := State.pendLanes_inv h
theorem State.pendK_inv {value : Word} {lat : Nat} (h : s.Inv) : (s.pendK d value lat).Inv := State.modW_inv h
theorem State.putD_inv {value : Nat → Word} (h : s.Inv) : (s.putD d value).Inv := State.modW_inv h
theorem State.putP_inv {p : BitVec 3} {value : Nat → Bool} (h : s.Inv) : (s.putP p value).Inv := State.modW_inv h
theorem State.putK_inv {value : Word} (h : s.Inv) : (s.putK d value).Inv := State.modW_inv h

theorem State.takeOverAt_inv {id : BitVec 5} (h : s.Inv) : (s.takeOverAt k id).Inv := by
  unfold State.takeOverAt
  split
  · exact h
  · exact State.takeOver_inv h

theorem State.testVatBarrier_inv (h : s.Inv) : (s.testVatBarrier vk).Inv := by
  unfold State.testVatBarrier
  dsimp only
  split
  · exact h
  · exact State.Inv.foldl (fun _ _ hu => State.modWarp_inv (State.takeOverAt_inv hu)) (State.setVat_inv h)

theorem State.lowerExpect_inv (h : s.Inv) : (s.lowerExpect vk n).Inv := by
  unfold State.lowerExpect
  dsimp only
  split
  · exact h
  · exact State.testVatBarrier_inv (State.setVat_inv h)

theorem State.exitLanes_inv {lanes : Lanes} {pc : Word} {keep : Bool} (h : s.Inv) : (s.exitLanes k lanes pc keep).Inv := by
  unfold State.exitLanes
  dsimp only
  split
  · exact h
  · split
    · exact State.setWarp_inv h
    · exact State.lowerExpect_inv (State.setWarp_inv h)

theorem State.split_inv {left : Lanes} (h : s.Inv) : (s.split n left).Inv := by
  unfold State.split
  dsimp only
  split
  · exact State.report_inv (State.setOp_inv (State.setW_inv h))
  · exact State.setW_inv h

theorem State.raiseHeader_inv {code : BitVec 8} {fpc : Word} {fva : BitVec 64} {cause : BitVec 4} {resume : Resume} (h : s.Inv) :
    (s.raiseHeader code fpc fva cause resume).Inv :=
  State.raise_inv h

theorem State.issueHeader_inv (h : s.Inv) : s.issueHeader.Inv := by
  unfold State.issueHeader
  dsimp only
  split
  · exact State.raiseHeader_inv h
  · split
    · exact State.raiseHeader_inv (State.fetch_inv h)
    · exact State.raise_inv (State.fetch_inv h)
    · exact State.stall_inv (State.fetch_inv h)
    · split
      · exact State.raiseHeader_inv (State.fetch_inv h)
      · split
        · exact State.raiseHeader_inv (State.modW_inv (State.fetch_inv h))
        · split
          · split
            · exact State.split_inv (State.modW_inv (State.fetch_inv h))
            · exact State.stall_inv (State.modW_inv (State.fetch_inv h))
          · exact State.modW_inv (State.modW_inv (State.fetch_inv h))

/-! #### Flags -/

theorem State.addFlags_inv {f : Flags} (h : s.Inv) : (s.addFlags f).Inv := State.modW_inv h

/-! #### The stage -/

theorem State.releasing_inv {scope : Nat} {eff : State → State} (h : s.Inv) (heff : ∀ u : State, u.Inv → (eff u).Inv) :
    (s.releasing scope eff).Inv := by
  unfold State.releasing
  split
  · exact heff _ (State.noteRelease_inv h)
  · exact State.stall_inv h

theorem State.endStage_inv (h : s.Inv) : (s.endStage k).Inv := by
  unfold State.endStage
  dsimp only
  split
  · exact State.modVat_inv (State.noteRelease_inv h)
  · exact h

theorem State.retireTasks_inv {lanes : Lanes} (h : s.Inv) : (s.retireTasks k lanes).Inv := by
  unfold State.retireTasks
  dsimp only
  refine State.modWarp_inv ?_
  refine State.Inv.foldl (fun u x hu => ?_) h
  split
  · split
    · exact hu
    · exact State.modDie_inv hu
  · exact hu

theorem State.leave_inv {lanes : Lanes} {pc : Word} {keep : Bool} (h : s.Inv) : (s.leave k lanes pc keep).Inv := by
  unfold State.leave
  dsimp only
  split
  · exact h
  · split
    · exact State.exitLanes_inv (State.noteRelease_inv (State.retireTasks_inv h))
    · refine State.Inv.foldl (fun _ _ hu => State.offerVat_inv hu) ?_
      refine State.modWarp_inv ?_
      split
      · exact State.releaseVat_inv (State.modWarp_inv (State.endStage_inv
        (State.exitLanes_inv (State.noteRelease_inv (State.retireTasks_inv h)))))
      · exact State.modWarp_inv (State.endStage_inv (State.exitLanes_inv (State.noteRelease_inv (State.retireTasks_inv h))))

theorem State.sampling_inv {eff : State → State} (h : s.Inv) (heff : ∀ u : State, u.Inv → (eff u).Inv) : (s.sampling g eff).Inv := by
  unfold State.sampling
  split
  · exact State.retireAtBoundary_inv (State.leave_inv h)
  · exact heff _ h

theorem State.stageOrder_inv (h : s.Inv) : s.stageOrder.Inv := State.raiseHere_inv h

theorem execStgbeg_inv (h : s.Inv) : OutInv (execStgbeg st a b s) := by
  unfold execStgbeg
  dsimp only
  refine State.issueRaw_inv h (fun u hu => ?_)
  split
  · exact State.stageOrder_inv hu
  · exact State.retire_inv (State.modV_inv hu)

theorem State.putLiveP_inv {p : BitVec 3} {value : Bool} (h : s.Inv) : (s.putLiveP p value).Inv := State.modW_inv h

theorem execStgnext_inv (h : s.Inv) : OutInv (execStgnext st d pd s) := by
  unfold execStgnext
  dsimp only
  refine State.issueRaw_inv h (fun u hu => ?_)
  refine State.sampling_inv hu (fun u1 hu1 => ?_)
  split
  · exact State.stageOrder_inv hu1
  · split
    · exact State.stageOrder_inv hu1
    · split
      · exact State.retire_inv (State.putLiveP_inv (State.putK_inv hu1))
      · split
        · exact State.park_inv hu1
        · exact State.retire_inv (State.putLiveP_inv (State.putK_inv (State.modV_inv hu1)))

theorem State.stageCount_inv {f : Nat → Nat} (h : s.Inv) : (s.stageCount g f).Inv := by
  unfold State.stageCount
  split
  · exact State.stageOrder_inv h
  · exact State.releasing_inv h (fun _ hu => State.retire_inv (State.modV_inv hu))

theorem execStgadv_inv (h : s.Inv) : OutInv (execStgadv st d a b s) := State.issueRaw_inv h (fun _ hu => State.stageCount_inv hu)
theorem execStgset_inv (h : s.Inv) : OutInv (execStgset st d a b s) := State.issueRaw_inv h (fun _ hu => State.stageCount_inv hu)

theorem execStgwl_inv (h : s.Inv) : OutInv (execStgwl st d a b s) := by
  unfold execStgwl
  dsimp only
  refine State.issueRaw_inv h (fun u hu => ?_)
  split
  · exact State.stageOrder_inv hu
  · split
    · exact State.retire_inv (State.takeOver_inv hu)
    · exact State.park_inv hu

theorem execStgend_inv (h : s.Inv) : OutInv (execStgend st s) := by
  unfold execStgend
  dsimp only
  refine State.issueRaw_inv h (fun u hu => ?_)
  split
  · exact State.stageOrder_inv hu
  · exact State.releasing_inv hu (fun _ hu1 => State.retire_inv (State.modV_inv hu1))

/-! #### Control flow -/

theorem State.transfer_inv {target : Nat → Word} {ev : Word × Word × Bool} (h : s.Inv) : (s.transfer g target ev).Inv := by
  unfold State.transfer
  dsimp only
  split
  · refine State.sampling_inv h (fun u hu => ?_)
    split
    · split
      · exact State.retireAtBoundary_inv (State.modW_inv hu)
      · exact State.modW_inv (State.retireAtBoundary_inv (State.modW_inv hu))
    · split
      · exact State.retireAtBoundary_inv (State.modW_inv hu)
      · exact State.modW_inv (State.retireAtBoundary_inv (State.modW_inv hu))
  · split
    · split
      · exact State.retireAtBoundary_inv (State.modW_inv h)
      · exact State.modW_inv (State.retireAtBoundary_inv (State.modW_inv h))
    · split
      · exact State.retireAtBoundary_inv (State.modW_inv h)
      · exact State.modW_inv (State.retireAtBoundary_inv (State.modW_inv h))

theorem State.badTarget_inv {flm : Lanes} (h : s.Inv) : (s.badTarget flm).Inv := State.raiseLanes_inv h

theorem State.branch_inv {off : BitVec 17} {goes : State → Nat → Bool} (h : s.Inv) : OutInv (s.branch g off goes) := by
  unfold State.branch
  dsimp only
  refine State.issueRaw_inv h (fun u hu => ?_)
  split
  · exact State.badTarget_inv hu
  · exact State.transfer_inv hu

theorem execBra_inv {off : BitVec 17} (h : s.Inv) : OutInv (execBra st off s) := State.branch_inv h
theorem execBraPred_inv {off : BitVec 17} (h : s.Inv) : OutInv (execBraPred st ps pn off s) := State.branch_inv h

theorem State.branchTo_inv (h : s.Inv) : OutInv (s.branchTo g a) := by
  unfold State.branchTo
  dsimp only
  refine State.issueRaw_inv h (fun u hu => ?_)
  split
  · exact State.badTarget_inv hu
  · exact State.transfer_inv hu

theorem execBrx_inv (h : s.Inv) : OutInv (execBrx st a s) := State.branchTo_inv h
theorem execRet_inv (h : s.Inv) : OutInv (execRet st a s) := State.branchTo_inv h

theorem execCall_inv {off : BitVec 17} (h : s.Inv) : OutInv (execCall st off s) := by
  unfold execCall
  dsimp only
  refine State.issueRaw_inv h (fun u hu => ?_)
  split
  · exact State.badTarget_inv hu
  · exact State.transfer_inv (State.putD_inv hu)

theorem State.joinStuck_inv (h : s.Inv) : (s.joinStuck k).Inv := by
  unfold State.joinStuck
  dsimp only
  split
  · exact State.raise_inv h
  · exact h

theorem State.endLeave_inv {left made : Lanes} {pc succ : Word} (h : s.Inv) : (s.endLeave g left made pc succ).Inv :=
  State.retireAtBoundary_inv (State.modW_inv (State.modW_inv h))

theorem State.toSuccessor_inv (h : s.Inv) : s.toSuccessor.Inv := State.modW_inv h

theorem execExit_inv (h : s.Inv) : OutInv (execExit st s) := by
  unfold execExit
  dsimp only
  exact State.issueRaw_inv h (fun _ hu => State.joinStuck_inv (State.endLeave_inv (State.leave_inv (State.modW_inv hu))))

theorem execNop_inv (h : s.Inv) : OutInv (execNop st s) := State.issue_inv h (fun _ hu => hu)

theorem execSleep_inv {imm : BitVec 14} (h : s.Inv) : OutInv (execSleep st imm s) := by
  unfold execSleep
  dsimp only
  refine State.issueRaw_inv h (fun u hu => ?_)
  split
  · exact State.retire_inv hu
  · exact State.park_inv (State.retire_inv hu)

theorem execEnrol_inv (h : s.Inv) : OutInv (execEnrol st d a s) := State.issue_inv h (fun _ hu => State.modW_inv hu)

theorem execJwait_inv (h : s.Inv) : OutInv (execJwait st d s) := by
  unfold execJwait
  dsimp only
  refine State.issueRaw_inv h (fun u hu => ?_)
  split
  · exact State.retireAtBoundary_inv (State.modW_inv (State.modW_inv (State.toSuccessor_inv hu)))
  · exact State.joinStuck_inv (State.endLeave_inv (State.modW_inv (State.modW_inv (State.toSuccessor_inv hu))))

theorem State.dret1_inv {pc : Word} {mask : Lanes} (h : s.Inv) : (s.dret1 pc mask).Inv := State.joinStuck_inv (State.modW_inv h)

theorem execDret_inv (h : s.Inv) : OutInv (execDret st a b s) := by
  unfold execDret
  dsimp only
  refine State.issueRaw_inv h (fun u hu => ?_)
  split
  · exact State.badTarget_inv hu
  · split
    · exact State.dret1_inv (State.retireAtBoundary_inv hu)
    · exact State.retireAtBoundary_inv (State.modW_inv hu)

theorem execPark_inv (h : s.Inv) : OutInv (execPark st s) :=
  State.issueRaw_inv h (fun _ hu => State.endLeave_inv (State.modW_inv (State.toSuccessor_inv hu)))

theorem execYield_inv (h : s.Inv) : OutInv (execYield st s) :=
  State.issueRaw_inv h (fun _ hu => State.retireAtBoundary_inv (State.modW_inv (State.toSuccessor_inv hu)))

theorem execBarv_inv (h : s.Inv) : OutInv (execBarv st s) := by
  unfold execBarv
  dsimp only
  refine State.issueRaw_inv h (fun u hu => ?_)
  refine State.sampling_inv hu (fun u1 hu1 => ?_)
  refine State.releasing_inv hu1 (fun u2 hu2 => ?_)
  split
  · exact State.endLeave_inv (State.modW_inv (State.toSuccessor_inv (State.modV_inv hu2)))
  · exact State.testVatBarrier_inv (State.endLeave_inv (State.modW_inv (State.toSuccessor_inv (State.modV_inv hu2))))

theorem State.testNamedBarrier_inv {nb : Nat} (h : s.Inv) : (s.testNamedBarrier vk nb).Inv := by
  unfold State.testNamedBarrier
  dsimp only
  split
  · exact h
  · exact State.Inv.foldl (fun _ _ hu => State.modWarp_inv (State.takeOverAt_inv hu)) (State.setVat_inv h)

theorem execBarn_inv (h : s.Inv) : OutInv (execBarn st d a s) := by
  unfold execBarn
  dsimp only
  refine State.issueRaw_inv h (fun u hu => ?_)
  split
  · exact State.raiseHere_inv hu
  · exact State.releasing_inv hu (fun _ hu1 => State.testNamedBarrier_inv
    (State.endLeave_inv (State.modW_inv (State.toSuccessor_inv (State.modV_inv hu1)))))

theorem execBleave_inv (h : s.Inv) : OutInv (execBleave st s) := State.issue_inv h (fun _ hu => State.lowerExpect_inv (State.modW_inv hu))
theorem execClauseIssue_inv (h : s.Inv) : OutInv (execClauseIssue s) := State.issueHeader_inv h

theorem State.raiseAsync_inv (h : s.Inv) : (s.raiseAsync fr).Inv := by
  unfold State.raiseAsync
  dsimp only
  split
  · exact State.offerVat_inv h
  · exact State.raise_inv h

theorem execClauseBoundary_inv (h : s.Inv) : OutInv (execClauseBoundary s) := by
  unfold execClauseBoundary
  dsimp only
  split
  · exact State.setW_inv h
  · split
    · exact State.setW_inv h
    · split
      · exact State.setW_inv h
      · split
        · exact State.raiseAsync_inv (State.setW_inv h)
        · exact State.setW_inv h

/-! #### Integer instructions -/

theorem State.aluR_inv {op : Word → Word → Word} (h : s.Inv) : OutInv (s.aluR k st d a b op) :=
  State.issue_inv h (fun _ hu => State.pendD_inv hu)

theorem State.aluU_inv {op : Word → Word} (h : s.Inv) : OutInv (s.aluU k st d a op) := State.issue_inv h (fun _ hu => State.pendD_inv hu)

theorem State.aluX_inv {ok : Bool} {op : Word → Word → Word → Word} (h : s.Inv) : OutInv (s.aluX k st ok d a b c op) :=
  State.issue_inv h (fun _ hu => State.pendD_inv hu)

theorem State.pendPair_inv {value : Nat → BitVec 64} {lat : Nat} (h : s.Inv) : (s.pendPair d value lat).Inv :=
  State.pendD_inv (State.pendD_inv h)

theorem State.alu64_inv {nb : Nat} {op : BitVec 64 → BitVec 64 → BitVec 64} (h : s.Inv) : OutInv (s.alu64 k st d a b nb op) :=
  State.issue_inv h (fun _ hu => State.pendPair_inv hu)

theorem execIadd_inv (h : s.Inv) : OutInv (execIadd st d a b s) := State.aluR_inv h
theorem execIsub_inv (h : s.Inv) : OutInv (execIsub st d a b s) := State.aluR_inv h
theorem execImul_inv (h : s.Inv) : OutInv (execImul st d a b s) := State.aluR_inv h
theorem execImulh_inv (h : s.Inv) : OutInv (execImulh st d a b s) := State.aluR_inv h
theorem execImin_inv (h : s.Inv) : OutInv (execImin st d a b s) := State.aluR_inv h
theorem execImax_inv (h : s.Inv) : OutInv (execImax st d a b s) := State.aluR_inv h
theorem execIabs_inv (h : s.Inv) : OutInv (execIabs st d a s) := State.aluU_inv h
theorem execIneg_inv (h : s.Inv) : OutInv (execIneg st d a s) := State.aluU_inv h
theorem execImad_inv (h : s.Inv) : OutInv (execImad st d a b sub c s) := State.aluX_inv h
theorem execIadd64_inv (h : s.Inv) : OutInv (execIadd64 st d a b s) := State.alu64_inv h
theorem execIsub64_inv (h : s.Inv) : OutInv (execIsub64 st d a b s) := State.alu64_inv h
theorem execBfi_inv (h : s.Inv) : OutInv (execBfi st d a b c imm7 s) := State.aluX_inv h
theorem execBfx_inv (h : s.Inv) : OutInv (execBfx st d a b sub imm7 s) := State.issue_inv h (fun _ hu => State.pendD_inv hu)
theorem execSel_inv (h : s.Inv) : OutInv (execSel st d a b ps pn s) := State.issue_inv h (fun _ hu => State.pendD_inv hu)
theorem execIcmpp_inv (h : s.Inv) : OutInv (execIcmpp st a b sub pd ps pn imm7 s) := State.issue_inv h (fun _ hu => State.pendP_inv hu)
theorem execAnd_inv (h : s.Inv) : OutInv (execAnd st d a b s) := State.aluR_inv h
theorem execOr_inv (h : s.Inv) : OutInv (execOr st d a b s) := State.aluR_inv h
theorem execXor_inv (h : s.Inv) : OutInv (execXor st d a b s) := State.aluR_inv h
theorem execNot_inv (h : s.Inv) : OutInv (execNot st d a s) := State.aluU_inv h
theorem execShl_inv (h : s.Inv) : OutInv (execShl st d a b s) := State.aluR_inv h
theorem execShr_inv (h : s.Inv) : OutInv (execShr st d a b s) := State.aluR_inv h
theorem execSar_inv (h : s.Inv) : OutInv (execSar st d a b s) := State.aluR_inv h
theorem execRol_inv (h : s.Inv) : OutInv (execRol st d a b s) := State.aluR_inv h
theorem execShl64_inv (h : s.Inv) : OutInv (execShl64 st d a b s) := State.alu64_inv h
theorem execShr64_inv (h : s.Inv) : OutInv (execShr64 st d a b s) := State.alu64_inv h
theorem execPopc_inv (h : s.Inv) : OutInv (execPopc st d a s) := State.aluU_inv h
theorem execClz_inv (h : s.Inv) : OutInv (execClz st d a s) := State.aluU_inv h
theorem execBrev_inv (h : s.Inv) : OutInv (execBrev st d a s) := State.aluU_inv h
theorem execMov_inv (h : s.Inv) : OutInv (execMov st d a s) := State.aluU_inv h
theorem execMovi_inv {imm : BitVec 14} (h : s.Inv) : OutInv (execMovi st d imm s) := State.issue_inv h (fun _ hu => State.pendD_inv hu)

theorem execLimm_inv {imm : BitVec 32} (h : s.Inv) : OutInv (execLimm st d imm s) := by
  unfold execLimm
  refine State.issue_inv h (fun u hu => ?_)
  split
  · exact State.pendD_inv hu
  · exact State.pendK_inv hu

theorem execSetwb_inv {imm : BitVec 8} (h : s.Inv) : OutInv (execSetwb st imm s) := State.issue_inv h (fun _ hu => State.modW_inv hu)

theorem State.movx_inv {reads : Bool} {eff : State → State} (h : s.Inv) (heff : ∀ u : State, u.Inv → (eff u).Inv) : OutInv
    (s.movx g a imm7 reads eff) := by
  unfold State.movx
  dsimp only
  split
  · split
    · exact State.raise_inv h
    · exact State.raiseHere_inv h
  · split
    · exact State.retire_inv h
    · split
      · exact State.raise_inv h
      · split
        · exact State.raiseHere_inv h
        · split
          · exact State.retire_inv (heff _ h)
          · exact State.issueEcc_inv h (fun _ hu => State.retire_inv (heff _ hu))

theorem execMovxR_inv (h : s.Inv) : OutInv (execMovxR st d a imm7 s) := State.movx_inv h (fun _ hu => State.pendD_inv hu)
theorem execMovxW_inv (h : s.Inv) : OutInv (execMovxW st a b imm7 s) := State.movx_inv h (fun _ hu => State.pendLanes_inv hu)

/-! #### Float instructions -/

theorem State.fresult_inv {f : State → Nat → FRes} (h : s.Inv) : OutInv (s.fresult g d f) :=
  State.issue_inv h (fun _ hu => State.addFlags_inv (State.pendD_inv hu))

theorem State.fpuR_inv {op : Nat → Nat → FRes} (h : s.Inv) : OutInv (s.fpuR k st d a b op) := State.fresult_inv h
theorem State.fpuU_inv {op : Nat → FRes} (h : s.Inv) : OutInv (s.fpuU k st d a op) := State.fresult_inv h
theorem State.fpuX_inv {ok : Bool} {op : Nat → Nat → Nat → FRes} (h : s.Inv) : OutInv (s.fpuX k st ok d a b c op) := State.fresult_inv h
theorem execFadd_inv (h : s.Inv) : OutInv (execFadd st d a b s) := State.fpuR_inv h
theorem execFsub_inv (h : s.Inv) : OutInv (execFsub st d a b s) := State.fpuR_inv h
theorem execFmul_inv (h : s.Inv) : OutInv (execFmul st d a b s) := State.fpuR_inv h
theorem execFmin_inv (h : s.Inv) : OutInv (execFmin st d a b s) := State.fpuR_inv h
theorem execFmax_inv (h : s.Inv) : OutInv (execFmax st d a b s) := State.fpuR_inv h
theorem execFneg_inv (h : s.Inv) : OutInv (execFneg st d a s) := State.fpuU_inv h
theorem execFabs_inv (h : s.Inv) : OutInv (execFabs st d a s) := State.fpuU_inv h
theorem execFclass_inv (h : s.Inv) : OutInv (execFclass st d a s) := State.fpuU_inv h
theorem execFaddRm_inv {rm : BitVec 2} (h : s.Inv) : OutInv (execFaddRm st d a b rm s) := State.fpuR_inv h
theorem execFsubRm_inv {rm : BitVec 2} (h : s.Inv) : OutInv (execFsubRm st d a b rm s) := State.fpuR_inv h
theorem execFmulRm_inv {rm : BitVec 2} (h : s.Inv) : OutInv (execFmulRm st d a b rm s) := State.fpuR_inv h
theorem execFfma_inv {rm : BitVec 2} (h : s.Inv) : OutInv (execFfma st d a b rm c s) := State.fpuX_inv h

theorem execFcmpp_inv (h : s.Inv) : OutInv (execFcmpp st a b sub pd ps pn imm7 s) :=
  State.issue_inv h (fun _ hu => State.addFlags_inv (State.pendP_inv hu))

theorem execFrint_inv {rm : BitVec 2} (h : s.Inv) : OutInv (execFrint st d a rm s) := State.fpuU_inv h
theorem execFdp2_inv {rm : BitVec 2} (h : s.Inv) : OutInv (execFdp2 st d a b rm sub c s) := State.fpuX_inv h
theorem execHadd2_inv (h : s.Inv) : OutInv (execHadd2 st d a b s) := State.fpuR_inv h
theorem execHmul2_inv (h : s.Inv) : OutInv (execHmul2 st d a b s) := State.fpuR_inv h
theorem execHfma2_inv {rm : BitVec 2} (h : s.Inv) : OutInv (execHfma2 st d a b rm sub c s) := State.fpuX_inv h
theorem execHadd2X_inv {rm : BitVec 2} (h : s.Inv) : OutInv (execHadd2X st d a b rm sub s) := State.fresult_inv h
theorem execHmul2X_inv {rm : BitVec 2} (h : s.Inv) : OutInv (execHmul2X st d a b rm sub s) := State.fresult_inv h
theorem execIdp4_inv (h : s.Inv) : OutInv (execIdp4 st d a b sub c s) := State.aluX_inv h

theorem execCvt_inv {rm : BitVec 2} (h : s.Inv) : OutInv (execCvt st d a rm sub imm7 s) := by
  unfold execCvt
  dsimp only
  refine State.issue_inv h (fun u hu => ?_)
  refine State.addFlags_inv ?_
  split
  · exact State.pendPair_inv hu
  · exact State.pendD_inv hu

theorem execCvtsTo_inv {rm : BitVec 2} {fs : BitVec 3} (h : s.Inv) : OutInv (execCvtsTo st d a rm fs imm7 s) :=
  State.issue_inv h (fun _ hu => State.addFlags_inv (State.pendD_inv hu))

theorem execCvtsFrom_inv {fs : BitVec 3} (h : s.Inv) : OutInv (execCvtsFrom st d a fs imm7 s) :=
  State.issue_inv h (fun _ hu => State.pendD_inv hu)

theorem execFrcp_inv (h : s.Inv) : OutInv (execFrcp st d a s) := State.fpuU_inv h
theorem execFrsq_inv (h : s.Inv) : OutInv (execFrsq st d a s) := State.fpuU_inv h
theorem execFsqrt_inv (h : s.Inv) : OutInv (execFsqrt st d a s) := State.fpuU_inv h
theorem execFexp2_inv (h : s.Inv) : OutInv (execFexp2 st d a s) := State.fpuU_inv h
theorem execFlog2_inv (h : s.Inv) : OutInv (execFlog2 st d a s) := State.fpuU_inv h

theorem State.fpuWait_inv {op : Nat → FRes} (h : s.Inv) : OutInv (s.fpuWait k st d a op) :=
  State.issue_inv h (fun _ hu => State.addFlags_inv (State.putD_inv hu))

theorem execFsin_inv (h : s.Inv) : OutInv (execFsin st d a s) := State.fpuWait_inv h
theorem execFcos_inv (h : s.Inv) : OutInv (execFcos st d a s) := State.fpuWait_inv h

/-! #### Loads, stores and atomics -/

theorem State.memPlace_inv {acc : Access} {consumes : Bool} {m : Nat} (h : s.Inv) : (s.memPlace k va acc consumes n m).1.Inv := by
  unfold State.memPlace
  dsimp only
  split <;> exact State.noteWalk_inv h

theorem State.vaPlace_inv {size : Nat} {acc : Access} {consumes : Bool} {m : Nat} (h : s.Inv) : (s.vaPlace va size acc consumes n m).1.Inv
    := by
  unfold State.vaPlace
  split
  · exact h
  · split
    · exact h
    · exact State.memPlace_inv h

theorem State.laneAt_inv {offset : Bool} {off : BitVec 16} {size : Nat} {acc : Access} {consumes : Bool} {l : Nat} (h : s.Inv) :
    (s.laneAt offset a off size acc consumes l).1.Inv := by
  unfold State.laneAt
  dsimp only
  split
  · exact h
  · exact State.vaPlace_inv h

theorem State.lanesAt_inv {offset : Bool} {off : BitVec 16} {size : Nat} {acc : Access} {consumes : Bool} (h : s.Inv) :
    (s.lanesAt offset a off size acc consumes).1.Inv := by
  refine State.Inv.foldl_fst (fun r l hr => ?_) ?_
  · exact State.laneAt_inv hr
  · exact h

theorem State.endLanes_inv {xs : List LaneAt} (h : s.Inv) : (s.endLanes g xs).Inv := by
  unfold State.endLanes
  split
  · exact State.retire_inv h
  · split
    · exact State.raiseLanes_inv h
    · exact State.retire_inv h

theorem State.bindLoads_inv {keys : List Nat} (h : s.Inv) : (s.bindLoads keys).Inv := h

theorem State.promoting_inv {prm : Bool} {eff : State → State} (h : s.Inv) (heff : ∀ u : State, u.Inv → (eff u).Inv) :
    (s.promoting prm eff).Inv := by
  unfold State.promoting
  dsimp only
  split
  · exact heff _ h
  · split
    · split
      · exact heff _ (State.modW_inv h)
      · exact State.stall_inv (State.modW_inv h)
    · exact State.stall_inv h
    · exact State.stall_inv (State.modW_inv h)

theorem State.fillLine_inv {key : Nat} {slot : BitVec 10} {ca : BitVec 2} (h : s.Inv) : (s.fillLine core key slot ca).Inv := by
  unfold State.fillLine
  split
  · exact State.modCore_inv h
  · exact State.fillCopy_inv h

theorem State.readLanes_inv {sz : BitVec 4} {xs : List LaneAt} (h : s.Inv) : (s.readLanes d sz xs).1.Inv := by
  unfold State.readLanes
  dsimp only
  refine State.Inv.foldl_fst (fun r x hr => ?_) ?_
  · split
    · exact hr
    · exact State.fillLine_inv hr
    · exact hr
  · exact h

theorem State.discardL1_inv {acquire : Bool} {scope : Nat} (h : s.Inv) : (s.discardL1 core acquire scope).Inv := by
  unfold State.discardL1
  split
  · exact State.modCore_inv h
  · exact h

theorem State.heardBy_inv {acquire : Bool} {scope : Nat} {cs : List Carry} (h : s.Inv) : (s.heardBy warp acquire scope cs).Inv :=
  State.hear_inv h

theorem State.noteWindow_inv {keys : List Nat} {cs : List Carry} (h : s.Inv) : (s.noteWindow keys cs).Inv := h

theorem State.loadLanes_inv {offset : Bool} {xa : Xa} (h : s.Inv) : (s.loadLanes g offset d a xa).Inv := by
  unfold State.loadLanes
  dsimp only
  split
  · exact State.stall_inv h
  · refine State.promoting_inv h (fun u hu => ?_)
    split
    · exact State.raiseHere_inv (State.lanesAt_inv hu)
    · split
      · exact State.park_inv hu
      · split
        · exact State.stall_inv (State.lanesAt_inv hu)
        · split
          · exact State.stall_inv (State.lanesAt_inv hu)
          · refine State.endLanes_inv ?_
            split
            · exact State.readLanes_inv (State.discardL1_inv (State.bindLoads_inv (State.lanesAt_inv hu)))
            · split
              · exact State.setOp_inv (State.startOp_inv (State.heardBy_inv
                (State.readLanes_inv (State.discardL1_inv (State.bindLoads_inv (State.lanesAt_inv hu))))))
              · exact State.startOp_inv (State.heardBy_inv (State.readLanes_inv
                (State.discardL1_inv (State.bindLoads_inv (State.lanesAt_inv hu)))))

theorem execLd_inv {xa : Xa} (h : s.Inv) : OutInv (execLd st d a xa s) := State.issueRaw_inv h (fun _ hu => State.loadLanes_inv hu)
theorem execLds_inv {xa : Xa} (h : s.Inv) : OutInv (execLds st d a xa s) := State.issueRaw_inv h (fun _ hu => State.loadLanes_inv hu)

theorem State.storeLanes_inv {offset : Bool} {xa : Xa} (h : s.Inv) : (s.storeLanes g offset a b xa).Inv := by
  unfold State.storeLanes
  dsimp only
  split
  · exact State.stall_inv h
  · split
    · exact State.raiseHere_inv (State.lanesAt_inv h)
    · split
      · exact State.stall_inv (State.lanesAt_inv h)
      · refine State.endLanes_inv ?_
        split
        · refine State.modV_inv ?_
          refine State.noteWindow_inv ?_
          refine State.bindLoads_inv ?_
          split
          · exact State.noteRelease_inv (State.lanesAt_inv h)
          · exact State.lanesAt_inv h
        · split
          · refine State.setOp_inv ?_
            refine State.startOp_inv ?_
            refine State.modV_inv ?_
            refine State.noteWindow_inv ?_
            refine State.bindLoads_inv ?_
            split
            · exact State.noteRelease_inv (State.lanesAt_inv h)
            · exact State.lanesAt_inv h
          · refine State.startOp_inv ?_
            refine State.modV_inv ?_
            refine State.noteWindow_inv ?_
            refine State.bindLoads_inv ?_
            split
            · exact State.noteRelease_inv (State.lanesAt_inv h)
            · exact State.lanesAt_inv h

theorem execSt_inv {xa : Xa} (h : s.Inv) : OutInv (execSt st a b xa s) := State.issueRaw_inv h (fun _ hu => State.storeLanes_inv hu)
theorem execSts_inv {xa : Xa} (h : s.Inv) : OutInv (execSts st a b xa s) := State.issueRaw_inv h (fun _ hu => State.storeLanes_inv hu)

theorem State.atomLanes_inv {offset : Bool} {d : Option Code} {xa : Xa} (h : s.Inv) : (s.atomLanes g offset d a b xa).Inv := by
  unfold State.atomLanes
  dsimp only
  split
  · exact State.stall_inv h
  · split
    · exact State.raiseHere_inv (State.lanesAt_inv h)
    · split
      · exact State.park_inv h
      · split
        · exact State.stall_inv (State.lanesAt_inv h)
        · refine State.endLanes_inv ?_
          split
          · refine State.modV_inv ?_
            refine State.noteWindow_inv ?_
            refine State.heardBy_inv ?_
            refine State.bindLoads_inv ?_
            split
            · exact State.noteRelease_inv (State.lanesAt_inv h)
            · exact State.lanesAt_inv h
          · split
            · refine State.setOp_inv ?_
              refine State.startOp_inv ?_
              refine State.modV_inv ?_
              refine State.noteWindow_inv ?_
              refine State.heardBy_inv ?_
              refine State.bindLoads_inv ?_
              split
              · exact State.noteRelease_inv (State.lanesAt_inv h)
              · exact State.lanesAt_inv h
            · refine State.startOp_inv ?_
              refine State.modV_inv ?_
              refine State.noteWindow_inv ?_
              refine State.heardBy_inv ?_
              refine State.bindLoads_inv ?_
              split
              · exact State.noteRelease_inv (State.lanesAt_inv h)
              · exact State.lanesAt_inv h

theorem execAtom_inv {xa : Xa} (h : s.Inv) : OutInv (execAtom st d a b xa s) := State.issueRaw_inv h (fun _ hu => State.atomLanes_inv hu)
theorem execAtoms_inv {xa : Xa} (h : s.Inv) : OutInv (execAtoms st d a b xa s) := State.issueRaw_inv h (fun _ hu => State.atomLanes_inv hu)
theorem execRed_inv {xa : Xa} (h : s.Inv) : OutInv (execRed st a b xa s) := State.issueRaw_inv h (fun _ hu => State.atomLanes_inv hu)

theorem State.endHints_inv {xs : List LaneAt} (h : s.Inv) : (s.endHints g xs).Inv := by
  unfold State.endHints
  split
  · exact State.raiseHere_inv h
  · exact State.endLanes_inv h

theorem execPref_inv {off : BitVec 16} (h : s.Inv) : OutInv (execPref st a sub off s) := by
  unfold execPref
  dsimp only
  refine State.issueRaw_inv h (fun u hu => ?_)
  split
  · exact State.stall_inv (State.lanesAt_inv hu)
  · exact State.endHints_inv (State.lanesAt_inv hu)

theorem State.cctl_inv {off : BitVec 16} {act : State → Nat → State} (h : s.Inv)
    (hact : ∀ u line, u.Inv → (act u line).Inv) : OutInv (s.cctl st a off act) := by
  refine State.issueRaw_inv h (fun u hu => ?_)
  dsimp only
  split
  · exact hu
  · split
    · exact State.raiseHere_inv (State.lanesAt_inv hu)
    · split
      · exact State.lanesAt_inv hu
      · refine State.endHints_inv ?_
        refine State.Inv.foldl (fun v x hv => ?_) ?_
        · split
          · exact hact _ _ hv
          · exact hv
        · exact State.lanesAt_inv hu

theorem execCctlIl1_inv {off : BitVec 16} (h : s.Inv) : OutInv (execCctlIl1 st a off s) :=
  State.cctl_inv h (fun _ _ hu => State.modCore_inv hu)

theorem execCctlIrlc_inv {off : BitVec 16} (h : s.Inv) : OutInv (execCctlIrlc st a off s) :=
  State.cctl_inv h (fun _ _ hu => State.dropCopy_inv hu)

theorem execCctlWbl2_inv {off : BitVec 16} (h : s.Inv) : OutInv (execCctlWbl2 st a off s) := State.cctl_inv h (fun _ _ hu => hu)

theorem execFence_inv (h : s.Inv) : OutInv (execFence st a s) := by
  unfold execFence
  dsimp only
  refine State.issueRaw_inv h (fun u hu => ?_)
  split
  · split
    · exact State.promoting_inv (State.takeFence_inv hu) (fun _ hu1 => State.retire_inv
      (State.discardL1_inv (State.noteRelease_inv (State.giveFence_inv hu1))))
    · exact State.stall_inv (State.takeFence_inv hu)
  · split
    · exact State.promoting_inv hu (fun _ hu1 => State.retire_inv (State.discardL1_inv (State.noteRelease_inv (State.giveFence_inv hu1))))
    · exact State.stall_inv hu

theorem execIfence_inv (h : s.Inv) : OutInv (execIfence st s) := State.issue_inv h (fun _ hu => State.modCore_inv hu)

theorem execLfence_inv (h : s.Inv) : OutInv (execLfence st s) := by
  unfold execLfence
  dsimp only
  refine State.issueRaw_inv h (fun u hu => ?_)
  split
  · exact State.retire_inv hu
  · exact State.stall_inv hu

theorem execWaitc_inv (h : s.Inv) : OutInv (execWaitc st a b s) := by
  unfold execWaitc
  dsimp only
  refine State.issueRaw_inv h (fun u hu => ?_)
  split
  · split
    · exact State.retire_inv hu
    · exact State.stall_inv hu
  · exact hu

theorem State.deliver_inv {ds : List Dest} (h : s.Inv) : (s.deliver o ds).Inv := State.modWarp_inv h

theorem State.finish_inv {f : Op → Op} (h : s.Inv) : (s.finish n f).Inv := by
  unfold State.finish
  dsimp only
  split
  · exact h
  · exact State.report_inv (State.setOp_inv h)

theorem State.discardLate_inv (h : s.Inv) : (s.discardLate o).Inv := by
  unfold State.discardLate
  split
  · exact State.discardL1_inv h
  · exact h

theorem State.readLate_inv {accs : List LoadAcc} (h : s.Inv) : (s.readLate o accs).Inv := by
  unfold State.readLate
  dsimp only
  split
  · exact h
  · exact State.Inv.foldl (fun _ _ hu => State.fillLine_inv hu) (State.heardBy_inv h)

theorem State.arriveLanes_inv {lanes : Lanes} (h : s.Inv) : (s.arriveLanes warp lanes).Inv := State.modWarp_inv h

theorem State.pendingLane_inv {ds : List Dest} {accs : List LoadAcc} {l : Nat} (h : s.Inv) : (s.pendingLane o ds accs l).1.Inv := by
  unfold State.pendingLane
  dsimp only
  split
  · split
    · split <;> exact State.memPlace_inv h
    · exact h
  · exact h

theorem State.pendingLanes_inv {s : State} {o : Op} {ds : List Dest} {accs : List LoadAcc} {turn ls : List Nat} {out : List Dest}
    {bad : List LaneAt} (h : s.Inv) : (s.pendingLanes o ds accs turn ls out bad).1.Inv := by
  induction turn generalizing s ls out bad with
  | nil => exact h
  | cons l turn ih =>
    unfold State.pendingLanes
    dsimp only
    split <;> exact ih (State.pendingLane_inv h)

theorem State.reportPending_inv {bad : List LaneAt} (h : s.Inv) : (s.reportPending o bad).Inv := by
  unfold State.reportPending
  dsimp only
  split
  · exact State.modWarp_inv h
  · exact h

theorem State.arrivePending_inv {now : Lanes} (h : s.Inv) : (s.arrivePending n now).Inv := by
  unfold State.arrivePending
  dsimp only
  split
  · split
    · refine State.reportPending_inv ?_
      refine State.arriveLanes_inv ?_
      split
      · exact State.dropOp_inv (State.deliver_inv (State.readLate_inv (State.pendingLanes_inv h)))
      · exact State.setOp_inv (State.deliver_inv (State.readLate_inv (State.pendingLanes_inv h)))
    · exact h
  · exact h

theorem State.skipPending_inv (h : s.Inv) : (s.skipPending warp fr).Inv := by
  unfold State.skipPending
  dsimp only
  refine State.Inv.foldl (fun u x hu => ?_) h
  split
  · split
    · split
      · exact hu
      · refine State.arriveLanes_inv ?_
        split
        · exact State.dropOp_inv hu
        · exact State.setOp_inv hu
    · exact hu
  · exact hu

theorem execLoadComplete_inv (h : s.Inv) : OutInv (execLoadComplete op s) := by
  unfold execLoadComplete
  dsimp only
  split
  · split
    · split
      · exact h
      · split
        · exact State.arrivePending_inv h
        · split
          · split
            · exact h
            · exact State.finish_inv (State.deliver_inv (State.readLate_inv (State.discardLate_inv h)))
          · split
            · exact h
            · exact State.finish_inv (State.deliver_inv (State.readLate_inv (State.discardLate_inv h)))
    · exact h
  · exact h

theorem execSplitDataArrive_inv {lanes : BitVec 32} (h : s.Inv) : OutInv (execSplitDataArrive op lanes s) := by
  unfold execSplitDataArrive
  dsimp only
  split
  · split
    · split
      · exact h
      · split
        · exact State.arrivePending_inv h
        · split
          · exact State.finish_inv (State.setOp_inv (State.deliver_inv (State.readLate_inv h)))
          · exact State.setOp_inv (State.deliver_inv (State.readLate_inv h))
    · exact h
  · exact h

theorem State.performStore_inv {g : Bool} {bs : List WByte} (h : s.Inv) : (s.performStore o g bs).Inv := by
  unfold State.performStore
  refine State.noteSync_inv ?_
  split
  · exact State.performG_inv h
  · exact State.performE_inv h

theorem execStorePerformed_inv (h : s.Inv) : OutInv (execStorePerformed op s) := by
  unfold execStorePerformed
  dsimp only
  split
  · split
    · exact h
    · split
      · exact State.finish_inv h
      · split
        · exact h
        · split
          · split
            · exact h
            · split
              · exact State.finish_inv (State.performStore_inv h)
              · exact State.setOp_inv h
          · split
            · exact State.setOp_inv h
            · split
              · exact h
              · exact State.finish_inv (State.performStore_inv h)
      · exact h
  · exact h

theorem State.invalidate_inv {bs : List WByte} (h : s.Inv) : (s.invalidate dies bs).Inv :=
  State.Inv.foldl (fun _ _ hu => State.Inv.foldl (fun _ _ hu1 => State.dropCopy_inv hu1) hu) h

theorem State.acknowledge_inv (h : s.Inv) : (s.acknowledge n dies).Inv := by
  unfold State.acknowledge
  dsimp only
  split
  · split
    · split
      · exact h
      · split
        · split
          · exact State.setOp_inv h
          · exact State.finish_inv (State.performStore_inv (State.setOp_inv h))
        · split
          · exact State.dropOp_inv (State.invalidate_inv h)
          · exact State.setOp_inv (State.invalidate_inv h)
    · exact h
  · exact h

theorem execGStoreAck_inv (h : s.Inv) : OutInv (execGStoreAck op s) := by
  unfold execGStoreAck
  split
  · exact State.acknowledge_inv h
  · exact h

theorem State.performAtomic_inv {a : AtomAcc} (h : s.Inv) : (s.performAtomic o a).1.Inv := by
  unfold State.performAtomic
  dsimp only
  split
  · exact State.modHub_inv rfl (State.heardBy_inv (State.noteSync_inv (State.performG_inv h)))
  · exact State.heardBy_inv (State.noteSync_inv (State.performG_inv h))

theorem State.performAtomics_inv {s : State} {o : Op} {accs : List AtomAcc} (h : s.Inv) : (s.performAtomics o accs).1.Inv := by
  induction accs generalizing s with
  | nil => exact h
  | cons a accs ih => exact ih (State.performAtomic_inv h)

theorem execAtomicComplete_inv (h : s.Inv) : OutInv (execAtomicComplete op s) := by
  unfold execAtomicComplete
  dsimp only
  split
  · split
    · split
      · exact h
      · exact State.finish_inv (State.deliver_inv (State.discardL1_inv (State.performAtomics_inv h)))
    · exact h
  · exact h

theorem execPrmPushRequest_inv (h : s.Inv) : OutInv (execPrmPushRequest core warp s) := by
  unfold execPrmPushRequest
  dsimp only
  split
  · split
    · exact State.modWarp_inv h
    · exact h
  · exact h

/-! #### Engines and tables -/

theorem State.raiseMiss_inv {m : Miss} (h : s.Inv) : (s.raiseMiss m).Inv := by
  unfold State.raiseMiss
  dsimp only
  split
  · exact State.stall_inv h
  · exact State.raiseLanes_inv h

theorem State.raiseOnce_inv {code : BitVec 8} {info : Word} {fva : BitVec 64} (h : s.Inv) : (s.raiseOnce code info fva).Inv :=
  State.raise_inv (State.modW_inv h)

theorem State.asyncFault_inv {r : Raise} {claim : Nat} (h : s.Inv) : (s.asyncFault k r claim).Inv := by
  unfold State.asyncFault
  dsimp only
  split
  · exact h
  · split
    · exact State.offerVat_inv h
    · exact State.modWarp_inv h

theorem State.writeRange_inv {bs : List Byte} (h : s.Inv) : (s.writeRange core ctx vk va bs n).1.Inv := by
  unfold State.writeRange
  split
  · split
    · exact State.modVat_inv h
    · exact h
  · exact State.placeWrite_inv h

theorem State.readSome_inv {s : State} {core ctx vk : Nat} {x : Reader} {ps : List (BitVec 64 × Nat)} {acc : List Byte} (h : s.Inv) :
    (s.readSome core ctx vk x ps acc).1.Inv := by
  induction ps generalizing s acc with
  | nil => exact h
  | cons p ps ih =>
    unfold State.readSome
    dsimp only
    split
    · exact ih (State.readPieces_inv h)
    · exact State.readPieces_inv h

theorem State.readImage_inv (h : s.Inv) : (s.readImage va n).1.Inv := by
  unfold State.readImage
  dsimp only
  split
  · exact State.bindLoads_inv (State.readPieces_inv h)
  · exact State.readPieces_inv h

theorem State.settleClaim_inv {replay : Bool} (h : s.Inv) : (s.settleClaim k fr replay).Inv := by
  unfold State.settleClaim
  dsimp only
  split
  · exact h
  · split
    · exact State.modWarp_inv h
    · exact State.modWarp_inv (State.modVat_inv h)

theorem State.reclaim_inv (h : s.Inv) : s.reclaim.Inv := by
  unfold State.reclaim
  split
  · split
    · exact State.modW_inv (State.modV_inv h)
    · exact h
  · exact h

theorem State.copyFault_inv {lines : List Nat} {m : Miss} (h : s.Inv) : (s.copyFault op o lines m).Inv := by
  unfold State.copyFault
  dsimp only
  refine State.asyncFault_inv ?_
  refine State.finish_inv ?_
  split
  · exact h
  · exact State.modWarp_inv h

theorem execCopy_inv (h : s.Inv) : OutInv (execCopy st d a b sub s) := by
  unfold execCopy
  dsimp only
  refine State.issueRaw_inv h (fun u hu => ?_)
  split
  · exact State.raiseHere_inv hu
  · split
    · exact State.raiseOnce_inv hu
    · split
      · exact State.raiseMiss_inv hu
      · split
        · exact State.stall_inv hu
        · exact State.retire_inv (State.startOp_inv (State.modV_inv (State.reclaim_inv hu)))

theorem State.movePiece_inv {dst src : BitVec 64} {p : Nat × Nat} (h : s.Inv) : (s.movePiece o dst src p).1.Inv := by
  unfold State.movePiece
  dsimp only
  split
  · exact State.readPieces_inv h
  · split
    · exact State.writeRange_inv (State.readPieces_inv h)
    · exact State.modVat_inv (State.writeRange_inv (State.readPieces_inv h))

theorem State.movePieces_inv {s : State} {o : Op} {dst src : BitVec 64} {ps : List (Nat × Nat)} {moved : List Nat} (h : s.Inv) :
    (s.movePieces o dst src ps moved).1.Inv := by
  induction ps generalizing s moved with
  | nil => exact h
  | cons p ps ih =>
    unfold State.movePieces
    dsimp only
    split
    · exact State.movePiece_inv h
    · exact ih (State.movePiece_inv h)

theorem State.copyOn_inv {choose : List (Nat × Nat) → List (Nat × Nat)} (h : s.Inv) : (s.copyOn op choose).Inv := by
  unfold State.copyOn
  dsimp only
  split
  · split
    · split
      · exact h
      · split
        · exact State.copyFault_inv (State.movePieces_inv h)
        · split
          · exact State.finish_inv (State.movePieces_inv h)
          · exact State.setOp_inv (State.movePieces_inv h)
    · exact h
  · exact h

theorem execCopyComplete_inv (h : s.Inv) : OutInv (execCopyComplete op s) := State.copyOn_inv h
theorem State.copyPiece_inv (h : s.Inv) : (s.copyPiece op).Inv := State.copyOn_inv h

theorem execDcopy_inv (h : s.Inv) : OutInv (execDcopy st d a b sub c s) := by
  unfold execDcopy
  dsimp only
  refine State.issueRaw_inv h (fun u hu => ?_)
  split
  · exact State.raiseHere_inv hu
  · split
    · exact State.stall_inv hu
    · split
      · exact State.raiseMiss_inv hu
      · split
        · exact State.stall_inv hu
        · exact State.retire_inv (State.startOp_inv (State.modV_inv (State.reclaim_inv hu)))

theorem execDcopyComplete_inv (h : s.Inv) : OutInv (execDcopyComplete op s) := by
  unfold execDcopyComplete
  dsimp only
  split
  · split
    · split
      · exact h
      · split
        · exact State.readSome_inv h
        · exact State.copyFault_inv (State.readSome_inv h)
        · refine State.finish_inv ?_
          split
          · exact State.modWarp_inv (State.modVat_inv (State.readSome_inv h))
          · exact State.modVat_inv (State.readSome_inv h)
    · exact h
  · exact h

theorem State.loadTable_inv {align kind obj : Nat} {own : Core → Core} {stalls : Bool} (h : s.Inv) :
    (s.loadTable g va align n kind obj own stalls).Inv := by
  unfold State.loadTable
  dsimp only
  split
  · exact State.raiseOnce_inv h
  · split
    · exact State.stall_inv h
    · split
      · exact State.park_inv h
      · split
        · exact State.raiseMiss_inv (State.readImage_inv h)
        · exact State.retire_inv (State.startOp_inv (State.modCore_inv (State.readImage_inv h)))

theorem execCtabld_inv (h : s.Inv) : OutInv (execCtabld st d a s) := State.issueRaw_inv h (fun _ hu => State.loadTable_inv hu)
theorem execTint_inv (h : s.Inv) : OutInv (execTint st d a s) := State.fresult_inv h
theorem execTintld_inv (h : s.Inv) : OutInv (execTintld st a s) := State.issueRaw_inv h (fun _ hu => State.loadTable_inv hu)

theorem execTintsw_inv (h : s.Inv) : OutInv (execTintsw st s) := by
  unfold execTintsw
  dsimp only
  refine State.issueRaw_inv h (fun u hu => ?_)
  split
  · exact State.stall_inv hu
  · exact State.retire_inv (State.modCore_inv hu)

theorem execChld_inv (h : s.Inv) : OutInv (execChld st d a s) := State.issueRaw_inv h (fun _ hu => State.loadTable_inv hu)

theorem execChrun_inv (h : s.Inv) : OutInv (execChrun st d a b sub imm7 s) := by
  unfold execChrun
  dsimp only
  refine State.issueRaw_inv h (fun u hu => ?_)
  split
  · exact State.stall_inv hu
  · exact State.retire_inv (State.Inv.foldl (fun _ _ hu1 => State.addFlags_inv (State.putD_inv hu1)) hu)

theorem execTableLoadComplete_inv (h : s.Inv) : OutInv (execTableLoadComplete op s) := by
  unfold execTableLoadComplete
  dsimp only
  split
  · split
    · split
      · exact h
      · split
        · split
          · exact State.finish_inv (State.modCore_inv h)
          · exact State.asyncFault_inv (State.finish_inv h)
        · split
          · exact State.finish_inv (State.modCore_inv h)
          · exact State.asyncFault_inv (State.finish_inv h)
        · split
          · exact State.finish_inv (State.modCore_inv h)
          · exact State.asyncFault_inv (State.finish_inv h)
    · exact h
  · exact h

theorem execSltake_inv (h : s.Inv) : OutInv (execSltake st d a s) := by
  unfold execSltake
  dsimp only
  refine State.issueRaw_inv h (fun u hu => ?_)
  split
  · exact State.raiseOnce_inv hu
  · split
    · exact State.retire_inv (State.putK_inv (State.takeOver_inv (State.modV_inv hu)))
    · refine State.park_inv ?_
      split
      · exact hu
      · exact State.modV_inv hu

theorem execSlgive_inv (h : s.Inv) : OutInv (execSlgive st a b s) := by
  unfold execSlgive
  dsimp only
  refine State.issueRaw_inv h (fun u hu => ?_)
  split
  · exact State.raiseHere_inv hu
  · split
    · split
      · exact State.raiseOnce_inv hu
      · split
        · exact State.stall_inv hu
        · exact State.releasing_inv hu (fun _ hu1 => State.retire_inv (State.modV_inv hu1))
    · split
      · exact State.raiseOnce_inv hu
      · split
        · exact State.stall_inv hu
        · exact State.releasing_inv hu (fun _ hu1 => State.retire_inv (State.modV_inv hu1))

theorem State.modEngine_inv {e : Nat} {f : StreamEngine → StreamEngine} (h : s.Inv) : (s.modEngine core e f).Inv := State.modCore_inv h

theorem execSecfg_inv (h : s.Inv) : OutInv (execSecfg st d a b s) := by
  unfold execSecfg
  dsimp only
  refine State.issueRaw_inv h (fun u hu => ?_)
  split
  · exact State.raiseHere_inv hu
  · split
    · exact State.raiseOnce_inv hu
    · split
      · exact State.park_inv hu
      · exact State.retire_inv (State.modEngine_inv hu)

theorem State.readTlr_inv (h : s.Inv) : (s.readTlr va).1.Inv := by
  unfold State.readTlr
  dsimp only
  split
  · exact State.readImage_inv h
  · exact State.modCore_inv (State.readImage_inv h)

theorem execSego_inv (h : s.Inv) : OutInv (execSego st d s) := by
  unfold execSego
  dsimp only
  refine State.issueRaw_inv h (fun u hu => ?_)
  split
  · split
    · exact State.stall_inv hu
    · exact State.retire_inv (State.modEngine_inv (State.startOp_inv hu))
  · split
    · exact State.raiseHere_inv hu
    · split
      · exact State.stall_inv hu
      · split
        · exact State.raiseMiss_inv (State.readTlr_inv hu)
        · split
          · exact State.raiseOnce_inv (State.readTlr_inv hu)
          · exact State.retire_inv (State.modEngine_inv (State.startOp_inv (State.readTlr_inv hu)))

theorem execSestop_inv (h : s.Inv) : OutInv (execSestop st d s) := by
  unfold execSestop
  dsimp only
  refine State.issueRaw_inv h (fun u hu => ?_)
  split
  · exact State.retire_inv hu
  · split
    · exact State.stall_inv (State.modEngine_inv hu)
    · refine State.retire_inv ?_
      refine State.modEngine_inv ?_
      split
      · exact State.finish_inv hu
      · exact hu

theorem State.moveElements_inv {s : State} {core ctx vk : Nat} {t : Tlr} {box : List Nat} {off n i : Nat} (h : s.Inv) :
    (s.moveElements core ctx vk t box off n i).1.Inv := by
  induction n generalizing s i with
  | zero => exact h
  | succ n ih =>
    unfold State.moveElements
    dsimp only
    split
    · refine ih ?_
      split <;> exact h
    · split
      · split
        · exact State.writeRange_inv h
        · exact ih (State.writeRange_inv h)
      · split
        · exact State.readPieces_inv h
        · refine ih ?_
          exact State.readPieces_inv h

theorem State.endTraversal_inv {e : Nat} (h : s.Inv) : (s.endTraversal core e).Inv := State.modEngine_inv (State.finish_inv h)

theorem execStreamBox_inv {e : Nat} (h : s.Inv) : OutInv (execStreamBox core e s) := by
  unfold execStreamBox
  dsimp only
  split
  · exact h
  · split
    · exact h
    · split
      · exact State.endTraversal_inv h
      · split
        · exact h
        · split
          · split
            · refine State.modEngine_inv ?_
              refine State.moveElements_inv ?_
              split
              · exact h
              · exact State.modVat_inv h
            · refine State.asyncFault_inv ?_
              refine State.finish_inv ?_
              refine State.modEngine_inv ?_
              refine State.moveElements_inv ?_
              split
              · exact h
              · exact State.modVat_inv h
          · split
            · refine State.endTraversal_inv ?_
              refine State.modEngine_inv ?_
              refine State.modVat_inv ?_
              split
              · refine State.moveElements_inv ?_
                split
                · exact h
                · exact State.modVat_inv h
              · refine State.modVat_inv ?_
                refine State.moveElements_inv ?_
                split
                · exact h
                · exact State.modVat_inv h
            · refine State.modEngine_inv ?_
              refine State.modVat_inv ?_
              split
              · refine State.moveElements_inv ?_
                split
                · exact h
                · exact State.modVat_inv h
              · refine State.modVat_inv ?_
                refine State.moveElements_inv ?_
                split
                · exact h
                · exact State.modVat_inv h

theorem execHista_inv (h : s.Inv) : OutInv (execHista st a s) := State.issue_inv h (fun _ hu => State.modV_inv hu)

theorem execHistl_inv (h : s.Inv) : OutInv (execHistl st d a s) := by
  unfold execHistl
  dsimp only
  refine State.issueRaw_inv h (fun u hu => ?_)
  split
  · exact State.raiseOnce_inv hu
  · split
    · exact State.stall_inv hu
    · split
      · split
        · exact State.raiseMiss_inv hu
        · exact State.retire_inv (State.startOp_inv hu)
      · split
        · exact State.raiseMiss_inv (State.writePieces_inv hu)
        · exact State.retire_inv (State.startOp_inv (State.writePieces_inv hu))

theorem execHistlComplete_inv (h : s.Inv) : OutInv (execHistlComplete op s) := by
  unfold execHistlComplete
  dsimp only
  split
  · split
    · split
      · exact h
      · split
        · exact State.writeRange_inv h
        · exact State.asyncFault_inv (State.finish_inv (State.writeRange_inv h))
        · split
          · exact State.finish_inv (State.agentWrite_inv (State.noteRelease_inv
            (State.modVat_inv (State.modCtx_inv (State.writeRange_inv h)))))
          · exact State.faultContext_inv (State.finish_inv (State.agentWrite_inv
            (State.noteRelease_inv (State.modVat_inv (State.modCtx_inv (State.writeRange_inv h))))))
    · exact h
  · exact h

/-! #### The matrix engine -/

theorem State.landTiles_inv (h : s.Inv) : (s.landTiles k).Inv := by
  unfold State.landTiles
  dsimp only
  refine State.Inv.foldl (fun u x hu => ?_) h
  split
  · split
    · exact hu
    · split
      · exact hu
      · exact State.modVat_inv (State.setOp_inv hu)
  · exact hu

theorem State.onTile_inv {t : Nat} {eff : State → State} (h : s.Inv) (heff : ∀ u : State, u.Inv → (eff u).Inv) : (s.onTile t eff).Inv := by
  unfold State.onTile
  split
  · exact State.raiseHere_inv h
  · exact heff _ h

theorem State.startTile_inv {w : Work} (h : s.Inv) : (s.startTile g w).Inv := by
  unfold State.startTile
  split
  · exact State.stall_inv h
  · exact State.retire_inv (State.startOp_inv (State.modW_inv h))

theorem State.reading_inv {late : Bool} (h : s.Inv) : (s.reading n late).Inv := h

theorem execTcfg_inv (h : s.Inv) : OutInv (execTcfg st a b s) := by
  unfold execTcfg
  dsimp only
  refine State.issueRaw_inv h (fun u hu => ?_)
  split
  · exact State.stall_inv hu
  · exact State.retire_inv (State.modW_inv (State.modV_inv hu))

theorem State.matRead_inv {r : BitVec 64 × Nat} (h : s.Inv) : (s.matRead o r).1.Inv := State.readPieces_inv h

theorem State.matVector_inv {x : MatArg} {i : Nat} (h : s.Inv) : (s.matVector o x k n i).1.Inv := by
  unfold State.matVector
  dsimp only
  split
  · exact State.matRead_inv h
  · split
    · exact State.matRead_inv h
    · split
      · exact State.matRead_inv h
      · split <;> exact State.matRead_inv (State.matRead_inv h)

theorem State.matVectors_inv {s : State} {o : Op} {x : MatArg} {k n : Nat} {is : List Nat} {acc : List (List FVal)} (h : s.Inv) :
    (s.matVectors o x k n is acc).1.Inv := by
  induction is generalizing s acc with
  | nil => exact h
  | cons i is ih =>
    unfold State.matVectors
    dsimp only
    split
    · exact State.matVector_inv h
    · exact ih (State.matVector_inv h)

theorem State.matRows_inv {s : State} {o : Op} {op tile : Nat} {x : MatArg} {k n : Nat} {bs : List (List FVal)} {int sat za : Bool}
    {scale : FVal × Flags} {rs : List Nat} {ts : List (Nat × Word)} {fl : Flags} (h : s.Inv) :
    (s.matRows o op tile x k n bs int sat za scale rs ts fl).1.Inv := by
  induction rs generalizing s ts fl with
  | nil => exact h
  | cons r rs ih =>
    unfold State.matRows
    dsimp only
    split
    · exact State.matVector_inv h
    · exact ih (State.matVector_inv h)

theorem State.matMul_inv {tile : Nat} {x y : MatArg} {imm : BitVec 7} {first : Nat} (h : s.Inv) :
    (s.matMul o op tile x y n imm first).1.Inv := by
  unfold State.matMul
  dsimp only
  split
  · exact State.matVectors_inv h
  · exact State.matRows_inv (State.matVectors_inv h)

theorem State.matLoad_inv {s : State} {o : Op} {tile : Nat} {x : MatArg} {rs : List Nat} {ts : List (Nat × Word)} (h : s.Inv) :
    (s.matLoad o tile x rs ts).1.Inv := by
  induction rs generalizing s ts with
  | nil => exact h
  | cons r rs ih =>
    unfold State.matLoad
    dsimp only
    split
    · exact State.matRead_inv h
    · exact ih (State.matRead_inv h)

theorem State.matStoreRow_inv {s : State} {o : Op} {ps : List (BitVec 64 × Nat)} {bs : List Byte} {ws : List WByte}
    {sc : List (Nat × Byte)} (h : s.Inv) : (s.matStoreRow o ps bs ws sc).1.Inv := by
  induction ps generalizing s bs ws sc with
  | nil => exact h
  | cons p ps ih =>
    unfold State.matStoreRow
    dsimp only
    split
    · split
      · exact ih h
      · exact h
    · split
      · exact State.writePieces_inv h
      · exact ih (State.writePieces_inv h)

theorem State.matStore_inv {s : State} {o : Op} {op tile : Nat} {x : MatArg} {rs : List Nat} {d : MatDone} (h : s.Inv) :
    (s.matStore o op tile x rs d).1.Inv := by
  induction rs generalizing s d with
  | nil => exact h
  | cons r rs ih =>
    unfold State.matStore
    dsimp only
    split
    · exact State.matStoreRow_inv h
    · exact ih (State.matStoreRow_inv h)

theorem State.untilRead_inv {eff : State → State} (h : s.Inv) (heff : ∀ u : State, u.Inv → (eff u).Inv) : OutInv (s.untilRead g eff) := by
  unfold State.untilRead
  split
  · split
    · exact State.stall_inv h
    · exact State.retire_inv h
  · exact State.issueRaw_inv h (fun _ hu => heff _ hu)

theorem State.matIssue_inv {f tile : Nat} {kA kB : List Word} {fs imm : Nat} {xs : List MatArg} {ranges : Nat → List (BitVec 64 × Nat)}
    (h : s.Inv) : (s.matIssue f tile kA kB n fs imm xs ranges).Inv := by
  unfold State.matIssue
  dsimp only
  refine State.onTile_inv h (fun u hu => ?_)
  split
  · exact State.raiseOnce_inv hu
  · split
    · exact State.stall_inv hu
    · split
      · split
        · exact State.park_inv hu
        · exact State.stall_inv (State.modW_inv (State.startOp_inv (State.modW_inv hu)))
      · split
        · exact State.park_inv hu
        · exact State.stall_inv (State.modW_inv (State.startOp_inv (State.modW_inv hu)))

theorem State.product_inv {f : Nat} {subOk : Bool} {fs : BitVec 3} (h : s.Inv) : OutInv (s.product f st d a b n subOk fs imm7) :=
  State.untilRead_inv h (fun _ hu => State.matIssue_inv hu)

theorem execMma_inv {fs : BitVec 3} (h : s.Inv) : OutInv (execMma st d a b fs imm7 s) := State.product_inv h
theorem execMmas_inv {fs : BitVec 3} (h : s.Inv) : OutInv (execMmas st d a b sub fs imm7 s) := State.product_inv h

theorem State.tileMove_inv {f : Nat} (h : s.Inv) : OutInv (s.tileMove f st d a b) :=
  State.untilRead_inv h (fun _ hu => State.matIssue_inv hu)

theorem execMld_inv (h : s.Inv) : OutInv (execMld st d a b s) := State.tileMove_inv h
theorem execMst_inv (h : s.Inv) : OutInv (execMst st d a b s) := State.tileMove_inv h

theorem State.landMatrix_inv {bytes : List WByte} {scratch : List (Nat × Byte)} {tiles : List (Nat × Word)} (h : s.Inv) :
    (s.landMatrix vk bytes scratch tiles).Inv :=
  State.modVat_inv (State.performG_inv h)

theorem State.matWork_inv (h : s.Inv) : (s.matWork n o).1.Inv := by
  unfold State.matWork
  dsimp only
  split
  · split
    · exact State.matLoad_inv h
    · split
      · exact State.matStore_inv h
      · exact State.matMul_inv h
  · exact h

theorem execMatrixOperandComplete_inv (h : s.Inv) : OutInv (execMatrixOperandComplete op s) := by
  unfold execMatrixOperandComplete
  dsimp only
  split
  · split
    · exact h
    · split
      · exact State.setOp_inv (State.modWarp_inv (State.matWork_inv (State.landTiles_inv h)))
      · exact State.matWork_inv (State.landTiles_inv h)
      · split
        · exact State.matWork_inv (State.landTiles_inv h)
        · exact State.raise_inv (State.modWarp_inv (State.finish_inv
          (State.landMatrix_inv (State.modWarp_inv (State.matWork_inv (State.landTiles_inv h))))))
  · exact h

theorem execMatrixComplete_inv (h : s.Inv) : OutInv (execMatrixComplete op s) := by
  unfold execMatrixComplete
  dsimp only
  split
  · split
    · exact h
    · split
      · split
        · exact h
        · exact State.finish_inv (State.landMatrix_inv h)
      · refine State.finish_inv ?_
        refine State.landMatrix_inv ?_
        refine State.deliver_inv ?_
        split
        · exact State.landTiles_inv h
        · exact h
      · exact h
  · exact h

theorem execMzero_inv (h : s.Inv) : OutInv (execMzero st d s) :=
  State.issueRaw_inv h (fun _ hu => State.onTile_inv hu (fun _ hu1 => State.startTile_inv hu1))

theorem execMfill_inv (h : s.Inv) : OutInv (execMfill st d a b s) :=
  State.issueRaw_inv h (fun _ hu => State.onTile_inv hu (fun _ hu1 => State.startTile_inv hu1))

theorem execMdrain_inv (h : s.Inv) : OutInv (execMdrain st d a b sub imm7 s) :=
  State.issueRaw_inv h (fun _ hu => State.onTile_inv hu (fun _ hu1 => State.reading_inv (State.startTile_inv (State.landTiles_inv hu1))))

theorem execMsync_inv (h : s.Inv) : OutInv (execMsync st s) := by
  unfold execMsync
  dsimp only
  refine State.issueRaw_inv h (fun u hu => ?_)
  split
  · exact State.retire_inv (State.modW_inv hu)
  · exact State.park_inv hu

theorem execRela_inv (h : s.Inv) : OutInv (execRela st s) := by
  unfold execRela
  dsimp only
  refine State.issueRaw_inv h (fun u hu => ?_)
  split
  · exact State.retire_inv (State.modW_inv (State.modV_inv hu))
  · exact State.park_inv hu

theorem State.acqAnswer_inv {n : Option Nat} (h : s.Inv) : (s.acqAnswer k n).Inv := by
  unfold State.acqAnswer
  dsimp only
  split
  · exact State.modWarp_inv (State.setVat_inv h)
  · exact State.modWarp_inv h

theorem State.acqServe_inv (h : s.Inv) : (s.acqServe core).Inv := by
  unfold State.acqServe
  refine State.Inv.foldl (fun u x hu => ?_) h
  split
  · exact State.acqAnswer_inv hu
  · exact hu

theorem State.acqCycle_inv {s : State} {core n : Nat} (h : s.Inv) : (s.acqCycle core n).Inv := by
  induction n generalizing s with
  | zero => exact h
  | succ n ih =>
    unfold State.acqCycle
    dsimp only
    split
    · split
      · exact ih (State.acqAnswer_inv h)
      · exact h
    · exact h

theorem State.allocate_inv (h : s.Inv) : (s.allocate core).Inv := State.acqCycle_inv (State.acqServe_inv h)

theorem execAcqa_inv (h : s.Inv) : OutInv (execAcqa st d a s) := by
  unfold execAcqa
  dsimp only
  refine State.issueRaw_inv h (fun u hu => ?_)
  split
  · refine State.retire_inv ?_
    refine State.putK_inv ?_
    refine State.modW_inv ?_
    split
    · exact hu
    · split
      · exact State.acqAnswer_inv hu
      · exact State.allocate_inv (State.park_inv hu)
  · split
    · exact hu
    · split
      · exact State.acqAnswer_inv hu
      · exact State.allocate_inv (State.park_inv hu)

theorem execAcqaGrant_inv (h : s.Inv) : OutInv (execAcqaGrant core s) := State.allocate_inv h

/-! #### Residency -/

theorem State.startVat_inv {need : Need} {subs : List Nat} {vatnum : Word} {task : Bool} {live : Nat → Lanes} {entry : Nat}
    {regs : Nat → Map Word} (h : s.Inv) : (s.startVat lot need core subs vatnum task live entry regs).Inv :=
  State.Inv.foldl (fun _ _ hu => State.setWarp_inv hu) h

theorem State.placeVat_inv {subs : List Nat} (h : s.Inv) : (s.placeVat lot core subs).Inv := State.modLot_inv (State.startVat_inv h)

/-! #### Tasks -/

theorem State.acceptTask_inv {ws : List Word} (h : s.Inv) : (s.acceptTask die ctx lot ws).1.Inv := by
  unfold State.acceptTask
  dsimp only
  split
  · exact State.modDie_inv h
  · split
    · exact h
    · split
      · exact State.agentWrite_inv h
      · exact State.modCtx_inv (State.modDie_inv (State.agentWrite_inv h))

theorem SpawnRun.lane_inv {r : SpawnRun} {rest : Lanes} {l : Nat} {rec : Except Raise (List Word)} (h : r.s.Inv) :
    (r.lane rest l rec).s.Inv := by
  unfold SpawnRun.lane
  split
  · exact h
  · split
    · exact h
    · split
      · exact h
      · dsimp only
        split <;> exact State.acceptTask_inv h

theorem SpawnRun.lanes_inv {recs : List (Nat × Except Raise (List Word))} {rest : Lanes} {r : SpawnRun} (h : r.s.Inv) :
    (recs.foldl (fun (r : SpawnRun) e => r.lane rest e.1 e.2) r).s.Inv := by
  induction recs generalizing r with
  | nil => exact h
  | cons e recs ih => exact ih (SpawnRun.lane_inv h)

theorem SpawnRun.finish_inv {r : SpawnRun} (h : r.s.Inv) : (r.finish g).Inv := by
  unfold SpawnRun.finish
  split
  · exact State.park_inv (State.modW_inv h)
  · split
    · exact State.retire_inv h
    · exact State.raiseLanes_inv h

theorem State.spawnRecords_inv {recs : List (Nat × Except Raise (List Word))} (h : s.Inv) :
    (s.spawnRecords g recs).Inv :=
  State.releasing_inv h (fun _ hu => SpawnRun.finish_inv (SpawnRun.lanes_inv hu))

theorem execSpawn_inv (h : s.Inv) : OutInv (execSpawn st a s) := by
  unfold execSpawn
  dsimp only
  refine State.issueRaw_inv h (fun u hu => ?_)
  refine State.sampling_inv hu (fun u1 hu1 => ?_)
  split
  · exact State.stall_inv hu1
  · split
    · exact State.raiseHere_inv (State.lanesAt_inv hu1)
    · split
      · exact State.park_inv hu1
      · split
        · exact State.stall_inv (State.lanesAt_inv hu1)
        · refine State.spawnRecords_inv ?_
          refine State.Inv.foldl (fun u2 x2 hu2 => ?_) (State.bindLoads_inv (State.lanesAt_inv hu1))
          split
          · exact State.fillLine_inv hu2
          · exact hu2

theorem execSpawnR_inv (h : s.Inv) : OutInv (execSpawnR st a s) :=
  State.issueRaw_inv h (fun _ hu => State.sampling_inv hu (fun _ hu1 => State.spawnRecords_inv hu1))

theorem State.mapEntries_inv (h : s.Inv) : (s.mapEntries ctx die).1.Inv := by
  unfold State.mapEntries
  dsimp only
  split
  · exact h
  · split <;> exact State.agentRead_inv h

theorem State.resolveWrites_inv {s : State} {ctx die : Nat} {ws : List Word} {js : List Nat} {m : List (BitVec 64 × BitVec 64)}
    {acc : List (BitVec 64)} (h : s.Inv) : (s.resolveWrites ctx die ws js m acc).1.Inv := by
  induction js generalizing s m acc with
  | nil => exact h
  | cons j js ih =>
    rw [State.resolveWrites]
    split
    · dsimp only
      split
      · exact ih (State.agentWrite_inv h)
      · split
        · exact State.agentWrite_inv h
        · exact ih (State.agentWrite_inv h)
    · exact ih h

theorem State.releaseTask_inv (h : s.Inv) : (s.releaseTask die n).Inv := State.modDie_inv h
theorem State.fillBins_inv (h : s.Inv) : (s.fillBins die).Inv := State.modDie_inv h
theorem State.poolLost_inv {m : Miss} (h : s.Inv) : (s.poolLost ctx lot m).Inv := State.faultContext_inv h

theorem State.enterTable_inv {t : Task} (h : s.Inv) : (s.enterTable die n t).Inv := by
  unfold State.enterTable
  dsimp only
  split
  · exact State.releaseTask_inv (State.modDie_inv h)
  · exact State.modDie_inv h

theorem execTaskEnter_inv (h : s.Inv) : OutInv (execTaskEnter die ctx s) := by
  unfold execTaskEnter
  split
  · exact h
  · extract_lets t m w
    have hm : m.1.Inv := State.mapEntries_inv h
    have hw : w.1.Inv := State.resolveWrites_inv hm
    split
    · exact h
    · split
      · exact hm
      · exact State.poolLost_inv hw
      · exact State.fillBins_inv (State.enterTable_inv hw)

theorem State.dropTask_inv (h : s.Inv) : (s.dropTask die n).Inv :=
  State.Inv.foldl (fun _ _ hu => State.releaseTask_inv hu) (State.modDie_inv h)

theorem execTaskRetire_inv {task : Nat} (h : s.Inv) : OutInv (execTaskRetire die task s) := by
  unfold execTaskRetire
  split
  · split
    · exact h
    · exact State.fillBins_inv (State.dropTask_inv h)
  · exact h

theorem execBinFormWarp_inv {bin : Nat} (h : s.Inv) : OutInv (execBinFormWarp die bin s) := by
  unfold execBinFormWarp
  dsimp only
  split
  · exact h
  · split
    · exact h
    · split
      · exact h
      · exact State.fillBins_inv (State.modDie_inv (State.modWarp_inv (State.startVat_inv h)))

theorem execOverflowRefill_inv (h : s.Inv) : OutInv (execOverflowRefill die ctx s) := by
  unfold execOverflowRefill
  dsimp only
  split
  · exact h
  · split
    · exact h
    · split
      · split
        · exact State.dropTask_inv (State.modCtx_inv (State.agentRead_inv h))
        · exact State.modDie_inv (State.modCtx_inv (State.agentRead_inv h))
      · exact State.agentRead_inv h
      · split
        · exact State.faultContext_inv (State.agentRead_inv h)
        · split
          · exact State.agentRead_inv h
          · split
            · exact State.faultContext_inv (State.queueRecord_inv (State.agentRead_inv h))
            · exact State.modCtx_inv (State.queueRecord_inv (State.agentRead_inv h))

theorem execOvfStall_inv (h : s.Inv) : OutInv (execOvfStall warp s) := by
  unfold execOvfStall
  dsimp only
  split
  · exact State.raise_inv h
  · exact h

theorem execTdone_inv (h : s.Inv) : OutInv (execTdone st s) :=
  State.issue_inv h (fun _ hu => State.noteRelease_inv (State.retireTasks_inv hu))

theorem State.discardTasks_inv (h : s.Inv) : (s.discardTasks lot die).Inv := by
  unfold State.discardTasks
  dsimp only
  refine State.fillBins_inv ?_
  refine State.Inv.foldl (fun u x hu => ?_) (State.modDie_inv h)
  split
  · exact hu
  · exact State.dropTask_inv hu

theorem execLabort_inv (h : s.Inv) : OutInv (execLabort st s) :=
  State.issueRaw_inv h (fun _ hu => State.retireAtBoundary_inv (State.leave_inv (State.modLot_inv hu)))

theorem execAbchk_inv (h : s.Inv) : OutInv (execAbchk st s) :=
  State.issueRaw_inv h (fun _ hu => State.sampling_inv hu (fun _ hu1 => State.retire_inv hu1))

theorem execAbortFlagArrive_inv (h : s.Inv) : OutInv (execAbortFlagArrive lot die s) := by
  unfold execAbortFlagArrive
  dsimp only
  split
  · exact h
  · refine State.Inv.foldl (fun u x hu => ?_) (State.discardTasks_inv (State.modLot_inv h))
    split
    · exact State.endVat_inv hu
    · refine State.Inv.foldl (fun u1 x1 hu1 => ?_) hu
      split
      · exact State.leave_inv hu1
      · exact hu1

/-! #### System registers -/

theorem State.latchReg_inv (h : s.Inv) : (s.latchReg n).Inv := by
  unfold State.latchReg
  dsimp only
  split
  · exact State.setW_inv h
  · exact State.setW_inv h
  · exact State.setW_inv h
  · exact State.setW_inv h
  · exact h

theorem execSysr_inv (h : s.Inv) : OutInv (execSysr st d num s) := by
  unfold execSysr
  dsimp only
  refine State.issue_inv h (fun u hu => ?_)
  refine State.latchReg_inv ?_
  split
  · exact State.pendD_inv hu
  · split
    · exact State.pendD_inv hu
    · exact State.pendK_inv hu

theorem State.sysWrite_inv {x : Word} (h : s.Inv) : (s.sysWrite n x).Inv := by
  have ite {c : Prop} [Decidable c] {a b : State} (ha : a.Inv) (hb : b.Inv) : (if c then a else b).Inv := by
    split
    · exact ha
    · exact hb
  exact ite (State.modCtx_inv h) <| ite (State.setW_inv h) <| ite (State.setW_inv h) <| ite (State.setW_inv h) <|
    ite (State.setW_inv h) <| ite (State.setW_inv h) <| ite (State.setW_inv h) <| ite (State.modV_inv h) <|
    ite (ite (State.setW_inv h) h) <| ite (State.modV_inv h) <| ite (ite (State.modV_inv h) h) <|
    ite (ite (State.setW_inv h) h) <| ite (ite (State.modEngine_inv h) h) <| ite (State.modV_inv h) h

theorem State.writeBarid_inv (h : s.Inv) : (s.writeBarid d).Inv := by
  unfold State.writeBarid
  dsimp only
  split
  · exact State.modW_inv h
  · exact h

theorem execSysw_inv (h : s.Inv) : OutInv (execSysw st d num s) := by
  unfold execSysw
  refine State.issue_inv h (fun u hu => ?_)
  split
  · exact State.writeBarid_inv hu
  · split
    · exact hu
    · exact State.sysWrite_inv hu

theorem execSyswRingd_inv (h : s.Inv) : OutInv (execSyswRingd st d num s) := by
  unfold execSyswRingd
  dsimp only
  refine State.issueRaw_inv h (fun u hu => ?_)
  split
  · exact State.raiseHere_inv hu
  · split
    · exact State.raiseHere_inv (State.modV_inv hu)
    · exact State.retire_inv (State.modV_inv hu)

theorem execSyswRingtag_inv (h : s.Inv) : OutInv (execSyswRingtag st d num s) := State.issue_inv h (fun _ hu => State.modV_inv hu)

theorem execSyswVbstat_inv (h : s.Inv) : OutInv (execSyswVbstat st d num s) :=
  State.issue_inv h (fun _ hu => State.testVatBarrier_inv (State.modV_inv hu))

theorem execSyswNbstat_inv (h : s.Inv) : OutInv (execSyswNbstat st d num s) := by
  unfold execSyswNbstat
  dsimp only
  refine State.issue_inv h (fun u hu => ?_)
  split
  · exact State.modV_inv hu
  · exact State.testNamedBarrier_inv (State.modV_inv hu)

theorem execSyswLstate_inv (h : s.Inv) : OutInv (execSyswLstate st d num s) := by
  unfold execSyswLstate
  dsimp only
  refine State.issueRaw_inv h (fun u hu => ?_)
  split
  · exact State.retire_inv hu
  · split
    · exact State.retire_inv (State.leave_inv (State.modW_inv hu))
    · split
      · exact State.retireAtBoundary_inv (State.leave_inv (State.modW_inv hu))
      · exact State.retire_inv (State.modW_inv (State.leave_inv (State.modW_inv hu)))

theorem execSyswLpc_inv (h : s.Inv) : OutInv (execSyswLpc st d num s) := by
  unfold execSyswLpc
  dsimp only
  refine State.issue_inv h (fun u hu => ?_)
  split
  · exact hu
  · exact State.modW_inv hu

theorem execSyswHistbin_inv (h : s.Inv) : OutInv (execSyswHistbin st d num s) := State.issue_inv h (fun _ hu => State.modV_inv hu)

/-! #### Traps -/

theorem execTrap_inv (h : s.Inv) : OutInv (execTrap st b s) := State.issueRaw_inv h (fun _ hu => State.raiseHere_inv hu)
theorem execBkpt_inv (h : s.Inv) : OutInv (execBkpt st b s) := State.issueRaw_inv h (fun _ hu => State.raiseHere_inv hu)

theorem State.resolve_inv {skip : Bool} (h : s.Inv) : (s.resolve k skip).Inv := by
  unfold State.resolve
  dsimp only
  refine State.modWarp_inv ?_
  split
  · split
    · exact State.modWarp_inv (State.settleClaim_inv h)
    · exact State.settleClaim_inv h
  · split
    · exact State.modWarp_inv (State.skipPending_inv (State.settleClaim_inv h))
    · exact State.skipPending_inv (State.settleClaim_inv h)

theorem State.replaySwapped_inv (h : s.Inv) : (s.replaySwapped k).Inv := by
  unfold State.replaySwapped
  dsimp only
  split
  · exact State.resolve_inv (State.modWarp_inv h)
  · exact h

theorem State.trapReturn_inv {skip : Bool} (h : s.Inv) : (s.trapReturn skip).Inv := by
  unfold State.trapReturn
  dsimp only
  split
  · split
    · exact State.releaseVat_inv (State.resolve_inv (State.modW_inv h))
    · exact State.joinStuck_inv (State.releaseVat_inv (State.resolve_inv (State.modW_inv h)))
  · split
    · exact State.resolve_inv (State.modW_inv h)
    · exact State.joinStuck_inv (State.resolve_inv (State.modW_inv h))

theorem State.passTrap_inv (h : s.Inv) : (s.passTrap k fr).Inv := by
  unfold State.passTrap
  dsimp only
  split
  · refine State.releaseVat_inv ?_
    split
    · exact State.offerVat_inv (State.modVat_inv (State.modWarp_inv h))
    · exact State.offerContext_inv (State.modVat_inv (State.modWarp_inv h))
  · split
    · exact State.offerVat_inv (State.modWarp_inv h)
    · exact State.offerContext_inv (State.modWarp_inv h)

theorem execTret_inv (h : s.Inv) : OutInv (execTret st s) := State.issueRaw_inv h (fun _ hu => State.trapReturn_inv (State.modW_inv hu))

theorem execTretSkip_inv (h : s.Inv) : OutInv (execTretSkip st s) :=
  State.issueRaw_inv h (fun _ hu => State.trapReturn_inv (State.modW_inv hu))

theorem execTretEsc_inv (h : s.Inv) : OutInv (execTretEsc st s) := State.issueRaw_inv h (fun _ hu => State.passTrap_inv (State.modW_inv hu))

theorem execRep_inv {count : BitVec 6} {sd sa sb : BitVec 2} (h : s.Inv) : OutInv (execRep st count sd sa sb s) :=
  State.issueRaw_inv h (fun _ hu => State.modW_inv (State.retire_inv hu))

theorem State.faultPartition_inv (h : s.Inv) : (s.faultPartition part fr).Inv := by
  unfold State.faultPartition
  dsimp only
  refine State.Inv.foldl (fun u x hu => ?_) (State.modPart_inv h)
  split
  · split
    · exact State.faultContext_inv hu
    · exact hu
  · exact hu

theorem State.giveUpAccess_inv (h : s.Inv) : (s.giveUpAccess k n o).Inv := by
  unfold State.giveUpAccess
  dsimp only
  split
  · exact State.finish_inv h
  · exact State.offerContext_inv (State.finish_inv h)

theorem execRungServiceTimeout_inv (h : s.Inv) : OutInv (execRungServiceTimeout warp s) := by
  unfold execRungServiceTimeout
  dsimp only
  split
  · split
    · exact h
    · exact State.passTrap_inv h
  · split
    · split
      · exact State.faultPartition_inv h
      · exact h
    · split
      · exact State.giveUpAccess_inv h
      · exact h

theorem execBarrierTimeout_inv (h : s.Inv) : OutInv (execBarrierTimeout warp s) := by
  unfold execBarrierTimeout
  dsimp only
  split
  · split
    · exact State.raise_inv (State.modWarp_inv (State.modWarp_inv h))
    · exact h
  · exact h

theorem State.parkTimeout_inv {code : BitVec 8} {info : Word} {p : Hold → Bool} (h : s.Inv) : (s.parkTimeout warp code info p).Inv := by
  unfold State.parkTimeout
  dsimp only
  split
  · split
    · split
      · exact State.modWarp_inv h
      · exact State.offerVat_inv (State.modWarp_inv h)
    · exact h
  · exact h

theorem execStageParkTimeout_inv (h : s.Inv) : OutInv (execStageParkTimeout warp s) := State.parkTimeout_inv h

theorem execSlotParkTimeout_inv (h : s.Inv) : OutInv (execSlotParkTimeout warp s) := by
  unfold execSlotParkTimeout
  split
  · exact State.parkTimeout_inv h
  · exact h

theorem execPresenceTimeout_inv (h : s.Inv) : OutInv (execPresenceTimeout warp s) := State.parkTimeout_inv h

theorem execSecfgParkTimeout_inv (h : s.Inv) : OutInv (execSecfgParkTimeout warp s) := by
  unfold execSecfgParkTimeout
  split
  · exact State.parkTimeout_inv h
  · exact h

theorem execAcqaWaitTimeout_inv (h : s.Inv) : OutInv (execAcqaWaitTimeout warp s) := by
  unfold execAcqaWaitTimeout
  split
  · exact State.parkTimeout_inv h
  · exact h

theorem execVatStopForce_inv (h : s.Inv) : OutInv (execVatStopForce warp s) := by
  unfold execVatStopForce
  split
  · split
    · exact State.modWarp_inv h
    · exact h
  · exact h

theorem execEvictForce_inv (h : s.Inv) : OutInv (execEvictForce warp s) := by
  unfold execEvictForce
  dsimp only
  split
  · exact State.modWarp_inv h
  · exact h

/-! #### Save and restore -/

theorem State.layRanges_inv {s : State} {ctx : Nat} {rs : List (BitVec 64 × List Byte)} {acc : List WByte} (h : s.Inv) :
    (s.layRanges ctx rs acc).1.Inv := by
  induction rs generalizing s acc with
  | nil => exact h
  | cons r rs ih =>
    unfold State.layRanges
    dsimp only
    split
    · exact ih (State.writePieces_inv h)
    · exact State.writePieces_inv h

theorem State.agentWrites_inv {rs : List (BitVec 64 × List Byte)} (h : s.Inv) : (s.agentWrites ctx rs).1.Inv := by
  unfold State.agentWrites
  dsimp only
  split
  · split
    · exact State.layRanges_inv h
    · exact State.performG_inv (State.layRanges_inv h)
  · exact State.layRanges_inv h
  · exact State.layRanges_inv h

theorem State.saveMiss_inv {m : Miss} (h : s.Inv) : (s.saveMiss vk m).Inv := State.faultContext_inv h

theorem State.stopEngines_inv {how : StreamEngine → StreamEngine} (h : s.Inv) : (s.stopEngines vk how).Inv := by
  unfold State.stopEngines
  dsimp only
  refine State.Inv.foldl (fun u x hu => ?_) h
  split
  · refine State.modEngine_inv ?_
    split
    · exact State.finish_inv hu
    · exact hu
  · exact hu

theorem State.freeEngines_inv (h : s.Inv) : (s.freeEngines vk).Inv := State.stopEngines_inv h

theorem State.callOff_inv {ks : List Nat} (h : s.Inv) : (s.callOff vk ks).Inv := by
  unfold State.callOff
  dsimp only
  split
  · exact State.freeImage_inv (State.modVat_inv (State.Inv.foldl (fun _ _ hu => State.modWarp_inv hu) h))
  · exact State.modVat_inv (State.Inv.foldl (fun _ _ hu => State.modWarp_inv hu) h)

theorem State.enterSave_inv {ks : List Nat} (h : s.Inv) : (s.enterSave vk ks).Inv := by
  unfold State.enterSave
  split
  · exact State.callOff_inv h
  · next t e =>
    have ht : t.Inv := State.resizeImage_inv h e
    extract_lets v l whole va hd blocks r u
    have hd' : hd.1.Inv := State.saveHeader_inv ht
    split
    · exact State.saveMiss_inv hd'
    · have hr : r.1.Inv := State.agentWrites_inv hd'
      have hu : u.Inv := by
        simp only [u]
        split
        · exact State.stopEngines_inv hr
        · exact hr
      split
      · exact State.saveMiss_inv hr
      · refine State.Inv.foldl (fun v _ hv => ?_) hu
        exact State.modWarp_inv hv

theorem execWarpDrainDone_inv (h : s.Inv) : OutInv (execWarpDrainDone warp s) := by
  unfold execWarpDrainDone
  dsimp only
  split
  · split
    · exact State.modWarp_inv h
    · split
      · exact State.enterSave_inv (State.modWarp_inv (State.modWarp_inv h))
      · split
        · exact State.modWarp_inv h
        · split
          · exact State.enterSave_inv (State.modWarp_inv (State.modWarp_inv h))
          · exact State.modWarp_inv (State.modWarp_inv h)
  · split
    · exact h
    · split
      · exact State.enterSave_inv (State.modWarp_inv h)
      · split
        · exact h
        · split
          · exact State.enterSave_inv (State.modWarp_inv h)
          · exact State.modWarp_inv h

theorem State.freeCore_inv (h : s.Inv) : (s.freeCore vk).Inv := State.allocate_inv (State.modCore_inv (State.freeEngines_inv h))

theorem execSavew_inv (h : s.Inv) : OutInv (execSavew st a s) := by
  unfold execSavew
  dsimp only
  refine State.issueRaw_inv h (fun u hu => ?_)
  split
  · exact State.raiseLanes_inv hu
  · split
    · exact State.stall_inv hu
    · split
      · split
        · exact State.raiseMiss_inv hu
        · exact State.retire_inv (State.startOp_inv (State.modV_inv hu))
      · split
        · exact State.raiseMiss_inv (State.writePieces_inv hu)
        · exact State.retire_inv (State.startOp_inv (State.writePieces_inv hu))

theorem State.warpSaved_inv (h : s.Inv) : (s.warpSaved k).Inv := by
  unfold State.warpSaved
  dsimp only
  split
  · split
    · exact State.endVat_inv (State.Inv.foldl (fun _ _ hu => State.modWarp_inv hu)
      (State.freeCore_inv (State.modVat_inv (State.modWarp_inv h))))
    · exact State.Inv.foldl (fun _ _ hu => State.modWarp_inv hu) (State.freeCore_inv (State.modVat_inv (State.modWarp_inv h)))
  · exact State.modWarp_inv h

theorem execSavewDone_inv (h : s.Inv) : OutInv (execSavewDone st s) := by
  unfold execSavewDone
  dsimp only
  refine State.issueRaw_inv h (fun u hu => ?_)
  split
  · exact State.stall_inv hu
  · split
    · exact State.modW_inv (State.retireAtBoundary_inv hu)
    · exact State.warpSaved_inv (State.retireAtBoundary_inv hu)

theorem State.standAgain_inv {bs : List Byte} (h : s.Inv) : (s.standAgain k bs).Inv := by
  unfold State.standAgain
  dsimp only
  split <;> exact State.setWarp_inv h

theorem State.offerOwn_inv (h : s.Inv) : (s.offerOwn k).Inv := by
  unfold State.offerOwn
  dsimp only
  split
  · exact h
  · exact State.offerDeferred_inv (State.setVat_inv h)

theorem State.resumeWarp_inv (h : s.Inv) : (s.resumeWarp k).Inv := by
  unfold State.resumeWarp
  dsimp only
  refine State.offerOwn_inv ?_
  split
  · exact State.modWarp_inv h
  · exact State.replaySwapped_inv (State.modWarp_inv h)

theorem State.warpRestored_inv (h : s.Inv) : (s.warpRestored k).Inv := by
  unfold State.warpRestored
  dsimp only
  split
  · split
    · exact State.resumeWarp_inv h
    · exact State.freeImage_inv (State.resumeWarp_inv h)
  · split
    · exact State.freeImage_inv (State.Inv.foldl (fun _ _ hu => State.resumeWarp_inv hu)
      (State.Inv.foldl (fun _ _ hu => State.modWarp_inv hu) (State.modVat_inv h)))
    · exact h

theorem execRestw_inv (h : s.Inv) : OutInv (execRestw st a s) := by
  refine State.issueRaw_inv h (fun u hu => ?_)
  extract_lets va r
  have hr : r.1.Inv := State.readImage_inv hu
  split
  · exact State.raiseLanes_inv hu
  · split
    · exact State.stall_inv hu
    · split
      · exact State.park_inv hu
      · split
        · exact State.raiseMiss_inv hr
        · split
          · exact State.raiseHere_inv hr
          · extract_lets x y
            have hx : x.Inv := State.modW_inv (State.retireAtBoundary_inv hr)
            have hy : y.Inv := hx.of_eq rfl rfl
            exact State.warpRestored_inv (State.standAgain_inv hy)

theorem execSaveRestoreTimeout_inv (h : s.Inv) : OutInv (execSaveRestoreTimeout warp s) := by
  unfold execSaveRestoreTimeout
  dsimp only
  split
  · exact State.faultWarp_inv (State.noteFirst_inv h)
  · exact h

theorem State.enterRestore_inv {slot placed : Nat} (h : s.Inv) : (s.enterRestore k core slot placed).Inv := State.modWarp_inv h
theorem State.headerFault_inv (h : s.Inv) : (s.headerFault vk).1.Inv := State.agentRead_inv h

/-! #### The turn of a warp -/

theorem State.fetchInstr_inv (h : s.Inv) : (s.fetchInstr).1.Inv := by
  unfold State.fetchInstr
  dsimp only
  split
  · split
    · split
      · split
        · exact State.fetch_inv (State.fetch_inv h)
        · exact State.fetch_inv h
      · split
        · exact State.fetch_inv (State.fetch_inv h)
        · exact State.fetch_inv h
    · split
      · split
        · exact State.fetch_inv (State.fetch_inv h)
        · exact State.fetch_inv h
      · split
        · exact State.fetch_inv (State.fetch_inv h)
        · exact State.fetch_inv h
  · exact State.fetch_inv h

theorem State.rejectWord_inv {r : Reject} {w x : Word} (h : s.Inv) : OutInv (s.rejectWord r w x) := by
  unfold State.rejectWord
  dsimp only
  split
  · exact State.issue_inv h (fun _ hu => hu)
  · split
    · exact trivial
    · exact State.issue_inv h (fun _ hu => hu)

theorem State.fetchMiss_inv {x : Xlat} (h : s.Inv) : OutInv (s.fetchMiss x) := by
  unfold State.fetchMiss
  dsimp only
  split
  · exact State.raise_inv h
  · exact State.raise_inv h
  · exact State.stall_inv h
  · exact h

theorem State.markStart_inv (h : s.Inv) : s.markStart.Inv := by
  unfold State.markStart
  split
  · exact State.modLot_inv h
  · exact h

theorem State.takeSlot_inv (h : s.Inv) : s.takeSlot.Inv := State.modW_inv (State.modCore_inv h)

theorem State.hostStore_inv {pa : Nat} {bs : List Byte} (h : s.Inv) : (s.hostStore pa bs).Inv := by
  unfold State.hostStore
  split
  · exact State.hubWrite_inv h
  · exact h

theorem State.hostAccept_inv {pa size : Nat} (h : s.Inv) : (s.hostAccept pa size).Inv := State.modHub_inv rfl h

/-! #### The Lake -/

theorem State.loadsRead_inv (h : s.Inv) : s.loadsRead.Inv := h

theorem State.lakeEnqueue_inv {job : LakeJob} (h : s.Inv) : (s.lakeEnqueue g eng va job).Inv := by
  unfold State.lakeEnqueue
  dsimp only
  refine State.retire_inv ?_
  refine State.modEng_inv ?_
  refine State.touch_inv ?_
  refine State.startOp_inv ?_
  split
  · split
    · exact State.loadsRead_inv h
    · exact h
  · split
    · exact State.loadsRead_inv h
    · exact h

theorem State.lakeIssue_inv {align : Nat} {job : List Byte → LakeJob} (h : s.Inv) : (s.lakeIssue g eng va align n job).Inv := by
  unfold State.lakeIssue
  dsimp only
  split
  · exact State.raiseOnce_inv h
  · split
    · exact State.raiseMiss_inv (State.touch_inv h)
    · split
      · exact State.raiseMiss_inv h
      · split
        · exact State.stall_inv h
        · split
          · exact State.park_inv h
          · split
            · exact State.raiseMiss_inv (State.readImage_inv h)
            · exact State.lakeEnqueue_inv (State.readImage_inv h)

theorem execBkprog_inv (h : s.Inv) : OutInv (execBkprog st a b c s) := by
  unfold execBkprog
  dsimp only
  refine State.issueRaw_inv h (fun u hu => ?_)
  split
  · exact State.raiseHere_inv hu
  · exact State.lakeIssue_inv hu

theorem execBklaunch_inv {fs : BitVec 3} (h : s.Inv) : OutInv (execBklaunch st a b fs s) := by
  unfold execBklaunch
  dsimp only
  refine State.issueRaw_inv h (fun u hu => ?_)
  split
  · exact State.raiseHere_inv hu
  · exact State.lakeIssue_inv hu

theorem execBkfence_inv (h : s.Inv) : OutInv (execBkfence st s) := State.issue_inv h (fun _ hu => State.modW_inv hu)

theorem State.lakeInvalidate_inv {c : LakeCommand} {r : LakeRec} (h : s.Inv) : (s.lakeInvalidate c r).Inv :=
  State.Inv.foldl (fun _ _ hu => State.Inv.foldl (fun _ _ hu1 => State.Inv.foldl (fun _ _ hu2 => State.dropCopy_inv hu2) hu1) hu) h

theorem LakeStart.block_inv {x : LakeStart} {write : Bool} (h : x.s.Inv) :
    (x.block eng ctx write va).s.Inv := by
  unfold LakeStart.block
  split
  · exact h
  · extract_lets w s p _
    have hs : s.Inv := State.noteWalk_inv h
    split
    · extract_lets
      split <;> exact hs
    all_goals exact hs

theorem LakeStart.blocks_inv {vas : List (BitVec 64)} {x : LakeStart} {eng ctx : Nat} {write : Bool} (h : x.s.Inv) :
    (vas.foldl (fun x va => x.block eng ctx write va) x).s.Inv := by
  induction vas generalizing x with
  | nil => exact h
  | cons va vas ih => exact ih (LakeStart.block_inv h)

theorem State.lakeBlocks_inv {s : State} {eng ctx : Nat} {r : LakeRec} (h : s.Inv) : (s.lakeBlocks eng ctx r).s.Inv := by
  unfold State.lakeBlocks
  generalize hx : ({ s := s, blocks := [], fail := none } : LakeStart) = x
  replace h : x.s.Inv := hx ▸ h
  clear hx
  induction r.ranges generalizing x with
  | nil => exact h
  | cons e es ih => exact ih _ (LakeStart.blocks_inv h)

theorem execLakeCommandStart_inv (h : s.Inv) : OutInv (execLakeCommandStart eng s) := by
  unfold execLakeCommandStart
  split
  · exact h
  · next x _ =>
    split
    · exact h
    · extract_lets r ends b c d
      have hends : ∀ u code va, u.Inv → OutInv (ends u code va) := fun u code va hu => State.modEng_inv hu
      have hb : b.s.Inv := State.lakeBlocks_inv h
      split
      · exact hends _ _ _ h
      · split
        · split
          · exact hb
          · exact hends _ _ _ hb
        · split
          · exact hb
          · exact State.modEng_inv (State.lakeInvalidate_inv hb)

theorem State.finishLake_inv {f : Op → Op} (h : s.Inv) : (s.finishLake n f).Inv := by
  unfold State.finishLake
  dsimp only
  split
  · exact h
  · refine State.Inv.foldl (fun u x hu => ?_) (State.report_inv (State.setOp_inv h))
    split
    · exact hu
    · exact State.asyncFault_inv hu

theorem State.lakePop_inv (h : s.Inv) : (s.lakePop eng).Inv := State.modEng_inv h

theorem execLakeCommandEnd_inv (h : s.Inv) : OutInv (execLakeCommandEnd eng s) := by
  unfold execLakeCommandEnd
  dsimp only
  split
  · split
    · exact h
    · split
      · exact h
      · exact State.finishLake_inv (State.lakePop_inv (State.modWarp_inv (State.performG_inv h)))
  · exact h

theorem execLakeProgramLoad_inv (h : s.Inv) : OutInv (execLakeProgramLoad eng s) := by
  unfold execLakeProgramLoad
  dsimp only
  split
  · exact h
  · split
    · exact h
    · exact State.finishLake_inv (State.lakePop_inv (State.modEng_inv h))

theorem State.lakeDiscard_inv (h : s.Inv) : (s.lakeDiscard eng ctx).Inv := by
  unfold State.lakeDiscard
  dsimp only
  refine State.Inv.foldl (fun _ _ hu => State.finishLake_inv hu) ?_
  refine State.modEng_inv ?_
  split
  · split
    · exact State.modEng_inv h
    · exact h
  · exact h

/-- The state that a Lake word leaves, if it leaves one, meets the invariant. -/
def LakeInv : LakeResult → Prop
  | .ok x => x.1.Inv
  | .error _ => True

theorem LakeInv.ite {c : Prop} [Decidable c] {a b : LakeResult} (ha : LakeInv a) (hb : LakeInv b) : LakeInv (if c then a else b) := by
  split
  · exact ha
  · exact hb

theorem State.lakeWord_inv {f : State → LakeCommand → LakeRec → Word → LakeResult} (h : s.Inv)
    (hf : ∀ c r w, LakeInv (f s c r w)) : OutInv (s.lakeWord f) := by
  unfold State.lakeWord
  split
  · split
    · split
      · next e => exact State.modEng_inv (e ▸ hf _ _ _ : LakeInv (.ok _))
      · exact State.modEng_inv h
    · exact h
  · exact h

theorem execLakeNop_inv (h : s.Inv) : OutInv (execLakeNop s) := State.lakeWord_inv h (fun _ _ _ => h)

theorem execXld_inv (h : s.Inv) : OutInv (execXld s) := by
  refine State.lakeWord_inv h (fun c r w => LakeInv.ite trivial ?_)
  dsimp only
  split
  · trivial
  · exact h

theorem execRowrd_inv {n : BitVec 16} (h : s.Inv) : OutInv (execRowrd n s) := by
  refine State.lakeWord_inv h (fun c r w => LakeInv.ite trivial ?_)
  split
  · trivial
  · dsimp only
    split
    · trivial
    · exact h

theorem State.lakeMac_inv {w : Nat} {sat : BitVec 1} (h : s.Inv) : OutInv (s.lakeMac w sat) :=
  State.lakeWord_inv h (fun _ _ _ => .ite trivial (.ite trivial (.ite trivial h)))

theorem execMac8_inv {sat : BitVec 1} (h : s.Inv) : OutInv (execMac8 sat s) := State.lakeMac_inv h
theorem execMac4_inv {sat : BitVec 1} (h : s.Inv) : OutInv (execMac4 sat s) := State.lakeMac_inv h
theorem execMach_inv {sat : BitVec 1} (h : s.Inv) : OutInv (execMach sat s) := State.lakeMac_inv h
theorem execAccz_inv {ea n1 : BitVec 4} (h : s.Inv) : OutInv (execAccz ea n1 s) := State.lakeWord_inv h (fun _ _ _ => h)

theorem execAccsc_inv {ea : BitVec 4} {off : BitVec 16} (h : s.Inv) : OutInv (execAccsc ea off s) := State.lakeWord_inv h
    (fun _ _ _ => .ite trivial h)

theorem execAccadd_inv {ea eb : BitVec 4} (h : s.Inv) : OutInv (execAccadd ea eb s) := State.lakeWord_inv h (fun _ _ _ => h)
theorem execOutw_inv {ea n1 : BitVec 4} (h : s.Inv) : OutInv (execOutw ea n1 s) := State.lakeWord_inv h (fun _ _ _ => .ite trivial h)
theorem execRcadd_inv {set : BitVec 1} {imm : BitVec 16} (h : s.Inv) : OutInv (execRcadd set imm s) := State.lakeWord_inv h (fun _ _ _ => h)
theorem execCcadd_inv {set : BitVec 1} {imm : BitVec 16} (h : s.Inv) : OutInv (execCcadd set imm s) := State.lakeWord_inv h (fun _ _ _ => h)
theorem execLoop_inv {l : BitVec 1} {n : BitVec 16} (h : s.Inv) : OutInv (execLoop l n s) := State.lakeWord_inv h (fun _ _ _ => h)
theorem execLend_inv {l : BitVec 1} (h : s.Inv) : OutInv (execLend l s) := State.lakeWord_inv h (fun _ _ _ => .ite trivial h)

theorem execLakeSync_inv (h : s.Inv) : OutInv (execLakeSync s) := by
  unfold execLakeSync
  split
  · exact h
  · exact State.lakeWord_inv h (fun _ _ _ => State.performG_inv h)

theorem State.lakeLand_inv (h : s.Inv) : (s.lakeLand eng).Inv := by
  unfold State.lakeLand
  dsimp only
  split
  · exact h
  · split
    · exact h
    · exact State.modEng_inv (State.performG_inv h)

theorem execFlagsC_inv {mask : BitVec 5} (h : s.Inv) : OutInv (execFlagsC mask s) := State.lakeWord_inv h (fun _ _ _ => h)
theorem execFlagsR_inv {ea : BitVec 4} (h : s.Inv) : OutInv (execFlagsR ea s) := State.lakeWord_inv h (fun _ _ _ => h)
theorem execTrapl_inv {n : BitVec 7} (h : s.Inv) : OutInv (execTrapl n s) := State.lakeWord_inv h (fun _ _ _ => trivial)
theorem execHalt_inv (h : s.Inv) : OutInv (execHalt s) := State.lakeWord_inv h (fun _ _ _ => trivial)
theorem State.lakeBadWord_inv (h : s.Inv) : OutInv s.lakeBadWord := State.lakeWord_inv h (fun _ _ _ => trivial)

theorem State.lakeRun_inv {i : Instr} (h : s.Inv) : OutInv (s.lakeRun i) := by
  cases i
  case lakeNop => exact execLakeNop_inv h
  case xld => exact execXld_inv h
  case rowrd => exact execRowrd_inv h
  case mac8 => exact execMac8_inv h
  case mac4 => exact execMac4_inv h
  case mach => exact execMach_inv h
  case accz => exact execAccz_inv h
  case accsc => exact execAccsc_inv h
  case accadd => exact execAccadd_inv h
  case outw => exact execOutw_inv h
  case rcadd => exact execRcadd_inv h
  case ccadd => exact execCcadd_inv h
  case loop => exact execLoop_inv h
  case lend => exact execLend_inv h
  case lakeSync => exact execLakeSync_inv h
  case flagsC => exact execFlagsC_inv h
  case flagsR => exact execFlagsR_inv h
  case trapl => exact execTrapl_inv h
  case halt => exact execHalt_inv h
  all_goals exact h

theorem execLakeTimeout_inv (h : s.Inv) : OutInv (execLakeTimeout eng s) := by
  unfold execLakeTimeout
  split
  · split
    · exact h
    · extract_lets t word timeout
      have ht : t.Inv := h.of_eq rfl rfl
      have hword : OutInv word := by
        simp only [word]
        split
        · exact State.lakeRun_inv ht
        · exact State.lakeBadWord_inv ht
      have htime : OutInv timeout := State.modEng_inv h
      clear_value word timeout
      cases word
      case next =>
        dsimp only
        split
        · exact hword
        · exact htime
      all_goals exact htime
  · exact h

/-! #### Lots and vats -/

theorem State.physWrite_inv {pa : Nat} {bs : List Byte} (h : s.Inv) : (s.physWrite part pa bs).Inv := State.hubWrite_inv h

theorem State.launchXlat_inv {acc : Access} (h : s.Inv) : (s.launchXlat ctx va acc n).1.Inv := by
  unfold State.launchXlat
  dsimp only
  split
  · split
    · exact State.faultContext_inv (State.noteWalk_inv h)
    · exact State.noteWalk_inv h
  · exact State.noteWalk_inv h

theorem State.launchLook_inv (h : s.Inv) : (s.launchLook ctx va n).1.Inv := State.launchXlat_inv h

theorem State.launchPieces_inv {s : State} {ctx n : Nat} {ps : List (BitVec 64 × Nat)} {acc : List Byte} (h : s.Inv) :
    (s.launchPieces ctx n ps acc).1.Inv := by
  induction ps generalizing s n acc with
  | nil => exact h
  | cons p ps ih =>
    unfold State.launchPieces
    dsimp only
    split
    · exact ih (State.launchLook_inv h)
    · exact State.launchLook_inv h

theorem State.launchRead_inv (h : s.Inv) : (s.launchRead ctx va n k).1.Inv := State.launchPieces_inv h

theorem State.launchWrite_inv {parts : List (Nat × List Byte)} (h : s.Inv) : (s.launchWrite ctx va parts n).1.Inv := by
  unfold State.launchWrite
  dsimp only
  split
  · split
    · exact State.launchXlat_inv h
    · exact State.Inv.foldl (fun _ _ hu => State.performG_inv hu) (State.launchXlat_inv h)
  · exact State.launchXlat_inv h
  · exact State.launchXlat_inv h

theorem State.modQueue_inv {q : Nat} {f : Queue → Queue} (h : s.Inv) : (s.modQueue ctx q f).Inv := State.modCtx_inv h

theorem State.coverRecords_inv {q : Nat} (h : s.Inv) : (s.coverRecords ctx q).Inv := by
  unfold State.coverRecords
  dsimp only
  split
  · exact h
  · exact State.modQueue_inv h

theorem execSqDoorbell_inv {q : Nat} {wi : BitVec 32} (h : s.Inv) : OutInv (execSqDoorbell ctx q wi s) := by
  unfold execSqDoorbell
  split
  · exact State.coverRecords_inv (State.modQueue_inv h)
  · exact h

theorem execSqEnable_inv {q : Nat} (h : s.Inv) : OutInv (execSqEnable ctx q s) := by
  unfold execSqEnable
  split
  · exact State.modQueue_inv h
  · exact h

theorem State.loadCode_inv {r : LotRecord} (h : s.Inv) : (s.loadCode ctx r).1.Inv := by
  unfold State.loadCode
  dsimp only
  split
  · exact h
  · split
    · exact State.launchRead_inv h
    · split
      · exact State.launchRead_inv h
      · split
        · exact State.launchRead_inv (State.launchRead_inv h)
        · split <;> exact State.launchRead_inv (State.launchRead_inv h)

theorem State.semaphoreOk_inv (h : s.Inv) : (s.semaphoreOk ctx va n).1.Inv := by
  unfold State.semaphoreOk
  split
  · exact h
  · exact State.launchXlat_inv h

theorem State.checkLot_inv {r : LotRecord} {bs : List Byte} (h : s.Inv) : (s.checkLot ctx r bs).1.Inv := by
  unfold State.checkLot
  dsimp only
  split
  · exact h
  · split
    · split
      · split
        · exact State.semaphoreOk_inv (State.semaphoreOk_inv h)
        · split
          · exact State.semaphoreOk_inv (State.semaphoreOk_inv h)
          · split
            · exact State.loadCode_inv (State.semaphoreOk_inv (State.semaphoreOk_inv h))
            · exact State.loadCode_inv (State.semaphoreOk_inv (State.semaphoreOk_inv h))
            · split
              · exact State.loadCode_inv (State.semaphoreOk_inv (State.semaphoreOk_inv h))
              · split <;> exact State.loadCode_inv (State.semaphoreOk_inv (State.semaphoreOk_inv h))
      · split
        · exact State.semaphoreOk_inv h
        · split
          · exact State.semaphoreOk_inv h
          · split
            · exact State.loadCode_inv (State.semaphoreOk_inv h)
            · exact State.loadCode_inv (State.semaphoreOk_inv h)
            · split
              · exact State.loadCode_inv (State.semaphoreOk_inv h)
              · split <;> exact State.loadCode_inv (State.semaphoreOk_inv h)
    · split
      · split
        · exact State.semaphoreOk_inv h
        · split
          · exact State.semaphoreOk_inv h
          · split
            · exact State.loadCode_inv (State.semaphoreOk_inv h)
            · exact State.loadCode_inv (State.semaphoreOk_inv h)
            · split
              · exact State.loadCode_inv (State.semaphoreOk_inv h)
              · split <;> exact State.loadCode_inv (State.semaphoreOk_inv h)
      · split
        · exact h
        · split
          · exact h
          · split
            · exact State.loadCode_inv h
            · exact State.loadCode_inv h
            · split
              · exact State.loadCode_inv h
              · split <;> exact State.loadCode_inv h

theorem State.completeLot_inv (h : s.Inv) : (s.completeLot lot).Inv := by
  unfold State.completeLot
  dsimp only
  split
  · exact State.modQueue_inv (State.launchWrite_inv (State.setLot_inv h))
  · split
    · split
      · exact State.signalBehind_inv (State.launchWrite_inv (State.setLot_inv h))
      · exact State.launchWrite_inv (State.setLot_inv h)
    · split
      · exact State.modQueue_inv (State.launchWrite_inv (State.setLot_inv h))
      · split
        · split
          · exact State.signalBehind_inv (State.launchWrite_inv (State.launchWrite_inv (State.setLot_inv h)))
          · exact State.launchWrite_inv (State.launchWrite_inv (State.setLot_inv h))
        · exact State.modQueue_inv (State.launchWrite_inv (State.launchWrite_inv (State.setLot_inv h)))

theorem execLotAccept_inv {q : Nat} (h : s.Inv) : OutInv (execLotAccept ctx q s) := by
  unfold execLotAccept
  extract_lets c d bs s1 r x k s2 dflt n s4
  split
  · exact h
  · have h1 : s1.Inv := State.modQueue_inv h
    have hx : x.1.Inv := by
      simp only [x]
      split
      · exact h1
      · exact State.launchXlat_inv h1
    split
    · have h2 : s2.Inv := State.checkLot_inv hx
      split
      · exact State.modQueue_inv h2
      · extract_lets status l s3
        have h3 : s3.Inv := (State.setLot_inv h2).of_eq rfl rfl
        refine OutInv.next ?_
        clear_value s3
        split
        · exact h3
        · exact State.completeLot_inv h3
    · exact State.modQueue_inv hx
    · have h4 : s4.Inv := State.modQueue_inv hx
      refine OutInv.next ?_
      clear_value s4
      split
      · exact State.signal_inv h4
      · exact h4

theorem execWaitSemaphoreRead_inv (h : s.Inv) : OutInv (execWaitSemaphoreRead lot s) := by
  unfold execWaitSemaphoreRead
  dsimp only
  split
  · exact h
  · split
    · exact State.modLot_inv (State.launchLook_inv h)
    · exact State.completeLot_inv (State.modLot_inv (State.launchLook_inv h))
    · exact State.launchLook_inv h
    · exact State.launchLook_inv h

theorem execLotGateOpen_inv (h : s.Inv) : OutInv (execLotGateOpen lot s) := by
  unfold execLotGateOpen
  split
  · exact State.modLot_inv h
  · exact h

theorem State.requestDraw_inv {d : Draw} (h : s.Inv) : (s.requestDraw d).Inv := by
  unfold State.requestDraw
  refine State.Inv.foldl (fun u e hu => ?_) (State.Inv.foldl (fun u v hu => ?_) h)
  · split
    · next e => exact State.modWarp_inv (State.modVat_inv (State.allotImage_inv hu e))
    · exact hu
  · cases e : u.requestWhole v 0 with
    | none => exact hu
    | some t => exact (State.requestWhole_inv hu e :)

theorem State.drawEvictions_inv {n : Need} {m : Nat} (h : s.Inv) : (s.drawEvictions lot n m).Inv := by
  unfold State.drawEvictions
  dsimp only
  split
  · exact State.saveMiss_inv (State.sizeMiss_inv h)
  · split
    · refine State.requestDraw_inv ?_
      split
      · exact State.Inv.foldl (fun _ _ hu => State.sizeMiss_inv hu) h
      · exact h
    · split
      · exact State.Inv.foldl (fun _ _ hu => State.sizeMiss_inv hu) h
      · exact h

theorem State.restoreFault_inv (h : s.Inv) : (s.restoreFault vk).1.Inv := by
  unfold State.restoreFault
  dsimp only
  split
  · split <;> exact State.loadCode_inv (State.headerFault_inv h)
  · exact State.headerFault_inv h

theorem State.failRestore_inv {info : Nat} (h : s.Inv) : (s.failRestore vk info).Inv := State.faultContext_inv h

theorem State.deliverInvals_inv {d : Nat} (h : s.Inv) : (s.deliverInvals d).Inv := by
  unfold State.deliverInvals
  refine State.Inv.foldl (fun u x hu => ?_) h
  split
  · split
    · exact State.invalidate_inv hu
    · exact hu
  · exact hu

theorem State.moveTo_inv (h : s.Inv) : (s.moveTo vk core).Inv := by
  unfold State.moveTo
  dsimp only
  split
  · exact State.modCore_inv h
  · exact State.deliverInvals_inv (State.modCore_inv h)

theorem State.returnVat_inv {subs : List Nat} (h : s.Inv) : (s.returnVat vk core subs).Inv := by
  unfold State.returnVat
  extract_lets v l slots s1 s2 n
  have h1 : s1.Inv := State.setVat_inv (State.touch_inv (State.moveTo_inv h))
  have h2 : s2.Inv := State.modLot_inv h1
  refine State.Inv.foldl (fun u i hu => ?_) ?_
  · exact State.enterRestore_inv hu
  · exact h2.of_eq rfl rfl

theorem State.returnWarps_inv {subs : List Nat} (h : s.Inv) : (s.returnWarps vk subs).Inv :=
  State.Inv.foldl (fun _ _ hu => State.enterRestore_inv hu) h

theorem execVatRestorePlace_inv {vat : Nat} (h : s.Inv) : OutInv (execVatRestorePlace vat s) := by
  unfold execVatRestorePlace
  dsimp only
  split
  · exact h
  · split
    · split
      · split
        · exact State.failRestore_inv (State.restoreFault_inv h)
        · exact State.returnVat_inv (State.restoreFault_inv h)
        · exact State.restoreFault_inv h
        · exact State.saveMiss_inv (State.restoreFault_inv h)
      · exact State.drawEvictions_inv h
    · split
      · split
        · split
          · exact State.failRestore_inv (State.restoreFault_inv h)
          · exact State.returnWarps_inv (State.restoreFault_inv h)
          · exact State.restoreFault_inv h
          · exact State.saveMiss_inv (State.restoreFault_inv h)
        · exact h
      · exact h

theorem State.placeNext_inv {subs : List Nat} (h : s.Inv) : (s.placeNext lot core subs).Inv := State.placeVat_inv (State.touch_inv h)

theorem execVatPlace_inv (h : s.Inv) : OutInv (execVatPlace lot s) := by
  unfold execVatPlace
  dsimp only
  split
  · exact h
  · split
    · exact State.placeNext_inv h
    · exact State.drawEvictions_inv h

theorem execCohabPlace_inv (h : s.Inv) : OutInv (execCohabPlace lot s) := by
  unfold execCohabPlace
  dsimp only
  split
  · exact h
  · split
    · exact State.Inv.foldl (fun _ _ hu => State.placeNext_inv hu) h
    · exact State.drawEvictions_inv h

theorem State.abandonTasks_inv (h : s.Inv) : (s.abandonTasks vk).Inv := by
  unfold State.abandonTasks
  dsimp only
  refine State.Inv.foldl (fun u x hu => ?_) h
  refine State.Inv.foldl (fun u1 x1 hu1 => ?_) hu
  split
  · split
    · exact hu1
    · exact State.dropTask_inv hu1
  · exact hu1

theorem execVatLeave_inv {vat : Nat} (h : s.Inv) : OutInv (execVatLeave vat s) := by
  unfold execVatLeave
  dsimp only
  split
  · exact h
  · refine State.modLot_inv ?_
    split
    · exact State.abandonTasks_inv (State.freeCore_inv (State.endVat_inv h))
    · exact State.freeCore_inv (State.endVat_inv h)

theorem execLotComplete_inv (h : s.Inv) : OutInv (execLotComplete lot s) := by
  unfold execLotComplete
  dsimp only
  split
  · exact h
  · refine State.completeLot_inv ?_
    split
    · exact h
    · exact State.Inv.foldl (fun _ _ hu => State.discardTasks_inv hu) h

/-! #### Driver commands and answers -/

theorem execDriverDoorbell_inv {wi : BitVec 32} (h : s.Inv) : OutInv (execDriverDoorbell part wi s) := by
  unfold execDriverDoorbell
  split
  · exact State.modPart_inv h
  · exact h

theorem State.endCommand_inv {pa : Nat} {status : Word} (h : s.Inv) : (s.endCommand part pa status).Inv :=
  State.modPart_inv (State.physWrite_inv h)

theorem State.driverCommand_inv {is : Byte → Bool}
    {eff : State → DriverCommand → List Byte → State × Option Word} (h : s.Inv) (heff : ∀ u c bs, u.Inv → (eff u c bs).1.Inv) :
    OutInv (s.driverCommand part is eff) := by
  unfold State.driverCommand
  split
  · exact h
  · split
    · exact h
    · extract_lets s1 ctx cmd r
      have hr : r.1.Inv := heff _ _ _ (State.modPart_inv h)
      split
      · exact State.endCommand_inv hr
      · exact State.modPart_inv hr

theorem execCtxnew_inv (h : s.Inv) : OutInv (execCtxnew part s) := by
  unfold execCtxnew
  dsimp only
  refine State.driverCommand_inv h (fun u x x_1 hu => ?_)
  split
  · exact hu
  · split
    · exact hu
    · split
      · exact hu
      · exact State.modHub_inv rfl (State.setCtx_inv hu)

theorem State.dropCached_inv {pages : Nat} (h : s.Inv) : (s.dropCached ctx va pages).Inv := h

theorem State.discardWork_inv (h : s.Inv) : (s.discardWork ctx).Inv := by
  unfold State.discardWork
  dsimp only
  refine State.Inv.foldl (fun u x hu => ?_) h
  split
  · exact State.finish_inv hu
  · exact State.finish_inv hu
  · exact State.finish_inv hu
  · split
    · exact hu
    · exact State.finish_inv hu
  · exact hu

theorem State.resetContext_inv (h : s.Inv) : (s.resetContext ctx).Inv :=
  State.Inv.foldl (fun _ _ hu => State.lakeDiscard_inv hu) (State.discardWork_inv
    (State.Inv.foldl (fun _ _ hu => State.Inv.foldl (fun _ _ hu1 => State.discardTasks_inv hu1) hu)
    (State.Inv.foldl (fun _ _ hu => State.stopVat_inv hu) (State.Inv.foldl (fun _ _ hu => State.completeLot_inv hu)
    (State.Inv.foldl (fun _ _ hu => State.modLot_inv hu) (State.modCtx_inv h))))))

theorem State.endReset_inv (h : s.Inv) : (s.endReset ctx).Inv := by
  unfold State.endReset
  extract_lets c s1 s2
  have h1 : s1.Inv := by
    simp only [s1]
    split
    · exact h
    · exact State.agentWrite_inv h
  have h2 : s2.Inv := h1.of_eq rfl rfl
  exact State.modCtx_inv (State.dropCached_inv h2)

theorem execCtxreset_inv (h : s.Inv) : OutInv (execCtxreset part s) := by
  unfold execCtxreset
  refine State.driverCommand_inv h (fun u x x_1 hu => ?_)
  split
  · exact hu
  · split
    · exact hu
    · exact State.resetContext_inv hu

theorem execTlbinv_inv (h : s.Inv) : OutInv (execTlbinv part s) := by
  unfold execTlbinv
  refine State.driverCommand_inv h (fun u x x_1 hu => ?_)
  split
  · exact hu
  · split
    · exact hu
    · exact State.dropCached_inv hu

theorem execTlbinvComplete_inv (h : s.Inv) : OutInv (execTlbinvComplete part s) := by
  unfold execTlbinvComplete
  dsimp only
  split
  · exact h
  · split
    · exact h
    · refine State.endCommand_inv ?_
      split
      · exact State.endReset_inv (State.modPart_inv (State.modCtx_inv h))
      · exact State.dropCached_inv (State.modPart_inv (State.modCtx_inv h))

theorem execCtxfree_inv (h : s.Inv) : OutInv (execCtxfree part s) := by
  refine State.driverCommand_inv h (fun u c bs hu => ?_)
  split
  · exact hu
  · split
    · exact hu
    · exact State.Inv.of_eq (State.dropCached_inv (ctx := c.ctx) (va := 0) (pages := 0) hu) rfl rfl

theorem execDriverBadOpcode_inv (h : s.Inv) : OutInv (execDriverBadOpcode part s) := State.driverCommand_inv h (fun _ _ _ hu => hu)

theorem State.answer_inv {seq : BitVec 16} {eff : State → Service → State} (h : s.Inv) (heff : ∀ (u : State) x, u.Inv → (eff u x).Inv) :
    (s.answer ctx seq eff).Inv := by
  unfold State.answer
  dsimp only
  split
  · exact h
  · split
    · exact h
    · exact heff _ _ (State.modCtx_inv h)

theorem State.resumeRecord_inv {x : Service} (h : s.Inv) : (s.resumeRecord ctx x).Inv := by
  unfold State.resumeRecord
  dsimp only
  split
  · exact State.modCtx_inv h
  · split
    · exact h
    · split
      · exact State.replaySwapped_inv h
      · exact State.modVat_inv (State.modWarp_inv h)

theorem State.failLot_inv {x : Service} (h : s.Inv) : (s.failLot ctx x).Inv :=
  State.Inv.foldl (fun _ _ hu => State.stopVat_inv hu) (State.Inv.foldl (fun _ _ hu => State.discardTasks_inv hu)
    (State.modCtx_inv (State.modLot_inv (State.noteFirst_inv h))))

theorem execFsvcResume_inv {seq : BitVec 16} (h : s.Inv) : OutInv (execFsvcResume ctx seq s) :=
  State.answer_inv h (fun _ _ hu => State.resumeRecord_inv hu)

theorem execFsvcFaillot_inv {seq : BitVec 16} (h : s.Inv) : OutInv (execFsvcFaillot ctx seq s) :=
  State.answer_inv h (fun _ _ hu => State.failLot_inv hu)

theorem State.failCtx_inv {x : Service} (h : s.Inv) : (s.failCtx ctx x).Inv := State.modCtx_inv (State.terminate_inv h)

theorem execFsvcFailctx_inv {seq : BitVec 16} (h : s.Inv) : OutInv (execFsvcFailctx ctx seq s) :=
  State.answer_inv h (fun _ _ hu => State.failCtx_inv hu)

theorem State.fsvc_inv {upper : Word} (h : s.Inv) : (s.fsvc ctx upper).Inv := by
  unfold State.fsvc
  dsimp only
  refine State.answer_inv h (fun u x hu => ?_)
  split
  · exact State.resumeRecord_inv hu
  · split
    · exact State.failLot_inv hu
    · split
      · exact State.failCtx_inv hu
      · exact h

/-! #### Boot, hub registers, keys -/

theorem State.applyManifest_inv {m : Manifest} (h : s.Inv) : (s.applyManifest m).Inv := h
theorem State.bootFailed_inv {code : BitVec 16} (h : s.Inv) : (s.bootFailed code).Inv := State.modHub_inv rfl h

theorem State.boot_inv {b : Boot} (h : s.Inv) : (s.boot b).Inv := by
  unfold State.boot
  dsimp only
  split
  · exact State.bootFailed_inv h
  · split
    · exact State.bootFailed_inv h
    · split
      · exact State.bootFailed_inv (State.modHub_inv rfl h)
      · split
        · exact State.bootFailed_inv (State.modHub_inv rfl h)
        · split
          · exact State.bootFailed_inv (State.modHub_inv rfl h)
          · exact State.modHub_inv rfl (State.applyManifest_inv (State.modHub_inv rfl h))

theorem State.afterReset_inv (h : s.Inv) : s.afterReset.Inv := ⟨h.1, BitVec.zero_and⟩
theorem execDeviceReset_inv {boot : Boot} (h : s.Inv) : OutInv (execDeviceReset boot s) := State.boot_inv (State.afterReset_inv h)

theorem execFirmwareFetchRetry_inv {boot : Boot} (h : s.Inv) : OutInv (execFirmwareFetchRetry boot s) := by
  unfold execFirmwareFetchRetry
  split
  · exact State.boot_inv h
  · exact h

theorem State.spdmReply_inv {mbox : Nat} {r : SpdmReply} (h : s.Inv) : OutInv (s.spdmReply mbox r) := by
  unfold State.spdmReply
  split
  · exact State.modHub_inv rfl h
  · exact h

theorem execGetVersion_inv {mbox : Nat} (h : s.Inv) : OutInv (execGetVersion mbox s) := State.spdmReply_inv h
theorem execGetCapabilities_inv {mbox : Nat} (h : s.Inv) : OutInv (execGetCapabilities mbox s) := State.spdmReply_inv h
theorem execNegotiateAlgorithms_inv {mbox : Nat} (h : s.Inv) : OutInv (execNegotiateAlgorithms mbox s) := State.spdmReply_inv h
theorem execGetDigests_inv {mbox : Nat} (h : s.Inv) : OutInv (execGetDigests mbox s) := State.spdmReply_inv h
theorem execGetCertificate_inv {mbox : Nat} (h : s.Inv) : OutInv (execGetCertificate mbox s) := State.spdmReply_inv h
theorem execChallenge_inv {mbox nonce : Nat} (h : s.Inv) : OutInv (execChallenge mbox nonce s) := State.spdmReply_inv h
theorem execGetMeasurements_inv {mbox : Nat} (h : s.Inv) : OutInv (execGetMeasurements mbox s) := State.spdmReply_inv h
theorem execKeyExchange_inv {mbox : Nat} (h : s.Inv) : OutInv (execKeyExchange mbox s) := State.spdmReply_inv h
theorem State.dropSlot_inv {slot : BitVec 10} (h : s.Inv) : (s.dropSlot slot).Inv := h

theorem execKeySlotLoad_inv {slot : BitVec 10} {key : Option (BitVec 512)} (h : s.Inv) : OutInv (execKeySlotLoad slot key s) :=
  State.modHub_inv rfl (State.dropSlot_inv h)

theorem execKeySlotClear_inv {slot : BitVec 10} (h : s.Inv) : OutInv (execKeySlotClear slot s) := by
  refine State.modHub_inv rfl (State.dropSlot_inv (State.Inv.foldl (fun u l hu => ?_) h))
  split
  · exact hu.of_wf (fun hw => Map.wf_setFrom _ _ hw) rfl
  · exact hu

theorem State.writeFeatacc_inv {value : BitVec 128} (h : s.Inv) : (s.writeFeatacc fn value).Inv := by
  unfold State.writeFeatacc
  split
  · refine ⟨h.1, ?_⟩
    change value &&& features &&& ~~~ features = 0
    rw [BitVec.and_assoc, BitVec.and_not_self]
    exact BitVec.and_zero
  · exact h

theorem State.writePwrlim_inv {value : Word} (h : s.Inv) : (s.writePwrlim fn value).Inv := by
  unfold State.writePwrlim
  split
  · exact State.modHub_inv rfl h
  · exact h

theorem State.writePlcfg_inv {value : Word} (h : s.Inv) : (s.writePlcfg fn value).Inv := by
  unfold State.writePlcfg
  split
  · exact State.modPart_inv h
  · exact h

theorem execFeataccWrite_inv {value : BitVec 128} (h : s.Inv) : OutInv (execFeataccWrite fn value s) := State.writeFeatacc_inv h
theorem execPwrlimWrite_inv {value : BitVec 32} (h : s.Inv) : OutInv (execPwrlimWrite fn value s) := State.writePwrlim_inv h
theorem execPlcfgWrite_inv {value : BitVec 32} (h : s.Inv) : OutInv (execPlcfgWrite fn value s) := State.writePlcfg_inv h

theorem State.writeBlock_inv {off : Nat} {v : Word} (h : s.Inv) : (s.writeBlock fn ctx off v).Inv := by
  unfold State.writeBlock
  dsimp only
  split
  · exact h
  · split
    · split
      · exact State.coverRecords_inv (State.modQueue_inv h)
      · exact State.modQueue_inv h
    · split
      · exact State.modCtx_inv h
      · split
        · exact State.fsvc_inv h
        · split
          · exact State.modCtx_inv h
          · exact h

theorem State.writeDevice_inv {off : Nat} {v : Word} (h : s.Inv) : (s.writeDevice fn off v).Inv := by
  unfold State.writeDevice
  split
  · exact State.writeFeatacc_inv h
  · split
    · exact State.writePwrlim_inv h
    · split
      · exact State.modPart_inv h
      · split
        · exact State.writePlcfg_inv h
        · split
          · exact State.modPart_inv h
          · split
            · exact State.modDie_inv h
            · exact h

theorem execRegisterWrite_inv {src : Option Nat} {offset : BitVec 26} {value : BitVec 32} (h : s.Inv) : OutInv
    (execRegisterWrite src offset value s) := by
  unfold execRegisterWrite
  dsimp only
  split
  · split
    · exact State.modHub_inv rfl h
    · exact h
  · split
    · exact h
    · split
      · exact State.writeDevice_inv h
      · exact State.writeBlock_inv h

theorem State.hostRead_inv {off : Nat} (h : s.Inv) : (s.hostRead fn off).Inv := State.modHub_inv rfl h

theorem execPowerGrantPeriod_inv (h : s.Inv) : OutInv (execPowerGrantPeriod s) := by
  unfold execPowerGrantPeriod
  dsimp only
  split
  · exact h
  · refine State.Inv.foldl (fun u x hu => ?_) (State.modHub_inv rfl h)
    split
    · exact State.modDie_inv hu
    · exact hu

theorem execPeerPortLinkLoss_inv {port : Nat} (h : s.Inv) : OutInv (execPeerPortLinkLoss port s) := State.modHub_inv rfl h

theorem State.peerStore_inv {g : Bool} {bs : List WByte} (h : s.Inv) : (s.peerStore g bs).Inv := by
  unfold State.peerStore
  dsimp only
  split
  · exact State.performG_inv h
  · split <;> exact State.performE_inv h

theorem State.peerAccess_inv {pa : Nat} {a : DomainAccess} (h : s.Inv) : (s.peerAccess part pa a).Inv := by
  unfold State.peerAccess
  dsimp only
  split
  · exact State.modHub_inv rfl h
  · exact State.peerStore_inv h
  · split
    · split
      · exact h
      · exact State.modHub_inv rfl (State.performAtomic_inv h)
    · split
      · exact h
      · exact State.modHub_inv rfl (State.performAtomic_inv h)

theorem State.outside_inv {pa : Nat} {acc : DomainAccess} (h : s.Inv) : (s.outside part pa acc).Inv := by
  unfold State.outside
  dsimp only
  split
  · split
    · split
      · split
        · exact h
        · exact State.peerAccess_inv h
      · split
        · exact h
        · exact State.peerAccess_inv h
      · split
        · split
          · exact h
          · exact State.peerAccess_inv h
        · split
          · exact h
          · exact State.peerAccess_inv h
    · split
      · split
        · exact h
        · exact State.peerAccess_inv h
      · split
        · exact h
        · exact State.peerAccess_inv h
      · split
        · split
          · exact h
          · exact State.peerAccess_inv h
        · split
          · exact h
          · exact State.peerAccess_inv h
  · split
    · split
      · split
        · exact h
        · exact State.peerAccess_inv h
      · split
        · exact h
        · exact State.peerAccess_inv h
      · split
        · split
          · exact h
          · exact State.peerAccess_inv h
        · split
          · exact h
          · exact State.peerAccess_inv h
    · split
      · split
        · exact h
        · exact State.peerAccess_inv h
      · split
        · exact h
        · exact State.peerAccess_inv h
      · split
        · split
          · exact h
          · exact State.peerAccess_inv h
        · split
          · exact h
          · exact State.peerAccess_inv h

theorem State.outsideAccess_inv {pa : Nat} {data : Option (List Byte)} (h : s.Inv) : (s.outsideAccess part pa data).Inv :=
  State.outside_inv h

theorem execHostBar2Access_inv {pa : BitVec 52} {data : Option (List (BitVec 8))} (h : s.Inv) : OutInv (execHostBar2Access fn pa data s)
    := by
  unfold execHostBar2Access
  split
  · exact State.outsideAccess_inv h
  · exact h

theorem execHostCxlMemAccess_inv {pa : BitVec 52} {data : Option (List (BitVec 8))} (h : s.Inv) : OutInv
    (execHostCxlMemAccess part pa data s) := by
  unfold execHostCxlMemAccess
  split
  · exact State.outsideAccess_inv h
  · exact h

theorem execDomainAccessReceive_inv {dev : Nat} {pa : BitVec 40} {acc : DomainAccess} (h : s.Inv) : OutInv
    (execDomainAccessReceive dev part pa acc s) := by
  unfold execDomainAccessReceive
  split
  · exact State.outside_inv h
  · exact h

theorem State.sendPieces_inv {s : State} {pl ctx : Nat} {ps : List (BitVec 64 × Nat)} {bs : List Byte} (h : s.Inv) :
    (s.sendPieces pl ctx ps bs).Inv := by
  induction ps generalizing s bs with
  | nil => exact h
  | cons p ps ih =>
    refine ih ?_
    split
    · exact State.placeWrite_inv h
    · exact h

theorem State.sendOne_inv {p : Posted} (h : s.Inv) : (s.sendOne p).Inv := by
  unfold State.sendOne
  dsimp only
  split
  · split
    · exact State.sendPieces_inv h
    · exact State.faultContext_inv (State.agentWrite_inv h)
    · exact State.agentWrite_inv h
  · exact State.hubWrite_inv h
  · exact State.signalBehind_inv h
  · exact State.outside_inv h

theorem State.sendPosted_inv (h : s.Inv) : s.sendPosted.Inv := State.Inv.foldl (fun _ _ hu => State.sendOne_inv hu) h

/-! #### Memory, translation and the caches -/

theorem State.putByte_inv {b : WByte} (h : s.Inv) : (s.putByte b).Inv := h.of_wf (s.putByte_wf b) (s.putByte_same b).hub_eq

/-! #### Boot, hub registers, keys -/

theorem State.peerWrite_inv {dev off : Nat} {bs : List Byte} (h : s.Inv) : (s.peerWrite dev off bs).Inv := by
  unfold State.peerWrite
  split
  · exact h
  · exact State.Inv.foldl (fun _ _ hu => State.putByte_inv hu) h

/-! #### The life of a die -/

theorem State.ackLoss_inv {r : Raise} (h : s.Inv) : (s.ackLoss k r).Inv := by
  unfold State.ackLoss
  split
  · exact h
  · exact State.offerContext_inv h

theorem State.completeLost_inv {missing : BitVec 4} (h : s.Inv) : (s.completeLost n o missing).Inv := by
  unfold State.completeLost
  extract_lets keys bytes before1 before2 done
  have hdone : ∀ t w, t.Inv → (done t w).Inv := fun t w ht => State.finish_inv (ht.of_eq rfl rfl)
  split
  · exact hdone _ _ (State.deliver_inv (State.performAtomics_inv h))
  · exact hdone _ _ (State.performStore_inv h)
  · exact h

theorem State.performHeld_inv {f : Op → Op} (h : s.Inv) : (s.performHeld n o f).Inv := by
  unfold State.performHeld
  dsimp only
  split
  · exact State.finish_inv (State.performStore_inv h)
  · exact h

theorem State.giveUp_inv {xs : List (Nat × Op)} (h : s.Inv) : (s.giveUp xs).Inv := by
  unfold State.giveUp
  dsimp only
  refine State.Inv.foldl (fun u x hu => ?_) h
  split
  · exact State.setOp_inv hu
  · exact State.performHeld_inv hu

theorem State.pushEarlier_inv (h : s.Inv) : (s.pushEarlier n o).Inv := by
  unfold State.pushEarlier
  refine State.Inv.foldl (fun u x hu => ?_) h
  split
  · split
    · exact State.performHeld_inv hu
    · exact hu
  · exact hu

theorem State.ackLossStore_inv (h : s.Inv) : (s.ackLossStore n o).Inv := by
  unfold State.ackLossStore
  dsimp only
  split
  · split
    · split
      · exact h
      · exact State.ackLoss_inv (State.completeLost_inv h)
    · split
      · exact h
      · exact State.ackLoss_inv (State.completeLost_inv (State.pushEarlier_inv h))
  · split
    · split
      · exact h
      · exact State.ackLoss_inv (State.completeLost_inv h)
    · split
      · exact h
      · exact State.ackLoss_inv (State.completeLost_inv (State.pushEarlier_inv h))

theorem execAcktoExpiry_inv (h : s.Inv) : OutInv (execAcktoExpiry op s) := by
  unfold execAcktoExpiry
  dsimp only
  split
  · exact h
  · split
    · split
      · split
        · exact h
        · refine State.ackLoss_inv ?_
          split
          · split
            · exact State.giveUp_inv h
            · split
              · exact State.completeLost_inv (State.giveUp_inv h)
              · exact State.performHeld_inv (State.giveUp_inv h)
          · split
            · exact State.completeLost_inv (State.giveUp_inv h)
            · exact State.giveUp_inv h
          · exact State.giveUp_inv h
      · split
        · split
          · exact State.ackLossStore_inv h
          · exact h
        · exact State.Inv.foldl (fun _ _ hu => State.ackLoss_inv (State.giveUp_inv hu)) h
    · split
      · split
        · exact h
        · refine State.ackLoss_inv ?_
          split
          · split
            · exact State.giveUp_inv h
            · split
              · exact State.completeLost_inv (State.giveUp_inv h)
              · exact State.performHeld_inv (State.giveUp_inv h)
          · split
            · exact State.completeLost_inv (State.giveUp_inv h)
            · exact State.giveUp_inv h
          · exact State.giveUp_inv h
      · split
        · split
          · exact State.ackLossStore_inv h
          · exact h
        · exact State.Inv.foldl (fun _ _ hu => State.ackLoss_inv (State.giveUp_inv hu)) h

theorem State.loseVat_inv (h : s.Inv) : (s.loseVat vk).Inv :=
  State.Inv.foldl (fun _ _ hu => State.modWarp_inv hu) (State.modLot_inv (State.modVat_inv (State.freeImage_inv h)))

theorem State.loseOp_inv (h : s.Inv) : (s.loseOp dies n).Inv := by
  unfold State.loseOp
  dsimp only
  split
  · exact State.acknowledge_inv h
  · split
    · split
      · exact State.setOp_inv (State.acknowledge_inv h)
      · exact State.dropOp_inv (State.acknowledge_inv h)
    · split
      · split
        · exact State.acknowledge_inv h
        · split
          · exact State.finish_inv (State.acknowledge_inv h)
          · exact State.setOp_inv (State.acknowledge_inv h)
      · exact State.setOp_inv (State.acknowledge_inv h)
      · exact State.setOp_inv (State.acknowledge_inv h)
      · split
        · exact State.acknowledge_inv h
        · split
          · exact State.dropOp_inv (State.acknowledge_inv h)
          · exact State.setOp_inv (State.acknowledge_inv h)
      · exact State.acknowledge_inv h

theorem State.loseLake_inv (h : s.Inv) : (s.loseLake dies).Inv := State.Inv.foldl (fun _ _ hu => State.finish_inv hu) h
theorem State.loseStorage_inv (h : s.Inv) : (s.loseStorage dies).Inv := h

theorem State.declareLost_inv (h : s.Inv) : (s.declareLost dies).Inv :=
  State.Inv.foldl (fun _ _ hu => State.modHub_inv rfl (State.modDie_inv hu)) h

theorem State.lostContexts_inv (h : s.Inv) : (s.lostContexts dies).Inv := by
  unfold State.lostContexts
  dsimp only
  refine State.Inv.foldl (fun u x hu => ?_) h
  split
  · split
    · exact State.faultContext_inv hu
    · exact hu
  · exact hu

theorem State.noteLost_inv (h : s.Inv) : (s.noteLost dies).Inv := h

theorem State.dieDown_inv (h : s.Inv) : (s.dieDown dies).Inv := by
  unfold State.dieDown
  dsimp only
  split
  · exact h
  · exact State.sendPosted_inv (State.lostContexts_inv (State.noteLost_inv
    (State.Inv.foldl (fun _ _ hu => State.loseVat_inv hu) (State.loseStorage_inv
    (State.loseLake_inv (State.Inv.foldl (fun _ _ hu => State.loseOp_inv hu) (State.declareLost_inv h)))))))

theorem State.interval_inv {d : Nat} (h : s.Inv) : (s.interval d).Inv := by
  unfold State.interval
  dsimp only
  split
  · exact h
  · split
    · split
      · exact State.modHub_inv rfl (State.modDie_inv h)
      · exact State.modDie_inv h
    · split
      · exact State.modHub_inv rfl (State.modDie_inv h)
      · exact State.modDie_inv h

theorem execHubIntervalTick_inv (h : s.Inv) : OutInv (execHubIntervalTick s) := by
  unfold execHubIntervalTick
  split
  · exact h
  · exact State.Inv.foldl (fun _ _ hu => State.interval_inv hu) (State.modHub_inv rfl h)

theorem execDltoExpiry_inv (h : s.Inv) : OutInv (execDltoExpiry dies s) := State.dieDown_inv h
theorem execDieTakeDown_inv (h : s.Inv) : OutInv (execDieTakeDown die s) := State.dieDown_inv h

theorem execDieResetStart_inv (h : s.Inv) : OutInv (execDieResetStart die s) := by
  unfold execDieResetStart
  split
  · exact h
  · exact h.of_wf (fun hw => Map.wf_keep (fun k _ => !(s.homeOfKey k == some die)) hw) rfl

theorem execDieResetDone_inv (h : s.Inv) : OutInv (execDieResetDone die s) := by
  unfold execDieResetDone
  dsimp only
  split
  · exact h
  · exact State.modHub_inv rfl (State.modDie_inv h)

theorem State.accept_inv {p : Packet} (h : s.Inv) : (s.accept p).Inv := by
  unfold State.accept
  split
  · split
    · exact State.invalidate_inv h
    · exact h
  · exact State.acknowledge_inv h
  · exact h

theorem State.judge_inv {p : Packet} (h : s.Inv) : (s.judge p).Inv := by
  unfold State.judge
  dsimp only
  split
  · exact State.modDie_inv h
  · split
    · exact State.accept_inv h
    · split
      · exact State.modDie_inv h
      · exact State.modHub_inv rfl h

theorem State.deliverPacket_inv {p : Packet} (h : s.Inv) : (s.deliverPacket p).Inv := by
  unfold State.deliverPacket
  split
  · exact State.judge_inv h
  · split
    · exact State.modHub_inv rfl h
    · exact State.modHub_inv rfl h
    · exact State.judge_inv h
    · split
      · exact State.acknowledge_inv h
      · exact h

theorem State.flitArrives_inv {d : Nat} (h : s.Inv) : (s.flitArrives d).Inv := by
  unfold State.flitArrives
  dsimp only
  split
  · exact State.modDie_inv h
  · split
    · exact h
    · exact State.sendPosted_inv (State.Inv.foldl (fun _ _ hu => State.deliverPacket_inv hu)
      (State.deliverInvals_inv (State.modHub_inv rfl (State.modDie_inv h))))
  · exact h

theorem execHeartbeatSend_inv (h : s.Inv) : OutInv (execHeartbeatSend die s) := State.flitArrives_inv h

theorem execPacketReceive_inv {pkt : Packet} (h : s.Inv) : OutInv (execPacketReceive pkt s) := by
  unfold execPacketReceive
  dsimp only
  split
  · exact h
  · split
    · split
      · exact State.modHub_inv rfl (State.flitArrives_inv h)
      · exact State.deliverPacket_inv (State.flitArrives_inv h)
    · split
      · exact State.modHub_inv rfl h
      · exact State.deliverPacket_inv h

theorem execFlitCrcFail_inv {src : Nat} {dst : FlitEnd} (h : s.Inv) : OutInv (execFlitCrcFail src dst s) := by
  unfold execFlitCrcFail
  dsimp only
  split
  · exact State.modHub_inv rfl h
  · exact h

theorem execNeighbourLinkRetrainFail_inv (h : s.Inv) : OutInv (execNeighbourLinkRetrainFail die s) := by
  unfold execNeighbourLinkRetrainFail
  dsimp only
  split
  · exact h
  · exact State.modHub_inv rfl h

theorem execMordantLineReturn_inv {line : Nat} (h : s.Inv) : OutInv (execMordantLineReturn line s) := State.modHub_inv rfl h
theorem execHubDieLoss_inv (h : s.Inv) : OutInv (execHubDieLoss s) := State.afterReset_inv h

theorem State.vatEcc_inv (h : s.Inv) : (s.vatEcc vk).Inv := by
  unfold State.vatEcc
  dsimp only
  split
  · exact h
  · split
    · exact State.modWarp_inv h
    · exact State.faultContext_inv (State.noteFirst_inv h)

theorem State.dropEntries_inv {d : Nat} (h : s.Inv) : (s.dropEntries d).Inv := h

theorem State.takeDownFor_inv {d : Nat} (h : s.Inv) : (s.takeDownFor part d).Inv := by
  unfold State.takeDownFor
  split
  · exact State.dieDown_inv (State.modPart_inv h)
  · exact h

theorem State.partitionRung_inv (h : s.Inv) : (s.partitionRung part).Inv := by
  unfold State.partitionRung
  split
  · exact h
  · split
    · exact State.modPart_inv h
    · split
      · exact State.afterReset_inv h
      · exact h

theorem execUncorrectableError_inv {site : ErrSite} (h : s.Inv) : OutInv (execUncorrectableError site s) := by
  unfold execUncorrectableError
  dsimp only
  split
  · exact State.modWarp_inv h
  · exact State.modWarp_inv h
  · split <;> exact h
  · exact State.vatEcc_inv h
  · exact State.dropEntries_inv h
  · split
    · exact State.faultContext_inv h
    · exact h
  · exact State.takeDownFor_inv (State.faultPartition_inv h)
  · exact State.faultPartition_inv h
  · exact State.faultPartition_inv h
  · exact State.afterReset_inv h

/-! #### Uniform instructions -/

theorem State.uniR_inv {op : Word → Word → Word} (h : s.Inv) : OutInv (s.uniR k st d a b op) :=
  State.issue_inv h (fun _ hu => State.pendK_inv hu)

theorem execKadd_inv (h : s.Inv) : OutInv (execKadd st d a b s) := State.uniR_inv h
theorem execKsub_inv (h : s.Inv) : OutInv (execKsub st d a b s) := State.uniR_inv h
theorem execKmul_inv (h : s.Inv) : OutInv (execKmul st d a b s) := State.uniR_inv h
theorem execKand_inv (h : s.Inv) : OutInv (execKand st d a b s) := State.uniR_inv h
theorem execKor_inv (h : s.Inv) : OutInv (execKor st d a b s) := State.uniR_inv h
theorem execKxor_inv (h : s.Inv) : OutInv (execKxor st d a b s) := State.uniR_inv h
theorem execKshl_inv (h : s.Inv) : OutInv (execKshl st d a b s) := State.uniR_inv h
theorem execKshr_inv (h : s.Inv) : OutInv (execKshr st d a b s) := State.uniR_inv h
theorem execKmov_inv (h : s.Inv) : OutInv (execKmov st d a s) := State.issue_inv h (fun _ hu => State.pendK_inv hu)
theorem execKmovi_inv {imm : BitVec 14} (h : s.Inv) : OutInv (execKmovi st d imm s) := State.issue_inv h (fun _ hu => State.pendK_inv hu)
theorem execKcmpp_inv (h : s.Inv) : OutInv (execKcmpp st a b sub pd ps pn imm7 s) := State.issue_inv h (fun _ hu => State.pendP_inv hu)
theorem execKlane_inv (h : s.Inv) : OutInv (execKlane st d a b s) := State.issue_inv h (fun _ hu => State.pendP_inv (State.pendK_inv hu))
theorem execKpopm_inv (h : s.Inv) : OutInv (execKpopm st d a b s) := State.issue_inv h (fun _ hu => State.pendK_inv hu)

/-! #### Lane instructions -/

theorem State.lxch_inv {f : Nat} {src : Int → Int → Int} (h : s.Inv) : OutInv (s.lxch f st d a b sub c src) :=
  State.issue_inv h (fun _ hu => State.pendP_inv (State.pendD_inv hu))

theorem execLxchAt_inv (h : s.Inv) : OutInv (execLxchAt st d a b sub c s) := State.lxch_inv h
theorem execLxchBack_inv (h : s.Inv) : OutInv (execLxchBack st d a b sub c s) := State.lxch_inv h
theorem execLxchFwd_inv (h : s.Inv) : OutInv (execLxchFwd st d a b sub c s) := State.lxch_inv h
theorem execLxchFlip_inv (h : s.Inv) : OutInv (execLxchFlip st d a b sub c s) := State.lxch_inv h
theorem execLtest_inv (h : s.Inv) : OutInv (execLtest st sub pd ps pn s) := State.issue_inv h (fun _ hu => State.pendP_inv hu)

theorem execPmask_inv (h : s.Inv) : OutInv (execPmask st d a s) := by
  unfold execPmask
  dsimp only
  refine State.issue_inv h (fun u hu => ?_)
  split
  · exact State.pendK_inv hu
  · exact State.pendD_inv hu

theorem execLsame_inv (h : s.Inv) : OutInv (execLsame st d a b s) := State.issue_inv h (fun _ hu => State.pendD_inv hu)

theorem execLfold_inv (h : s.Inv) : OutInv (execLfold st d a sub s) := by
  unfold execLfold
  dsimp only
  refine State.issue_inv h (fun u hu => ?_)
  refine State.addFlags_inv ?_
  split
  · exact State.pendK_inv hu
  · exact State.pendD_inv hu

theorem execScanx_inv (h : s.Inv) : OutInv (execScanx st d a sub imm7 s) :=
  State.issue_inv h (fun _ hu => State.addFlags_inv (State.pendD_inv hu))

theorem State.matches_inv {ms : List Word} {k0 k1 : Word} (h : s.Inv) : (s.matches d c pd ms k0 k1).Inv :=
  State.putK_inv (State.putK_inv (State.putP_inv (State.putD_inv h)))

theorem execIsect_inv (h : s.Inv) : OutInv (execIsect st d a b c pd s) := State.issue_inv h (fun _ hu => State.matches_inv hu)
theorem execBmpos_inv (h : s.Inv) : OutInv (execBmpos st d a b c pd s) := State.issue_inv h (fun _ hu => State.matches_inv hu)

/-! #### Every instruction -/

theorem exec_inv {i : Instr} (h : s.Inv) : OutInv (exec i s) := by
  cases i
  case iadd => exact execIadd_inv h
  case isub => exact execIsub_inv h
  case imul => exact execImul_inv h
  case imulh => exact execImulh_inv h
  case imin => exact execImin_inv h
  case imax => exact execImax_inv h
  case iabs => exact execIabs_inv h
  case ineg => exact execIneg_inv h
  case imad => exact execImad_inv h
  case iadd64 => exact execIadd64_inv h
  case isub64 => exact execIsub64_inv h
  case bfi => exact execBfi_inv h
  case bfx => exact execBfx_inv h
  case sel => exact execSel_inv h
  case icmpp => exact execIcmpp_inv h
  case and => exact execAnd_inv h
  case or => exact execOr_inv h
  case xor => exact execXor_inv h
  case not => exact execNot_inv h
  case shl => exact execShl_inv h
  case shr => exact execShr_inv h
  case sar => exact execSar_inv h
  case rol => exact execRol_inv h
  case shl64 => exact execShl64_inv h
  case shr64 => exact execShr64_inv h
  case popc => exact execPopc_inv h
  case clz => exact execClz_inv h
  case brev => exact execBrev_inv h
  case mov => exact execMov_inv h
  case movi => exact execMovi_inv h
  case limm => exact execLimm_inv h
  case setwb => exact execSetwb_inv h
  case movxR => exact execMovxR_inv h
  case movxW => exact execMovxW_inv h
  case fadd => exact execFadd_inv h
  case fsub => exact execFsub_inv h
  case fmul => exact execFmul_inv h
  case fmin => exact execFmin_inv h
  case fmax => exact execFmax_inv h
  case fneg => exact execFneg_inv h
  case fabs => exact execFabs_inv h
  case fclass => exact execFclass_inv h
  case faddRm => exact execFaddRm_inv h
  case fsubRm => exact execFsubRm_inv h
  case fmulRm => exact execFmulRm_inv h
  case ffma => exact execFfma_inv h
  case fcmpp => exact execFcmpp_inv h
  case frint => exact execFrint_inv h
  case fdp2 => exact execFdp2_inv h
  case hadd2 => exact execHadd2_inv h
  case hmul2 => exact execHmul2_inv h
  case hfma2 => exact execHfma2_inv h
  case hadd2X => exact execHadd2X_inv h
  case hmul2X => exact execHmul2X_inv h
  case idp4 => exact execIdp4_inv h
  case cvt => exact execCvt_inv h
  case cvtsTo => exact execCvtsTo_inv h
  case cvtsFrom => exact execCvtsFrom_inv h
  case frcp => exact execFrcp_inv h
  case frsq => exact execFrsq_inv h
  case fsqrt => exact execFsqrt_inv h
  case fexp2 => exact execFexp2_inv h
  case flog2 => exact execFlog2_inv h
  case fsin => exact execFsin_inv h
  case fcos => exact execFcos_inv h
  case tint => exact execTint_inv h
  case tintld => exact execTintld_inv h
  case tintsw => exact execTintsw_inv h
  case chld => exact execChld_inv h
  case chrun => exact execChrun_inv h
  case kadd => exact execKadd_inv h
  case ksub => exact execKsub_inv h
  case kmul => exact execKmul_inv h
  case kand => exact execKand_inv h
  case kor => exact execKor_inv h
  case kxor => exact execKxor_inv h
  case kshl => exact execKshl_inv h
  case kshr => exact execKshr_inv h
  case kmov => exact execKmov_inv h
  case kmovi => exact execKmovi_inv h
  case kcmpp => exact execKcmpp_inv h
  case klane => exact execKlane_inv h
  case kpopm => exact execKpopm_inv h
  case bra => exact execBra_inv h
  case braPred => exact execBraPred_inv h
  case brx => exact execBrx_inv h
  case call => exact execCall_inv h
  case ret => exact execRet_inv h
  case exit => exact execExit_inv h
  case nop => exact execNop_inv h
  case sleep => exact execSleep_inv h
  case enrol => exact execEnrol_inv h
  case jwait => exact execJwait_inv h
  case dret => exact execDret_inv h
  case park => exact execPark_inv h
  case yield => exact execYield_inv h
  case barv => exact execBarv_inv h
  case barn => exact execBarn_inv h
  case bleave => exact execBleave_inv h
  case stgbeg => exact execStgbeg_inv h
  case stgnext => exact execStgnext_inv h
  case stgadv => exact execStgadv_inv h
  case stgset => exact execStgset_inv h
  case stgwl => exact execStgwl_inv h
  case stgend => exact execStgend_inv h
  case lxchAt => exact execLxchAt_inv h
  case lxchBack => exact execLxchBack_inv h
  case lxchFwd => exact execLxchFwd_inv h
  case lxchFlip => exact execLxchFlip_inv h
  case ltest => exact execLtest_inv h
  case pmask => exact execPmask_inv h
  case lsame => exact execLsame_inv h
  case lfold => exact execLfold_inv h
  case scanx => exact execScanx_inv h
  case isect => exact execIsect_inv h
  case bmpos => exact execBmpos_inv h
  case ld => exact execLd_inv h
  case st => exact execSt_inv h
  case lds => exact execLds_inv h
  case sts => exact execSts_inv h
  case atom => exact execAtom_inv h
  case atoms => exact execAtoms_inv h
  case red => exact execRed_inv h
  case pref => exact execPref_inv h
  case fence => exact execFence_inv h
  case ifence => exact execIfence_inv h
  case lfence => exact execLfence_inv h
  case waitc => exact execWaitc_inv h
  case cctlIl1 => exact execCctlIl1_inv h
  case cctlIrlc => exact execCctlIrlc_inv h
  case cctlWbl2 => exact execCctlWbl2_inv h
  case copy => exact execCopy_inv h
  case dcopy => exact execDcopy_inv h
  case ctabld => exact execCtabld_inv h
  case secfg => exact execSecfg_inv h
  case sego => exact execSego_inv h
  case sestop => exact execSestop_inv h
  case sltake => exact execSltake_inv h
  case slgive => exact execSlgive_inv h
  case spawn => exact execSpawn_inv h
  case spawnR => exact execSpawnR_inv h
  case tdone => exact execTdone_inv h
  case hista => exact execHista_inv h
  case histl => exact execHistl_inv h
  case labort => exact execLabort_inv h
  case abchk => exact execAbchk_inv h
  case bkprog => exact execBkprog_inv h
  case bklaunch => exact execBklaunch_inv h
  case bkfence => exact execBkfence_inv h
  case tcfg => exact execTcfg_inv h
  case mma => exact execMma_inv h
  case mmas => exact execMmas_inv h
  case mzero => exact execMzero_inv h
  case mld => exact execMld_inv h
  case mst => exact execMst_inv h
  case mfill => exact execMfill_inv h
  case mdrain => exact execMdrain_inv h
  case acqa => exact execAcqa_inv h
  case rela => exact execRela_inv h
  case msync => exact execMsync_inv h
  case sysr => exact execSysr_inv h
  case sysw => exact execSysw_inv h
  case syswRingd => exact execSyswRingd_inv h
  case syswRingtag => exact execSyswRingtag_inv h
  case syswVbstat => exact execSyswVbstat_inv h
  case syswNbstat => exact execSyswNbstat_inv h
  case syswLstate => exact execSyswLstate_inv h
  case syswLpc => exact execSyswLpc_inv h
  case syswHistbin => exact execSyswHistbin_inv h
  case trap => exact execTrap_inv h
  case tret => exact execTret_inv h
  case tretSkip => exact execTretSkip_inv h
  case tretEsc => exact execTretEsc_inv h
  case bkpt => exact execBkpt_inv h
  case savew => exact execSavew_inv h
  case savewDone => exact execSavewDone_inv h
  case restw => exact execRestw_inv h
  case rep => exact execRep_inv h
  case lakeNop => exact execLakeNop_inv h
  case xld => exact execXld_inv h
  case rowrd => exact execRowrd_inv h
  case mac8 => exact execMac8_inv h
  case mac4 => exact execMac4_inv h
  case mach => exact execMach_inv h
  case accz => exact execAccz_inv h
  case accsc => exact execAccsc_inv h
  case accadd => exact execAccadd_inv h
  case outw => exact execOutw_inv h
  case rcadd => exact execRcadd_inv h
  case ccadd => exact execCcadd_inv h
  case loop => exact execLoop_inv h
  case lend => exact execLend_inv h
  case lakeSync => exact execLakeSync_inv h
  case flagsC => exact execFlagsC_inv h
  case flagsR => exact execFlagsR_inv h
  case trapl => exact execTrapl_inv h
  case halt => exact execHalt_inv h
  case deviceReset => exact execDeviceReset_inv h
  case firmwareFetchRetry => exact execFirmwareFetchRetry_inv h
  case getVersion => exact execGetVersion_inv h
  case getCapabilities => exact execGetCapabilities_inv h
  case negotiateAlgorithms => exact execNegotiateAlgorithms_inv h
  case getDigests => exact execGetDigests_inv h
  case getCertificate => exact execGetCertificate_inv h
  case challenge => exact execChallenge_inv h
  case getMeasurements => exact execGetMeasurements_inv h
  case keyExchange => exact execKeyExchange_inv h
  case keySlotLoad => exact execKeySlotLoad_inv h
  case keySlotClear => exact execKeySlotClear_inv h
  case sqDoorbell => exact execSqDoorbell_inv h
  case sqEnable => exact execSqEnable_inv h
  case lotAccept => exact execLotAccept_inv h
  case waitSemaphoreRead => exact execWaitSemaphoreRead_inv h
  case lotGateOpen => exact execLotGateOpen_inv h
  case vatPlace => exact execVatPlace_inv h
  case cohabPlace => exact execCohabPlace_inv h
  case warpDrainDone => exact execWarpDrainDone_inv h
  case vatRestorePlace => exact execVatRestorePlace_inv h
  case vatLeave => exact execVatLeave_inv h
  case lotComplete => exact execLotComplete_inv h
  case driverDoorbell => exact execDriverDoorbell_inv h
  case ctxnew => exact execCtxnew_inv h
  case ctxreset => exact execCtxreset_inv h
  case tlbinv => exact execTlbinv_inv h
  case tlbinvComplete => exact execTlbinvComplete_inv h
  case ctxfree => exact execCtxfree_inv h
  case driverBadOpcode => exact execDriverBadOpcode_inv h
  case fsvcResume => exact execFsvcResume_inv h
  case fsvcFaillot => exact execFsvcFaillot_inv h
  case fsvcFailctx => exact execFsvcFailctx_inv h
  case feataccWrite => exact execFeataccWrite_inv h
  case pwrlimWrite => exact execPwrlimWrite_inv h
  case plcfgWrite => exact execPlcfgWrite_inv h
  case registerWrite => exact execRegisterWrite_inv h
  case powerGrantPeriod => exact execPowerGrantPeriod_inv h
  case heartbeatSend => exact execHeartbeatSend_inv h
  case hubIntervalTick => exact execHubIntervalTick_inv h
  case dltoExpiry => exact execDltoExpiry_inv h
  case dieTakeDown => exact execDieTakeDown_inv h
  case dieResetStart => exact execDieResetStart_inv h
  case dieResetDone => exact execDieResetDone_inv h
  case packetReceive => exact execPacketReceive_inv h
  case flitCrcFail => exact execFlitCrcFail_inv h
  case neighbourLinkRetrainFail => exact execNeighbourLinkRetrainFail_inv h
  case acktoExpiry => exact execAcktoExpiry_inv h
  case gStoreAck => exact execGStoreAck_inv h
  case loadComplete => exact execLoadComplete_inv h
  case storePerformed => exact execStorePerformed_inv h
  case atomicComplete => exact execAtomicComplete_inv h
  case mordantLineReturn => exact execMordantLineReturn_inv h
  case prmPushRequest => exact execPrmPushRequest_inv h
  case splitDataArrive => exact execSplitDataArrive_inv h
  case copyComplete => exact execCopyComplete_inv h
  case dcopyComplete => exact execDcopyComplete_inv h
  case tableLoadComplete => exact execTableLoadComplete_inv h
  case histlComplete => exact execHistlComplete_inv h
  case matrixOperandComplete => exact execMatrixOperandComplete_inv h
  case matrixComplete => exact execMatrixComplete_inv h
  case streamBox => exact execStreamBox_inv h
  case acqaGrant => exact execAcqaGrant_inv h
  case taskEnter => exact execTaskEnter_inv h
  case taskRetire => exact execTaskRetire_inv h
  case binFormWarp => exact execBinFormWarp_inv h
  case overflowRefill => exact execOverflowRefill_inv h
  case abortFlagArrive => exact execAbortFlagArrive_inv h
  case clauseIssue => exact execClauseIssue_inv h
  case clauseBoundary => exact execClauseBoundary_inv h
  case rungServiceTimeout => exact execRungServiceTimeout_inv h
  case barrierTimeout => exact execBarrierTimeout_inv h
  case stageParkTimeout => exact execStageParkTimeout_inv h
  case slotParkTimeout => exact execSlotParkTimeout_inv h
  case presenceTimeout => exact execPresenceTimeout_inv h
  case secfgParkTimeout => exact execSecfgParkTimeout_inv h
  case acqaWaitTimeout => exact execAcqaWaitTimeout_inv h
  case ovfStall => exact execOvfStall_inv h
  case vatStopForce => exact execVatStopForce_inv h
  case evictForce => exact execEvictForce_inv h
  case saveRestoreTimeout => exact execSaveRestoreTimeout_inv h
  case hostCxlMemAccess => exact execHostCxlMemAccess_inv h
  case lakeProgramLoad => exact execLakeProgramLoad_inv h
  case lakeCommandStart => exact execLakeCommandStart_inv h
  case lakeTimeout => exact execLakeTimeout_inv h
  case lakeCommandEnd => exact execLakeCommandEnd_inv h
  case peerPortLinkLoss => exact execPeerPortLinkLoss_inv h
  case domainAccessReceive => exact execDomainAccessReceive_inv h
  case hostBar2Access => exact execHostBar2Access_inv h
  case hubDieLoss => exact execHubDieLoss_inv h
  case uncorrectableError => exact execUncorrectableError_inv h

/-! #### What goes on by itself -/

theorem State.heldAtSafePoint_inv {t : State} (h : s.Inv) (e : s.heldAtSafePoint = some t) : t.Inv := by
  unfold State.heldAtSafePoint at e
  dsimp only at e
  split at e
  · cases e
  · split at e
    · cases e
      exact State.setW_inv h
    · split at e
      · cases e
        exact State.setW_inv h
      · split at e
        · split at e
          · cases e
            exact State.raiseAsync_inv (State.setW_inv h)
          · cases e
        · cases e

theorem State.runWord_inv (h : s.Inv) : OutInv s.runWord := by
  have ht {t : State} {x : Fetched} (e : s.fetchInstr = (t, x)) : t.Inv := by
    rw [← show s.fetchInstr.1 = t from congrArg Prod.fst e]
    exact State.fetchInstr_inv h
  unfold State.runWord
  split
  · next t i e => exact exec_inv (ht e)
  · next t r w x e => exact State.rejectWord_inv (ht e)
  · next t x e => exact State.fetchMiss_inv (ht e)

theorem State.issueTurn_inv (h : s.Inv) : OutInv s.issueTurn := by
  unfold State.issueTurn
  split
  · split
    · next e => exact State.heldAtSafePoint_inv h e
    · split
      · exact execClauseBoundary_inv h
      · exact execClauseIssue_inv (State.markStart_inv h)
      · exact State.runWord_inv (State.markStart_inv h)
  · exact h

theorem State.warpTurn_inv (h : s.Inv) : OutInv s.warpTurn := by
  unfold State.warpTurn
  split
  · split
    · exact State.queueService_inv h
    · exact State.issueTurn_inv h
  · exact State.issueTurn_inv h

theorem State.noteReady_inv (h : s.Inv) : s.noteReady.Inv := h

theorem State.lakeMiss_inv (h : s.Inv) : OutInv s.lakeMiss := by
  unfold State.lakeMiss
  split
  · split
    · exact execLakeCommandEnd_inv h
    · exact State.lakeBadWord_inv h
  · split
    · exact h
    · split
      · split
        · exact execLakeProgramLoad_inv h
        · exact execLakeCommandStart_inv h
      · exact h

theorem State.engineTurn_inv (h : s.Inv) : OutInv s.engineTurn := by
  unfold State.engineTurn
  split
  · exact exec_inv h
  · exact State.lakeMiss_inv h

theorem State.own_inv {a : Own} (h : s.Inv) : OutInv (s.own a) := by
  unfold State.own
  split
  · exact execLoadComplete_inv h
  · exact execStorePerformed_inv h
  · exact execGStoreAck_inv h
  · exact execAtomicComplete_inv h
  · exact execCopyComplete_inv h
  · exact execDcopyComplete_inv h
  · exact execTableLoadComplete_inv h
  · exact execHistlComplete_inv h
  · exact execMatrixOperandComplete_inv h
  · exact execMatrixComplete_inv h
  · exact execWarpDrainDone_inv h
  · exact execPrmPushRequest_inv h
  · exact execAcqaGrant_inv h
  · exact execStreamBox_inv h
  · exact execVatLeave_inv h
  · exact execVatRestorePlace_inv h
  · exact execAbortFlagArrive_inv h
  · exact execLotComplete_inv h
  · exact execWaitSemaphoreRead_inv h
  · exact execLotGateOpen_inv h
  · exact execCohabPlace_inv h
  · exact execVatPlace_inv h
  · exact execTaskRetire_inv h
  · exact execBinFormWarp_inv h
  · exact execTaskEnter_inv h
  · exact execOverflowRefill_inv h
  · exact execLotAccept_inv h
  · exact execTlbinvComplete_inv h
  · exact execCtxnew_inv h
  · exact execCtxreset_inv h
  · exact execTlbinv_inv h
  · exact execCtxfree_inv h
  · exact execDriverBadOpcode_inv h
  · exact execRungServiceTimeout_inv h
  · exact execBarrierTimeout_inv h
  · exact execStageParkTimeout_inv h
  · exact execSlotParkTimeout_inv h
  · exact execPresenceTimeout_inv h
  · exact execSecfgParkTimeout_inv h
  · exact execAcqaWaitTimeout_inv h
  · exact execOvfStall_inv h
  · exact execVatStopForce_inv h
  · exact execEvictForce_inv h
  · exact execSaveRestoreTimeout_inv h
  · exact execLakeTimeout_inv h
  · exact execAcktoExpiry_inv h
  · exact execDltoExpiry_inv h
  · exact execMordantLineReturn_inv h
  · exact execFirmwareFetchRetry_inv h
  · exact State.partitionRung_inv h
  · exact State.endStage_inv h
  · exact State.sendPosted_inv h
  · exact State.copyPiece_inv h
  · exact State.lakeLand_inv h
  · split
    · exact State.takeWaiting_inv h
    · exact h

/-! #### A step -/

theorem act_inv {a : Actor} (h : s.Inv) : OutInv (act s a) := by
  unfold act
  split
  · split
    · exact State.warpTurn_inv (State.takeSlot_inv h)
    · exact h
  · exact State.engineTurn_inv h
  · split
    · exact exec_inv h
    · exact h
  · exact State.hostStore_inv h
  · exact State.hostAccept_inv h
  · exact State.hostRead_inv h
  · exact State.peerWrite_inv h

theorem actDue_inv {a : Due} (h : s.Inv) : OutInv (actDue s a) := by
  unfold actDue
  split
  · exact State.warpTurn_inv (State.takeSlot_inv h)
  · exact State.engineTurn_inv h
  · exact State.own_inv h
  · exact h

theorem State.elapse_inv {dt : Nat} (h : s.Inv) : (s.elapse dt).Inv := State.noteReady_inv h

theorem step_inv (h : s.Inv) : OutInv (step s) := by
  unfold step
  split
  · exact act_inv (State.elapse_inv h)
  · split
    · exact actDue_inv (State.elapse_inv h)
    · exact trivial

end

/-! ### The obligations -/

/-- Settles O59: a step is the act due after the time has passed (`step_inv`), and every act keeps the invariant (`act_inv`, `actDue_inv`). -/
theorem stepInvariant : Obligations.StepInvariant := by
  unfold Obligations.StepInvariant
  intro s t h e
  exact (e ▸ step_inv h : OutInv (.next t))

/-- Settles O60: memory lists nothing and FEATACC is 0. -/
theorem resetInvariant : Obligations.ResetInvariant := by
  unfold Obligations.ResetInvariant
  exact ⟨⟨State.reset_wf, BitVec.zero_and⟩, rfl, rfl, rfl, rfl, rfl, rfl, rfl⟩

end Sys2Proof.Machine
end

section
/-! PROOFS. From a queue to a core (spec/03 R62–R68): what a translation (`State.Walks`), an access of the firmware (`State.Acts`) and a fault of a
context (`State.Faults`) leave of queues and lots, the records taken from a queue, the checks of a lot, its completion, and its gates. -/

namespace Sys2Proof

/-! ### The sparse arrays: what is listed after a write -/

theorem Map.of_mem_erase {α : Type} {m : Map α} {k : Nat} {e : Nat × α} (h : e ∈ m.erase k) : e.1 ≠ k ∧ e ∈ m := by
  induction m with
  | nil => cases h
  | cons a m ih =>
    obtain ⟨j, w⟩ := a
    by_cases hj : j = k
    · simp only [Map.erase, hj, if_true] at h
      exact ⟨(ih h).1, List.mem_cons_of_mem _ (ih h).2⟩
    · simp only [Map.erase, hj, if_false] at h
      rcases List.mem_cons.1 h with rfl | h
      · exact ⟨hj, List.mem_cons_self⟩
      · exact ⟨(ih h).1, List.mem_cons_of_mem _ (ih h).2⟩

theorem Map.of_mem_insert {α : Type} {m : Map α} {k : Nat} {v : α} {e : Nat × α} (h : e ∈ m.insert k v) : e = (k, v) ∨ e ∈ m := by
  induction m with
  | nil => exact .inl (List.mem_singleton.1 h)
  | cons a m ih =>
    obtain ⟨j, w⟩ := a
    simp only [Map.insert] at h
    split at h
    · rcases List.mem_cons.1 h with rfl | h
      · exact .inr List.mem_cons_self
      · exact (ih h).imp id (List.mem_cons_of_mem _)
    · exact List.mem_cons.1 h

/-- A write leaves no second element of its index. -/
theorem Map.of_mem_set {α : Type} [Inhabited α] [DecidableEq α] {m : Map α} {k : Nat} {v : α} {e : Nat × α} (h : e ∈ m.set k v) :
    e = (k, v) ∨ e.1 ≠ k ∧ e ∈ m := by
  unfold Map.set at h
  split at h
  · exact .inr (Map.of_mem_erase h)
  · exact (Map.of_mem_insert h).imp id Map.of_mem_erase

theorem Map.le_of_mem_wfFrom {α : Type} [Inhabited α] [DecidableEq α] {m : Map α} {lo : Nat} {e : Nat × α} (hw : m.wfFrom lo = true)
    (h : e ∈ m) : lo ≤ e.1 := by
  induction m generalizing lo with
  | nil => cases h
  | cons a m ih =>
    simp only [Map.wfFrom, Bool.and_eq_true, decide_eq_true_eq] at hw
    obtain ⟨⟨hlo, -⟩, hw⟩ := hw
    rcases List.mem_cons.1 h with rfl | h
    · exact hlo
    · exact Nat.le_of_succ_le (Nat.le_trans (Nat.succ_le_succ hlo) (ih hw h))

/-- Each index is listed once. -/
theorem Map.get_of_mem {α : Type} [Inhabited α] [DecidableEq α] {m : Map α} (hw : m.wf = true) {k : Nat} {v : α} (h : (k, v) ∈ m) :
    m.get k = v := by
  unfold Map.wf at hw
  generalize 0 = lo at hw
  induction m generalizing lo with
  | nil => cases h
  | cons a m ih =>
    obtain ⟨j, w⟩ := a
    simp only [Map.wfFrom, Bool.and_eq_true, decide_eq_true_eq] at hw
    rcases List.mem_cons.1 h with e | h
    · cases e
      exact if_pos rfl
    · have hj : j + 1 ≤ k := Map.le_of_mem_wfFrom hw.2 h
      rw [Map.get, if_neg (Nat.ne_of_lt hj)]
      exact ih h _ hw.2

end Sys2Proof

namespace Sys2Proof.Machine

/-! ### What a translation leaves -/

/-- Nothing has changed but cached translations and the dies that contexts have touched. -/
structure State.Walks (s t : State) : Prop where
  only : t = { s with ctxs := t.ctxs, tlb := t.tlb }
  ctx : ∀ c, ∃ m, t.ctx c = { s.ctx c with tdmask := m }

theorem State.Walks.refl (s : State) : s.Walks s := ⟨rfl, fun c => ⟨(s.ctx c).tdmask, rfl⟩⟩

theorem State.Walks.trans {s t u : State} (h : s.Walks t) (g : t.Walks u) : s.Walks u where
  only := by rw [g.only, h.only]
  ctx c := by
    obtain ⟨m, hm⟩ := h.ctx c
    obtain ⟨n, hn⟩ := g.ctx c
    exact ⟨n, by rw [hn, hm]⟩

theorem State.Walks.foldl {α : Type} {f : State → α → State} (hf : ∀ (s : State) x, s.Walks (f s x)) (xs : List α) (s : State) :
    s.Walks (xs.foldl f s) := by
  induction xs generalizing s with
  | nil => exact .refl s
  | cons x xs ih => exact (hf s x).trans (ih _)

theorem State.Walks.hub {s t : State} (h : s.Walks t) : t.hub = s.hub := by rw [h.only]
theorem State.Walks.mem {s t : State} (h : s.Walks t) : t.mem = s.mem := by rw [h.only]
theorem State.Walks.lots {s t : State} (h : s.Walks t) : t.lots = s.lots := by rw [h.only]
theorem State.Walks.vats {s t : State} (h : s.Walks t) : t.vats = s.vats := by rw [h.only]
theorem State.Walks.parts {s t : State} (h : s.Walks t) : t.parts = s.parts := by rw [h.only]
theorem State.Walks.nextLot {s t : State} (h : s.Walks t) : t.nextLot = s.nextLot := by rw [h.only]
theorem State.Walks.gtime {s t : State} (h : s.Walks t) : t.gtime = s.gtime := by rw [h.only]

theorem State.Walks.lot {s t : State} (h : s.Walks t) (k : Nat) : t.lot k = s.lot k := by unfold State.lot; rw [h.lots]

theorem State.Walks.queues {s t : State} (h : s.Walks t) (c : Nat) : (t.ctx c).queues = (s.ctx c).queues := by
  obtain ⟨m, hm⟩ := h.ctx c
  rw [hm]

theorem State.touch_walks (s : State) (ctx : Nat) (dies : BitVec 4) : s.Walks (s.touch ctx dies) := by
  refine ⟨rfl, fun c => ?_⟩
  rw [State.touch, State.ctx_modCtx]
  split
  · next e =>
    subst e
    exact ⟨_, rfl⟩
  · exact ⟨_, rfl⟩

theorem State.tlbFill_walks (s : State) (key size : Nat) (e : TlbEntry) : s.Walks (s.tlbFill key size e) := by
  unfold State.tlbFill
  dsimp only
  split
  · exact .refl s
  · exact ⟨rfl, fun c => ⟨(s.ctx c).tdmask, rfl⟩⟩

theorem State.noteWalk_walks (s : State) (pl ctx : Nat) (w : Walk) : s.Walks (s.noteWalk pl ctx w) := by
  have hu := (s.touch_walks ctx (w.touched ||| w.home)).trans
    (.foldl (fun u e => u.tlbFill_walks (walkCacheKey (placeDie pl)) 1024 e) w.uppers _)
  unfold State.noteWalk
  dsimp only
  split
  · refine (hu.trans ?_).trans (State.tlbFill_walks _ _ _ _)
    split
    · exact State.tlbFill_walks _ _ _ _
    · exact .refl _
  · exact hu

/-! ### What an access of the firmware leaves -/

/-- The time, lots, vats, partitions, and contexts but for the dies they have touched are as they were. -/
structure State.Acts (s t : State) : Prop where
  nextLot : t.nextLot = s.nextLot
  gtime : t.gtime = s.gtime
  lots : t.lots = s.lots
  vats : t.vats = s.vats
  parts : t.parts = s.parts
  ctx : ∀ c, ∃ m, t.ctx c = { s.ctx c with tdmask := m }

theorem State.Acts.of_ctxs {s t : State} (hn : t.nextLot = s.nextLot) (hg : t.gtime = s.gtime) (hl : t.lots = s.lots) (hv : t.vats = s.vats)
    (hp : t.parts = s.parts) (hc : t.ctxs = s.ctxs) : s.Acts t :=
  ⟨hn, hg, hl, hv, hp, fun c => ⟨(s.ctx c).tdmask, by unfold State.ctx; rw [hc]⟩⟩

theorem State.Acts.refl (s : State) : s.Acts s := .of_ctxs rfl rfl rfl rfl rfl rfl

theorem State.Acts.trans {s t u : State} (h : s.Acts t) (g : t.Acts u) : s.Acts u where
  nextLot := g.nextLot.trans h.nextLot
  gtime := g.gtime.trans h.gtime
  lots := g.lots.trans h.lots
  vats := g.vats.trans h.vats
  parts := g.parts.trans h.parts
  ctx c := by
    obtain ⟨m, hm⟩ := h.ctx c
    obtain ⟨n, hn⟩ := g.ctx c
    exact ⟨n, by rw [hn, hm]⟩

theorem State.Walks.acts {s t : State} (h : s.Walks t) : s.Acts t := ⟨h.nextLot, h.gtime, h.lots, h.vats, h.parts, h.ctx⟩

theorem State.SameBut.acts {s t : State} (h : s.SameBut t) : s.Acts t := by
  rw [h]; exact .of_ctxs rfl rfl rfl rfl rfl rfl

theorem State.Drops.acts {s t : State} (h : s.Drops t) : s.Acts t := by
  rw [h.only]; exact .of_ctxs rfl rfl rfl rfl rfl rfl

theorem State.fillCopy_acts (s : State) (die key : Nat) (ca : BitVec 2) (slot : BitVec 10) : s.Acts (s.fillCopy die key ca slot) := by
  unfold State.fillCopy
  split
  · dsimp only
    have hd : s.Acts (if ca ≠ 2 ∧ s.staleUnder die (lineOf key) slot = true then s.dropCopy die (lineOf key) else s) := by
      split
      · exact (s.dropCopy_drops _ _).acts
      · exact .refl s
    generalize (if ca ≠ 2 ∧ s.staleUnder die (lineOf key) slot = true then s.dropCopy die (lineOf key) else s) = u at hd ⊢
    split
    · exact hd
    · refine (hd.trans (t := u) ?_).trans (t := u.evictCopy die) (.of_ctxs rfl rfl rfl rfl rfl rfl)
      unfold State.evictCopy
      dsimp only
      split
      · exact .refl u
      · exact (u.dropCopy_drops _ _).acts
  · exact .refl s

theorem State.readPieces_acts (s : State) (pl ctx : Nat) (vat : Option Nat) (x : Reader) (n : Nat) (ps : List (BitVec 64 × Nat))
    (acc : List Byte) : s.Acts (s.readPieces pl ctx vat x n ps acc).1 := by
  induction ps generalizing s n acc with
  | nil => exact .refl s
  | cons p ps ih =>
    obtain ⟨va, k⟩ := p
    have hw := (s.noteWalk_walks pl ctx (s.translate pl ctx va .read n)).acts
    unfold State.readPieces
    dsimp only
    split
    · split
      · exact ih _ _ _
      · exact .refl s
    · split
      · split
        · exact hw
        · split
          · exact hw
          · exact (hw.trans (State.fillCopy_acts _ _ _ _ _)).trans (ih _ _ _)
      all_goals exact hw

theorem State.writePieces_walks (s : State) (pl ctx n : Nat) (ps : List (BitVec 64 × Nat)) (acc : List (Nat × BitVec 10 × Nat)) :
    s.Walks (s.writePieces pl ctx n ps acc).1 := by
  induction ps generalizing s n acc with
  | nil => exact .refl s
  | cons p ps ih =>
    obtain ⟨va, k⟩ := p
    have hw := s.noteWalk_walks pl ctx (s.translate pl ctx va .write n)
    unfold State.writePieces
    dsimp only
    split
    · exact hw.trans (ih _ _ _)
    all_goals exact hw

theorem State.performG_acts (s : State) (bs : List WByte) : s.Acts (s.performG bs) := (s.performG_keeps bs).1.acts

theorem State.placeWrite_acts (s : State) (pl ctx : Nat) (va : BitVec 64) (bs : List Byte) (k : Nat) :
    s.Acts (s.placeWrite pl ctx va bs k).1 := by
  have hw := (s.writePieces_walks pl ctx k (rangePieces va bs.length) []).acts
  unfold State.placeWrite
  dsimp only
  split
  · split
    · exact hw
    · exact hw.trans (State.performG_acts _ _)
  · exact hw

theorem State.agentWrite_acts (s : State) (ctx : Nat) (va : BitVec 64) (bs : List Byte) (k pl : Nat) :
    s.Acts (s.agentWrite ctx va bs k pl).1 := by
  have hw := s.placeWrite_acts pl ctx va bs k
  unfold State.agentWrite
  dsimp only
  split
  · exact hw.trans (.of_ctxs rfl rfl rfl rfl rfl rfl)
  · exact .of_ctxs rfl rfl rfl rfl rfl rfl
  · exact hw

theorem State.saveNat_acts (s : State) (ctx off n : Nat) : s.Acts (s.saveNat ctx off n).1 := s.readPieces_acts _ _ _ _ _ _ _

theorem State.saveHeader_acts (s : State) (ctx : Nat) : s.Acts (s.saveHeader ctx).1 := by
  unfold State.saveHeader
  dsimp only
  split
  · exact s.agentWrite_acts _ _ _ _ _
  · exact (s.agentWrite_acts _ _ _ _ _).trans (State.agentWrite_acts _ _ _ _ _ _)

theorem State.signalBehind_acts (s : State) (ctx part vector : Nat) : s.Acts (s.signalBehind ctx part vector) := by
  unfold State.signalBehind
  split <;> exact .of_ctxs rfl rfl rfl rfl rfl rfl

theorem State.hubWrite_acts (s : State) (bs : List WByte) : s.Acts (s.hubWrite bs) := by
  rcases s.hubWrite_cases bs with e | e
  · rw [e]; exact s.performG_acts bs
  · rw [e]; exact .of_ctxs rfl rfl rfl rfl rfl rfl

/-! ### What a fault of a context leaves -/

/-- A lot is over, as it is known from another, and none of its index that is not is listed. -/
structure State.LotOver (s : State) (n : Nat) (l : Lot) : Prop where
  phase : (s.lot n).phase = .complete
  status : (s.lot n).status = l.status
  detail : (s.lot n).detail = l.detail
  first : (s.lot n).first = l.first
  firstPc : (s.lot n).firstPc = l.firstPc
  alone : ∀ x, (n, some x) ∈ s.lots → x.phase = .complete

theorem State.LotOver.of_lots {s t : State} {n : Nat} {l : Lot} (h : s.LotOver n l) (e : t.lots = s.lots) : t.LotOver n l := by
  have hl : t.lot n = s.lot n := by unfold State.lot; rw [e]
  exact ⟨hl ▸ h.phase, hl ▸ h.status, hl ▸ h.detail, hl ▸ h.first, hl ▸ h.firstPc, e ▸ h.alone⟩

/-- A lot made complete is over. -/
theorem State.setLot_over (s : State) (n : Nat) {l : Lot} (h : l.phase = .complete) : (s.setLot n l).LotOver n l := by
  have hl : (s.setLot n l).lot n = l := by rw [State.lot_setLot, if_pos rfl]
  refine ⟨by rw [hl, h], by rw [hl], by rw [hl], by rw [hl], by rw [hl], fun x hx => ?_⟩
  rcases Map.of_mem_set (show (n, some x) ∈ s.lots.set n (some l) from hx) with e | ⟨hn, -⟩
  · cases e
    exact h
  · exact absurd rfl hn

/-- A change of another lot, or of what is not known of it. -/
theorem State.LotOver.modLot {s : State} {n k : Nat} {l : Lot} {f : Lot → Lot} (h : s.LotOver n l)
    (hf : n = k → let m := s.lot k; (f m).phase = m.phase ∧ (f m).status = m.status ∧ (f m).detail = m.detail ∧ (f m).first = m.first ∧
      (f m).firstPc = m.firstPc) : (s.modLot k f).LotOver n l := by
  have alone (x : Lot) (hx : (n, some x) ∈ (s.modLot k f).lots) : x.phase = .complete := by
    rcases Map.of_mem_set (show (n, some x) ∈ s.lots.set k (some (f (s.lot k))) from hx) with e | ⟨-, hm⟩
    · cases e
      exact (hf rfl).1.trans h.phase
    · exact h.alone x hm
  have hl := s.lot_modLot n k f
  by_cases hn : n = k
  · obtain ⟨h1, h2, h3, h4, h5⟩ := hf hn
    subst hn
    rw [if_pos rfl] at hl
    exact ⟨hl ▸ h1 ▸ h.phase, hl ▸ h2 ▸ h.status, hl ▸ h3 ▸ h.detail, hl ▸ h4 ▸ h.first, hl ▸ h5 ▸ h.firstPc, alone⟩
  · rw [if_neg hn] at hl
    exact ⟨hl ▸ h.phase, hl ▸ h.status, hl ▸ h.detail, hl ▸ h.first, hl ▸ h.firstPc, alone⟩

/-- A lot that is over is no other. -/
theorem State.LotOver.not_mem_lotsOf {s : State} {n ctx : Nat} {l : Lot} {p : LotPhase → Bool} (h : s.LotOver n l)
    (hp : p .complete = false) : n ∉ s.lotsOf ctx p := by
  intro hn
  obtain ⟨⟨k, v⟩, hm, hv⟩ := List.mem_filterMap.1 hn
  cases v with
  | none => cases hv
  | some x =>
    dsimp only at hv
    split at hv
    · next hx =>
      cases hv
      rw [h.alone x hm, hp] at hx
      cases hx.2
    · cases hv

/-- What a fault of a context leaves: the time, the lots that are over, and of every queue all but ERR and EN, and those too but where the context
is then faulted. -/
structure State.Faults (s t : State) : Prop where
  nextLot : t.nextLot = s.nextLot
  gtime : t.gtime = s.gtime
  queue : ∀ c i, ∃ e n, (t.ctx c).queues.get i = { (s.ctx c).queues.get i with err := e, en := n }
  kept : ∀ c, (t.ctx c).faulted = false → (s.ctx c).faulted = false ∧ (t.ctx c).queues = (s.ctx c).queues
  done : ∀ n l, s.LotOver n l → t.LotOver n l

theorem State.Faults.of_queues {s t : State} (hn : t.nextLot = s.nextLot) (hg : t.gtime = s.gtime)
    (hq : ∀ c, (t.ctx c).queues = (s.ctx c).queues ∧ (t.ctx c).faulted = (s.ctx c).faulted) (ho : ∀ n l, s.LotOver n l → t.LotOver n l) :
    s.Faults t where
  nextLot := hn
  gtime := hg
  queue c i := ⟨_, _, by rw [(hq c).1]⟩
  kept c h := ⟨(hq c).2 ▸ h, (hq c).1⟩
  done := ho

theorem State.Faults.of_same {s t : State} (hn : t.nextLot = s.nextLot) (hg : t.gtime = s.gtime) (hc : t.ctxs = s.ctxs) (hl : t.lots = s.lots) :
    s.Faults t :=
  .of_queues hn hg (fun c => by unfold State.ctx; rw [hc]; exact ⟨rfl, rfl⟩) (fun _ _ h => h.of_lots hl)

theorem State.Faults.refl (s : State) : s.Faults s := .of_same rfl rfl rfl rfl

theorem State.Faults.trans {s t u : State} (h : s.Faults t) (g : t.Faults u) : s.Faults u where
  nextLot := g.nextLot.trans h.nextLot
  gtime := g.gtime.trans h.gtime
  queue c i := by
    obtain ⟨_, _, hq⟩ := h.queue c i
    obtain ⟨e, n, gq⟩ := g.queue c i
    exact ⟨e, n, by rw [gq, hq]⟩
  kept c hu := by
    obtain ⟨ht, gq⟩ := g.kept c hu
    obtain ⟨hs, hq⟩ := h.kept c ht
    exact ⟨hs, gq.trans hq⟩
  done n l := g.done n l ∘ h.done n l

theorem State.Faults.foldl {α : Type} {f : State → α → State} (hf : ∀ (s : State) x, s.Faults (f s x)) (xs : List α) (s : State) :
    s.Faults (xs.foldl f s) := by
  induction xs generalizing s with
  | nil => exact .refl s
  | cons x xs ih => exact (hf s x).trans (ih _)

theorem State.Acts.faults {s t : State} (h : s.Acts t) : s.Faults t := by
  refine .of_queues h.nextLot h.gtime (fun c => ?_) (fun _ _ g => g.of_lots h.lots)
  obtain ⟨m, hm⟩ := h.ctx c
  rw [hm]
  exact ⟨rfl, rfl⟩

theorem State.Walks.faults {s t : State} (h : s.Walks t) : s.Faults t := h.acts.faults

theorem State.modCtx_faults (s : State) (k : Nat) {f : Context → Context} (hq : (f (s.ctx k)).queues = (s.ctx k).queues)
    (hf : (f (s.ctx k)).faulted = (s.ctx k).faulted) : s.Faults (s.modCtx k f) := by
  refine .of_queues rfl rfl (fun c => ?_) (fun _ _ h => h.of_lots rfl)
  rw [State.ctx_modCtx]
  split
  · next e =>
    subst e
    exact ⟨hq, hf⟩
  · exact ⟨rfl, rfl⟩

theorem State.setFqwi_faults (s : State) (ctx : Nat) (n : BitVec 16) : s.Faults (s.modCtx ctx (fun c => { c with fqwi := n })) :=
  s.modCtx_faults ctx rfl rfl
theorem State.setTerminal_faults (s : State) (ctx : Nat) (fr : Option FaultRecord) :
    s.Faults (s.modCtx ctx (fun c => { c with terminal := fr })) := s.modCtx_faults ctx rfl rfl
theorem State.setSaveUsed_faults (s : State) (ctx : Nat) (used : Context → List (Nat × Nat)) :
    s.Faults (s.modCtx ctx (fun c => { c with saveUsed := used c })) := s.modCtx_faults ctx rfl rfl
theorem State.setWaiting_faults (s : State) (ctx : Nat) (frs : Context → List FaultRecord) :
    s.Faults (s.modCtx ctx (fun c => { c with waiting := frs c })) := s.modCtx_faults ctx rfl rfl

theorem State.modVat_faults (s : State) (k : Nat) (f : Vat → Vat) : s.Faults (s.modVat k f) := .of_same rfl rfl rfl rfl
theorem State.setVat_faults (s : State) (k : Nat) (v : Vat) : s.Faults (s.setVat k v) := .of_same rfl rfl rfl rfl
theorem State.modWarp_faults (s : State) (k : Nat) (f : Warp → Warp) : s.Faults (s.modWarp k f) := .of_same rfl rfl rfl rfl

theorem State.modLot_faults (s : State) (k : Nat) {f : Lot → Lot}
    (hf : (s.lot k).phase = .complete → let m := s.lot k; (f m).phase = m.phase ∧ (f m).status = m.status ∧ (f m).detail = m.detail ∧
      (f m).first = m.first ∧ (f m).firstPc = m.firstPc) : s.Faults (s.modLot k f) :=
  .of_queues rfl rfl (fun _ => ⟨rfl, rfl⟩) (fun _ _ h => h.modLot (fun e => hf (e ▸ h.phase)))

/-- Other lots than one that is over are failed. -/
theorem State.failEach_over {n : Nat} {l : Lot} (fr : FaultRecord) {ks : List Nat} (hn : n ∉ ks) {s : State} (h : s.LotOver n l) :
    (ks.foldl (fun s l => (s.noteFirst l fr).modLot l (fun l => { l with
      phase := .running, status := if l.status == 0 || l.status == 2 then 1 else l.status,
      first := l.first.map (fun f => { f with rung := fr.rung }) })) s).LotOver n l := by
  induction ks generalizing s with
  | nil => exact h
  | cons k ks ih =>
    obtain ⟨hk, hn⟩ := not_or.1 (List.mem_cons.not.1 hn)
    exact ih hn ((h.modLot (fun e => absurd e hk)).modLot (fun e => absurd e hk))

theorem State.failLots_faults (s : State) (ctx : Nat) (fr : FaultRecord) {p : LotPhase → Bool} (hp : p .complete = false) :
    s.Faults (s.failLots ctx fr p) := by
  have same (ks : List Nat) (u : State) : let t := ks.foldl (fun s l => (s.noteFirst l fr).modLot l (fun l => { l with
      phase := .running, status := if l.status == 0 || l.status == 2 then 1 else l.status,
      first := l.first.map (fun f => { f with rung := fr.rung }) })) u
      t.nextLot = u.nextLot ∧ t.gtime = u.gtime ∧ t.ctxs = u.ctxs := by
    induction ks generalizing u with
    | nil => exact ⟨rfl, rfl, rfl⟩
    | cons k ks ih => exact ih _
  obtain ⟨hn, hg, hc⟩ := same (s.lotsOf ctx p) s
  refine .of_queues hn hg (fun c => ?_) (fun n l h => State.failEach_over fr (h.not_mem_lotsOf hp) h)
  unfold State.ctx State.failLots
  rw [hc]
  exact ⟨rfl, rfl⟩

theorem State.freeImage_faults (s : State) (vk : Nat) : s.Faults (s.freeImage vk) := by
  unfold State.freeImage
  dsimp only
  split
  · exact (s.setSaveUsed_faults _ _).trans (State.setVat_faults _ vk { s.vat vk with image := none })
  · exact .refl s

theorem State.endVat_faults (s : State) (vk : Nat) : s.Faults (s.endVat vk) := by
  unfold State.endVat
  exact (((s.modLot_faults _ (fun _ => ⟨rfl, rfl, rfl, rfl, rfl⟩)).trans (State.freeImage_faults _ vk)).trans
    (State.modVat_faults _ _ _)).trans (.foldl (fun u k => u.modWarp_faults k _) _ _)

theorem State.stopVat_faults (s : State) (vk : Nat) (discard : Bool) : s.Faults (s.stopVat vk discard) := by
  unfold State.stopVat
  have hs := s.setVat_faults vk { s.vat vk with stop := some ((s.vat vk).stop.getD s.gtime), discard := (s.vat vk).discard || discard }
  refine (hs.trans ?_).trans (.foldl (fun u k => u.modWarp_faults k _) _ _)
  split
  · exact State.endVat_faults _ vk
  · exact .refl _

theorem State.writeRecord_faults (s : State) (ctx : Nat) (fr : FaultRecord) : s.Faults (s.writeRecord ctx fr).1 := by
  unfold State.writeRecord
  simp only
  split
  · exact (s.agentWrite_acts _ _ _ _ _).faults
  · split
    · exact ((s.agentWrite_acts _ _ _ _ _).trans (State.agentWrite_acts _ _ _ _ _ _)).faults
    · exact ((s.agentWrite_acts _ _ _ _ _).trans (State.agentWrite_acts _ _ _ _ _ _)).faults.trans (State.setFqwi_faults _ _ _)

theorem State.queueRecord_faults (s : State) (ctx : Nat) (fr : FaultRecord) : s.Faults (s.queueRecord ctx fr).1 := by
  have h1 := (s.saveNat_acts ctx 0x10 2).faults
  have h2 := h1.trans (State.saveNat_acts _ ctx 8 4).faults
  have h3 := h2.trans (State.saveHeader_acts _ ctx).faults
  have h4 := h3.trans (State.writeRecord_faults _ ctx fr)
  unfold State.queueRecord
  dsimp only
  split
  · exact h1
  · exact h2
  · split
    · exact h3
    · split
      · exact h4
      · exact h4.trans (State.signalBehind_acts _ _ _ _).faults

theorem State.queueTerminal_faults (s : State) (ctx : Nat) (fr : FaultRecord) : s.Faults (s.queueTerminal ctx fr) :=
  (s.queueRecord_faults ctx fr).trans (State.setTerminal_faults _ _ _)

theorem State.fqRead_faults (s : State) (ctx : Nat) : s.Faults (s.fqRead ctx) := (s.saveNat_acts _ _ _).faults

theorem State.recordCode2_faults (s : State) (ctx : Nat) (dies : BitVec 4) : s.Faults (s.recordCode2 ctx dies) := by
  unfold State.recordCode2
  split
  · exact s.setWaiting_faults ctx _
  · split
    · exact .refl s
    · exact (s.setTerminal_faults _ _).trans (State.agentWrite_acts _ _ _ _ _ _).faults

/-- Queues stopped by a fault of their context keep all else. -/
theorem stopQueues_get (js : List Nat) (m : Map Queue) (i : Nat) :
    ∃ e n, (js.foldl (fun q i => q.modify i (fun d => { d with err := true, en := false })) m).get i = { m.get i with err := e, en := n } := by
  induction js generalizing m with
  | nil => exact ⟨_, _, rfl⟩
  | cons j js ih =>
    obtain ⟨e, n, h⟩ := ih (m.modify j (fun d => { d with err := true, en := false }))
    refine ⟨e, n, h.trans ?_⟩
    rw [Map.get_modify]
    split
    · next e => rw [e]
    · rfl

/-- A context is marked as faulted, its queues stopped. -/
theorem State.markFaulted_faults (s : State) (ctx : Nat) {qs : Context → Map Queue}
    (hq : ∀ i, ∃ e n, (qs (s.ctx ctx)).get i = { (s.ctx ctx).queues.get i with err := e, en := n }) :
    s.Faults (s.modCtx ctx (fun c => { c with faulted := true, services := [], queues := qs c })) where
  nextLot := rfl
  gtime := rfl
  queue c i := by
    rw [State.ctx_modCtx]
    split
    · next e =>
      rw [e]
      exact hq i
    · exact ⟨_, _, rfl⟩
  kept c h := by
    rw [State.ctx_modCtx] at h ⊢
    by_cases e : c = ctx
    · rw [if_pos e] at h
      exact absurd h Bool.noConfusion
    · rw [if_neg e] at h ⊢
      exact ⟨h, rfl⟩
  done _ _ h := h.of_lots rfl

theorem State.terminate_faults (s : State) (ctx : Nat) (fr : FaultRecord) : s.Faults (s.terminate ctx fr) :=
  ((s.markFaulted_faults ctx (fun i => stopQueues_get _ _ i)).trans (State.failLots_faults _ _ _ rfl)).trans (.foldl (fun u v => u.stopVat_faults v false) _ _)

theorem State.faultContext_faults (s : State) (ctx : Nat) (fr : FaultRecord) : s.Faults (s.faultContext ctx fr) := by
  unfold State.faultContext
  split
  · exact .refl s
  · split
    · split
      · exact (s.recordCode2_faults ctx fr.dies).trans (State.failLots_faults _ _ _ rfl)
      · exact .refl s
    · split
      · exact (s.terminate_faults ctx fr).trans (State.queueTerminal_faults _ _ _)
      · dsimp only
        refine State.Faults.trans ?_ (State.setWaiting_faults _ ctx (fun c => if fr.rung == 3 then [fr] else c.waiting ++ [fr]))
        split
        · exact (s.fqRead_faults ctx).trans (State.terminate_faults _ _ _)
        · exact s.fqRead_faults ctx

/-! ### The accesses of the launch processors -/

theorem State.launchXlat_faults (s : State) (ctx : Nat) (va : BitVec 64) (acc : Access) (n : Nat) :
    s.Faults (s.launchXlat ctx va acc n).1 := by
  have hw := (s.noteWalk_walks hubPlace ctx { s.translate hubPlace ctx va acc n with home := 0 }).faults
  unfold State.launchXlat
  dsimp only
  split
  · split
    · exact hw.trans (State.faultContext_faults _ _ _)
    · exact hw
  · exact hw

/-- Only a LOST die makes a translation fault the context. -/
theorem State.launchXlat_walks (s : State) (ctx : Nat) (va : BitVec 64) (acc : Access) (n : Nat)
    (h : ∀ d, (s.launchXlat ctx va acc n).2 ≠ .lost d) : s.Walks (s.launchXlat ctx va acc n).1 := by
  have hw := s.noteWalk_walks hubPlace ctx { s.translate hubPlace ctx va acc n with home := 0 }
  revert h
  unfold State.launchXlat
  dsimp only
  split
  · next d e =>
    split <;> exact fun h => absurd e (h d)
  · exact fun _ => hw

theorem State.launchLook_faults (s : State) (ctx : Nat) (va : BitVec 64) (n : Nat) : s.Faults (s.launchLook ctx va n).1 :=
  s.launchXlat_faults ctx va .read n

theorem State.launchLook_walks (s : State) (ctx : Nat) (va : BitVec 64) (n : Nat) (h : ∀ d, (s.launchLook ctx va n).2 ≠ .lost d) :
    s.Walks (s.launchLook ctx va n).1 := by
  refine s.launchXlat_walks ctx va .read n (fun d e => h d ?_)
  unfold State.launchLook
  dsimp only
  rw [e]

theorem State.launchPieces_faults (s : State) (ctx n : Nat) (ps : List (BitVec 64 × Nat)) (acc : List Byte) :
    s.Faults (s.launchPieces ctx n ps acc).1 := by
  induction ps generalizing s n acc with
  | nil => exact .refl s
  | cons p ps ih =>
    obtain ⟨va, k⟩ := p
    have hx := s.launchLook_faults ctx va n
    unfold State.launchPieces
    dsimp only
    split
    · exact hx.trans (ih _ _ _)
    · exact hx

theorem State.launchPieces_walks (s : State) (ctx n : Nat) (ps : List (BitVec 64 × Nat)) (acc : List Byte) {bs : List Byte}
    (h : (s.launchPieces ctx n ps acc).2 = .ok bs) : s.Walks (s.launchPieces ctx n ps acc).1 := by
  induction ps generalizing s n acc with
  | nil => exact .refl s
  | cons p ps ih =>
    obtain ⟨va, k⟩ := p
    unfold State.launchPieces at h ⊢
    dsimp only at h ⊢
    split at h
    · next e =>
      exact (s.launchLook_walks ctx va n (fun d he => by rw [e] at he; cases he)).trans (ih _ _ _ h)
    · cases h

theorem State.loadCode_faults (s : State) (ctx : Nat) (r : LotRecord) : s.Faults (s.loadCode ctx r).1 := by
  have hh : s.Faults (s.launchRead ctx r.codeva 256 420).1 := s.launchPieces_faults _ _ _ _
  unfold State.loadCode
  split
  · exact .refl s
  · dsimp only
    split
    · exact hh
    · split
      · exact hh
      · split
        · exact hh.trans (State.launchPieces_faults _ _ _ _ _)
        · split <;> exact hh.trans (State.launchPieces_faults _ _ _ _ _)

theorem State.loadCode_walks (s : State) (ctx : Nat) (r : LotRecord) {c : CodeHeader} (h : (s.loadCode ctx r).2 = .ok c) :
    s.Walks (s.loadCode ctx r).1 := by
  revert h
  unfold State.loadCode
  split
  · exact fun h => by cases h
  · dsimp only
    split
    · exact fun h => by cases h
    · next e =>
      have hh : s.Walks (s.launchRead ctx r.codeva 256 420).1 := s.launchPieces_walks _ _ _ _ e
      split
      · exact fun h => by cases h
      · split
        · exact fun h => by cases h
        · next e' =>
          have ht := hh.trans (State.launchPieces_walks _ _ _ _ _ e')
          split
          · exact fun _ => ht
          · exact fun h => by cases h

theorem State.semaphoreOk_faults (s : State) (ctx : Nat) (va : BitVec 64) (n : Nat) : s.Faults (s.semaphoreOk ctx va n).1 := by
  unfold State.semaphoreOk
  split
  · exact .refl s
  · exact s.launchXlat_faults _ _ _ _

theorem State.semaphoreOk_walks (s : State) (ctx : Nat) (va : BitVec 64) (n : Nat) (h : ∀ d, (s.semaphoreOk ctx va n).2 ≠ .lost d) :
    s.Walks (s.semaphoreOk ctx va n).1 := by
  unfold State.semaphoreOk at h ⊢
  split
  · exact .refl s
  · next e =>
    rw [if_neg e] at h
    exact s.launchXlat_walks _ _ _ _ h

/-! ### The checks of a lot (R65 Table 1) -/

/-- The semaphores of a lot's record that are looked at: the one it sets at its end, then the one it waits for. -/
def State.lotSemaphores (s : State) (ctx : Nat) (r : LotRecord) : (State × Xlat) × State × Xlat :=
  let a := if r.sema then s.semaphoreOk ctx r.semva 402 else (s, .ok 0 0 0)
  (a, if r.wait then a.1.semaphoreOk ctx r.wsemva 410 else (a.1, .ok 0 0 0))

theorem State.lotSemaphores_faults (s : State) (ctx : Nat) (r : LotRecord) : s.Faults (s.lotSemaphores ctx r).2.1 := by
  have ha : s.Faults (s.lotSemaphores ctx r).1.1 := by
    unfold State.lotSemaphores
    dsimp only
    split
    · exact s.semaphoreOk_faults _ _ _
    · exact .refl s
  refine ha.trans ?_
  unfold State.lotSemaphores
  dsimp only
  generalize (if r.sema = true then s.semaphoreOk ctx r.semva 402 else (s, Xlat.ok 0 0 0)) = a
  split
  · exact State.semaphoreOk_faults _ _ _ _
  · exact .refl _

theorem Xlat.ne_lost_of_isOk {x : Xlat} (h : x.isOk = true) (d : Nat) : x ≠ .lost d := by
  rintro rfl
  cases h

theorem State.lotSemaphores_walks (s : State) (ctx : Nat) (r : LotRecord) (ha : (s.lotSemaphores ctx r).1.2.isOk = true)
    (hb : (s.lotSemaphores ctx r).2.2.isOk = true) : s.Walks (s.lotSemaphores ctx r).2.1 := by
  have h1 : s.Walks (s.lotSemaphores ctx r).1.1 := by
    unfold State.lotSemaphores at ha ⊢
    dsimp only at ha ⊢
    split
    · next e =>
      rw [if_pos e] at ha
      exact s.semaphoreOk_walks _ _ _ (Xlat.ne_lost_of_isOk ha)
    · exact .refl s
  refine h1.trans ?_
  unfold State.lotSemaphores at hb ⊢
  dsimp only at hb ⊢
  generalize (if r.sema = true then s.semaphoreOk ctx r.semva 402 else (s, Xlat.ok 0 0 0)) = a at hb
  split
  · next e =>
    rw [if_pos e] at hb
    exact State.semaphoreOk_walks _ _ _ _ (Xlat.ne_lost_of_isOk hb)
  · exact .refl _

/-- What the checks of the code object make of a lot: nothing while a read of it waits; DETAIL 6, 7, 8 or 0. -/
def State.checkCode (s : State) (ctx : Nat) (r : LotRecord) : State × Option (BitVec 8 × CodeHeader) :=
  let c := s.loadCode ctx r
  match c.2 with
  | .error .held => (c.1, none)
  | .error _ => (c.1, some (6, default))
  | .ok code =>
    if r.slots.any slotUnassigned then (c.1, some (7, code))
    else if !c.1.featuresOk code || (!c.1.hub.featacc.getLsbD 7 && r.slots.any (fun w => slKind w == 1 || slKind w == 3)) then
      (c.1, some (8, code))
    else (c.1, some (0, code))

/-- The checks in order: the record's shape, its semaphores, its code object. -/
theorem State.checkLot_eq (s : State) (ctx : Nat) (r : LotRecord) (bs : List Byte) :
    s.checkLot ctx r bs =
      (let x := s.lotSemaphores ctx r
       if r.shape bs != 0 then (s, some (r.shape bs, default))
       else if x.1.2 == .held || x.2.2 == .held then (x.2.1, none)
       else if !x.1.2.isOk || !x.2.2.isOk then (x.2.1, some (6, default))
       else x.2.1.checkCode ctx r) := rfl

theorem State.checkCode_faults (s : State) (ctx : Nat) (r : LotRecord) : s.Faults (s.checkCode ctx r).1 := by
  have h := s.loadCode_faults ctx r
  unfold State.checkCode
  dsimp only
  split
  · exact h
  · exact h
  · split
    · exact h
    · split <;> exact h

theorem State.checkLot_faults (s : State) (ctx : Nat) (r : LotRecord) (bs : List Byte) : s.Faults (s.checkLot ctx r bs).1 := by
  have h := s.lotSemaphores_faults ctx r
  rw [State.checkLot_eq]
  dsimp only
  split
  · exact .refl s
  · split
    · exact h
    · split
      · exact h
      · exact h.trans (State.checkCode_faults _ _ _)

theorem State.checkCode_walks (s : State) (ctx : Nat) (r : LotRecord) {e : BitVec 8 × CodeHeader} (h : (s.checkCode ctx r).2 = some e)
    (he : e.1 = 0) : s.Walks (s.checkCode ctx r).1 := by
  revert h
  unfold State.checkCode
  dsimp only
  split
  · exact fun h => by cases h
  · exact fun h => by cases h; exact absurd he (by decide)
  · next hc =>
    have hw := s.loadCode_walks ctx r hc
    split
    · exact fun _ => hw
    · split <;> exact fun _ => hw

/-- A lot that passes the checks has been translated through, and its code object read, without a LOST die. -/
theorem State.checkLot_walks (s : State) (ctx : Nat) (r : LotRecord) (bs : List Byte) {e : BitVec 8 × CodeHeader}
    (h : (s.checkLot ctx r bs).2 = some e) (he : e.1 = 0) : s.Walks (s.checkLot ctx r bs).1 := by
  revert h
  rw [State.checkLot_eq]
  dsimp only
  split
  · exact fun _ => .refl s
  · split
    · exact fun h => by cases h
    · split
      · exact fun h => by cases h; exact absurd he (by decide)
      · next hok =>
        obtain ⟨ha, hb⟩ : (s.lotSemaphores ctx r).1.2.isOk = true ∧ (s.lotSemaphores ctx r).2.2.isOk = true := by simpa using hok
        exact fun h => (s.lotSemaphores_walks ctx r ha hb).trans (State.checkCode_walks _ ctx r h he)

/-! ### Queues -/

theorem State.ctx_modQueue (s : State) (ctx q : Nat) (f : Queue → Queue) :
    (s.modQueue ctx q f).ctx ctx = { s.ctx ctx with queues := (s.ctx ctx).queues.modify q f } := by
  rw [State.modQueue, State.ctx_modCtx, if_pos rfl]

theorem State.queue_modQueue (s : State) (ctx q : Nat) (f : Queue → Queue) :
    ((s.modQueue ctx q f).ctx ctx).queues.get q = f ((s.ctx ctx).queues.get q) := by
  rw [State.ctx_modQueue, Map.get_modify, if_pos rfl]

theorem State.faulted_modQueue (s : State) (ctx q : Nat) (f : Queue → Queue) :
    ((s.modQueue ctx q f).ctx ctx).faulted = (s.ctx ctx).faulted := by
  rw [State.ctx_modQueue]

theorem State.physRead_length (s : State) (part pa n : Nat) : (s.physRead part pa n).length = n := by
  rw [State.physRead, List.length_map, List.length_range]

/-- A block of a sequence of blocks of one length. -/
theorem block_flatten {α : Type} {k : Nat} {bs : List (List α)} (hk : ∀ b ∈ bs, b.length = k) {i : Nat} (hi : i < bs.length) :
    (bs.flatten.drop (k * i)).take k = bs[i] := by
  induction bs generalizing i with
  | nil => cases hi
  | cons b bs ih =>
    obtain ⟨hb, hk⟩ := List.forall_mem_cons.1 hk
    rw [List.flatten_cons]
    cases i with
    | zero => rw [Nat.mul_zero, List.drop_zero, List.take_left' hb, List.getElem_cons_zero]
    | succ i =>
      rw [Nat.mul_succ, Nat.add_comm, ← List.drop_drop, List.drop_left' hb, List.getElem_cons_succ]
      exact ih hk (Nat.lt_of_succ_lt_succ hi)

/-- Each 64 bytes of a record taken are those of now, or of its doorbell. -/
theorem State.takeRecord_part (s : State) (ctx q : Nat) {i : Nat} (hi : i < 4) :
    let d := (s.ctx ctx).queues.get q
    let now := s.physRead (s.ctx ctx).part (d.recordPa 256) 256
    let noted := d.shots.get d.ri.toNat
    ((s.takeRecord ctx q).drop (64 * i)).take 64 = (now.drop (64 * i)).take 64 ∨
      (noted.length = 256 → ((s.takeRecord ctx q).drop (64 * i)).take 64 = (noted.drop (64 * i)).take 64) := by
  intro d now noted
  by_cases hn : noted = [] ∨ noted = now
  · exact .inl (by rw [show s.takeRecord ctx q = now from if_pos hn])
  · rw [show s.takeRecord ctx q = (List.range 4).flatMap (fun i => ((if s.choice (340 + i) then noted else now).drop (64 * i)).take 64) from
      if_neg hn]
    by_cases hl : noted.length = 256
    · have hnow : now.length = 256 := s.physRead_length _ _ _
      have part (j : Nat) (hj : j < 4) : (((if s.choice (340 + j) then noted else now).drop (64 * j)).take 64).length = 64 := by
        have : (if s.choice (340 + j) then noted else now).length = 256 := by split <;> assumption
        rw [List.length_take, List.length_drop, this]
        omega
      rw [List.flatMap_def, block_flatten (fun b hb => ?_) (by simpa using hi)]
      · rw [List.getElem_map, List.getElem_range]
        split
        · exact .inr (fun _ => rfl)
        · exact .inl rfl
      · obtain ⟨j, hj, rfl⟩ := List.mem_map.1 hb
        exact part j (List.mem_range.1 hj)
    · exact .inr (fun h => absurd h hl)

theorem State.takeRecord_new (s : State) (ctx q : Nat)
    (h : ((s.ctx ctx).queues.get q).shots.get ((s.ctx ctx).queues.get q).ri.toNat = [] ∨
      ((s.ctx ctx).queues.get q).shots.get ((s.ctx ctx).queues.get q).ri.toNat =
        s.physRead (s.ctx ctx).part (((s.ctx ctx).queues.get q).recordPa 256) 256) :
    s.takeRecord ctx q = s.physRead (s.ctx ctx).part (((s.ctx ctx).queues.get q).recordPa 256) 256 := if_pos h

/-! ### Acceptance (R63, R65) -/

/-- A record is taken from a queue. -/
def State.takeNext (s : State) (ctx q : Nat) : State :=
  s.modQueue ctx q (fun d => { d with ri := d.ri + 1, shots := d.shots.set d.ri.toNat [] })

/-- A record that waits stands in its queue again. -/
def State.putBack (s : State) (ctx q : Nat) (d : Queue) : State := s.modQueue ctx q (fun x => { x with ri := d.ri, shots := d.shots })

/-- An error of a queue, with the interrupt of the record that it discards. -/
def State.discardRecord (s : State) (ctx q part : Nat) (r : LotRecord) : State :=
  if r.irq then (s.modQueue ctx q Queue.fail).signal part r.irqv.toNat else s.modQueue ctx q Queue.fail

/-- The lot of a record, as its checks have left it. -/
def State.newLot (s : State) (ctx q : Nat) (qseq : Word) (r : LotRecord) (detail : BitVec 8) (code : CodeHeader) :
    Lot :=
  { (default : Lot) with
    ctx := ctx, queue := q, qseq := qseq, record := r, code := code,
    entryOff := BitVec.ofNat 32 (code.funcs.getD r.entry default).eoff, phase := .gated,
    status := if detail != 0 then 3 else if s.tooLarge ctx r then 4 else 0, detail := detail, tacc := s.gtime }

def State.addLot (s : State) (l : Lot) : State := { s.setLot s.nextLot l with nextLot := s.nextLot + 1 }

/-- No record is taken from a queue. -/
def State.lotIdle (s : State) (ctx q : Nat) : Bool :=
  let c := s.ctx ctx
  let d := c.queues.get q
  (s.ctxs.get ctx).isNone || !d.en || d.ri == d.wi || c.faulted || c.resetting || s.gatedLot ctx q || s.physHeld c.part (d.recordPa 256) 256

section
variable {s : State} {ctx q : Nat}

theorem lotAccept_idle (h : s.lotIdle ctx q = true) : execLotAccept ctx q s = .next s := if_pos h

/-- The translation of the address of a taken record's completion record. -/
def State.lotXlat (s : State) (ctx : Nat) (r : LotRecord) : State × Xlat :=
  if r.cplva.toNat % 128 != 0 then (s, xfault 0) else s.launchXlat ctx r.cplva .write 400

/-- What becomes of a record taken, by that translation and by its checks. -/
def State.takeLot (s : State) (ctx q : Nat) (d : Queue) (part : Nat) (bs : List Byte) : Out :=
  let r := lotRecord bs
  let x := s.lotXlat ctx r
  match x.2 with
  | .ok _ _ _ =>
    let k := x.1.checkLot ctx r bs
    match k.2 with
    | none => .next (k.1.putBack ctx q d)
    | some (detail, code) =>
      let l := k.1.newLot ctx q d.ri r detail code
      .next (if l.status == 0 then k.1.addLot l else (k.1.addLot l).completeLot k.1.nextLot)
  | .held => .next (x.1.putBack ctx q d)
  | _ => .next (x.1.discardRecord ctx q part r)

theorem lotAccept_taken (h : s.lotIdle ctx q = false) :
    execLotAccept ctx q s = (s.takeNext ctx q).takeLot ctx q ((s.ctx ctx).queues.get q) (s.ctx ctx).part (s.takeRecord ctx q) := by
  refine (if_neg (by rw [← Bool.not_eq_true] at h; exact h)).trans ?_
  unfold State.takeLot
  dsimp only
  rfl

/-! What each of the outcomes leaves of the queue and of the lots. -/

theorem State.queue_takeNext (s : State) (ctx q : Nat) : ((s.takeNext ctx q).ctx ctx).queues.get q =
    { (s.ctx ctx).queues.get q with
      ri := ((s.ctx ctx).queues.get q).ri + 1
      shots := ((s.ctx ctx).queues.get q).shots.set ((s.ctx ctx).queues.get q).ri.toNat [] } := s.queue_modQueue ctx q _

/-- A record that waits stands as it stood; but for a fault of its context, so does its queue. -/
theorem State.putBack_queue {u : State} (h : (s.takeNext ctx q).Faults u) :
    let d := (s.ctx ctx).queues.get q
    let t := u.putBack ctx q d
    t.nextLot = s.nextLot ∧
      (t.ctx ctx).queues.get q = { d with err := ((t.ctx ctx).queues.get q).err, en := ((t.ctx ctx).queues.get q).en } ∧
      ((t.ctx ctx).faulted = false → (t.ctx ctx).queues.get q = d) := by
  intro d t
  have hq : (t.ctx ctx).queues.get q = { (u.ctx ctx).queues.get q with ri := d.ri, shots := d.shots } := u.queue_modQueue ctx q _
  refine ⟨h.nextLot, ?_, fun hf => ?_⟩
  · obtain ⟨e, n, hu⟩ := h.queue ctx q
    rw [hq, hu, State.queue_takeNext]
  · have hu := (h.kept ctx ((u.faulted_modQueue ctx q _).symm.trans hf)).2
    rw [hq, hu, State.queue_takeNext]

theorem State.discardRecord_spec {u : State} (h : (s.takeNext ctx q).Walks u) (part : Nat) (r : LotRecord) :
    let d := (s.ctx ctx).queues.get q
    let t := u.discardRecord ctx q part r
    t.lots = s.lots ∧ t.mem = s.mem ∧
      (t.ctx ctx).queues.get q = { d with ri := d.ri + 1, shots := d.shots.set d.ri.toNat [], err := true, en := false } ∧
      t.hub.irqs = s.hub.irqs ++ (if r.flags.getLsbD 6 then [(part, r.irqv.toNat)] else []) := by
  intro d t
  have hq : ((u.modQueue ctx q Queue.fail).ctx ctx).queues.get q =
      { d with ri := d.ri + 1, shots := d.shots.set d.ri.toNat [], err := true, en := false } := by
    rw [State.queue_modQueue, h.queues, State.queue_takeNext]
    rfl
  have hi : (u.modQueue ctx q Queue.fail).hub.irqs = s.hub.irqs := congrArg Hub.irqs h.hub
  cases hr : r.flags.getLsbD 6 with
  | false =>
    have ht : t = u.modQueue ctx q Queue.fail := if_neg (by rw [LotRecord.irq, hr]; decide)
    rw [ht]
    exact ⟨h.lots, h.mem, hq, by rw [hi]; simp⟩
  | true =>
    have ht : t = (u.modQueue ctx q Queue.fail).signal part r.irqv.toNat := if_pos hr
    rw [ht]
    refine ⟨h.lots, h.mem, hq, ?_⟩
    rw [State.signal, State.hub_modHub, hi]
    simp

/-- A lot that is accepted. -/
theorem State.addLot_spec {u : State} (h : (s.takeNext ctx q).Walks u) (l : Lot) :
    let d := (s.ctx ctx).queues.get q
    let t := u.addLot l
    t.mem = s.mem ∧ t.nextLot = s.nextLot + 1 ∧ t.lot s.nextLot = l ∧
      (t.ctx ctx).queues.get q = { d with ri := d.ri + 1, shots := d.shots.set d.ri.toNat [] } := by
  intro d t
  have hn : u.nextLot = s.nextLot := h.nextLot
  refine ⟨h.mem, congrArg (· + 1) hn, ?_, ?_⟩
  · show (u.setLot u.nextLot l).lot s.nextLot = l
    rw [hn, State.lot_setLot, if_pos rfl]
  · show (u.ctx ctx).queues.get q = _
    rw [h.queues, State.queue_takeNext]
end

/-! ### Completion (R67, R68) -/

theorem State.performEach_acts (wss : List (List WByte)) (s : State) : s.Acts (wss.foldl (fun s w => s.performG w) s) := by
  induction wss generalizing s with
  | nil => exact .refl s
  | cons ws wss ih => exact (s.performG_acts ws).trans (ih _)

theorem State.launchWrite_faults (s : State) (ctx : Nat) (va : BitVec 64) (parts : List (Nat × List Byte)) (n : Nat) :
    s.Faults (s.launchWrite ctx va parts n).1 := by
  have hx := s.launchXlat_faults ctx va .write n
  have sent (ps : List Posted) : s.Faults { (s.launchXlat ctx va .write n).1 with posted := ps } := hx.trans (.of_same rfl rfl rfl rfl)
  unfold State.launchWrite
  dsimp only
  split
  · dsimp only
    split
    · exact sent _
    · exact hx.trans (State.performEach_acts _ _).faults
  · exact sent _
  · exact hx

/-- The lots that are over stay so, and no lot is new. -/
structure State.LotsStand (s t : State) : Prop where
  nextLot : t.nextLot = s.nextLot
  done : ∀ n l, s.LotOver n l → t.LotOver n l

theorem State.LotsStand.trans {s t u : State} (h : s.LotsStand t) (g : t.LotsStand u) : s.LotsStand u :=
  ⟨g.nextLot.trans h.nextLot, fun n l => g.done n l ∘ h.done n l⟩

theorem State.Faults.lotsStand {s t : State} (h : s.Faults t) : s.LotsStand t := ⟨h.nextLot, h.done⟩

theorem State.modQueue_lotsStand (s : State) (ctx q : Nat) (f : Queue → Queue) : s.LotsStand (s.modQueue ctx q f) :=
  ⟨rfl, fun _ _ h => h.of_lots rfl⟩

/-- A lot that completes is over, whatever its stores meet. -/
theorem State.completeLot_over (s : State) (n : Nat) :
    (s.completeLot n).nextLot = s.nextLot ∧ (s.completeLot n).LotOver n (s.lot n) := by
  have done {t : State} (h : (s.setLot n { s.lot n with phase := .complete }).LotsStand t) :
      t.nextLot = s.nextLot ∧ t.LotOver n (s.lot n) := by
    obtain ⟨h1, h2, h3, h4, h5, h6⟩ := h.done n _ (s.setLot_over n (l := { s.lot n with phase := .complete }) rfl)
    exact ⟨h.nextLot, h1, h2, h3, h4, h5, h6⟩
  unfold State.completeLot
  extract_lets l part s1 bs x irq y
  have hx : s1.LotsStand x.1 := (s1.launchWrite_faults _ _ _ _).lotsStand
  have hy : s1.LotsStand y.1 := hx.trans (State.launchWrite_faults _ _ _ _ _).lotsStand
  have hirq (u : State) : u.LotsStand (irq u) := by
    simp only [irq]
    split
    · exact (u.signalBehind_acts _ _ _).faults.lotsStand
    · exact (State.Faults.refl u).lotsStand
  split
  · exact done (hx.trans (State.modQueue_lotsStand _ _ _ _))
  · split
    · exact done (hx.trans (hirq _))
    · split
      · exact done (hx.trans (State.modQueue_lotsStand _ _ _ _))
      · split
        · exact done (hy.trans (hirq _))
        · exact done (hy.trans (State.modQueue_lotsStand _ _ _ _))

theorem LotRecord.shape_eq (r : LotRecord) (bs : List Byte) :
    r.shape bs = (if r.ver ≠ 1 then 1 else if reservedClear bs = false then 2 else if r.nvec + r.nmat = 0 ∨ 32 < r.nvec + r.nmat then 3
      else if 256 < r.scr ∨ 256 < r.acc ∨ (r.nmat = 1 ∧ r.acc = 0) then 4
      else if r.gx = 0 ∨ r.gy = 0 ∨ r.gz = 0 ∨ 2 ^ 32 < r.gx * r.gy * r.gz then 5 else 0) := by
  unfold LotRecord.shape LotRecord.total
  simp [or_assoc]

section
variable {s : State} {ctx : Nat} {r : LotRecord} {bs : List Byte}

theorem State.checkLot_shape (h : r.shape bs ≠ 0) : (s.checkLot ctx r bs).2 = some (r.shape bs, default) := by
  rw [State.checkLot_eq]
  dsimp only
  rw [if_pos (by simpa using h)]

/-- A misaligned semaphore. -/
theorem State.checkLot_sema (h : r.shape bs = 0) (hs : r.sema = true) (ha : r.semva.toNat % 8 ≠ 0) (hw : r.wait = false) :
    (s.checkLot ctx r bs).2 = some (6, default) := by
  have hx : s.lotSemaphores ctx r = ((s, xfault 0), s, .ok 0 0 0) := by
    have e : s.semaphoreOk ctx r.semva 402 = (s, xfault 0) := if_pos (by simpa using ha)
    simp only [State.lotSemaphores, hs, hw, if_true, e]
    rfl
  rw [State.checkLot_eq]
  simp only [h, hx]
  rfl

/-- A lot with no semaphore is as its code object is. -/
theorem State.checkLot_code (h : r.shape bs = 0) (hs : r.sema = false) (hw : r.wait = false) : s.checkLot ctx r bs = s.checkCode ctx r := by
  have hx : s.lotSemaphores ctx r = ((s, .ok 0 0 0), s, .ok 0 0 0) := by
    simp only [State.lotSemaphores, hs, hw]
    rfl
  rw [State.checkLot_eq]
  simp only [h, hx]
  rfl

theorem State.checkCode_error {y : Xlat} (h : (s.loadCode ctx r).2 = .error y) (hy : y ≠ .held) : (s.checkCode ctx r).2 = some (6, default) := by
  unfold State.checkCode
  simp only [h]

theorem State.checkCode_ok {c : CodeHeader} (h : (s.loadCode ctx r).2 = .ok c) :
    (s.checkCode ctx r).2 = some (if r.slots.any slotUnassigned then 7
      else if c.featreq &&& ~~~ (s.loadCode ctx r).1.hub.featacc ≠ 0 ∨
        ((s.loadCode ctx r).1.hub.featacc.getLsbD 7 = false ∧ ∃ w ∈ r.slots, slKind w = 1 ∨ slKind w = 3) then 8
      else 0, c) := by
  have hf : (!(s.loadCode ctx r).1.featuresOk c || (!(s.loadCode ctx r).1.hub.featacc.getLsbD 7 &&
      r.slots.any (fun w => slKind w == 1 || slKind w == 3))) = true ↔
      (c.featreq &&& ~~~ (s.loadCode ctx r).1.hub.featacc ≠ 0 ∨
        ((s.loadCode ctx r).1.hub.featacc.getLsbD 7 = false ∧ ∃ w ∈ r.slots, slKind w = 1 ∨ slKind w = 3)) := by
    simp [State.featuresOk]
  unfold State.checkCode
  simp only [h, hf]
  split
  · rfl
  · split <;> rfl
end

/-! ### The gates (R66) -/

section
variable {s : State} {lot : Nat}

/-- No semaphore is looked at. -/
def State.semaphoreIdle (s : State) (lot : Nat) : Bool :=
  (s.lots.get lot).isNone || (s.lot lot).phase != .gated || !(s.lot lot).record.wait || (s.lot lot).waitMet || (s.ctx (s.lot lot).ctx).faulted

theorem waitSemaphoreRead_idle (h : s.semaphoreIdle lot = true) : execWaitSemaphoreRead lot s = .next s := if_pos h

/-- The fault of a lot whose start semaphore cannot be read. -/
def State.semaphoreFault (s : State) (lot : Nat) (code : BitVec 8) (cause : BitVec 4) : FaultRecord :=
  { (default : FaultRecord) with
    code := code, cause := cause, rung := 2, fva := (s.lot lot).record.wsemva, vatnum := 0xFFFFFFFF,
    lottag := (s.lot lot).record.lottag, gtime := BitVec.ofNat 64 s.gtime }

theorem waitSemaphoreRead_held (h : s.semaphoreIdle lot = false) :
    let l := s.lot lot
    (s.launchLook l.ctx l.record.wsemva 500).2 = .held → ∃ t, execWaitSemaphoreRead lot s = .next t ∧ t.mem = s.mem ∧ t.lot lot = l := by
  intro l hy
  have hw := s.launchLook_walks _ _ _ (fun d e => by rw [hy] at e; cases e)
  have he : execWaitSemaphoreRead lot s = .next (s.launchLook l.ctx l.record.wsemva 500).1 := by
    refine (if_neg (by rw [← Bool.not_eq_true] at h; exact h)).trans ?_
    dsimp only
    rw [hy]
  exact ⟨_, he, hw.mem, hw.lot lot⟩

/-- The semaphore is met if what it holds has reached the value of the record. -/
def Lot.look (v : Nat) (l : Lot) : Lot := { l with waitMet := decide (l.record.wsemval.toNat ≤ v) }

theorem waitSemaphoreRead_ok (h : s.semaphoreIdle lot = false) {pa : Nat} {slot : BitVec 10} {ca : BitVec 2} :
    let l := s.lot lot
    let y := s.launchLook l.ctx l.record.wsemva 500
    y.2 = .ok pa slot ca → ∃ t, execWaitSemaphoreRead lot s = .next t ∧ t.mem = s.mem ∧
      t.lot lot = { l with waitMet := decide (l.record.wsemval.toNat ≤
        bytesToNat (y.1.readBytes none hubDie (y.1.memKey (s.ctx l.ctx).part pa) slot 8)) } := by
  intro l y hy
  have hw : s.Walks y.1 := s.launchLook_walks _ _ _ (fun d e => by rw [hy] at e; cases e)
  have he : execWaitSemaphoreRead lot s =
      .next (y.1.modLot lot (Lot.look (bytesToNat (y.1.readBytes none hubDie (y.1.memKey (s.ctx l.ctx).part pa) slot 8)))) := by
    refine (if_neg (by rw [← Bool.not_eq_true] at h; exact h)).trans ?_
    dsimp only
    rw [hy]
    rfl
  refine ⟨_, he, hw.mem, ?_⟩
  rw [State.lot_modLot, if_pos rfl, hw.lot lot]
  rfl

/-- A start semaphore that cannot be read ends its lot. -/
def Lot.failStart (fr : FaultRecord) (l : Lot) : Lot := { l with status := 1, first := some fr, firstPc := 0 }

theorem waitSemaphoreRead_fault (h : s.semaphoreIdle lot = false) {code : BitVec 8} {cause : BitVec 4} :
    let l := s.lot lot
    (s.launchLook l.ctx l.record.wsemva 500).2 = .fault code cause →
      ∃ t, execWaitSemaphoreRead lot s = .next t ∧ (t.lot lot).phase = .complete ∧ (t.lot lot).status = 1 ∧
        (t.lot lot).firstPc = 0 ∧ (t.lot lot).first.map (fun f => (f.code, f.fva, f.vatnum, f.rung)) = some (code, l.record.wsemva, 0xFFFFFFFF, 2) := by
  intro l hy
  have he : execWaitSemaphoreRead lot s =
      .next (((s.launchLook l.ctx l.record.wsemva 500).1.modLot lot (Lot.failStart { (default : FaultRecord) with
        code := code, cause := cause, rung := 2, fva := l.record.wsemva, vatnum := 0xFFFFFFFF, lottag := l.record.lottag,
        gtime := BitVec.ofNat 64 s.gtime })).completeLot lot) := by
    refine (if_neg (by rw [← Bool.not_eq_true] at h; exact h)).trans ?_
    dsimp only
    rw [hy]
    rfl
  obtain ⟨-, ho⟩ := State.completeLot_over ((s.launchLook l.ctx l.record.wsemva 500).1.modLot lot (Lot.failStart { (default : FaultRecord) with
        code := code, cause := cause, rung := 2, fva := l.record.wsemva, vatnum := 0xFFFFFFFF, lottag := l.record.lottag,
        gtime := BitVec.ofNat 64 s.gtime })) lot
  refine ⟨_, he, ho.phase, ho.status.trans ?_, ho.firstPc.trans ?_, (congrArg _ ho.first).trans ?_⟩ <;> rw [State.lot_modLot, if_pos rfl] <;> rfl
end

theorem State.lot_of_get {s : State} {k : Nat} {l : Lot} (h : s.lots.get k = some l) : s.lot k = l := by
  rw [State.lot, h]
  rfl

theorem State.mem_lotsOf {s : State} (hw : s.lots.wf = true) {ctx k : Nat} {p : LotPhase → Bool} :
    k ∈ s.lotsOf ctx p ↔ (s.lots.get k).isSome = true ∧ (s.lot k).ctx = ctx ∧ p (s.lot k).phase = true := by
  rw [State.lotsOf, List.mem_filterMap]
  constructor
  · rintro ⟨⟨j, v⟩, hm, hv⟩
    cases v with
    | none => cases hv
    | some l =>
      dsimp only at hv
      split at hv
      · next hl =>
        cases hv
        have hg : s.lots.get k = some l := Map.get_of_mem hw hm
        rw [State.lot_of_get hg, hg]
        exact ⟨rfl, hl⟩
      · cases hv
  · rintro ⟨hs, hl⟩
    obtain ⟨l, hg⟩ := Option.isSome_iff_exists.1 hs
    rw [State.lot_of_get hg] at hl
    exact ⟨(k, some l), Map.mem_of_get_eq_some hg, if_pos hl⟩

section
variable {s : State} {lot : Nat}

/-- Every earlier lot of the queue is over. -/
theorem State.fenceMet_iff (hw : s.lots.wf = true) :
    s.fenceMet lot = true ↔ ∀ k < lot, (s.lots.get k).isSome = true → (s.lot k).ctx = (s.lot lot).ctx → (s.lot k).queue = (s.lot lot).queue →
      (s.lot k).phase = .complete := by
  simp only [State.fenceMet, List.all_eq_true, State.mem_lotsOf hw, Bool.or_eq_true, decide_eq_true_eq, bne_iff_ne]
  constructor
  · intro h k hk hs hc hq
    by_contra hp
    rcases h k ⟨hs, hc, hp⟩ with h | h
    · omega
    · exact h hq
  · rintro h k ⟨hs, hc, hp⟩
    by_contra hn
    obtain ⟨hk, hq⟩ := not_or.1 hn
    exact hp (h k (Nat.lt_of_not_le hk) hs hc (not_not.1 hq))

theorem lotGateOpen_iff (hw : s.lots.wf = true) :
    let l := s.lot lot
    ((s.lots.get lot).isSome && s.gatesMet lot) = true ↔
      ((s.lots.get lot).isSome = true ∧ l.phase = .gated ∧ l.status = 0 ∧ (l.record.flags.getLsbD 4 = true → l.waitMet = true) ∧
        (l.record.flags.getLsbD 3 = true → ∀ k < lot, (s.lots.get k).isSome = true → (s.lot k).ctx = l.ctx → (s.lot k).queue = l.queue →
          (s.lot k).phase = .complete) ∧ (s.ctx l.ctx).faulted = false) := by
  intro l
  rw [← State.fenceMet_iff hw]
  simp only [State.gatesMet, LotRecord.wait, LotRecord.fence, Bool.and_eq_true, Bool.or_eq_true, Bool.not_eq_true', beq_iff_eq, and_assoc]
  have imp (a b : Bool) : (a = false ∨ b = true) ↔ (a = true → b = true) := by cases a <;> cases b <;> decide
  simp only [imp]
  rfl
end

/-! ### The outcomes of a record taken -/

section
variable {s : State} {ctx q part : Nat} {d : Queue} {bs : List Byte}

theorem State.lotXlat_misaligned {r : LotRecord} (h : r.cplva.toNat % 128 ≠ 0) : s.lotXlat ctx r = (s, xfault 0) := if_pos (by simpa using h)

theorem State.lotXlat_aligned {r : LotRecord} (h : r.cplva.toNat % 128 = 0) : s.lotXlat ctx r = s.launchXlat ctx r.cplva .write 400 :=
  if_neg (by simp [h])

theorem State.newLot_status {qseq : Word} {r : LotRecord} {detail : BitVec 8} {code : CodeHeader} :
    (s.newLot ctx q qseq r detail code).status = if detail != 0 then 3 else if s.tooLarge ctx r then 4 else 0 := rfl

theorem State.takeLot_fault {code : BitVec 8} {cause : BitVec 4} (h : (s.lotXlat ctx (lotRecord bs)).2 = .fault code cause) :
    s.takeLot ctx q d part bs = .next ((s.lotXlat ctx (lotRecord bs)).1.discardRecord ctx q part (lotRecord bs)) := by
  unfold State.takeLot
  dsimp only
  rw [h]

theorem State.takeLot_held (h : (s.lotXlat ctx (lotRecord bs)).2 = .held) :
    s.takeLot ctx q d part bs = .next ((s.lotXlat ctx (lotRecord bs)).1.putBack ctx q d) := by
  unfold State.takeLot
  dsimp only
  rw [h]

theorem State.takeLot_checkHeld {pa : Nat} {slot : BitVec 10} {ca : BitVec 2} (h : (s.lotXlat ctx (lotRecord bs)).2 = .ok pa slot ca)
    (hk : ((s.lotXlat ctx (lotRecord bs)).1.checkLot ctx (lotRecord bs) bs).2 = none) :
    s.takeLot ctx q d part bs = .next (((s.lotXlat ctx (lotRecord bs)).1.checkLot ctx (lotRecord bs) bs).1.putBack ctx q d) := by
  unfold State.takeLot
  dsimp only
  rw [h]
  dsimp only
  rw [hk]

theorem State.takeLot_checked {pa : Nat} {slot : BitVec 10} {ca : BitVec 2} {e : BitVec 8 × CodeHeader}
    (h : (s.lotXlat ctx (lotRecord bs)).2 = .ok pa slot ca)
    (hk : ((s.lotXlat ctx (lotRecord bs)).1.checkLot ctx (lotRecord bs) bs).2 = some e) :
    let k := ((s.lotXlat ctx (lotRecord bs)).1.checkLot ctx (lotRecord bs) bs).1
    let l := k.newLot ctx q d.ri (lotRecord bs) e.1 e.2
    s.takeLot ctx q d part bs = .next (if l.status == 0 then k.addLot l else (k.addLot l).completeLot k.nextLot) := by
  unfold State.takeLot
  dsimp only
  rw [h]
  dsimp only
  rw [hk]

/-- A lot with an error of its record, or too large, is complete at once. -/
theorem State.addLot_complete {l : Lot} : let t := (s.addLot l).completeLot s.nextLot
    t.nextLot = s.nextLot + 1 ∧ (t.lot s.nextLot).phase = .complete ∧ (t.lot s.nextLot).detail = l.detail ∧ (t.lot s.nextLot).status = l.status := by
  have hl : (s.addLot l).lot s.nextLot = l := (s.lot_setLot s.nextLot s.nextLot l).trans (if_pos rfl)
  obtain ⟨hn, ho⟩ := (s.addLot l).completeLot_over s.nextLot
  exact ⟨hn, ho.phase, ho.detail.trans (by rw [hl]), ho.status.trans (by rw [hl])⟩
end

/-- Settles O48: a translation changes neither memory nor a queue (`State.Walks`), a fault of a context that it meets leaves the queue but for
ERR and EN, and the lots that are over (`State.Faults`). -/
theorem lotAcceptance : Obligations.LotAcceptance := by
  unfold Obligations.LotAcceptance
  intro s ctx q lot wi c d withQueue here now noted bs taken r u x k idle l shape code stands discards
  have hidle : idle ↔ s.lotIdle ctx q = true := by
    simp only [idle, State.lotIdle, Bool.or_eq_true, Bool.not_eq_true', beq_iff_eq, Option.isNone_iff_eq_none, or_assoc]
    rfl
  have hhere (h : here = true) : (s.ready && (s.ctxs.get ctx).isSome && decide (q < 16)) = true := h
  have hshape : r.shape bs = shape := LotRecord.shape_eq r bs
  have hsem : s.semaphoreIdle lot = true ↔
      ((s.lots.get lot).isSome = false ∨ l.phase ≠ .gated ∨ l.record.flags.getLsbD 4 = false ∨ l.waitMet = true ∨ (s.ctx l.ctx).faulted = true) := by
    simp only [State.semaphoreIdle, LotRecord.wait, Bool.or_eq_true, Bool.not_eq_true', bne_iff_ne, or_assoc]
    simp [l]
  refine ⟨fun h => ?_, fun h => ?_, fun h => ?_, fun i hi => s.takeRecord_part ctx q hi, fun h => lotAccept_idle (hidle.1 h), fun h => ?_,
    fun h => ?_, fun h => ⟨fun hs ha hw => ?_, fun hs hw => ?_⟩, fun h => waitSemaphoreRead_idle (hsem.2 h), fun h1 h2 h3 h4 h5 => ?_,
    fun hw => ⟨fun h => ?_, fun h => ?_⟩⟩
  case refine_1 =>
    have hn : ¬ (s.ready && (s.ctxs.get ctx).isSome && decide (q < 16)) = true := Bool.eq_false_iff.1 h
    exact ⟨if_neg hn, if_neg hn⟩
  case refine_2 => exact ⟨if_pos (hhere h), if_pos (hhere h)⟩
  case refine_3 => exact s.takeRecord_new ctx q h
  case refine_5 => exact ⟨_, hshape ▸ State.checkLot_shape (hshape.symm ▸ h)⟩
  case refine_6 => exact ⟨_, State.checkLot_sema (hshape.trans h) hs ha hw⟩
  case refine_7 =>
    have hk : k = x.1.checkCode ctx r := State.checkLot_code (hshape.trans h) hs hw
    rw [hk]
    exact ⟨fun y hy hn => ⟨_, State.checkCode_error hy hn⟩, fun c hc => State.checkCode_ok hc⟩
  case refine_8 =>
    have hi : s.semaphoreIdle lot = false := by
      rw [← Bool.not_eq_true, hsem]
      rintro (e | e | e | e | e)
      · rw [h1] at e; cases e
      · exact e h2
      · rw [h3] at e; cases e
      · rw [h4] at e; cases e
      · rw [h5] at e; cases e
    exact ⟨waitSemaphoreRead_held hi, fun pa slot ca => waitSemaphoreRead_ok hi, fun code cause => waitSemaphoreRead_fault hi⟩
  case refine_9 => exact if_pos ((lotGateOpen_iff hw).2 h)
  case refine_10 => exact if_neg (fun e => h ((lotGateOpen_iff hw).1 e))
  case refine_4 =>
    have hi : s.lotIdle ctx q = false := by rw [← Bool.not_eq_true, ← hidle]; exact h
    have haccept : exec (.lotAccept ctx q) s = (s.takeNext ctx q).takeLot ctx q d c.part bs := lotAccept_taken hi
    have discard {code : BitVec 8} {cause : BitVec 4} (hx : ((s.takeNext ctx q).lotXlat ctx r).2 = .fault code cause)
        (hw : (s.takeNext ctx q).Walks ((s.takeNext ctx q).lotXlat ctx r).1) : discards :=
      ⟨_, haccept.trans (State.takeLot_fault hx), State.discardRecord_spec hw c.part r⟩
    refine ⟨fun hr => ?_, fun code cause hr hx => ?_, fun hr hx => ?_, fun hr hx => ⟨fun hk => ?_, fun e hk => ⟨fun he hl => ?_, fun he => ?_⟩⟩⟩
    · have hx : (s.takeNext ctx q).lotXlat ctx r = (s.takeNext ctx q, xfault 0) := State.lotXlat_misaligned hr
      exact discard (congrArg Prod.snd hx) (hx.symm ▸ .refl _)
    all_goals
      have ha : (s.takeNext ctx q).lotXlat ctx r = x := State.lotXlat_aligned hr
    · exact discard (ha.symm ▸ hx) (ha.symm ▸ State.launchXlat_walks _ _ _ _ _ (fun d e => by cases hx.symm.trans e))
    · refine ⟨_, haccept.trans (State.takeLot_held (ha.symm ▸ hx)), State.putBack_queue ?_⟩
      exact ha.symm ▸ State.launchXlat_faults _ _ _ _ _
    all_goals
      obtain ⟨pa, slot, ca, hx⟩ := hx
      have hf : (s.takeNext ctx q).Faults x.1 := State.launchXlat_faults _ _ _ _ _
      have hw : (s.takeNext ctx q).Walks x.1 := State.launchXlat_walks _ _ _ _ _ (fun d e => by cases hx.symm.trans e)
    · refine ⟨_, haccept.trans (State.takeLot_checkHeld (ha.symm ▸ hx) (ha.symm ▸ hk)), State.putBack_queue ?_⟩
      exact ha.symm ▸ hf.trans (State.checkLot_faults _ _ _ _)
    all_goals
      have hk' : (((s.takeNext ctx q).lotXlat ctx r).1.checkLot ctx r bs).2 = some e := by rw [ha]; exact hk
      have hc := haccept.trans (State.takeLot_checked (ha.symm ▸ hx) hk')
      rw [ha] at hc
      have hn : k.1.nextLot = s.nextLot := (hf.trans (State.checkLot_faults _ _ _ _)).nextLot
    · have hwk : (s.takeNext ctx q).Walks k.1 := hw.trans (State.checkLot_walks _ _ _ _ hk he)
      obtain ⟨hm, hnl, hlot, hq⟩ := State.addLot_spec hwk (k.1.newLot ctx q d.ri r e.1 e.2)
      have hs : (k.1.newLot ctx q d.ri r e.1 e.2).status = 0 := by
        rw [State.newLot_status, he, hl]
        rfl
      refine ⟨_, hc.trans (congrArg _ (if_pos ?_)), hm, hnl, ?_, ?_, ?_, ?_, ?_, ?_, ?_, hq⟩
      · exact beq_iff_eq.2 hs
      all_goals rw [hlot]
      case refine_3 => exact hs
      case refine_8 => exact hwk.gtime
      all_goals rfl
    · have hs : (k.1.newLot ctx q d.ri r e.1 e.2).status = if e.1 ≠ 0 then 3 else 4 := by
        rw [State.newLot_status]
        rcases he with he | he
        · rw [if_pos (by simpa using he), if_pos he]
        · rw [he, if_pos rfl]
          simp only [bne_iff_ne]
      obtain ⟨hnl, hp, hd, hst⟩ := k.1.addLot_complete (l := k.1.newLot ctx q d.ri r e.1 e.2)
      refine ⟨_, hc.trans (congrArg _ (if_neg ?_)), hnl.trans (congrArg (· + 1) hn), ?_, ?_, ?_⟩
      · rw [beq_iff_eq]
        show ¬ (k.1.newLot ctx q d.ri r e.1 e.2).status = 0
        rw [hs]
        split <;> decide
      all_goals rw [← hn]
      · exact hp
      · exact hd
      · exact hst.trans hs

end Sys2Proof.Machine
end

section
/-! PROOFS. The management plane (spec/02 R56): what the caches of a core keep when a key is loaded. -/

namespace Sys2Proof.Machine

/-- A machine whose array of cores lists core 0 twice, which `Map.wf` excludes and the statement does not: first with a cached line of key slot 0
alone, then with a decoded word alone. -/
def twiceListedCore : State :=
  { State.reset with cores := [(0, { (default : Core) with l1 := [(0, [1])] }), (0, { (default : Core) with decoded := [(0, some 1)] })] }

/-- The first of the two becomes an idle core, which is not listed, so that the second is read from then on. -/
theorem twiceListedCore_dropSlot : (twiceListedCore.dropSlot 0).core 0 = { (default : Core) with decoded := [(0, some 1)] } := by decide

theorem twiceListedCore_core : twiceListedCore.core 0 = { (default : Core) with l1 := [(0, [1])] } := rfl

/-- Refutes O52: KEY_SLOT_LOAD of slot 0 changes what core 0 of `twiceListedCore` has decoded, since the statement does not ask that the array of
cores is in its canonical form (`Map.wf`), as it asks for `lineSlot`. -/
theorem not_management : ¬ Obligations.Management := by
  unfold Obligations.Management
  intro h
  obtain ⟨-, -, -, -, -, -, -, -, -, -, -, -, ⟨t, ht, hforgets, -⟩, -⟩ :=
    h twiceListedCore default 0 0 0 0 0 none 0 0 0 0 none (.read 0) 0 0
  have hcore : t.core 0 = (twiceListedCore.dropSlot 0).core 0 := by
    cases ht
    rfl
  have hdecoded : (t.core 0).decoded = (twiceListedCore.core 0).decoded := by rw [(hforgets 0).1]
  rw [hcore, twiceListedCore_dropSlot, twiceListedCore_core] at hdecoded
  exact absurd hdecoded (by decide)

end Sys2Proof.Machine
end

section
/-! PROOFS. Driver commands (spec/03 R70–R72): the head of a partition's ring, what the end of a command writes (`State.HubWrites`), what TLBINV
discards (`State.Forgotten`), what a context in reset keeps (`State.Stops`), and each command. -/

namespace Sys2Proof.Machine

/-! ### The ring of driver commands (R70) -/

theorem State.ldt_modPart (s : State) (k j : Nat) {f : Partition → Partition} (h : (f (s.part k)).ldt = (s.part k).ldt) :
    ((s.modPart k f).part j).ldt = (s.part j).ldt := by
  rw [State.part_modPart]
  split
  · next e => rw [e, h]
  · rfl

theorem State.plcfg_modPart (s : State) (k j : Nat) {f : Partition → Partition} (h : (f (s.part k)).plcfg = (s.part k).plcfg) :
    ((s.modPart k f).part j).plcfg = (s.part j).plcfg := by
  rw [State.part_modPart]
  split
  · next e => rw [e, h]
  · rfl

theorem State.homeOf_modPart (s : State) (k p pa : Nat) {f : Partition → Partition} (h : (f (s.part k)).ldt = (s.part k).ldt) :
    (s.modPart k f).homeOf p pa = s.homeOf p pa := by
  unfold State.homeOf
  rw [State.ldt_modPart s k p h]
  rfl

theorem State.backed_modPart (s : State) (k p pa : Nat) (mode : BitVec 2) {f : Partition → Partition}
    (h : (f (s.part k)).ldt = (s.part k).ldt) : (s.modPart k f).backed p mode pa = s.backed p mode pa := by
  unfold State.backed
  rw [State.ldt_modPart s k p h]
  rfl

/-- A change of a partition's rings alone leaves what its memory reads as. -/
theorem State.physRead_modPart (s : State) (k p pa n : Nat) {f : Partition → Partition} (h : (f (s.part k)).ldt = (s.part k).ldt)
    (hm : (f (s.part k)).plcfg = (s.part k).plcfg) : (s.modPart k f).physRead p pa n = s.physRead p pa n := by
  unfold State.physRead
  simp only [State.plcfg_modPart s k p hm, State.homeOf_modPart s k _ _ h, State.backed_modPart s k _ _ _ h]
  rfl

section
variable (s : State) (part : Nat)

/-- The record at the head of a partition's ring: its address, its bytes, its opcode and the context it names. -/
def State.headPa : Nat := (s.part part).dcdesc.recordPa 64
def State.headBytes : List Byte := s.physRead part (s.headPa part) 64
def State.headOp : Byte := (s.headBytes part).headD 0
def State.headCtx : Nat := word (s.headBytes part) 0 / 2 ^ 16

/-- The command that it is. -/
def State.headCommand : DriverCommand :=
  { op := s.headOp part, pa := s.headPa part, ctx := s.headCtx part, va := dwordAt (s.headBytes part) 8,
    pages := (dwordAt (s.headBytes part) 16).toNat, before := s.nextOp, lw := (s.ctx (s.headCtx part)).lwdesc }

/-- A command stands at the head, and no SILENT die holds up what is read of it. -/
def State.CommandDue : Prop :=
  s.hub.devst = .ready ∧ (s.part part).dcdesc.en = true ∧ (s.part part).dcdesc.ri ≠ (s.part part).dcdesc.wi ∧ (s.part part).command = none ∧
    s.physHeld part (s.headPa part) 64 = false ∧
    ((s.headOp part).toNat = 1 → s.physHeld part (dwordAt (s.headBytes part) 8).toNat 256 = false)

/-- The head of a ring taken. -/
def State.nextCommand : State := s.modPart part (fun p => { p with dcdesc := { p.dcdesc with ri := p.dcdesc.ri + 1 } })

def State.HeadTaken (t : State) : Prop := (t.part part).dcdesc = { (s.part part).dcdesc with ri := (s.part part).dcdesc.ri + 1 }

/-- An instruction ends the command at the head with a status, and has no other effect. -/
def State.EndsWith (i : Instr) (st : Word) : Prop := exec i s = .next ((s.nextCommand part).endCommand part (s.headPa part) st)
end

section
variable {s : State} {part : Nat}

theorem State.part_nextCommand : (s.nextCommand part).part part =
    { s.part part with dcdesc := { (s.part part).dcdesc with ri := (s.part part).dcdesc.ri + 1 } } := by
  rw [State.nextCommand, State.part_modPart, if_pos rfl]

theorem State.physRead_nextCommand (pa n : Nat) : (s.nextCommand part).physRead part pa n = s.physRead part pa n :=
  s.physRead_modPart part part pa n rfl rfl

theorem State.commandDue_iff : s.CommandDue part ↔
    (!s.ready || !(s.part part).dcdesc.en || (s.part part).dcdesc.ri == (s.part part).dcdesc.wi || (s.part part).command.isSome) = false ∧
      (s.physHeld part (s.headPa part) 64 ||
        (s.headOp part == 1 && s.physHeld part (dwordAt (s.headBytes part) 8).toNat 256)) = false := by
  have one (b : Byte) : b.toNat = 1 ↔ b = 1 := by rw [← BitVec.toNat_inj]; rfl
  simp only [State.CommandDue, State.ready, one, Bool.or_eq_false_iff, Bool.and_eq_false_imp, Bool.not_eq_false', beq_iff_eq,
    beq_eq_false_iff_ne, Option.isSome_eq_false_iff, Option.isNone_iff_eq_none, and_assoc]

theorem State.driverHead_due (h : s.CommandDue part) : s.driverHead part = some (s.headPa part, s.headBytes part) := by
  obtain ⟨h1, h2⟩ := State.commandDue_iff.1 h
  exact (if_neg (Bool.eq_false_iff.1 h1)).trans (if_neg (Bool.eq_false_iff.1 h2))

theorem State.driverHead_idle (h : ¬ s.CommandDue part) : s.driverHead part = none := by
  unfold State.driverHead
  simp only
  split
  · rfl
  · next h1 =>
    split
    · rfl
    · next h2 => exact absurd (State.commandDue_iff.2 ⟨Bool.eq_false_iff.2 h1, Bool.eq_false_iff.2 h2⟩) h

variable {is : Byte → Bool} {eff : State → DriverCommand → List Byte → State × Option Word}

theorem State.driverCommand_idle (h : ¬ s.CommandDue part ∨ is (s.headOp part) = false) : s.driverCommand part is eff = .next s := by
  unfold State.driverCommand
  by_cases hd : s.CommandDue part
  · rw [State.driverHead_due hd]
    exact if_pos (show (!is (s.headOp part)) = true by rw [h.resolve_left (fun hn => hn hd)]; rfl)
  · rw [State.driverHead_idle hd]

/-- What becomes of the command at the head: it ends, or waits for its end. -/
theorem State.driverCommand_due (hd : s.CommandDue part) (his : is (s.headOp part) = true) :
    let r := eff (s.nextCommand part) (s.headCommand part) (s.headBytes part)
    s.driverCommand part is eff = match r.2 with
      | some st => .next (r.1.endCommand part (s.headPa part) st)
      | none => .next (r.1.modPart part (fun p => { p with command := some (s.headCommand part) })) := by
  unfold State.driverCommand
  rw [State.driverHead_due hd]
  exact if_neg (show ¬ (!is (s.headOp part)) = true by rw [his]; decide)

theorem State.driverCommand_ends (hd : s.CommandDue part) {u : State} {st : Word} (his : is (s.headOp part) = true)
    (h : eff (s.nextCommand part) (s.headCommand part) (s.headBytes part) = (u, some st)) :
    s.driverCommand part is eff = .next (u.endCommand part (s.headPa part) st) := by
  rw [State.driverCommand_due hd his, h]

theorem State.driverCommand_waits (hd : s.CommandDue part) {u : State} (his : is (s.headOp part) = true)
    (h : eff (s.nextCommand part) (s.headCommand part) (s.headBytes part) = (u, none)) :
    s.driverCommand part is eff = .next (u.modPart part (fun p => { p with command := some (s.headCommand part) })) := by
  rw [State.driverCommand_due hd his, h]
end

end Sys2Proof.Machine

namespace Sys2Proof

theorem Map.of_mem_mapVals {α : Type} [Inhabited α] [DecidableEq α] {m : Map α} {f : Nat → α → α} {e : Nat × α} (h : e ∈ m.mapVals f) :
    ∃ x ∈ m, e = (x.1, f x.1 x.2) := by
  obtain ⟨x, hx, ex⟩ := List.mem_filterMap.1 h
  dsimp only at ex
  split at ex
  · cases ex
  · exact ⟨x, hx, (Option.some.inj ex).symm⟩

end Sys2Proof

namespace Sys2Proof.Machine

/-! ### The end of a command -/

/-- A write that no context makes reaches memory and what is kept of it, and the decoded words of no core. -/
structure State.HubWrites (s t : State) : Prop where
  only : t = { s with
    mem := t.mem, cores := t.cores, copies := t.copies, stale := t.stale, sync := t.sync, lineKey := t.lineKey, lineSlot := t.lineSlot,
    poison := t.poison, posted := t.posted }
  decoded : ∀ e ∈ t.cores, ∃ x ∈ s.cores, e.2.decoded = x.2.decoded

theorem State.HubWrites.of_cores {s t : State} (h : t.cores = s.cores) (hs : s.SameBut t) : s.HubWrites t :=
  ⟨by rw [hs], fun e he => ⟨e, h ▸ he, rfl⟩⟩

theorem State.HubWrites.refl (s : State) : s.HubWrites s := .of_cores rfl (.refl s)

theorem State.HubWrites.trans {s t u : State} (h : s.HubWrites t) (g : t.HubWrites u) : s.HubWrites u where
  only := by rw [g.only, h.only]
  decoded e he := by
    obtain ⟨x, hx, ex⟩ := g.decoded e he
    obtain ⟨y, hy, ey⟩ := h.decoded x hx
    exact ⟨y, hy, ex.trans ey⟩

theorem State.HubWrites.parts {s t : State} (h : s.HubWrites t) : t.parts = s.parts := by rw [h.only]
theorem State.HubWrites.ctxs {s t : State} (h : s.HubWrites t) : t.ctxs = s.ctxs := by rw [h.only]
theorem State.HubWrites.dies {s t : State} (h : s.HubWrites t) : t.dies = s.dies := by rw [h.only]
theorem State.HubWrites.hub {s t : State} (h : s.HubWrites t) : t.hub = s.hub := by rw [h.only]
theorem State.HubWrites.tlb {s t : State} (h : s.HubWrites t) : t.tlb = s.tlb := by rw [h.only]

theorem State.putByte_hubWrites (s : State) (b : WByte) : s.HubWrites (s.putByte b) := by
  refine .of_cores ?_ (s.putByte_same b)
  show (s.rekey b.key b.slot).cores = s.cores
  unfold State.rekey
  dsimp only
  split <;> rfl

theorem State.dropL1_hubWrites (s : State) (dies : BitVec 4) (line : Nat) : s.HubWrites (s.dropL1 dies line) := by
  refine ⟨by rw [(s.dropL1_same dies line).1], fun e he => ?_⟩
  unfold State.dropL1 at he
  split at he
  · dsimp only at he
    obtain ⟨x, hx, rfl⟩ := Map.of_mem_mapVals he
    refine ⟨x, hx, ?_⟩
    dsimp only
    split <;> rfl
  · exact ⟨e, he, rfl⟩

theorem State.dropCopies_hubWrites (s : State) (line : Nat) (ds : List Nat) : s.HubWrites (ds.foldl (fun s d => s.dropCopy d line) s) := by
  induction ds generalizing s with
  | nil => exact .refl s
  | cons d ds ih => exact (State.HubWrites.of_cores (s := s) (t := s.dropCopy d line) rfl rfl).trans (ih _)

theorem State.performG_hubWrites (s : State) (bs : List WByte) : s.HubWrites (s.performG bs) := by
  induction bs generalizing s with
  | nil => exact .refl s
  | cons b bs ih =>
    rw [State.performG_cons]
    exact (((s.dropCopies_hubWrites _ [0, 1, 2, 3]).trans (State.dropL1_hubWrites _ _ _)).trans (State.putByte_hubWrites _ b)).trans (ih _)

theorem State.physWrite_hubWrites (s : State) (part pa : Nat) (bs : List Byte) : s.HubWrites (s.physWrite part pa bs) := by
  unfold State.physWrite
  dsimp only
  rcases s.hubWrite_cases _ with e | e
  · rw [e]; exact s.performG_hubWrites _
  · rw [e]; exact ⟨rfl, fun e he => ⟨e, he, rfl⟩⟩

section
variable (s : State) (part pa : Nat) (st : Word)

theorem State.part_endCommand : (s.endCommand part pa st).part part = { s.part part with command := none } := by
  have h := (s.physWrite_hubWrites part (pa + 4) (wordBytes (0x80000000 ||| st))).parts
  unfold State.endCommand
  rw [State.part_modPart, if_pos rfl, State.part, h]
  rfl

theorem State.ctxs_endCommand : (s.endCommand part pa st).ctxs = s.ctxs := (s.physWrite_hubWrites _ _ _).ctxs
theorem State.dies_endCommand : (s.endCommand part pa st).dies = s.dies := (s.physWrite_hubWrites _ _ _).dies
theorem State.hub_endCommand : (s.endCommand part pa st).hub = s.hub := (s.physWrite_hubWrites _ _ _).hub

theorem State.ctx_endCommand (c : Nat) : (s.endCommand part pa st).ctx c = s.ctx c := by
  unfold State.ctx
  rw [State.ctxs_endCommand]
end

/-! ### Cached translations and decoded words that are discarded (R71) -/

/-- A range of addresses meets none of those that a command names. -/
def OutOfRange (va : BitVec 64) (pages k size : Nat) : Prop :=
  let lo := va.toNat / 4096 * 4096
  pages ≠ 0 ∧ (lo + 4096 * pages ≤ k ∨ k + size ≤ lo)

/-- No entry that is listed holds a translation or a decoded word of a context in the range of a command. -/
structure State.Forgotten (s : State) (c : Nat) (va : BitVec 64) (pages : Nat) : Prop where
  tlb : ∀ x ∈ s.tlb, ∀ e ∈ x.2, e.ctx = c → OutOfRange va pages e.base (2 ^ e.shift)
  decoded : ∀ x ∈ s.cores, ∀ k w, x.2.decoded.get k = some w → decodedCtx k = c → OutOfRange va pages (decodedVa k + 4 * (k % 16)) 4

theorem State.Forgotten.of_writes {s t : State} {c pages : Nat} {va : BitVec 64} (h : s.Forgotten c va pages) (ht : t.tlb = s.tlb)
    (hc : ∀ e ∈ t.cores, ∃ x ∈ s.cores, e.2.decoded = x.2.decoded) : t.Forgotten c va pages where
  tlb := ht ▸ h.tlb
  decoded e he := by
    obtain ⟨x, hx, ex⟩ := hc e he
    exact ex ▸ h.decoded x hx

theorem State.Forgotten.endCommand {s : State} {c pages part pa : Nat} {va : BitVec 64} {st : Word} (h : s.Forgotten c va pages) :
    (s.endCommand part pa st).Forgotten c va pages :=
  h.of_writes (s.physWrite_hubWrites _ _ _).tlb (s.physWrite_hubWrites _ _ _).decoded

/-- What is read of it. -/
theorem State.Forgotten.reads {s : State} {c pages : Nat} {va : BitVec 64} (h : s.Forgotten c va pages) :
    (∀ k, ∀ e ∈ s.tlb.get k, e.ctx = c → OutOfRange va pages e.base (2 ^ e.shift)) ∧
      ∀ core k w, (s.core core).decoded.get k = some w → decodedCtx k = c → OutOfRange va pages (decodedVa k + 4 * (k % 16)) 4 := by
  refine ⟨fun k e he => ?_, fun core k w hw => ?_⟩
  · refine h.tlb _ (Map.mem_of_get (m := s.tlb) (k := k) (fun hd => ?_)) e he
    rw [hd] at he
    cases he
  · refine h.decoded _ (Map.mem_of_get (m := s.cores) (k := core) (fun hd => ?_)) k w hw
    rw [State.core, hd] at hw
    cases hw

theorem outOfRange_iff {va : BitVec 64} {pages k size : Nat} :
    (pages == 0 || (decide (k < va.toNat / 4096 * 4096 + 4096 * pages) && decide (va.toNat / 4096 * 4096 < k + size))) = false ↔
      OutOfRange va pages k size := by
  simp only [OutOfRange, Bool.or_eq_false_iff, Bool.and_eq_false_iff, decide_eq_false_iff_not, beq_eq_false_iff_ne, Nat.not_lt]

theorem State.dropCached_forgotten (s : State) (c : Nat) (va : BitVec 64) (pages : Nat) : (s.dropCached c va pages).Forgotten c va pages where
  tlb x hx e he hc := by
    dsimp only [State.dropCached] at hx
    obtain ⟨y, -, rfl⟩ := Map.of_mem_mapVals hx
    have hm := (List.mem_filter.1 he).2
    rw [hc, beq_self_eq_true, Bool.true_and, Bool.not_eq_true'] at hm
    exact outOfRange_iff.1 hm
  decoded x hx k w hw hc := by
    dsimp only [State.dropCached] at hx
    obtain ⟨y, -, rfl⟩ := Map.of_mem_mapVals hx
    dsimp only at hw
    rw [Map.get_keep y.2.decoded (fun k => !(decodedCtx k == c && (pages == 0 ||
      (decide (decodedVa k + 4 * (k % 16) < va.toNat / 4096 * 4096 + 4096 * pages) &&
        decide (va.toNat / 4096 * 4096 < decodedVa k + 4 * (k % 16) + 4))))) k] at hw
    split at hw
    · next hm =>
      rw [hc, beq_self_eq_true, Bool.true_and, Bool.not_eq_true'] at hm
      exact outOfRange_iff.1 hm
    · cases hw

/-! ### What a context in reset keeps (R72) -/

/-- A context is being reset: its queues are stopped. -/
structure State.InReset (s : State) (c : Nat) : Prop where
  lots : s.lots.wf = true
  resetting : (s.ctx c).resetting = true
  queues : ∀ i, ((s.ctx c).queues.get i).en = false

theorem State.InReset.setLot {s : State} {c : Nat} (h : s.InReset c) (k : Nat) (l : Lot) : (s.setLot k l).InReset c :=
  ⟨show (s.lots.set k (some l)).wf = true from Map.wf_set _ _ h.lots, h.resetting, h.queues⟩

/-- What the end of a context's vats and work leaves: the partitions, the reset, the phases of the context's lots, and the vats that have been
stopped, whatever faults of other contexts follow. -/
structure State.Rests (c : Nat) (s t : State) : Prop where
  reset : t.InReset c
  parts : t.parts = s.parts
  lotCtx : ∀ k, (t.lot k).ctx = (s.lot k).ctx
  lot : ∀ k, (s.lot k).ctx = c → (t.lot k).phase = (s.lot k).phase ∧ (t.lot k).status = (s.lot k).status
  vat : ∀ k, (s.vat k).stop.isSome = true → (t.vat k).stop.isSome = true

/-- A context that is being reset rests. -/
def State.Stops (c : Nat) (s t : State) : Prop := s.InReset c → s.Rests c t

section
variable {c : Nat}

theorem State.Stops.of_ctxs {s t : State} (hp : t.parts = s.parts) (hl : t.lots = s.lots) (hv : t.vats = s.vats)
    (hc : (t.ctx c).resetting = (s.ctx c).resetting ∧ ∀ i, ((s.ctx c).queues.get i).en = false → ((t.ctx c).queues.get i).en = false) :
    s.Stops c t := fun h =>
  { parts := hp
    reset := ⟨hl ▸ h.lots, hc.1.trans h.resetting, fun i => hc.2 i (h.queues i)⟩
    lotCtx := fun k => by unfold State.lot; rw [hl]
    lot := fun k _ => by unfold State.lot; rw [hl]; exact ⟨rfl, rfl⟩
    vat := fun k h => by unfold State.vat; rw [hv]; exact h }

theorem State.Stops.of_same {s t : State} (hp : t.parts = s.parts) (hc : t.ctxs = s.ctxs) (hl : t.lots = s.lots) (hv : t.vats = s.vats) :
    s.Stops c t :=
  .of_ctxs hp hl hv (by unfold State.ctx; rw [hc]; exact ⟨rfl, fun _ h => h⟩)

theorem State.Stops.refl (s : State) : s.Stops c s := .of_same rfl rfl rfl rfl

theorem State.Stops.trans {s t u : State} (hst : s.Stops c t) (htu : t.Stops c u) : s.Stops c u := fun hs =>
  have h := hst hs
  have g := htu h.reset
  { parts := g.parts.trans h.parts
    reset := g.reset
    lotCtx := fun k => (g.lotCtx k).trans (h.lotCtx k)
    lot := fun k hk =>
      have hg := g.lot k ((h.lotCtx k).trans hk)
      ⟨hg.1.trans (h.lot k hk).1, hg.2.trans (h.lot k hk).2⟩
    vat := fun k => g.vat k ∘ h.vat k }

theorem State.Stops.foldl {α : Type} {f : State → α → State} (hf : ∀ (s : State) x, s.Stops c (f s x)) (xs : List α) (s : State) :
    s.Stops c (xs.foldl f s) := by
  induction xs generalizing s with
  | nil => exact .refl s
  | cons x xs ih => exact (hf s x).trans (ih _)

theorem State.Acts.stops {s t : State} (h : s.Acts t) : s.Stops c t := by
  refine .of_ctxs h.parts h.lots h.vats ?_
  obtain ⟨m, hm⟩ := h.ctx c
  rw [hm]
  exact ⟨rfl, fun _ h => h⟩

theorem State.Acts.vat {s t : State} (h : s.Acts t) (k : Nat) : t.vat k = s.vat k := by unfold State.vat; rw [h.vats]

/-! One part of the state. -/

theorem State.modCtx_stops (s : State) (k : Nat) {f : Context → Context} (hr : (f (s.ctx k)).resetting = (s.ctx k).resetting)
    (hq : (f (s.ctx k)).queues = (s.ctx k).queues) : s.Stops c (s.modCtx k f) := by
  refine .of_ctxs rfl rfl rfl ?_
  rw [State.ctx_modCtx]
  split
  · next e =>
    subst e
    exact ⟨hr, fun i h => by rw [hq]; exact h⟩
  · exact ⟨rfl, fun _ h => h⟩

theorem State.setFqwi_stops (s : State) (ctx : Nat) (n : BitVec 16) : s.Stops c (s.modCtx ctx (fun c => { c with fqwi := n })) :=
  s.modCtx_stops ctx rfl rfl
theorem State.setTerminal_stops (s : State) (ctx : Nat) (fr : Option FaultRecord) :
    s.Stops c (s.modCtx ctx (fun c => { c with terminal := fr })) := s.modCtx_stops ctx rfl rfl
theorem State.setSaveUsed_stops (s : State) (ctx : Nat) (used : Context → List (Nat × Nat)) :
    s.Stops c (s.modCtx ctx (fun c => { c with saveUsed := used c })) := s.modCtx_stops ctx rfl rfl
theorem State.setWaiting_stops (s : State) (ctx : Nat) (frs : Context → List FaultRecord) :
    s.Stops c (s.modCtx ctx (fun c => { c with waiting := frs c })) := s.modCtx_stops ctx rfl rfl
theorem State.setServices_stops (s : State) (ctx : Nat) (xs : Context → List Service) :
    s.Stops c (s.modCtx ctx (fun c => { c with services := xs c })) := s.modCtx_stops ctx rfl rfl

theorem State.modCtx_stops_ne (s : State) {k : Nat} (hk : k ≠ c) (f : Context → Context) : s.Stops c (s.modCtx k f) := by
  refine .of_ctxs rfl rfl rfl ?_
  rw [State.ctx_modCtx, if_neg (Ne.symm hk)]
  exact ⟨rfl, fun _ h => h⟩

theorem State.failQueue_stops (s : State) (ctx q : Nat) : s.Stops c (s.modQueue ctx q Queue.fail) := by
  refine .of_ctxs rfl rfl rfl ?_
  unfold State.modQueue
  rw [State.ctx_modCtx]
  split
  · next e =>
    subst e
    refine ⟨rfl, fun i h => ?_⟩
    dsimp only
    rw [Map.get_modify]
    split
    · rfl
    · exact h
  · exact ⟨rfl, fun _ h => h⟩

theorem State.setVat_stops (s : State) (k : Nat) {v : Vat} (h : (s.vat k).stop.isSome = true → v.stop.isSome = true) :
    s.Stops c (s.setVat k v) := fun hs =>
  { parts := rfl
    reset := ⟨hs.lots, hs.resetting, hs.queues⟩
    lotCtx := fun _ => rfl
    lot := fun _ _ => ⟨rfl, rfl⟩
    vat := fun j hj => by
      rw [State.vat_setVat]
      split
      · next e => exact h (e ▸ hj)
      · exact hj }

theorem State.modWarp_stops (s : State) (k : Nat) (f : Warp → Warp) : s.Stops c (s.modWarp k f) := .of_same rfl rfl rfl rfl

theorem State.modLot_stops (s : State) (k : Nat) {f : Lot → Lot} (hc : (f (s.lot k)).ctx = (s.lot k).ctx)
    (hf : (s.lot k).ctx = c → (f (s.lot k)).phase = (s.lot k).phase ∧ (f (s.lot k)).status = (s.lot k).status) :
    s.Stops c (s.modLot k f) := fun hs =>
  { parts := rfl
    reset := hs.setLot k _
    lotCtx := fun j => by
      rw [State.lot_modLot]
      split
      · next e => rw [e, hc]
      · rfl
    lot := fun j hj => by
      rw [State.lot_modLot]
      split
      · next e => exact e ▸ hf (e ▸ hj)
      · exact ⟨rfl, rfl⟩
    vat := fun _ h => h }

theorem State.noteFirst_stops (s : State) (lot : Nat) (fr : FaultRecord) : s.Stops c (s.noteFirst lot fr) := by
  unfold State.noteFirst
  refine s.modLot_stops lot ?_ (fun _ => ?_)
  · split
    · rfl
    · split <;> rfl
  · split
    · exact ⟨rfl, rfl⟩
    · split <;> exact ⟨rfl, rfl⟩

/-! ### The vats -/

theorem State.freeImage_stops (s : State) (vk : Nat) : s.Stops c (s.freeImage vk) := by
  unfold State.freeImage
  dsimp only
  split
  · exact (s.setSaveUsed_stops _ _).trans (State.setVat_stops _ vk (v := { s.vat vk with image := none }) id)
  · exact .refl s

theorem State.vatGone_stops (s : State) (vk : Nat) : s.Stops c (s.modVat vk (fun v => { v with place := .gone })) :=
  s.setVat_stops vk (v := { s.vat vk with place := .gone }) id

theorem State.endVat_stops (s : State) (vk : Nat) : s.Stops c (s.endVat vk) := by
  unfold State.endVat
  exact (((s.modLot_stops _ rfl (fun _ => ⟨rfl, rfl⟩)).trans (State.freeImage_stops _ vk)).trans (State.vatGone_stops _ vk)).trans
    (.foldl (fun u k => u.modWarp_stops k _) _ _)

/-- The stop of a vat is that mark of it, and then no more than ends it. -/
theorem State.stopVat_after (s : State) (vk : Nat) (discard : Bool) :
    (s.setVat vk { s.vat vk with stop := some ((s.vat vk).stop.getD s.gtime), discard := (s.vat vk).discard || discard }).Stops c
      (s.stopVat vk discard) := by
  unfold State.stopVat
  refine State.Stops.trans ?_ (.foldl (fun u k => u.modWarp_stops k _) _ _)
  split
  · exact State.endVat_stops _ vk
  · exact .refl _

theorem State.stopVat_stops (s : State) (vk : Nat) (discard : Bool) : s.Stops c (s.stopVat vk discard) :=
  (s.setVat_stops vk (v := { s.vat vk with stop := some ((s.vat vk).stop.getD s.gtime), discard := (s.vat vk).discard || discard })
    (fun _ => rfl)).trans (s.stopVat_after vk discard)

/-- Vats that are stopped are marked so. -/
theorem State.stopVats_stop (vs : List Nat) (discard : Bool) {s : State} (hs : s.InReset c) :
    s.Rests c (vs.foldl (fun s v => s.stopVat v discard) s) ∧
      ∀ k ∈ vs, ((vs.foldl (fun s v => s.stopVat v discard) s).vat k).stop.isSome = true := by
  induction vs generalizing s with
  | nil => exact ⟨State.Stops.refl s hs, fun _ h => nomatch h⟩
  | cons v vs ih =>
    have h := s.stopVat_stops v discard hs
    obtain ⟨h1, h2⟩ := ih h.reset
    refine ⟨((s.stopVat_stops v discard).trans (fun _ => h1)) hs, fun k hk => ?_⟩
    rcases List.mem_cons.1 hk with rfl | hk
    · refine h1.vat k ((s.stopVat_after (c := c) k discard ⟨hs.lots, hs.resetting, hs.queues⟩).vat k ?_)
      rw [State.vat_setVat, if_pos rfl]
      rfl
    · exact h2 k hk

/-! ### A fault of another context -/

theorem State.failEach_stops (fr : FaultRecord) {ks : List Nat} {s : State} (h : ∀ k ∈ ks, (s.lot k).ctx ≠ c) :
    s.Stops c (ks.foldl (fun s l => (s.noteFirst l fr).modLot l (fun l => { l with
      phase := .running, status := if l.status == 0 || l.status == 2 then 1 else l.status,
      first := l.first.map (fun f => { f with rung := fr.rung }) })) s) := by
  induction ks generalizing s with
  | nil => exact .refl s
  | cons k ks ih =>
    intro hs
    have hn := s.noteFirst_stops (c := c) k fr
    have hk : ((s.noteFirst k fr).lot k).ctx ≠ c := by
      rw [(hn hs).lotCtx]
      exact h k List.mem_cons_self
    have hm := hn.trans ((s.noteFirst k fr).modLot_stops k (f := fun l => { l with
      phase := .running, status := if l.status == 0 || l.status == 2 then 1 else l.status,
      first := l.first.map (fun f => { f with rung := fr.rung }) }) rfl (fun e => absurd e hk))
    refine hm.trans (ih (fun j hj => ?_)) hs
    rw [(hm hs).lotCtx]
    exact h j (List.mem_cons_of_mem _ hj)

/-- The lots of another context are failed. -/
theorem State.failLots_stops (s : State) {ctx : Nat} (fr : FaultRecord) (p : LotPhase → Bool) (hc : ctx ≠ c) :
    s.Stops c (s.failLots ctx fr p) := fun hs =>
  State.failEach_stops fr (fun _ hk => ((State.mem_lotsOf hs.lots).1 hk).2.1 ▸ hc) hs

theorem State.terminate_stops (s : State) {ctx : Nat} (fr : FaultRecord) (hc : ctx ≠ c) : s.Stops c (s.terminate ctx fr) :=
  ((s.modCtx_stops_ne hc _).trans (State.failLots_stops _ fr _ hc)).trans (.foldl (fun u v => u.stopVat_stops v false) _ _)

theorem State.writeRecord_stops (s : State) (ctx : Nat) (fr : FaultRecord) : s.Stops c (s.writeRecord ctx fr).1 := by
  unfold State.writeRecord
  simp only
  split
  · exact (s.agentWrite_acts _ _ _ _ _).stops
  · split
    · exact ((s.agentWrite_acts _ _ _ _ _).trans (State.agentWrite_acts _ _ _ _ _ _)).stops
    · exact ((s.agentWrite_acts _ _ _ _ _).trans (State.agentWrite_acts _ _ _ _ _ _)).stops.trans (State.setFqwi_stops _ _ _)

theorem State.queueRecord_stops (s : State) (ctx : Nat) (fr : FaultRecord) : s.Stops c (s.queueRecord ctx fr).1 := by
  have h1 := s.saveNat_acts ctx 0x10 2
  have h2 := h1.trans (State.saveNat_acts _ ctx 8 4)
  have h3 := h2.trans (State.saveHeader_acts _ ctx)
  have h4 := (h3.stops (c := c)).trans (State.writeRecord_stops _ ctx fr)
  unfold State.queueRecord
  dsimp only
  split
  · exact h1.stops
  · exact h2.stops
  · split
    · exact h3.stops
    · split
      · exact h4
      · exact h4.trans (State.signalBehind_acts _ _ _ _).stops

theorem State.queueTerminal_stops (s : State) (ctx : Nat) (fr : FaultRecord) : s.Stops c (s.queueTerminal ctx fr) :=
  (s.queueRecord_stops ctx fr).trans (State.setTerminal_stops _ _ _)

theorem State.fqRead_stops (s : State) (ctx : Nat) : s.Stops c (s.fqRead ctx) := (s.saveNat_acts _ _ _).stops

theorem State.recordCode2_stops (s : State) (ctx : Nat) (dies : BitVec 4) : s.Stops c (s.recordCode2 ctx dies) := by
  unfold State.recordCode2
  split
  · exact s.setWaiting_stops ctx _
  · split
    · exact .refl s
    · exact (s.setTerminal_stops _ _).trans (State.agentWrite_acts _ _ _ _ _ _).stops

/-- A context that is being reset takes no fault (R72). -/
theorem State.faultContext_of_resetting {s : State} {ctx : Nat} (fr : FaultRecord) (h : (s.ctx ctx).resetting = true) :
    s.faultContext ctx fr = s := if_pos h

theorem State.faultContext_stops (s : State) (ctx : Nat) (fr : FaultRecord) : s.Stops c (s.faultContext ctx fr) := by
  intro hs
  by_cases hc : ctx = c
  · rw [State.faultContext_of_resetting fr (hc ▸ hs.resetting)]
    exact State.Stops.refl s hs
  revert hs
  show s.Stops c _
  unfold State.faultContext
  split
  · exact .refl s
  · split
    · split
      · exact (s.recordCode2_stops ctx fr.dies).trans (State.failLots_stops _ _ _ hc)
      · exact .refl s
    · split
      · exact (s.terminate_stops fr hc).trans (State.queueTerminal_stops _ _ _)
      · dsimp only
        refine State.Stops.trans ?_ (State.setWaiting_stops _ ctx (fun c => if fr.rung == 3 then [fr] else c.waiting ++ [fr]))
        split
        · exact (s.fqRead_stops ctx).trans (State.terminate_stops _ _ hc)
        · exact s.fqRead_stops ctx

theorem State.allotImage_stops {s u : State} {vk : Nat} (h : s.allotImage vk = some u) : s.Stops c u := by
  unfold State.allotImage at h
  dsimp only at h
  split at h
  · cases h
    exact .refl s
  · split at h
    · cases h
    · obtain ⟨off, -, rfl⟩ := Option.map_eq_some_iff.1 h
      have hr := s.saveNat_acts (s.lot (s.vat vk).lot).ctx 0 8
      refine (hr.stops.trans (State.setSaveUsed_stops _ _ _)).trans (State.setVat_stops _ vk (fun hv => ?_))
      exact hr.vat vk ▸ hv

theorem State.requestWhole_stops {s u : State} {vk : Nat} {reason : BitVec 2} (h : s.requestWhole vk reason = some u) : s.Stops c u := by
  obtain ⟨t, ht, rfl⟩ := Option.map_eq_some_iff.1 h
  exact ((State.allotImage_stops ht).trans (t.setVat_stops vk (v := { t.vat vk with imageWhole := true, imageReason := reason }) id)).trans
    (.foldl (fun u k => u.modWarp_stops k _) _ _)

theorem State.sizeMiss_stops (s : State) (vk : Nat) : s.Stops c (s.sizeMiss vk).1 := by
  unfold State.sizeMiss
  dsimp only
  have hs := (s.saveNat_acts (s.lot (s.vat vk).lot).ctx 0 8).stops (c := c)
  split
  · exact hs
  · split
    · exact .refl s
    · exact hs
  · exact hs

end

section
variable {c : Nat}

theorem State.queueService_stops (s : State) (k : Nat) (fr : FaultRecord) : s.Stops c (s.queueService k fr) := by
  unfold State.queueService
  extract_lets ctx vk seq u size v r
  split
  · have ho : s.Stops c u := s.modWarp_stops _ _
    have hsize : u.Stops c size.1 := by
      simp only [size]
      split
      · exact u.sizeMiss_stops vk
      · exact .refl u
    have hv : u.Stops c v := by
      simp only [v]
      split
      · next t e =>
        split at e
        · exact (State.requestWhole_stops e).trans (State.modWarp_stops _ _ _)
        · cases e
      · exact hsize.trans (State.modWarp_stops _ _ _)
    have hr : u.Stops c r.1 := hv.trans (v.queueRecord_stops ctx fr)
    refine ho.trans ?_
    split
    · exact hsize.trans (State.faultContext_stops _ _ _)
    · exact hr.trans (State.faultContext_stops _ _ _)
    · exact hr.trans (State.setServices_stops _ ctx _)
  · exact s.fqRead_stops _

theorem State.faultWarp_stops (s : State) (k : Nat) (fr : FaultRecord) (resume : Resume) : s.Stops c (s.faultWarp k fr resume) := by
  have h := s.faultContext_stops (c := c) (s.ctxOf k) fr
  unfold State.faultWarp
  dsimp only
  split
  · split
    · exact h
    · exact h.trans (State.modWarp_stops _ _ _)
  · exact h.trans (State.modWarp_stops _ _ _)

theorem State.offerContext_stops (s : State) (k : Nat) (fr : FaultRecord) (resume : Resume) : s.Stops c (s.offerContext k fr resume) := by
  have h := s.noteFirst_stops (c := c) (s.vat (s.warp k).vat).lot { fr with rung := 2 }
  unfold State.offerContext
  dsimp only
  split
  · exact h
  · split
    · exact (h.trans (State.modWarp_stops _ _ _)).trans (State.queueService_stops _ _ _)
    · exact h.trans (State.faultWarp_stops _ _ _ _)

theorem State.defer_stops (s : State) (k : Nat) (fr : FaultRecord) (resume : Resume) (rung : Nat) : s.Stops c (s.defer k fr resume rung) :=
  (s.setVat_stops (s.warp k).vat (v := { s.vat (s.warp k).vat with
    deferred := (s.vat (s.warp k).vat).deferred ++ [{ warp := k, record := fr, resume := resume, rung := rung }] }) id).trans
    (State.modWarp_stops _ _ _)

theorem State.trapVat_stops (s : State) (vk j : Nat) : s.Stops c (s.modVat vk (fun v => { v with trapWarp := some j })) :=
  s.setVat_stops vk (v := { s.vat vk with trapWarp := some j }) id

theorem State.Stops.ite {s t u : State} {p : Prop} [Decidable p] (ht : s.Stops c t) (hu : s.Stops c u) : s.Stops c (if p then t else u) := by
  split
  · exact ht
  · exact hu

theorem State.offerVat_stops (s : State) (k : Nat) (fr : FaultRecord) (resume : Resume) : s.Stops c (s.offerVat k fr resume) := by
  have h := s.noteFirst_stops (c := c) (s.vat (s.warp k).vat).lot { fr with rung := 1 }
  unfold State.offerVat
  dsimp only
  split
  · exact h.trans (State.offerContext_stops _ _ _ _)
  · split
    · split
      · exact h.trans (State.offerContext_stops _ _ _ _)
      · exact h.trans (State.defer_stops _ _ _ _ _)
    · split
      · exact h.trans (State.offerContext_stops _ _ _ _)
      · exact .ite (h.trans (State.modWarp_stops _ _ _)) ((h.trans (State.trapVat_stops _ _ _)).trans (State.modWarp_stops _ _ _))

theorem State.asyncFault_stops (s : State) (k : Nat) (r : Raise) (claim : Nat) : s.Stops c (s.asyncFault k r claim) := by
  unfold State.asyncFault
  dsimp only
  split
  · exact .refl s
  · split
    · exact s.offerVat_stops _ _ _
    · exact s.modWarp_stops _ _

/-! ### The work of a context -/

theorem State.report_stops (s : State) (k : Nat) (cls : OpClass) : s.Stops c (s.report k cls) := by
  refine .foldl (fun u n => ?_) _ s
  split
  · split <;> exact .of_same rfl rfl rfl rfl
  · exact .refl u

theorem State.finish_stops (s : State) (n : Nat) (f : Op → Op) : s.Stops c (s.finish n f) := by
  unfold State.finish
  split
  · exact .refl s
  · exact State.Stops.trans (t := s.setOp n _) (.of_same rfl rfl rfl rfl) (State.report_stops _ _ _)

theorem State.modDie_stops (s : State) (d : Nat) (f : Die → Die) : s.Stops c (s.modDie d f) := .of_same rfl rfl rfl rfl

theorem State.releaseTask_stops (s : State) (die n : Nat) : s.Stops c (s.releaseTask die n) := s.modDie_stops die _

theorem State.dropTask_stops (s : State) (die n : Nat) : s.Stops c (s.dropTask die n) := by
  unfold State.dropTask
  exact (s.modDie_stops die _).trans (.foldl (fun u k => u.releaseTask_stops die k) _ _)

theorem State.fillBins_stops (s : State) (die : Nat) : s.Stops c (s.fillBins die) := s.modDie_stops die _

theorem State.discardTasks_stops (s : State) (lot die : Nat) : s.Stops c (s.discardTasks lot die) := by
  unfold State.discardTasks
  refine ((s.modDie_stops die _).trans (.foldl (fun u e => ?_) _ _)).trans (State.fillBins_stops _ die)
  split
  · exact .refl u
  · exact u.dropTask_stops die e.1

theorem State.discardWork_stops (s : State) (ctx : Nat) : s.Stops c (s.discardWork ctx) := by
  unfold State.discardWork
  dsimp only
  refine State.Stops.trans (.foldl (fun u e => ?_) _ s) (.of_same rfl rfl rfl rfl)
  split
  · exact u.finish_stops _ _
  · exact u.finish_stops _ _
  · exact u.finish_stops _ _
  · split
    · exact .refl u
    · exact u.finish_stops _ _
  · exact .refl u

theorem State.modEng_stops (s : State) (eng : Nat) (f : LakeEngine → LakeEngine) : s.Stops c (s.modEng eng f) := .of_same rfl rfl rfl rfl

theorem State.finishLake_stops (s : State) (n : Nat) (f : Op → Op) : s.Stops c (s.finishLake n f) := by
  unfold State.finishLake
  split
  · exact .refl s
  · next o ho =>
    dsimp only
    refine State.Stops.trans (State.Stops.trans (t := s.setOp n { f o with complete := true, performed := true }) (.of_same rfl rfl rfl rfl)
      (State.report_stops _ _ _)) (.foldl (fun u e => ?_) _ _)
    split
    · exact .refl u
    · exact u.asyncFault_stops _ _ _

theorem State.lakeDiscard_stops (s : State) (eng ctx : Nat) : s.Stops c (s.lakeDiscard eng ctx) := by
  unfold State.lakeDiscard
  dsimp only
  refine State.Stops.trans ?_ (.foldl (fun u x => u.finishLake_stops _ _) _ _)
  refine State.Stops.trans ?_ (State.modEng_stops _ _ _)
  split
  · split
    · exact s.modEng_stops _ _
    · exact .refl s
  · exact .refl s
end

section
variable {c : Nat}

/-! ### The lots that a reset completes -/

/-- A context that is being reset takes no fault from its launch processors. -/
theorem State.launchXlat_acts {s : State} (va : BitVec 64) (acc : Access) (n : Nat) (h : (s.ctx c).resetting = true) :
    s.Acts (s.launchXlat c va acc n).1 := by
  have hw := (s.noteWalk_walks hubPlace c { s.translate hubPlace c va acc n with home := 0 }).acts
  unfold State.launchXlat
  dsimp only
  split
  · split
    · rw [State.faultContext_of_resetting]
      · exact hw
      · obtain ⟨m, hm⟩ := hw.ctx c
        rw [hm]
        exact h
    · exact hw
  · exact hw

theorem State.launchWrite_acts {s : State} (va : BitVec 64) (parts : List (Nat × List Byte)) (n : Nat) (h : (s.ctx c).resetting = true) :
    s.Acts (s.launchWrite c va parts n).1 := by
  have hx := State.launchXlat_acts va .write n h
  have sent (ps : List Posted) : s.Acts { (s.launchXlat c va .write n).1 with posted := ps } :=
    hx.trans (.of_ctxs rfl rfl rfl rfl rfl rfl)
  unfold State.launchWrite
  dsimp only
  split
  · split
    · exact sent _
    · exact hx.trans (State.performEach_acts _ _)
  · exact sent _
  · exact hx

/-- Beside the context's queues, no vat has changed. -/
def State.Quiet (c : Nat) (s t : State) : Prop := s.Stops c t ∧ t.vats = s.vats

theorem State.Quiet.trans {s t u : State} (h : s.Quiet c t) (g : t.Quiet c u) : s.Quiet c u := ⟨h.1.trans g.1, g.2.trans h.2⟩

theorem State.Acts.quiet {s t : State} (h : s.Acts t) : s.Quiet c t := ⟨h.stops, h.vats⟩

theorem State.failQueue_quiet (s : State) (ctx q : Nat) : s.Quiet c (s.modQueue ctx q Queue.fail) := ⟨s.failQueue_stops ctx q, rfl⟩

/-- A lot completes, and no more. -/
theorem State.completeLot_quiet {s : State} {k : Nat} (hr : (s.ctx c).resetting = true) (hk : (s.lot k).ctx = c) :
    (s.setLot k { s.lot k with phase := .complete }).Quiet c (s.completeLot k) := by
  unfold State.completeLot
  extract_lets l part u bs x irq y
  have hx : u.Acts x.1 := by
    show u.Acts (u.launchWrite (s.lot k).ctx _ _ _).1
    rw [hk]
    exact State.launchWrite_acts _ _ _ hr
  have hy : u.Acts y.1 := by
    refine hx.trans ?_
    show x.1.Acts (x.1.launchWrite (s.lot k).ctx _ _ _).1
    rw [hk]
    refine State.launchWrite_acts _ _ _ ?_
    obtain ⟨m, hm⟩ := hx.ctx c
    rw [hm]
    exact hr
  have hirq (v : State) : v.Acts (irq v) := by
    simp only [irq]
    split
    · exact v.signalBehind_acts _ _ _
    · exact .refl v
  split
  · exact hx.quiet.trans (State.failQueue_quiet _ _ _)
  · split
    · exact (hx.trans (hirq _)).quiet
    · split
      · exact hx.quiet.trans (State.failQueue_quiet _ _ _)
      · split
        · exact (hy.trans (hirq _)).quiet
        · exact hy.quiet.trans (State.failQueue_quiet _ _ _)

/-- What completing some of a context's lots leaves. -/
structure State.Completes (c : Nat) (ks : List Nat) (s t : State) : Prop where
  reset : t.InReset c
  parts : t.parts = s.parts
  vats : t.vats = s.vats
  lotCtx : ∀ k, (t.lot k).ctx = (s.lot k).ctx
  lot : ∀ k, (s.lot k).ctx = c → (t.lot k).status = (s.lot k).status ∧ (t.lot k).phase = if k ∈ ks then .complete else (s.lot k).phase

theorem State.completeLot_completes {s : State} {k : Nat} (hs : s.InReset c) (hk : (s.lot k).ctx = c) :
    s.Completes c [k] (s.completeLot k) := by
  have hq := State.completeLot_quiet hs.resetting hk
  have h := hq.1 (hs.setLot k _)
  have hl (j : Nat) := s.lot_setLot j k { s.lot k with phase := .complete }
  have hctx (j : Nat) : ((s.setLot k { s.lot k with phase := .complete }).lot j).ctx = (s.lot j).ctx := by
    rw [hl]
    split
    · next e => rw [e]
    · rfl
  refine ⟨h.reset, h.parts, hq.2, fun j => (h.lotCtx j).trans (hctx j), fun j hj => ?_⟩
  obtain ⟨h1, h2⟩ := h.lot j ((hctx j).trans hj)
  rw [h1, h2, hl]
  by_cases e : j = k
  · simp [e]
  · simp [e]

theorem State.completeLots_completes {ks : List Nat} {s : State} (hs : s.InReset c) (hk : ∀ k ∈ ks, (s.lot k).ctx = c) :
    s.Completes c ks (ks.foldl (fun s l => s.completeLot l) s) := by
  induction ks generalizing s with
  | nil => exact ⟨hs, rfl, rfl, fun _ => rfl, fun _ _ => ⟨rfl, rfl⟩⟩
  | cons k ks ih =>
    have h := State.completeLot_completes hs (hk k List.mem_cons_self)
    have g := ih h.reset (fun j hj => (h.lotCtx j).trans (hk j (List.mem_cons_of_mem _ hj)))
    refine ⟨g.reset, g.parts.trans h.parts, g.vats.trans h.vats, fun j => (g.lotCtx j).trans (h.lotCtx j), fun j hj => ?_⟩
    obtain ⟨h1, h2⟩ := h.lot j hj
    obtain ⟨g1, g2⟩ := g.lot j ((h.lotCtx j).trans hj)
    refine ⟨g1.trans h1, ?_⟩
    show ((ks.foldl (fun s l => s.completeLot l) (s.completeLot k)).lot j).phase = _
    rw [g2, h2]
    by_cases e : j = k
    · simp [e]
    · simp [e]

/-- Lots of a context that is reset are CANCELLED (R72). -/
theorem State.cancelLots {ks : List Nat} {s : State} (hs : s.InReset c) :
    let t := ks.foldl (fun s l => s.modLot l (fun l => { l with status := 5 })) s
    t.InReset c ∧ t.parts = s.parts ∧ t.vats = s.vats ∧
      ∀ k, (t.lot k).ctx = (s.lot k).ctx ∧ (t.lot k).phase = (s.lot k).phase ∧ (t.lot k).status = if k ∈ ks then 5 else (s.lot k).status := by
  induction ks generalizing s with
  | nil => exact ⟨hs, rfl, rfl, fun _ => ⟨rfl, rfl, rfl⟩⟩
  | cons k ks ih =>
    obtain ⟨h1, h2, h3, h4⟩ := ih (s := s.modLot k (fun l => { l with status := 5 })) (hs.setLot k _)
    refine ⟨h1, h2, h3, fun j => ?_⟩
    obtain ⟨e1, e2, e3⟩ := h4 j
    rw [State.lot_modLot] at e1 e2 e3
    refine ⟨e1.trans ?_, e2.trans ?_, e3.trans ?_⟩
    all_goals by_cases e : j = k <;> simp [e]

theorem State.mem_vatsOf {s : State} {ctx k : Nat} {v : Vat} (h : s.vats.get k = some v)
    (hc : (s.lot v.lot).ctx = ctx) (hp : v.place ≠ .gone) : k ∈ s.vatsOf ctx :=
  List.mem_filterMap.2 ⟨(k, some v), Map.mem_of_get_eq_some h, if_pos ⟨hc, hp⟩⟩

/-- The queues stopped by CTXRESET. -/
theorem State.inReset_begin {s : State} (hl : s.lots.wf = true) :
    (s.modCtx c (fun c => { c with resetting := true, services := [], queues := c.queues.mapVals (fun _ q => { q with en := false }) })).InReset c := by
  refine ⟨hl, ?_, fun i => ?_⟩
  · rw [State.ctx_modCtx, if_pos rfl]
  · rw [State.ctx_modCtx, if_pos rfl]
    dsimp only
    by_cases h : ((s.ctx c).queues.mapVals (fun _ q => { q with en := false })).get i = default
    · rw [h]
      rfl
    · obtain ⟨x, -, e⟩ := Map.of_mem_mapVals (Map.mem_of_get h)
      rw [(Prod.mk.inj e).2]

theorem State.discardLot_stops (l : Nat) (ds : List Nat) (s : State) : s.Stops c (ds.foldl (fun s d => s.discardTasks l d) s) :=
  .foldl (fun u d => u.discardTasks_stops l d) ds s

theorem State.discardLots_stops (ks : List Nat) (s : State) :
    s.Stops c (ks.foldl (fun s l => [0, 1, 2, 3].foldl (fun s d => s.discardTasks l d) s) s) :=
  .foldl (fun u l => State.discardLot_stops l _ u) ks s

theorem State.lakeDiscards_stops (ctx : Nat) (es : List (Nat × LakeEngine)) (s : State) :
    s.Stops c (es.foldl (fun s e => s.lakeDiscard e.1 ctx) s) := by
  induction es generalizing s with
  | nil => exact .refl s
  | cons e es ih => exact (s.lakeDiscard_stops e.1 ctx).trans (ih _)

/-- CTXRESET begins (R72). -/
theorem State.resetContext_begins {s : State} (hl : s.lots.wf = true) :
    let t := s.resetContext c
    t.InReset c ∧ t.parts = s.parts ∧
      (∀ k l, s.lots.get k = some l → l.ctx = c → (l.phase = .gated → (t.lot k).phase = .complete ∧ (t.lot k).status = 5) ∧
        (l.phase = .running → (t.lot k).phase = .running ∧ (t.lot k).status = 5)) ∧
      ∀ k v, s.vats.get k = some v → (s.lot v.lot).ctx = c → v.place ≠ .gone → (t.vat k).stop.isSome = true := by
  have hbegin := State.inReset_begin (c := c) hl
  unfold State.resetContext
  revert hbegin
  extract_lets s1 gated running s2 s3 s4 s5 s6
  intro hbegin
  obtain ⟨hr2, hp2, hv2, hl2⟩ : s2.InReset c ∧ s2.parts = s.parts ∧ s2.vats = s.vats ∧ ∀ k, (s2.lot k).ctx = (s.lot k).ctx ∧
      (s2.lot k).phase = (s.lot k).phase ∧ (s2.lot k).status = if k ∈ gated ++ running then 5 else (s.lot k).status := State.cancelLots hbegin
  have hg (k : Nat) : k ∈ gated ↔ (s.lots.get k).isSome = true ∧ (s.lot k).ctx = c ∧ ((s.lot k).phase == .gated) = true :=
    State.mem_lotsOf hbegin.lots
  have hn (k : Nat) : k ∈ running ↔ (s.lots.get k).isSome = true ∧ (s.lot k).ctx = c ∧ ((s.lot k).phase == .running) = true :=
    State.mem_lotsOf hbegin.lots
  have h3 : s2.Completes c gated s3 := State.completeLots_completes hr2 (fun k hk => (hl2 k).1.trans ((hg k).1 hk).2.1)
  obtain ⟨h4, hstop⟩ := State.stopVats_stop (s3.vatsOf c) true h3.reset
  have hrest : s4.Stops c (s6.lake.foldl (fun s e => s.lakeDiscard e.1 c) s6) :=
    ((State.discardLots_stops running s4).trans (s5.discardWork_stops c)).trans (State.lakeDiscards_stops c s6.lake s6)
  have ht := hrest h4.reset
  refine ⟨ht.reset, ht.parts.trans (h4.parts.trans (h3.parts.trans hp2)), fun k l hk hc => ?_, fun k v hk hc hp => ?_⟩
  · have el : s.lot k = l := State.lot_of_get hk
    obtain ⟨hc2, hph2, hst2⟩ := hl2 k
    have hs2 : (s2.lot k).ctx = c := hc2.trans (el ▸ hc)
    obtain ⟨hst3, hph3⟩ := h3.lot k hs2
    have hs3 : (s3.lot k).ctx = c := (h3.lotCtx k).trans hs2
    obtain ⟨hph4, hst4⟩ := h4.lot k hs3
    obtain ⟨hph, hst⟩ := ht.lot k ((h4.lotCtx k).trans hs3)
    have hlisted : (s.lots.get k).isSome = true := by
      rw [hk]
      rfl
    rw [hph, hst, hph4, hst4, hph3, hst3, hph2, hst2]
    simp only [List.mem_append, hg, hn, hlisted, el, hc, beq_iff_eq]
    constructor
    · intro e
      simp [e]
    · intro e
      simp [e]
  · refine ht.vat k (hstop k (State.mem_vatsOf (v := v) ?_ ?_ hp))
    · rw [h3.vats, hv2]
      exact hk
    · rw [h3.lotCtx, (hl2 _).1]
      exact hc

end

/-! ### The end of TLBINV and of CTXRESET (R71, R72) -/

section
variable (s : State) (c : Nat)

theorem Context.cleared_ovf (x : Context) {n : Nat} (hn : n < 4) : x.cleared.ovf.get (2 * n) = x.ovf.get (2 * n + 1) := by
  have h : List.range 4 = [0, 1, 2, 3] := by decide
  simp only [Context.cleared, h, List.foldl_cons, List.foldl_nil, Map.get_set]
  interval_cases n <;> simp

/-- The tables and rings of a context are emptied. -/
def State.emptyTables : State := { s with dies := s.dies.mapVals (fun _ d => { d with tasks := d.tasks.keep (fun _ t => t.ctx != c) }) }

theorem State.emptyTables_tasks (n : Nat) : ∀ e ∈ ((s.emptyTables c).die n).tasks, e.2.ctx ≠ c := by
  intro e he
  have hm : (n, (s.emptyTables c).die n) ∈ (s.emptyTables c).dies := by
    refine Map.mem_of_get (m := (s.emptyTables c).dies) (k := n) (fun hd => ?_)
    rw [State.die, hd] at he
    cases he
  obtain ⟨x, -, hx⟩ := Map.of_mem_mapVals (m := s.dies) (f := fun _ d => { d with tasks := d.tasks.keep (fun _ t => t.ctx != c) }) hm
  have ht : ((s.emptyTables c).die n).tasks = x.2.tasks.keep (fun _ t => t.ctx != c) := congrArg (fun d => d.tasks) (Prod.mk.inj hx).2
  rw [ht] at he
  simpa using (List.mem_filter.1 he).2

/-- The pool of the rename map written with zeros. -/
def State.emptyPool : State := if (s.ctx c).poolTiles = 0 then s else (s.agentWrite c (s.ctx c).poolVa (zeros 4096) 170).1

theorem State.emptyPool_acts : s.Acts (s.emptyPool c) := by
  unfold State.emptyPool
  split
  · exact .refl s
  · exact s.agentWrite_acts _ _ _ _ _

theorem State.endReset_eq : s.endReset c = (((s.emptyPool c).emptyTables c).dropCached c 0 0).modCtx c Context.cleared := rfl

theorem State.endReset_parts : (s.endReset c).parts = s.parts := (s.emptyPool_acts c).parts

theorem State.endReset_tasks (n : Nat) : ∀ e ∈ ((s.endReset c).die n).tasks, e.2.ctx ≠ c := State.emptyTables_tasks _ c n

theorem State.endReset_forgotten : (s.endReset c).Forgotten c 0 0 :=
  (State.dropCached_forgotten ((s.emptyPool c).emptyTables c) c 0 0).of_writes rfl (fun e he => ⟨e, he, rfl⟩)

/-- The context, whichever dies it has touched. -/
theorem State.endReset_ctx : ∃ m, (s.endReset c).ctx c = Context.cleared { s.ctx c with tdmask := m } := by
  obtain ⟨m, hm⟩ := (s.emptyPool_acts c).ctx c
  refine ⟨m, ?_⟩
  rw [State.endReset_eq, State.ctx_modCtx, if_pos rfl, ← hm]
  rfl
end

theorem byte_beq (b : Byte) {n : Nat} (hn : n < 256) : (b == BitVec.ofNat 8 n) = decide (b.toNat = n) := by
  rw [Bool.eq_iff_iff, beq_iff_eq, decide_eq_true_iff, ← BitVec.toNat_inj, BitVec.toNat_ofNat, Nat.mod_eq_of_lt hn]

/-- The opcodes that name no command. -/
theorem badOpcode_iff (b : Byte) : (b == 0 || decide (4 < b)) = true ↔ b.toNat = 0 ∨ 4 < b.toNat := by
  have h0 : (b == 0) = decide (b.toNat = 0) := byte_beq b (by decide)
  rw [Bool.or_eq_true, decide_eq_true_iff, h0, decide_eq_true_iff, BitVec.lt_def]
  rfl

theorem State.driverDoorbell_next (s : State) (part : Nat) (wi : Word) : let p := s.part part; let d := p.dcdesc
    exec (.driverDoorbell part wi) s = .next (if s.hub.devst = .ready ∧ p.ldt ≠ [] then s.modPart part (fun p => { p with
      dcdesc := if 2 ^ (d.log2n.toNat + 4) < (wi - d.ri).toNat then { d with wi := wi, err := true, en := false } else { d with wi := wi } })
      else s) := by
  have hr : (s.ready && !(s.part part).ldt.isEmpty) = true ↔ s.hub.devst = .ready ∧ (s.part part).ldt ≠ [] := by
    simp [State.ready]
  show execDriverDoorbell part wi s = _
  unfold execDriverDoorbell
  simp only [hr]
  split
  · rfl
  · rfl

theorem State.ctxIn_iff {s : State} {part c : Nat} : s.ctxIn part c = true ↔ (s.ctxs.get c).isSome = true ∧ (s.ctx c).part = part := by
  simp [State.ctxIn]

section
variable {s : State} {part : Nat}

/-- A command that has left the rings alone, and ends. -/
theorem State.done_endCommand {t : State} {pa : Nat} {st : Word} (h : t.parts = (s.nextCommand part).parts) :
    ((t.endCommand part pa st).part part).command = none ∧ s.HeadTaken part (t.endCommand part pa st) := by
  have e : t.part part = (s.nextCommand part).part part := by unfold State.part; rw [h]
  rw [State.HeadTaken, State.part_endCommand, e, State.part_nextCommand]
  exact ⟨rfl, rfl⟩

/-- A command that has left the rings alone, and waits for its end. -/
theorem State.waits_modPart {t : State} {cmd : DriverCommand} (h : t.parts = (s.nextCommand part).parts) :
    s.HeadTaken part (t.modPart part (fun p => { p with command := some cmd })) ∧
      ((t.modPart part (fun p => { p with command := some cmd })).part part).command = some cmd := by
  have e : t.part part = (s.nextCommand part).part part := by unfold State.part; rw [h]
  rw [State.HeadTaken, State.part_modPart, if_pos rfl, e, State.part_nextCommand]
  exact ⟨rfl, rfl⟩

/-! ### The commands, with the status each ends with (R71) -/

section
variable (hd : s.CommandDue part)
include hd

theorem State.badOpcode_ends (hop : (s.headOp part).toNat = 0 ∨ 4 < (s.headOp part).toNat) : s.EndsWith part (.driverBadOpcode part) 1 :=
  State.driverCommand_ends (is := fun op => op == 0 || 4 < op) (eff := fun s _ _ => (s, some 1)) hd ((badOpcode_iff _).2 hop) rfl

theorem State.ctxnew_ends {st : Word} (hop : (s.headOp part == 1) = true)
    (h : 512 ≤ s.headCtx part ∧ st = 2 ∨ s.headCtx part < 512 ∧ (s.ctxs.get (s.headCtx part)).isSome = true ∧ st = 3) :
    s.EndsWith part (.ctxnew part) st := by
  show execCtxnew part s = _
  unfold execCtxnew
  refine State.driverCommand_ends hd hop ?_
  rcases h with ⟨hc, rfl⟩ | ⟨hc, hx, rfl⟩
  · exact if_pos hc
  · exact (if_neg (Nat.not_le.2 hc)).trans (if_pos hx)

theorem State.ctxreset_ends {st : Word} (hop : (s.headOp part == 2) = true)
    (h : 512 ≤ s.headCtx part ∧ st = 2 ∨ s.headCtx part < 512 ∧ s.ctxIn part (s.headCtx part) = false ∧ st = 3) :
    s.EndsWith part (.ctxreset part) st := by
  show execCtxreset part s = _
  unfold execCtxreset
  refine State.driverCommand_ends hd hop ?_
  rcases h with ⟨hc, rfl⟩ | ⟨hc, hx, rfl⟩
  · exact if_pos hc
  · exact (if_neg (Nat.not_le.2 hc)).trans (if_pos (show (!s.ctxIn part (s.headCtx part)) = true by rw [hx]; rfl))

theorem State.tlbinv_ends {st : Word} (hop : (s.headOp part == 3) = true)
    (h : 512 ≤ s.headCtx part ∧ st = 2 ∨ s.headCtx part < 512 ∧ s.ctxIn part (s.headCtx part) = false ∧ st = 3) :
    s.EndsWith part (.tlbinv part) st := by
  show execTlbinv part s = _
  unfold execTlbinv
  refine State.driverCommand_ends hd hop ?_
  rcases h with ⟨hc, rfl⟩ | ⟨hc, hx, rfl⟩
  · exact if_pos hc
  · exact (if_neg (Nat.not_le.2 hc)).trans (if_pos (show (!s.ctxIn part (s.headCtx part)) = true by rw [hx]; rfl))

end

/-- What keeps a context from being freed. -/
def State.ctxBusy (s : State) (part c : Nat) : Bool :=
  !s.ctxIn part c || (s.ctx c).queues.any (fun q => q.2.en) || !(s.lotsOf c (· != .complete)).isEmpty

theorem State.ctxfree_ends (hd : s.CommandDue part) {st : Word} (hop : (s.headOp part == 4) = true)
    (h : 512 ≤ s.headCtx part ∧ st = 2 ∨ s.headCtx part < 512 ∧ s.ctxBusy part (s.headCtx part) = true ∧ st = 3) :
    s.EndsWith part (.ctxfree part) st := by
  show execCtxfree part s = _
  unfold execCtxfree
  refine State.driverCommand_ends hd hop ?_
  rcases h with ⟨hc, rfl⟩ | ⟨hc, hx, rfl⟩
  · exact if_pos hc
  · exact (if_neg (Nat.not_le.2 hc)).trans (if_pos hx)

end

/-- What CTXNEW refuses in a context's descriptor (R71). -/
def BadDescriptor (va : BitVec 64) (x : List Byte) : Prop :=
  va.toNat % 256 ≠ 0 ∨ (∃ b ∈ x.drop 0x30, b ≠ 0) ∨ (dwordAt x 8).toNat % 65536 ≠ 0 ∨ (dwordAt x 0x10).toNat % 4096 ≠ 0 ∨
    (dwordAt x 0x20).toNat % 65536 ≠ 0

theorem badDescriptor_iff {va : BitVec 64} {x : List Byte} : BadDescriptor va x ↔
    (va.toNat % 256 != 0 || (x.drop 0x30).any (· != 0) || (dwordAt x 8).toNat % 65536 != 0 || (dwordAt x 0x10).toNat % 4096 != 0 ||
      (dwordAt x 0x20).toNat % 65536 != 0) = true := by
  simp only [BadDescriptor, Bool.or_eq_true, bne_iff_ne, List.any_eq_true, or_assoc]

/-- The context that a descriptor describes. -/
def newContext (part : Nat) (x : List Byte) : Context :=
  { (default : Context) with
    part := part, root := dwordAt x 0, saveVa := dwordAt x 8, ovfVa := dwordAt x 0x10, ovfPages := (dwordAt x 0x18).toNat,
    poolVa := dwordAt x 0x20, poolTiles := (dwordAt x 0x28).toNat }

/-- A context removed, with what is cached of it. -/
def State.freeCtx (s : State) (c : Nat) : State := { s.dropCached c 0 0 with ctxs := s.ctxs.set c none }

theorem State.freeCtx_get (s : State) (c : Nat) : (s.freeCtx c).ctxs.get c = none := Map.get_set_self s.ctxs c none

theorem State.freeCtx_forgotten (s : State) (c : Nat) : (s.freeCtx c).Forgotten c 0 0 :=
  (s.dropCached_forgotten c 0 0).of_writes rfl (fun e he => ⟨e, he, rfl⟩)

section
variable {s : State} {part : Nat}

/-- The address that a command names, and the descriptor of CTXNEW there. -/
def State.headVa (s : State) (part : Nat) : BitVec 64 := dwordAt (s.headBytes part) 8
def State.headDescriptor (s : State) (part : Nat) : List Byte := s.physRead part (s.headVa part).toNat 256

section
variable (hd : s.CommandDue part) (hc : s.headCtx part < 512)
include hd hc

/-- CTXNEW of a context that does not exist. -/
theorem State.ctxnew_of_none (hop : (s.headOp part == 1) = true) (hx : (s.ctxs.get (s.headCtx part)).isSome = false) :
    (BadDescriptor (s.headVa part) (s.headDescriptor part) → s.EndsWith part (.ctxnew part) 2) ∧
      (¬ BadDescriptor (s.headVa part) (s.headDescriptor part) → exec (.ctxnew part) s = .next
        ((((s.nextCommand part).setCtx (s.headCtx part) (newContext part (s.headDescriptor part))).modHub
          (fun h => { h with featFrozen := true })).endCommand part (s.headPa part) 0)) := by
  have hread : (s.nextCommand part).physRead part (s.headVa part).toNat 256 = s.headDescriptor part := State.physRead_nextCommand _ _
  constructor
  · intro hbad
    show execCtxnew part s = _
    unfold execCtxnew
    refine State.driverCommand_ends hd hop ?_
    refine (if_neg (Nat.not_le.2 hc)).trans ((if_neg (Bool.eq_false_iff.1 hx)).trans (if_pos ?_))
    rw [← badDescriptor_iff]
    show BadDescriptor (s.headVa part) ((s.nextCommand part).physRead part (s.headVa part).toNat 256)
    rw [hread]
    exact hbad
  · intro hgood
    show execCtxnew part s = _
    unfold execCtxnew
    refine State.driverCommand_ends hd hop ?_
    refine (if_neg (Nat.not_le.2 hc)).trans ((if_neg (Bool.eq_false_iff.1 hx)).trans ((if_neg ?_).trans ?_))
    · rw [← badDescriptor_iff]
      show ¬ BadDescriptor (s.headVa part) ((s.nextCommand part).physRead part (s.headVa part).toNat 256)
      rw [hread]
      exact hgood
    · show (((s.nextCommand part).setCtx (s.headCtx part)
        (newContext part ((s.nextCommand part).physRead part (s.headVa part).toNat 256))).modHub _, _) = _
      rw [hread]

theorem State.ctxreset_waits (hop : (s.headOp part == 2) = true) (hx : s.ctxIn part (s.headCtx part) = true) : exec (.ctxreset part) s = .next
    (((s.nextCommand part).resetContext (s.headCtx part)).modPart part (fun p => { p with command := some (s.headCommand part) })) := by
  show execCtxreset part s = _
  unfold execCtxreset
  refine State.driverCommand_waits hd hop ?_
  exact (if_neg (Nat.not_le.2 hc)).trans (if_neg (show ¬ (!s.ctxIn part (s.headCtx part)) = true by rw [hx]; decide))

theorem State.tlbinv_waits (hop : (s.headOp part == 3) = true) (hx : s.ctxIn part (s.headCtx part) = true) : exec (.tlbinv part) s = .next
    (((s.nextCommand part).dropCached (s.headCtx part) (s.headVa part) (s.headCommand part).pages).modPart part
      (fun p => { p with command := some (s.headCommand part) })) := by
  show execTlbinv part s = _
  unfold execTlbinv
  refine State.driverCommand_waits hd hop ?_
  exact (if_neg (Nat.not_le.2 hc)).trans (if_neg (show ¬ (!s.ctxIn part (s.headCtx part)) = true by rw [hx]; decide))

/-- CTXFREE of a context that is not busy. -/
theorem State.ctxfree_frees (hop : (s.headOp part == 4) = true) (hb : s.ctxBusy part (s.headCtx part) = false) : exec (.ctxfree part) s = .next
    (((s.nextCommand part).freeCtx (s.headCtx part)).endCommand part (s.headPa part) 0) := by
  show execCtxfree part s = _
  unfold execCtxfree
  refine State.driverCommand_ends hd hop ?_
  exact (if_neg (Nat.not_le.2 hc)).trans (if_neg (Bool.eq_false_iff.1 hb))
end

/-! ### TLBINV_COMPLETE -/

theorem State.tlbinvComplete_none (h : (s.part part).command = none) : exec (.tlbinvComplete part) s = .next s := by
  show execTlbinvComplete part s = _
  unfold execTlbinvComplete
  rw [h]

/-- A command whose end has not come. -/
theorem State.tlbinvComplete_waits {y : DriverCommand} (h : (s.part part).command = some y)
    (hw : s.translatedDone y = false ∨ y.op = 2 ∧ s.resetOver y.ctx = false) : exec (.tlbinvComplete part) s = .next s := by
  show execTlbinvComplete part s = _
  unfold execTlbinvComplete
  rw [h]
  refine if_pos ?_
  rcases hw with hw | ⟨hop, hw⟩
  · rw [hw]
    rfl
  · rw [hop, hw]
    exact Bool.or_true _

/-- The settings of a command apply, and no old one of its partition stands. -/
def State.settle (s : State) (part : Nat) (y : DriverCommand) : State :=
  (s.modCtx y.ctx (·.applyWindows y)).modPart part (fun p => { p with plOld := none })

theorem State.tlbinvComplete_ends {y : DriverCommand} (h : (s.part part).command = some y)
    (hd : s.translatedDone y = true) (ho : y.op = 2 → s.resetOver y.ctx = true) : exec (.tlbinvComplete part) s = .next
      ((if y.op = 2 then (s.settle part y).endReset y.ctx else (s.settle part y).dropCached y.ctx y.va y.pages).endCommand part y.pa 0) := by
  show execTlbinvComplete part s = _
  unfold execTlbinvComplete
  rw [h]
  have hop : (y.op == 2) = true ↔ y.op = 2 := beq_iff_eq
  refine (if_neg ?_).trans ?_
  · rw [hd]
    simpa using ho
  · simp only [hop]
    rfl

theorem State.settle_part (y : DriverCommand) : ((s.settle part y).part part).plOld = none := by
  rw [State.settle, State.part_modPart, if_pos rfl]

theorem State.settle_ctx (y : DriverCommand) : (s.settle part y).ctx y.ctx = (s.ctx y.ctx).applyWindows y := by
  show (s.modCtx y.ctx (·.applyWindows y)).ctx y.ctx = _
  rw [State.ctx_modCtx, if_pos rfl]

theorem State.plOld_endCommand {t : State} {pa : Nat} {st : Word} (h : (t.part part).plOld = none) :
    ((t.endCommand part pa st).part part).command = none ∧ ((t.endCommand part pa st).part part).plOld = none := by
  rw [State.part_endCommand]
  exact ⟨rfl, h⟩

/-- The end of a TLBINV. -/
theorem State.tlbinv_end (y : DriverCommand) :
    let t := ((s.settle part y).dropCached y.ctx y.va y.pages).endCommand part y.pa 0
    (t.part part).command = none ∧ (t.part part).plOld = none ∧ (t.ctx y.ctx).lwdesc = (s.ctx y.ctx).lwdesc ∧ t.Forgotten y.ctx y.va y.pages := by
  have hp : (((s.settle part y).dropCached y.ctx y.va y.pages).part part).plOld = none := State.settle_part y
  refine ⟨(State.plOld_endCommand hp).1, (State.plOld_endCommand hp).2, ?_, (State.dropCached_forgotten _ _ _ _).endCommand⟩
  rw [State.ctx_endCommand]
  show ((s.settle part y).ctx y.ctx).lwdesc = _
  rw [State.settle_ctx]
  rfl

/-- The end of a CTXRESET. -/
theorem State.ctxreset_end (y : DriverCommand) :
    let t := ((s.settle part y).endReset y.ctx).endCommand part y.pa 0
    (t.part part).command = none ∧ (t.part part).plOld = none ∧ t.Forgotten y.ctx 0 0 ∧ (∀ n, ∀ e ∈ (t.die n).tasks, e.2.ctx ≠ y.ctx) ∧
      ∃ m, t.ctx y.ctx = Context.cleared { (s.ctx y.ctx).applyWindows y with tdmask := m } := by
  have hp : (((s.settle part y).endReset y.ctx).part part).plOld = none := by
    unfold State.part
    rw [State.endReset_parts]
    exact State.settle_part y
  refine ⟨(State.plOld_endCommand hp).1, (State.plOld_endCommand hp).2, (State.endReset_forgotten _ _).endCommand, fun n => ?_, ?_⟩
  · unfold State.die
    rw [State.dies_endCommand]
    exact State.endReset_tasks _ _ n
  · obtain ⟨m, hm⟩ := (s.settle part y).endReset_ctx y.ctx
    exact ⟨m, by rw [State.ctx_endCommand, hm, State.settle_ctx]⟩

end

section
variable {s : State} {part : Nat}

/-- The instructions of the commands find nothing to do. -/
theorem State.commands_idle (n : Nat) (hn : ¬ s.CommandDue part ∨ (s.headOp part).toNat ≠ n) :
    (n = 1 → exec (.ctxnew part) s = .next s) ∧ (n = 2 → exec (.ctxreset part) s = .next s) ∧ (n = 3 → exec (.tlbinv part) s = .next s) ∧
      (n = 4 → exec (.ctxfree part) s = .next s) := by
  have not {m : Nat} (hm : m < 256) (e : n = m) : ¬ s.CommandDue part ∨ (s.headOp part == BitVec.ofNat 8 m) = false :=
    hn.imp id (fun h => by rw [byte_beq _ hm, decide_eq_false_iff_not, ← e]; exact h)
  refine ⟨fun e => ?_, fun e => ?_, fun e => ?_, fun e => ?_⟩
  · show execCtxnew part s = _
    unfold execCtxnew
    exact State.driverCommand_idle (not (by decide) e)
  · show execCtxreset part s = _
    unfold execCtxreset
    exact State.driverCommand_idle (not (by decide) e)
  · show execTlbinv part s = _
    unfold execTlbinv
    exact State.driverCommand_idle (not (by decide) e)
  · show execCtxfree part s = _
    unfold execCtxfree
    exact State.driverCommand_idle (not (by decide) e)

theorem State.badOpcode_idle (h : ¬ s.CommandDue part ∨ 1 ≤ (s.headOp part).toNat ∧ (s.headOp part).toNat ≤ 4) :
    exec (.driverBadOpcode part) s = .next s := by
  show execDriverBadOpcode part s = _
  unfold execDriverBadOpcode
  refine State.driverCommand_idle (h.imp id (fun h => ?_))
  rw [Bool.eq_false_iff, ne_eq, badOpcode_iff]
  omega

variable (hd : s.CommandDue part) (hc : s.headCtx part < 512)
include hd hc

theorem State.ctxnew_creates (hop : (s.headOp part == 1) = true) (hx : (s.ctxs.get (s.headCtx part)).isSome = false)
    (hgood : ¬ BadDescriptor (s.headVa part) (s.headDescriptor part)) : ∃ t, exec (.ctxnew part) s = .next t ∧
      ((t.part part).command = none ∧ s.HeadTaken part t) ∧ t.hub.featFrozen = true ∧
      t.ctxs.get (s.headCtx part) = some (newContext part (s.headDescriptor part)) := by
  refine ⟨_, (State.ctxnew_of_none hd hc hop hx).2 hgood, State.done_endCommand rfl, ?_, ?_⟩
  · rw [State.hub_endCommand]
    rfl
  · rw [State.ctxs_endCommand]
    exact Map.get_set_self s.ctxs (s.headCtx part) (some (newContext part (s.headDescriptor part)))

theorem State.ctxreset_begins (hop : (s.headOp part == 2) = true) (hx : s.ctxIn part (s.headCtx part) = true) (hl : s.lots.wf = true) :
    ∃ t, exec (.ctxreset part) s = .next t ∧ (s.HeadTaken part t ∧ (t.part part).command = some (s.headCommand part)) ∧
      (t.ctx (s.headCtx part)).resetting = true ∧ (∀ i, ((t.ctx (s.headCtx part)).queues.get i).en = false) ∧
      (∀ k l, s.lots.get k = some l → l.ctx = s.headCtx part → (l.phase = .gated → (t.lot k).phase = .complete ∧ (t.lot k).status = 5) ∧
        (l.phase = .running → (t.lot k).phase = .running ∧ (t.lot k).status = 5)) ∧
      ∀ k v, s.vats.get k = some v → (s.lot v.lot).ctx = s.headCtx part → v.place ≠ .gone → (t.vat k).stop.isSome = true := by
  obtain ⟨hr, hp, hlots, hvats⟩ := State.resetContext_begins (s := s.nextCommand part) (c := s.headCtx part) hl
  exact ⟨_, State.ctxreset_waits hd hc hop hx, State.waits_modPart hp, hr.resetting, hr.queues, hlots, hvats⟩

theorem State.tlbinv_begins (hop : (s.headOp part == 3) = true) (hx : s.ctxIn part (s.headCtx part) = true) :
    ∃ t, exec (.tlbinv part) s = .next t ∧ (s.HeadTaken part t ∧ (t.part part).command = some (s.headCommand part)) ∧ t.mem = s.mem ∧
      t.Forgotten (s.headCtx part) (s.headVa part) (s.headCommand part).pages :=
  ⟨_, State.tlbinv_waits hd hc hop hx, State.waits_modPart rfl, rfl,
    (State.dropCached_forgotten (s.nextCommand part) _ _ _).of_writes rfl (fun e he => ⟨e, he, rfl⟩)⟩

theorem State.ctxfree_removes (hop : (s.headOp part == 4) = true) (hb : s.ctxBusy part (s.headCtx part) = false) :
    ∃ t, exec (.ctxfree part) s = .next t ∧ ((t.part part).command = none ∧ s.HeadTaken part t) ∧ t.ctxs.get (s.headCtx part) = none ∧
      t.Forgotten (s.headCtx part) 0 0 := by
  refine ⟨_, State.ctxfree_frees hd hc hop hb, State.done_endCommand rfl, ?_, ?_⟩
  · rw [State.ctxs_endCommand]
    exact State.freeCtx_get _ _
  · exact (State.freeCtx_forgotten _ _).endCommand
end

theorem State.ctxBusy_iff {s : State} {part c : Nat} (hx : s.ctxIn part c = true) :
    s.ctxBusy part c = true ↔ (∃ e ∈ (s.ctx c).queues, e.2.en = true) ∨ s.lotsOf c (· != .complete) ≠ [] := by
  simp [State.ctxBusy, hx]

/-- A queue that is enabled is listed. -/
theorem Queue.mem_of_en {m : Map Queue} {i : Nat} (h : (m.get i).en = true) : ∃ e ∈ m, e.2.en = true := by
  refine ⟨(i, m.get i), Map.mem_of_get (fun hd => ?_), h⟩
  rw [hd] at h
  cases h

/-- Settles O50: one command at a time ends with its status (`State.EndsWith`) or waits (`State.HeadTaken`), and what a reset stops stays stopped
whatever faults of other contexts follow (`State.Stops`). -/
theorem driverCommands : Obligations.DriverCommands := by
  unfold Obligations.DriverCommands
  intro s part wi p d pa bs op c va pages due u ends done waits cxt mine gone x q badNew
  have hopc {n : Nat} (hn : n < 256) (e : op = n) : (s.headOp part == BitVec.ofNat 8 n) = true := by
    rw [byte_beq _ hn, decide_eq_true_iff]
    exact e
  have hmine : mine ↔ s.ctxIn part c = true := State.ctxIn_iff.symm
  have hidle {n : Nat} (h : ¬ due ∨ op ≠ n) := State.commands_idle (s := s) (part := part) n h
  have hout (h : ¬ mine) : s.ctxIn part (s.headCtx part) = false := Bool.eq_false_iff.2 (fun e => h (hmine.2 e))
  refine ⟨s.driverDoorbell_next part wi, fun h => (hidle h).1 rfl, fun h => (hidle h).2.1 rfl, fun h => (hidle h).2.2.1 rfl,
    fun h => (hidle h).2.2.2 rfl, State.badOpcode_idle, State.badOpcode_ends, fun hd hc => ?_, fun hd hc hm => ?_, fun hd hc hop => ?_,
    fun hd hc hop hm hl _ => ?_, fun hd hc hop hm => ?_, fun hd hc hop hm => ?_, State.tlbinvComplete_none, fun y hy => ?_⟩
  · exact ⟨fun hop => State.ctxnew_ends hd (hopc (by decide) hop) (.inl ⟨hc, rfl⟩),
      fun hop => State.ctxreset_ends hd (hopc (by decide) hop) (.inl ⟨hc, rfl⟩),
      fun hop => State.tlbinv_ends hd (hopc (by decide) hop) (.inl ⟨hc, rfl⟩),
      fun hop => State.ctxfree_ends hd (hopc (by decide) hop) (.inl ⟨hc, rfl⟩)⟩
  · have hbusy : s.ctxBusy part (s.headCtx part) = true := by rw [State.ctxBusy, hout hm]; rfl
    exact ⟨fun hop => State.ctxreset_ends hd (hopc (by decide) hop) (.inr ⟨hc, hout hm, rfl⟩),
      fun hop => State.tlbinv_ends hd (hopc (by decide) hop) (.inr ⟨hc, hout hm, rfl⟩),
      fun hop => State.ctxfree_ends hd (hopc (by decide) hop) (.inr ⟨hc, hbusy, rfl⟩)⟩
  · have hop := hopc (by decide) hop
    exact ⟨fun hx => State.ctxnew_ends hd hop (.inr ⟨hc, hx, rfl⟩), fun hx => (State.ctxnew_of_none hd hc hop hx).1,
      fun hx hgood => State.ctxnew_creates hd hc hop hx hgood⟩
  · obtain ⟨t, ht, ⟨htaken, hcmd⟩, hrest⟩ := State.ctxreset_begins hd hc (hopc (by decide) hop) (hmine.1 hm) hl
    exact ⟨t, ht, ⟨htaken, by rw [hcmd]; rfl⟩, hrest⟩
  · obtain ⟨t, ht, ⟨htaken, hcmd⟩, hmem, hgone⟩ := State.tlbinv_begins hd hc (hopc (by decide) hop) (hmine.1 hm)
    exact ⟨t, ht, ⟨htaken, by rw [hcmd]; rfl⟩, hmem, hgone.reads⟩
  · have hbusy := State.ctxBusy_iff (c := s.headCtx part) (hmine.1 hm)
    constructor
    · intro h
      refine State.ctxfree_ends hd (hopc (by decide) hop) (.inr ⟨hc, hbusy.2 (h.imp (fun ⟨i, hi⟩ => Queue.mem_of_en hi) id), rfl⟩)
    · intro hq hlots
      have hb : s.ctxBusy part (s.headCtx part) = false := by
        rw [Bool.eq_false_iff, ne_eq, hbusy]
        rintro (⟨e, he, hen⟩ | h)
        · rw [hq e he] at hen
          cases hen
        · exact h hlots
      obtain ⟨t, ht, hdone, hnone, hgone⟩ := State.ctxfree_removes hd hc (hopc (by decide) hop) hb
      exact ⟨t, ht, hdone, hnone, hgone.reads⟩
  · refine ⟨State.tlbinvComplete_waits hy, fun hdone hover => ⟨_, State.tlbinvComplete_ends hy hdone hover, ?_⟩⟩
    by_cases hop : y.op = 2
    · rw [if_pos hop]
      obtain ⟨hcmd, hold, hgone, htasks, m, hm⟩ := s.ctxreset_end (part := part) y
      refine ⟨hcmd, hold, fun k => by rw [hm]; rfl, fun h => absurd hop h, fun _ => ⟨hgone.reads, ?_⟩⟩
      rw [hm]
      exact ⟨rfl, rfl, rfl, rfl, rfl, htasks, fun n hn => Context.cleared_ovf _ hn⟩
    · rw [if_neg hop]
      obtain ⟨hcmd, hold, hlw, hgone⟩ := s.tlbinv_end (part := part) y
      exact ⟨hcmd, hold, fun k => by rw [hlw], fun _ => hgone.reads, fun h => absurd h hop⟩

end Sys2Proof.Machine
end

section
/-! PROOFS. Staged loops (spec/04 R104–R107): what the end of an iteration leaves of the stage table, and what each stage instruction leaves
where it acts. A release before it changes of the state no more than operations and what the vat hands on (`State.noteRelease_vat`). -/

namespace Sys2Proof.Machine

/-! ### The end of an instruction that changes more than its warp -/

/-- Where an instruction issues normally its effect is what it does. -/
theorem State.issueRaw_of_clear {s : State} {g : Sig} (h : s.clear g = true) (eff : State → State) : s.issueRaw g eff = .next (eff s) := by
  simp only [State.clear, Bool.and_eq_true, Option.isNone_iff_eq_none, bne_iff_ne, ne_eq, beq_iff_eq] at h
  obtain ⟨⟨hwhole, hen⟩, hecc⟩ := h
  rw [State.issueRaw, hwhole]
  dsimp only
  rw [if_neg (by simpa using hen), hecc]
  rfl

theorem State.retire_wrote (s : State) (g : Sig) : s.Wrote (s.retire g) [] 0 := by
  obtain ⟨x, hx, hfinal, hrest, hmasks⟩ := s.w_retire g
  rw [hx]
  unfold State.Wrote State.OnlyWarp Warp.Issued
  simp only [State.w_setW, Warp.flagged_zero]
  exact ⟨rfl, ⟨hrest, hmasks⟩, hfinal⟩

/-- What is written behind a change of other parts of the state would have been written without it. -/
theorem State.Wrote.elsewhere {s u t : State} {ws : List (Nat × Word)} {f : Flags} (h : u.Wrote t ws f) (hw : u.w = s.w) :
    s.Wrote (s.setW t.w) ws f ∧ t = u.setW t.w := by
  obtain ⟨honly, hissued, hfinal⟩ := h
  refine ⟨⟨?_, ?_, ?_⟩, honly⟩
  · rw [State.OnlyWarp, State.w_setW]
    rfl
  · rw [State.w_setW, ← hw]
    exact hissued
  · rw [State.w_setW, ← hw]
    exact hfinal

/-- The vat of the warp in turn has changed before. -/
theorem State.Wrote.of_setVat {s t : State} {k : Nat} {v : Vat} {ws : List (Nat × Word)} {f : Flags} (h : (s.setVat k v).Wrote t ws f) :
    ∃ u, s.Wrote u ws f ∧ t = u.setVat k v :=
  have ⟨hs, ht⟩ := h.elsewhere (s := s) rfl
  ⟨_, hs, ht⟩

/-! ### Releases -/

theorem State.noteRelease_warps (s : State) (k scope : Nat) : (s.noteRelease k scope).warps = s.warps := by
  unfold State.noteRelease
  dsimp only
  split <;> rfl

theorem State.noteRelease_cur (s : State) (k scope : Nat) : (s.noteRelease k scope).cur = s.cur := by
  unfold State.noteRelease
  dsimp only
  split <;> rfl

theorem State.noteRelease_w (s : State) (k scope : Nat) : (s.noteRelease k scope).w = s.w := by
  unfold State.w State.warp
  rw [State.noteRelease_warps, State.noteRelease_cur]

/-- Of a vat a release changes what it hands on. -/
theorem State.noteRelease_vat (s : State) (k scope j : Nat) :
    (s.noteRelease k scope).vat j = { s.vat j with carried := ((s.noteRelease k scope).vat j).carried } := by
  unfold State.noteRelease
  dsimp only
  split
  · rfl
  · rw [State.vat_modVat]
    split
    · next e =>
      subst e
      rfl
    · rfl

/-- A release reads of its warp what no issue changes. -/
theorem State.noteRelease_setW (s : State) {x : Warp} (h : x.rest = s.w.rest) (scope : Nat) :
    (s.setW x).noteRelease s.cur scope = (s.noteRelease s.cur scope).setW x := by
  have hcur : (s.setW x).warp s.cur = x := s.w_setW x
  have hreached : x.rest.reached = s.w.rest.reached := by rw [h]
  have hvat : x.rest.vat = s.w.rest.vat := by rw [h]
  have hprior : (s.setW x).priorStores s.cur = s.priorStores s.cur := by
    unfold State.priorStores
    rw [hcur, show x.reached = (s.warp s.cur).reached from hreached]
    rfl
  unfold State.noteRelease
  dsimp only
  rw [hprior]
  split
  · rfl
  · show State.modVat _ ((s.setW x).warp s.cur).vat _ = _
    rw [hcur, show x.vat = (s.warp s.cur).vat from hvat]
    rfl

/-- An instruction that makes a release and then changes the vat's own table: what it leaves is the release after it has issued. -/
theorem State.release_then_modV (s : State) (g : Sig) {f : Vat → Vat} (hf : ∀ c, f { s.v with carried := c } = { f s.v with carried := c }) :
    ∃ u, s.Wrote u [] 0 ∧ ((s.noteRelease s.cur 1).modV f).retire g =
      (u.noteRelease s.cur 1).setVat s.w.vat { f s.v with carried := (u.noteRelease s.cur 1).v.carried } := by
  obtain ⟨hs, ht⟩ := (((s.noteRelease s.cur 1).modV f).retire_wrote g).elsewhere (s := s) (s.noteRelease_w s.cur 1)
  refine ⟨_, hs, ht.trans ?_⟩
  generalize (((s.noteRelease s.cur 1).modV f).retire g).w = x at hs
  have hrest : x.rest = s.w.rest := by
    have h := hs.2.1.1
    rwa [State.w_setW, Warp.flagged_zero] at h
  have hvat : x.rest.vat = s.w.rest.vat := by rw [hrest]
  have hv : ((s.noteRelease s.cur 1).setW x).v = (s.noteRelease s.cur 1).vat s.w.vat := by
    rw [State.v, State.w_setW, show x.vat = s.w.vat from hvat]
    rfl
  rw [s.noteRelease_setW hrest 1, hv, State.modV, State.modVat, s.noteRelease_w, s.noteRelease_vat]
  rw [show (f { s.vat s.w.vat with carried := _ }) = _ from hf _]
  rfl

/-! ### The registers that STGNEXT writes -/

/-- A predicate written in every live lane. -/
def State.toLivePred (s : State) (p : BitVec 3) (x : Word) : List (Nat × Word) :=
  (lanesOf s.w.masks.lmask).map (fun l => (s.w.predCell p.toNat l, x))

/-- Writing a predicate moves no other. -/
theorem Warp.foldl_put_predCell (n : Nat) (v : Word) (ls : List Nat) (w : Warp) {x : Warp} (h : w.predCell = x.predCell) :
    ls.foldl (fun w l => w.put (w.predCell n l) v) w = ls.foldl (fun w l => w.put (x.predCell n l) v) w := by
  induction ls generalizing w with
  | nil => rfl
  | cons l ls ih =>
    rw [List.foldl_cons, List.foldl_cons, h]
    exact ih _ h

theorem State.Effect.putLiveP {s u : State} {ws : List (Nat × Word)} {f : Flags} (h : s.Effect u ws f) (p : BitVec 3) (value : Bool) :
    s.Effect (u.putLiveP p value) (ws ++ s.toLivePred p (if value then 1 else 0)) f := by
  obtain ⟨-, -, hcell⟩ := h.facts
  have hmasks : u.w.masks = s.w.masks := by
    obtain ⟨x, rfl, -, -, hm, -⟩ := h
    rw [State.w_setW, hm]
  have hput := h.modW (Writer.lanes (fun l => Writer.put (s.w.predCell p.toNat l) (if value then 1 else 0)) (lanesOf s.w.masks.lmask))
  unfold State.putLiveP State.modW at *
  dsimp only at hput ⊢
  rw [hmasks, Warp.foldl_put_predCell _ _ _ _ hcell]
  exact hput

/-- What STGNEXT writes: a k register, and a predicate in every live lane. -/
theorem State.stgnext_wrote (s : State) (g : Sig) (d : Code) (v : Word) (p : BitVec 3) (value : Bool) :
    s.Wrote (((s.putK d v).putLiveP p value).retire g) (s.toK d v ++ s.toLivePred p (if value then 1 else 0)) 0 :=
  ((s.effect_modW (Writer.put (s.w.cell d.toNat 0) v)).putLiveP p value).retire g

/-! ### Beginning a loop and handing out an iteration -/

/-- The stage table as STGBEG leaves it, with `n` iterations and a window of `w`. -/
def Vat.stageBegun (v : Vat) (n : Word) (w : Nat) : Vat :=
  { v with stage := { next := 0, oldest := 0, n := n, xh := false, wm1 := BitVec.ofNat 6 (w - 1), state := 1 }, stgslot := [] }

/-- The stage table as STGNEXT leaves it when it hands the next iteration to a warp. -/
def Vat.stageHanded (v : Vat) (warp : Nat) : Vat :=
  { v with
    stgslot := v.stgslot.set (v.stage.next % 64).toNat (slotMake warp 0),
    stage := { v.stage with next := v.stage.next + 1, xh := v.stage.next + 1 == v.stage.n } }

section
variable {s : State} {st : BitVec 2} {a b : Code} (h : s.clear (stageSig 0 st (isK a && isK b) [(a, 1), (b, 1)]) = true)
include h

theorem execStgbeg_begins (hs : s.v.stage.state ≠ 1) (h1 : 1 ≤ (s.readK b).toNat) (h64 : (s.readK b).toNat ≤ 64) :
    ∃ u, s.Wrote u [] 0 ∧ execStgbeg st a b s = .next (u.setVat s.w.vat (s.v.stageBegun (s.readK a) (s.readK b).toNat)) := by
  have hno : (s.v.stage.state == 1 || (s.readK b).toNat == 0 || decide (64 < (s.readK b).toNat)) = false := by
    rw [beq_false_of_ne hs, beq_false_of_ne (Nat.ne_of_gt h1), decide_eq_false (Nat.not_lt.2 h64)]
    rfl
  obtain ⟨u, hu, e⟩ := (State.retire_wrote (s.setVat s.w.vat (s.v.stageBegun (s.readK a) (s.readK b).toNat))
    (stageSig 0 st (isK a && isK b) [(a, 1), (b, 1)])).of_setVat
  refine ⟨u, hu, ?_⟩
  rw [← e, execStgbeg, State.issueRaw_of_clear h]
  dsimp only
  rw [hno]
  rfl

theorem execStgbeg_order (hs : s.v.stage.state = 1 ∨ (s.readK b).toNat = 0 ∨ 64 < (s.readK b).toNat) :
    execStgbeg st a b s = .next s.stageOrder := by
  rw [execStgbeg, State.issueRaw_of_clear h]
  dsimp only
  rw [if_pos (by simpa only [Bool.or_eq_true, beq_iff_eq, decide_eq_true_iff, or_assoc] using hs)]
end

/-- The signature of STGNEXT. -/
def stgnextSig (st : BitVec 2) (d : Code) (pd : BitVec 3) : Sig :=
  { slot := slot 0x2B 1, stall := st, ok := isK d, uses := [(d, 1)], preds := [pd], pdst := true }

section
variable {s : State} {st : BitVec 2} {d : Code} {pd : BitVec 3}
  (h : s.clear (stgnextSig st d pd) = true)
  (ha : s.abortDue s.cur = false)
include h ha

theorem execStgnext_order (hs : s.v.stage.state = 0 ∨ s.v.stage.state = 3 ∨ s.v.currentSlot s.w.num ≠ none) :
    execStgnext st d pd s = .next s.stageOrder := by
  refine (State.issueRaw_of_clear h _).trans ?_
  rw [State.sampling, ha]
  rcases hs with e | e | e
  · simp [e]
  · simp [e]
  · simp [Option.isSome_iff_ne_none.2 e]

variable (hs : s.v.stage.state = 1 ∨ s.v.stage.state = 2) (hnone : s.v.currentSlot s.w.num = none)
include hs hnone

/-- STGNEXT in a loop, with no iteration in hand. -/
theorem execStgnext_in_loop : execStgnext st d pd s = .next (
    if s.v.stage.state == 2 || s.v.stage.xh then ((s.putK d 0xFFFFFFFF).putLiveP pd false).retire (stgnextSig st d pd)
    else if s.v.window ≤ (s.v.stage.next - s.v.stage.oldest).toNat then s.park .stgnext
    else (((s.setVat s.w.vat (s.v.stageHanded s.w.num)).putK d s.v.stage.next).putLiveP pd true).retire (stgnextSig st d pd)) := by
  have hgo : (s.v.stage.state == 0 || s.v.stage.state == 3) = false := by rcases hs with e | e <;> rw [e] <;> rfl
  refine (State.issueRaw_of_clear h _).trans ?_
  rw [State.sampling, ha, if_neg Bool.false_ne_true]
  dsimp only
  rw [hgo, hnone]
  rfl

theorem execStgnext_ends (hend : s.v.stage.state = 2 ∨ s.v.stage.xh = true) :
    ∃ u, s.Wrote u (s.toK d 0xFFFFFFFF ++ s.toLivePred pd 0) 0 ∧ execStgnext st d pd s = .next u := by
  rw [execStgnext_in_loop h ha hs hnone]
  rw [if_pos (by simpa using hend)]
  exact ⟨_, s.stgnext_wrote _ d _ pd false, rfl⟩

theorem execStgnext_in_window (h1 : s.v.stage.state = 1) (hx : s.v.stage.xh = false) :
    (s.v.window ≤ (s.v.stage.next - s.v.stage.oldest).toNat → execStgnext st d pd s = .next (s.park .stgnext)) ∧
    ((s.v.stage.next - s.v.stage.oldest).toNat < s.v.window → ∃ u, s.Wrote u (s.toK d s.v.stage.next ++ s.toLivePred pd 1) 0 ∧
      execStgnext st d pd s = .next (u.setVat s.w.vat (s.v.stageHanded s.w.num))) := by
  have hgo : (s.v.stage.state == 2 || s.v.stage.xh) = false := by rw [h1, hx]; rfl
  rw [execStgnext_in_loop h ha hs hnone]
  rw [hgo, if_neg Bool.false_ne_true]
  constructor
  · intro hw
    rw [if_pos hw]
  · intro hw
    obtain ⟨u, hu, e⟩ := (State.stgnext_wrote (s.setVat s.w.vat (s.v.stageHanded s.w.num)) (stgnextSig st d pd) d s.v.stage.next pd true).of_setVat
    rw [if_neg (Nat.not_le.2 hw), e]
    exact ⟨u, hu, rfl⟩
end

/-! ### The counter of an iteration -/

theorem State.stageValue_eq (s : State) (d a b : Code) : s.stageValue d a b = if d = 1 then b.toNat else (s.readK a).toNat := by
  simp [State.stageValue]

theorem stageUses_eq (d a : Code) : stageUses d a = if d = 0 then [(a, 1)] else [] := by
  simp [stageUses]

/-- A vat with the counter of the iteration in a slot at a value. -/
def Vat.stageCounted (v : Vat) (warp k n : Nat) : Vat := { v with stgslot := v.stgslot.set k (slotMake warp n) }

/-- What an instruction leaves that makes a release and changes the stage table to that of `v`. -/
def State.Gives (s : State) (o : Out) (v : Vat) : Prop :=
  ∃ u, s.Wrote u [] 0 ∧ o = .next ((u.noteRelease s.cur 1).setVat s.w.vat { v with carried := (u.noteRelease s.cur 1).v.carried })

/-- A release made by a stage instruction: performed at once, or waited for. -/
theorem State.releasing_gives (s : State) (g : Sig) {f : Vat → Vat} (hf : ∀ c, f { s.v with carried := c } = { f s.v with carried := c }) :
    if s.releaseReady s.cur 1 s.nextOp then s.Gives (.next (s.releasing 1 (fun s => (s.modV f).retire g))) (f s.v)
    else (.next (s.releasing 1 (fun s => (s.modV f).retire g)) : Out) = .next s.stall := by
  unfold State.releasing
  split
  · obtain ⟨u, hu, e⟩ := s.release_then_modV g hf
    exact ⟨u, hu, congrArg _ e⟩
  · rfl

section
variable {s : State} {g : Sig} {f : Nat → Nat}

theorem State.stageCount_order (h : s.v.currentSlot s.w.num = none) : s.stageCount g f = s.stageOrder := by
  rw [State.stageCount, h]

theorem State.stageCount_gives {k : Nat} (h : s.v.currentSlot s.w.num = some k) :
    if s.releaseReady s.cur 1 s.nextOp
    then s.Gives (.next (s.stageCount g f)) (s.v.stageCounted s.w.num k (f (slotCnt (s.v.stgslot.get k))))
    else (.next (s.stageCount g f) : Out) = .next s.stall := by
  have hw : (s.noteRelease s.cur 1).w.num = s.w.num := by rw [State.noteRelease_w]
  have e : s.stageCount g f = s.releasing 1 (fun u => (u.modV (fun v => v.stageCounted s.w.num k (f (slotCnt (v.stgslot.get k))))).retire g) := by
    rw [State.stageCount, h]
    unfold State.releasing
    dsimp only
    rw [hw]
    rfl
  rw [e]
  exact s.releasing_gives g (f := fun v => v.stageCounted s.w.num k (f (slotCnt (v.stgslot.get k)))) (fun _ => rfl)
end

section
variable {s : State} {st : BitVec 2} {d a b : Code}

theorem execStgadv_order (h : s.clear (stageSig 2 st (stageOk d a b) (stageUses d a)) = true) (hk : s.v.currentSlot s.w.num = none) :
    execStgadv st d a b s = .next s.stageOrder :=
  (State.issueRaw_of_clear h _).trans (congrArg _ (State.stageCount_order hk))

theorem execStgset_order (h : s.clear (stageSig 3 st (stageOk d a b) (stageUses d a)) = true) (hk : s.v.currentSlot s.w.num = none) :
    execStgset st d a b s = .next s.stageOrder :=
  (State.issueRaw_of_clear h _).trans (congrArg _ (State.stageCount_order hk))

variable {k : Nat} (hk : s.v.currentSlot s.w.num = some k)
include hk

theorem execStgadv_gives (h : s.clear (stageSig 2 st (stageOk d a b) (stageUses d a)) = true) :
    if s.releaseReady s.cur 1 s.nextOp
    then s.Gives (execStgadv st d a b s) (s.v.stageCounted s.w.num k (min (slotCnt (s.v.stgslot.get k) + s.stageValue d a b) 255))
    else execStgadv st d a b s = .next s.stall := by
  rw [show execStgadv st d a b s = _ from State.issueRaw_of_clear h _]
  exact State.stageCount_gives hk

theorem execStgset_gives (h : s.clear (stageSig 3 st (stageOk d a b) (stageUses d a)) = true) :
    if s.releaseReady s.cur 1 s.nextOp
    then s.Gives (execStgset st d a b s) (s.v.stageCounted s.w.num k (max (slotCnt (s.v.stgslot.get k)) (min (s.stageValue d a b) 255)))
    else execStgset st d a b s = .next s.stall := by
  rw [show execStgset st d a b s = _ from State.issueRaw_of_clear h _]
  exact State.stageCount_gives hk
end

/-! ### The end of an iteration -/

/-- The vat with a slot that no longer runs. -/
def Vat.stopSlot (v : Vat) (k : Nat) : Vat := { v with stgslot := v.stgslot.set k (v.stgslot.get k &&& 0xFFFF7FFF) }

/-- The end of the iteration in a slot: the slot stops, OLDEST is the lowest unended index or NEXT, and the table is DONE with every index handed
out and no slot running. -/
theorem Vat.endSlot_eq (v : Vat) (k : Nat) : v.endSlot k = { v.stopSlot k with
    stage := { v.stage with
      oldest := (v.stopSlot k).lowestUnended
      state := if v.stage.xh && (List.range 64).all (fun i => !slotRun ((v.stopSlot k).stgslot.get i)) then 2 else v.stage.state } } := by
  by_cases hc : (v.stage.xh && (List.range 64).all (fun i => !slotRun ((v.stopSlot k).stgslot.get i))) = true
  · rw [if_pos hc]
    exact if_pos hc
  · rw [if_neg hc]
    exact if_neg hc

theorem Vat.endSlot_carried (v : Vat) (k : Nat) (c : List Nat) :
    ({ v with carried := c } : Vat).endSlot k = { v.endSlot k with carried := c } := by
  rw [Vat.endSlot_eq, Vat.endSlot_eq]
  rfl

section
variable {s : State} {st : BitVec 2} (h : s.clear (stageSig 5 st true []) = true)
include h

theorem execStgend_order (hk : s.v.currentSlot s.w.num = none) :
    execStgend st s = .next s.stageOrder := by
  refine (State.issueRaw_of_clear h _).trans ?_
  rw [hk]

theorem execStgend_gives {k : Nat} (hk : s.v.currentSlot s.w.num = some k) :
    if s.releaseReady s.cur 1 s.nextOp then s.Gives (execStgend st s) (s.v.endSlot k) else execStgend st s = .next s.stall := by
  have e : execStgend st s = .next (s.releasing 1 (fun u => (u.modV (fun v => v.endSlot k)).retire (stageSig 5 st true []))) := by
    refine (State.issueRaw_of_clear h _).trans ?_
    rw [hk]
  rw [e]
  exact s.releasing_gives (stageSig 5 st true []) (f := fun v => v.endSlot k) (s.v.endSlot_carried k)
end

/-! ### STGWL -/

/-- A warp that stores of others have reached. -/
def Warp.withReached (w : Warp) (ns : List Nat) : Warp := { w with reached := ns }

/-- An acquire within the vat changes what has reached its warp, and does so whatever else becomes of the warp. -/
theorem State.takeOver_spec (s : State) : ∃ r, (s.takeOver s.cur).w = s.w.withReached r ∧ (∀ x, (s.takeOver s.cur).setW x = s.setW x) ∧
    ∀ x : Warp, x.vat = s.w.vat → x.reached = s.w.reached → (s.setW x).takeOver s.cur = s.setW (x.withReached r) := by
  by_cases he : (s.vat s.w.vat).carried.isEmpty = true
  · have hs : s.takeOver s.cur = s := if_pos he
    refine ⟨s.w.reached, by rw [hs]; rfl, fun x => by rw [hs], fun x hv hr => ?_⟩
    have hw : x.withReached s.w.reached = x := by rw [← hr]; rfl
    rw [hw, State.takeOver, show (s.setW x).warp s.cur = x from s.w_setW x, hv]
    exact if_pos he
  · have hs : s.takeOver s.cur = s.modW (fun w => w.withReached (s.still (w.reached ++ (s.vat s.w.vat).carried))) := if_neg he
    refine ⟨s.still (s.w.reached ++ (s.vat s.w.vat).carried), by rw [hs, State.w_modW], fun x => by rw [hs]; exact s.setW_setW _ x,
      fun x hv hr => ?_⟩
    rw [State.takeOver, show (s.setW x).warp s.cur = x from s.w_setW x, hv]
    refine (if_neg he).trans ?_
    rw [← hr]
    exact s.modW_setW x (fun w => w.withReached (s.still (w.reached ++ (s.vat s.w.vat).carried)))

/-- STGWL proceeds as an instruction that writes nothing, with the acquire behind it. -/
theorem State.takeOver_retire (s : State) (g : Sig) : ∃ u, s.Wrote u [] 0 ∧ (s.takeOver s.cur).retire g = u.takeOver s.cur := by
  obtain ⟨r, hw, hset, htake⟩ := s.takeOver_spec
  obtain ⟨x, hx, hfinal, hrest, hmasks⟩ := (s.takeOver s.cur).w_retire g
  rw [hw] at hfinal hrest hmasks
  have hvat : x.rest.vat = (s.w.withReached r).rest.vat := by rw [hrest]
  have hreached : x.rest.reached = (s.w.withReached r).rest.reached := by rw [hrest]
  have hback : (x.withReached s.w.reached).withReached r = x := by
    rw [← show x.reached = r from hreached]
    rfl
  refine ⟨s.setW (x.withReached s.w.reached), ⟨?_, ⟨?_, ?_⟩, ?_⟩, ?_⟩
  · rw [State.OnlyWarp, State.w_setW]
    rfl
  · rw [State.w_setW, Warp.flagged_zero]
    exact congrArg (fun y : Warp => y.withReached s.w.reached) hrest
  · rw [State.w_setW]
    exact hmasks
  · intro c
    rw [State.w_setW]
    exact (Warp.final_congr rfl rfl c).trans ((hfinal c).trans (Warp.final_congr rfl rfl c))
  · rw [hx, hset, htake (x.withReached s.w.reached) hvat rfl, hback]

section
variable {s : State} {st : BitVec 2} {d a b : Code} (h : s.clear (stageSig 4 st (stageOk d a b) (stageUses d a)) = true)
include h

theorem execStgwl_order (hk : s.v.currentSlot s.w.num = none) : execStgwl st d a b s = .next s.stageOrder := by
  refine (State.issueRaw_of_clear h _).trans ?_
  rw [hk]

theorem execStgwl_in_slot {k : Nat} (hk : s.v.currentSlot s.w.num = some k) :
    if s.v.stageReached k (s.stageValue d a b) then ∃ u, s.Wrote u [] 0 ∧ execStgwl st d a b s = .next (u.takeOver s.cur)
    else execStgwl st d a b s = .next (s.park .stgwl) := by
  have e : execStgwl st d a b s = .next (if s.v.stageReached k (s.stageValue d a b) then
      (s.takeOver s.cur).retire (stageSig 4 st (stageOk d a b) (stageUses d a)) else s.park .stgwl) := by
    refine (State.issueRaw_of_clear h _).trans ?_
    rw [hk]
  rw [e]
  split
  · obtain ⟨u, hu, hret⟩ := s.takeOver_retire (stageSig 4 st (stageOk d a b) (stageUses d a))
    exact ⟨u, hu, congrArg _ hret⟩
  · rfl
end

/-! ### OLDEST -/

/-- The first index from OLDEST on that has not ended. -/
theorem Vat.lowestUnended_of_first {v : Vat} {j : Nat} (hj : j < 64)
    (hbefore : ∀ m < j, v.unended (v.stage.oldest + BitVec.ofNat 32 m) = false)
    (hat : v.unended (v.stage.oldest + BitVec.ofNat 32 j) = true) : v.lowestUnended = v.stage.oldest + BitVec.ofNat 32 j := by
  have hfind : (List.range 64).find? (fun j => v.unended (v.stage.oldest + BitVec.ofNat 32 j)) = some j :=
    List.find?_range_eq_some.2 ⟨hat, List.mem_range.2 hj, fun m hm => by rw [hbefore m hm]; rfl⟩
  rw [Vat.lowestUnended, hfind]

theorem Vat.lowestUnended_of_none {v : Vat} (h : ∀ m < 64, v.unended (v.stage.oldest + BitVec.ofNat 32 m) = false) :
    v.lowestUnended = v.stage.next := by
  have hfind : (List.range 64).find? (fun j => v.unended (v.stage.oldest + BitVec.ofNat 32 j)) = none :=
    List.find?_eq_none.2 (fun m hm => by simp [h m (List.mem_range.1 hm)])
  rw [Vat.lowestUnended, hfind]

/-- The end of an iteration leaves every other slot as it was. -/
theorem Vat.stopSlot_get (v : Vat) (k i : Nat) :
    (v.stopSlot k).stgslot.get i = if i = k then v.stgslot.get k &&& 0xFFFF7FFF else v.stgslot.get i := Map.get_set _ _ _ _

theorem Vat.endSlot_state (v : Vat) (k : Nat) :
    (v.stage.xh = true → (∀ i < 64, slotRun ((v.stopSlot k).stgslot.get i) = false) → (v.endSlot k).stage.state = 2) ∧
    (v.stage.xh = false ∨ (∃ i < 64, slotRun ((v.stopSlot k).stgslot.get i) = true) → (v.endSlot k).stage.state = v.stage.state) := by
  rw [Vat.endSlot_eq]
  constructor
  · intro hx hall
    refine if_pos ?_
    rw [hx, Bool.true_and, List.all_eq_true]
    intro i hi
    rw [hall i (List.mem_range.1 hi)]
    rfl
  · intro hnot
    refine if_neg (fun hc => ?_)
    rw [Bool.and_eq_true, List.all_eq_true] at hc
    rcases hnot with hx | ⟨i, hi, hrun⟩
    · rw [hx] at hc
      exact Bool.false_ne_true hc.1
    · have := hc.2 i (List.mem_range.2 hi)
      rw [hrun] at this
      exact Bool.false_ne_true this

/-- Settles O15: each row of Table 8 is one of the lemmas above; a release that a row makes is `State.releasing_gives`, and the end of an iteration
`Vat.endSlot_eq`. -/
theorem stageTable : Obligations.StageTable := by
  unfold Obligations.StageTable
  refine ⟨?_, fun v k _ => ?_⟩
  · intro s st d a b pd v h value opnd g gbeg gnext gv leaves gives order setCnt livePred
    have hgv (f : Nat) : gv (slot 0x2B f) = stageSig f st (stageOk d a b) (stageUses d a) := by
      rw [stageSig, stageUses_eq]
      rfl
    have hval : s.stageValue d a b = value := s.stageValue_eq d a b
    refine ⟨fun hc => ⟨execStgbeg_begins hc, execStgbeg_order hc⟩, fun hc ha => ⟨execStgnext_order hc ha, fun hs hnone =>
      ⟨execStgnext_ends hc ha hs hnone, fun h1 hx => (execStgnext_in_window hc ha hs hnone h1 hx).1,
        fun h1 hx => (execStgnext_in_window hc ha hs hnone h1 hx).2⟩⟩, fun hnone => ⟨fun hc => execStgadv_order (hgv 2 ▸ hc) hnone,
      fun hc => execStgset_order (hgv 3 ▸ hc) hnone, fun hc => execStgwl_order (hgv 4 ▸ hc) hnone, fun hc => execStgend_order hc hnone⟩,
      fun k hk => ?_⟩
    rw [← hval]
    exact ⟨fun hc => execStgadv_gives hk (hgv 2 ▸ hc), fun hc => execStgset_gives hk (hgv 3 ▸ hc),
      fun hc => execStgwl_in_slot (hgv 4 ▸ hc) hk, fun hc => execStgend_gives hc hk⟩
  · refine ⟨fun i => ?_, ?_, ?_, ?_, ?_, fun j hj hbefore hat => ?_, fun hnone => ?_, (v.endSlot_state k).1, (v.endSlot_state k).2⟩
    all_goals rw [v.endSlot_eq k]
    · exact v.stopSlot_get k i
    · exact (v.stopSlot k).lowestUnended_of_first hj hbefore hat
    · exact (v.stopSlot k).lowestUnended_of_none hnone

end Sys2Proof.Machine
end

section
/-! PROOFS. The task engine (spec/04 R89–R102): what releases, bins and retirements leave of the tasks of a die's table. -/

namespace Sys2Proof

/-- Each listed element changed by a function that leaves the default alone. -/
theorem Map.get_mapVals {α : Type} [Inhabited α] [DecidableEq α] {m : Map α} {f : Nat → α → α} (hw : m.wf = true) (hf : ∀ k, f k default = default)
    (k : Nat) : Map.get (m.mapVals f) k = f k (m.get k) := by
  unfold Map.wf at hw
  generalize 0 = lo at hw
  induction m generalizing lo with
  | nil => exact (hf k).symm
  | cons e m ih =>
    obtain ⟨j, v⟩ := e
    simp only [Map.wfFrom, Bool.and_eq_true, decide_eq_true_eq] at hw
    have hrest := ih _ hw.2
    have habsent (h : j = k) : Map.get m k = default := by
      by_contra hne
      exact absurd (Map.le_of_mem_wfFrom hw.2 (Map.mem_of_get hne)) (by simp [h])
    have hcons : Map.mapVals ((j, v) :: m) f = if f j v = default then Map.mapVals m f else (j, f j v) :: Map.mapVals m f := by
      unfold Map.mapVals
      rw [List.filterMap_cons]
      dsimp only
      split_ifs <;> rfl
    rw [hcons, Map.get]
    by_cases hj : j = k
    · subst hj
      rw [if_pos rfl]
      split
      · next hd => rw [hrest, habsent rfl, hf, hd]
      · exact if_pos rfl
    · rw [if_neg hj]
      split
      · exact hrest
      · rw [Map.get, if_neg hj, hrest]

theorem Map.get_of_firstKey {α : Type} [Inhabited α] [DecidableEq α] {m : Map α} {p : Nat → α → Bool} {k : Nat} (hw : m.wf = true)
    (h : m.firstKey p = some k) : p k (m.get k) = true := by
  obtain ⟨e, he, rfl⟩ := Option.map_eq_some_iff.1 h
  rw [Map.get_of_mem hw (List.mem_of_find?_eq_some he)]
  exact List.find?_some (p := fun e : Nat × α => p e.1 e.2) he

end Sys2Proof

namespace Sys2Proof.Machine

variable (s : State) (die n m : Nat)

/-! ### Releases and bins -/

/-- A task as a bin takes it. -/
def Task.inBin (t : Task) (i : Nat) : Task := { t with place := .bin i }

theorem Die.enterBin_task {d e : Die} {n now : Nat} (h : d.enterBin n now = some e) (m : Nat) :
    e.tasks.get m = d.tasks.get m ∨ m = n ∧ ∃ i, e.tasks.get m = (d.tasks.get m).inBin i := by
  have hput (i : Nat) (bins : Map (Option Bin)) (r : List Nat)
      (he : e = { d with bins := bins, tasks := d.tasks.set n ((d.tasks.get n).inBin i), released := r }) :
      e.tasks.get m = d.tasks.get m ∨ m = n ∧ ∃ i, e.tasks.get m = (d.tasks.get m).inBin i := by
    subst he
    by_cases hm : m = n
    · exact .inr ⟨hm, i, by rw [hm, Map.get_set_self]⟩
    · exact .inl (Map.get_set_ne _ _ hm)
  unfold Die.enterBin at h
  dsimp only at h
  split at h
  · split at h
    · split at h
      · exact hput _ _ _ (Option.some.inj h).symm
      · cases h
    · cases h
  · obtain ⟨i, -, hi⟩ := Option.map_eq_some_iff.1 h
    exact hput _ _ _ hi.symm

/-- The bins take released tasks only, and change of a task where it stands. -/
theorem State.fillBins_task : ((s.fillBins die).die die).tasks.get m = (s.die die).tasks.get m ∨
    m ∈ (s.die die).released ∧ ∃ i, ((s.fillBins die).die die).tasks.get m = ((s.die die).tasks.get m).inBin i := by
  have hfold (ns : List Nat) (d : Die) : (ns.foldl (fun d n => (d.enterBin n s.gtime).getD d) d).tasks.get m = d.tasks.get m ∨
      m ∈ ns ∧ ∃ i, (ns.foldl (fun d n => (d.enterBin n s.gtime).getD d) d).tasks.get m = (d.tasks.get m).inBin i := by
    induction ns generalizing d with
    | nil => exact .inl rfl
    | cons n ns ih =>
      rw [List.foldl_cons]
      have hstep : ((d.enterBin n s.gtime).getD d).tasks.get m = d.tasks.get m ∨
          m = n ∧ ∃ i, ((d.enterBin n s.gtime).getD d).tasks.get m = (d.tasks.get m).inBin i := by
        cases he : d.enterBin n s.gtime with
        | none => exact .inl rfl
        | some e => exact Die.enterBin_task he m
      rcases ih ((d.enterBin n s.gtime).getD d) with hr | ⟨hm, i, hr⟩ <;> rcases hstep with hs | ⟨hn, j, hs⟩
      · exact .inl (hr.trans hs)
      · exact .inr ⟨hn ▸ List.mem_cons_self, j, hr.trans hs⟩
      · exact .inr ⟨List.mem_cons_of_mem _ hm, i, by rw [hr, hs]⟩
      · exact .inr ⟨List.mem_cons_of_mem _ hm, i, by rw [hr, hs]; rfl⟩
  unfold State.fillBins
  rw [State.die_modDie, if_pos rfl]
  exact hfold _ _

theorem State.fillBins_task_of_not_released {m : Nat} (h : m ∉ (s.die die).released) :
    ((s.fillBins die).die die).tasks.get m = (s.die die).tasks.get m :=
  (s.fillBins_task die m).resolve_right (fun hm => h hm.1)

/-- A task as its release leaves it, for some P4 and P5. -/
def Task.Released (t u : Task) : Prop := ∃ p4 p5, u = { t with place := .released, p4 := p4, p5 := p5 }

theorem State.releaseTask_die : ∃ t, ((s.die die).tasks.get n).Released t ∧
    (s.releaseTask die n).die die = { s.die die with tasks := (s.die die).tasks.set n t, released := (s.die die).released ++ [n] } := by
  unfold State.releaseTask
  rw [State.die_modDie, if_pos rfl]
  exact ⟨_, ⟨_, _, rfl⟩, rfl⟩

/-- What the bins and releases change of a task: where it stands, but for a task that waits in the table. -/
structure Task.Moved (t u : Task) : Prop where
  rd : u.rd = t.rd
  wr : u.wr = t.wr
  preds : u.preds = t.preds
  place : t.place ≠ .table → u.place ≠ .table

theorem Task.Moved.refl (t : Task) : t.Moved t := ⟨rfl, rfl, rfl, id⟩

theorem Task.Moved.trans {t u v : Task} (h : t.Moved u) (g : u.Moved v) : t.Moved v :=
  ⟨g.rd.trans h.rd, g.wr.trans h.wr, g.preds.trans h.preds, g.place ∘ h.place⟩

theorem Task.Released.moved {t u : Task} (h : t.Released u) : t.Moved u := by
  obtain ⟨p4, p5, rfl⟩ := h
  exact ⟨rfl, rfl, rfl, fun _ h => TaskPlace.noConfusion h⟩

theorem State.fillBins_moved : ((s.die die).tasks.get m).Moved (((s.fillBins die).die die).tasks.get m) := by
  rcases s.fillBins_task die m with h | ⟨-, i, h⟩ <;> rw [h]
  · exact .refl _
  · exact ⟨rfl, rfl, rfl, fun _ h => TaskPlace.noConfusion h⟩

/-- Tasks released one after another. -/
theorem State.releaseTasks_task (ks : List Nat) :
    let u := ks.foldl (fun s k => s.releaseTask die k) s
    (u.die die).released = (s.die die).released ++ ks ∧ ((s.die die).tasks.get m).Moved ((u.die die).tasks.get m) ∧
      (m ∉ ks → (u.die die).tasks.get m = (s.die die).tasks.get m) ∧ (m ∈ ks → ((u.die die).tasks.get m).place ≠ .table) ∧
      u.mem = s.mem ∧ u.warps = s.warps := by
  dsimp only
  induction ks generalizing s with
  | nil => exact ⟨(List.append_nil _).symm, .refl _, fun _ => rfl, fun h => absurd h List.not_mem_nil, rfl, rfl⟩
  | cons k ks ih =>
    obtain ⟨t, ht, hd⟩ := s.releaseTask_die die k
    obtain ⟨hrel, hmoved, hsame, hplace, hmem, hwarps⟩ := ih (s.releaseTask die k)
    have hget : ((s.releaseTask die k).die die).tasks.get m = if m = k then t else (s.die die).tasks.get m := by
      rw [hd]
      exact Map.get_set _ _ _ _
    rw [List.foldl_cons]
    refine ⟨?_, ?_, fun hm => ?_, fun hm => ?_, hmem, hwarps⟩
    · rw [hrel, hd, List.append_assoc]
      rfl
    · refine Task.Moved.trans ?_ hmoved
      rw [hget]
      split
      · next e => exact e ▸ ht.moved
      · exact .refl _
    · obtain ⟨hk, hks⟩ : m ≠ k ∧ m ∉ ks := by simpa using hm
      rw [hsame hks, hget, if_neg hk]
    · by_cases hks : m ∈ ks
      · exact hplace hks
      · rw [hsame hks, hget, if_pos ((List.mem_cons.1 hm).resolve_right hks)]
        obtain ⟨p4, p5, rfl⟩ := ht
        exact fun h => TaskPlace.noConfusion h

/-! ### Retirement (R93) -/

/-- The tasks that a task alone holds back. -/
def Die.heldBack (d : Die) (n : Nat) : List Nat := d.tasks.filterMap (fun e => if e.2.place = .table ∧ e.2.preds = [n] then some e.1 else none)

theorem Die.mem_heldBack {d : Die} {n m : Nat} (hm : (d.tasks.get m).place = .table) (hp : (d.tasks.get m).preds = [n]) : m ∈ d.heldBack n := by
  refine List.mem_filterMap.2 ⟨(m, d.tasks.get m), Map.mem_of_get (fun h => ?_), if_pos ⟨hm, hp⟩⟩
  rw [h] at hp
  cases hp

theorem Die.of_mem_heldBack {d : Die} {n m : Nat} (hw : d.tasks.wf = true) (h : m ∈ d.heldBack n) : (d.tasks.get m).place = .table := by
  obtain ⟨⟨k, t⟩, hk, he⟩ := List.mem_filterMap.1 h
  split at he
  · next ht =>
    cases he
    rw [Map.get_of_mem hw hk]
    exact ht.1
  · cases he

/-- What a task is once another has left the table. -/
def Task.without (t : Task) (n : Nat) : Task := { t with preds := t.preds.filter (· != n) }

/-- What a task that leaves takes with it, before the tasks it alone held back are released. -/
def State.leaveTable (s : State) (die n : Nat) : State :=
  s.modDie die (fun d => { d with
    tasks := (d.tasks.keep (fun k _ => k != n)).mapVals (fun _ t => t.without n), released := d.released.filter (· != n) })

theorem State.dropTask_eq : s.dropTask die n = ((s.die die).heldBack n).foldl (fun s k => s.releaseTask die k) (s.leaveTable die n) := rfl

theorem State.leaveTable_task (hw : (s.die die).tasks.wf = true) :
    ((s.leaveTable die n).die die).tasks.get m = if m = n then default else ((s.die die).tasks.get m).without n := by
  unfold State.leaveTable
  rw [State.die_modDie, if_pos rfl]
  dsimp only
  rw [Map.get_mapVals (Map.wf_keep _ hw) (fun _ => rfl), Map.get_keep]
  by_cases hm : m = n
  · rw [if_pos hm, if_neg (by simp [hm])]
    rfl
  · rw [if_neg hm, if_pos (by simpa using hm)]

theorem State.leaveTable_released : ((s.leaveTable die n).die die).released = (s.die die).released.filter (· != n) := by
  unfold State.leaveTable
  rw [State.die_modDie, if_pos rfl]

/-- What becomes of the tasks of a table that one of them leaves: it is gone, it holds back no other, and what it alone held back waits no
longer. -/
structure State.Left (s u : State) (die n : Nat) : Prop where
  gone : (u.die die).tasks.get n = default
  preds : ∀ m, n ∉ ((u.die die).tasks.get m).preds
  freed : ∀ m, m ≠ n → ((s.die die).tasks.get m).place = .table → ((s.die die).tasks.get m).preds = [n] →
    ((u.die die).tasks.get m).place ≠ .table
  mem : u.mem = s.mem
  warps : u.warps = s.warps

theorem State.dropTask_left (hw : (s.die die).tasks.wf = true) (hn : ((s.die die).tasks.get n).place ≠ .table) :
    s.Left (s.dropTask die n) die n ∧ n ∉ ((s.dropTask die n).die die).released := by
  have hn : n ∉ (s.die die).heldBack n := fun h => hn (Die.of_mem_heldBack hw h)
  have hbefore (m : Nat) := s.leaveTable_task die n m hw
  have hdrop (m : Nat) := (s.leaveTable die n).releaseTasks_task die m ((s.die die).heldBack n)
  simp only [← State.dropTask_eq] at hdrop
  have hwithout (m : Nat) : n ∉ (((s.leaveTable die n).die die).tasks.get m).preds := by
    rw [hbefore]
    split
    · exact List.not_mem_nil
    · simp [Task.without]
  refine ⟨⟨?_, fun m => ?_, fun m _ hp hm => ?_, ?_, ?_⟩, ?_⟩
  · obtain ⟨-, -, hsame, -⟩ := hdrop n
    rw [hsame hn, hbefore, if_pos rfl]
  · obtain ⟨-, hmoved, -⟩ := hdrop m
    rw [hmoved.preds]
    exact hwithout m
  · obtain ⟨-, -, -, hplace, -⟩ := hdrop m
    exact hplace (Die.mem_heldBack hp hm)
  · exact (hdrop n).2.2.2.2.1
  · exact (hdrop n).2.2.2.2.2
  · rw [(hdrop n).1, State.leaveTable_released]
    simp [hn]

theorem State.Left.fillBins {s u : State} {die n : Nat} (h : s.Left u die n) (hn : n ∉ (u.die die).released) : s.Left (u.fillBins die) die n where
  gone := (u.fillBins_task_of_not_released die hn).trans h.gone
  preds m := by
    rw [(u.fillBins_moved die m).preds]
    exact h.preds m
  freed m hm hp ht := (u.fillBins_moved die m).place (h.freed m hm hp ht)
  mem := h.mem
  warps := h.warps

theorem execTaskRetire_waits (h : ((s.die die).tasks.get n).retiring = none) : execTaskRetire die n s = .next s := by
  unfold execTaskRetire
  rw [h]

theorem execTaskRetire_held {ops : List Nat} (h : ((s.die die).tasks.get n).retiring = some ops) (hm : ∃ m ∈ ops, (s.op m).isSome = true) :
    execTaskRetire die n s = .next s := by
  unfold execTaskRetire
  rw [h]
  exact if_pos (List.any_eq_true.2 hm)

theorem execTaskRetire_leaves {ops : List Nat} (hw : (s.die die).tasks.wf = true) (hn : ((s.die die).tasks.get n).place = .running)
    (h : ((s.die die).tasks.get n).retiring = some ops) (hm : ∀ m ∈ ops, s.op m = none) :
    ∃ u, execTaskRetire die n s = .next u ∧ s.Left u die n := by
  obtain ⟨hleft, hrel⟩ := s.dropTask_left die n hw (by rw [hn]; exact fun h => TaskPlace.noConfusion h)
  refine ⟨_, ?_, hleft.fillBins hrel⟩
  unfold execTaskRetire
  rw [h]
  refine if_neg ?_
  simp only [List.any_eq_true, not_exists, not_and]
  intro m hmem
  rw [hm m hmem]
  exact Bool.false_ne_true

end Sys2Proof.Machine
end

section
/-! PROOFS. The task engine: a record enters the table (spec/04 R91, R92, R96), comes back from the overflow ring (R101, R102). -/

namespace Sys2Proof.Machine

/-! ### The accesses of the task engine -/

theorem State.evictCopy_mem (s : State) (die : Nat) : (s.evictCopy die).mem = s.mem := by
  unfold State.evictCopy
  dsimp only
  split
  · rfl
  · exact (s.dropCopy_drops die _).mem

theorem State.fillCopy_mem (s : State) (die key : Nat) (ca : BitVec 2) (slot : BitVec 10) : (s.fillCopy die key ca slot).mem = s.mem := by
  unfold State.fillCopy
  split
  · have hd : (if ca ≠ 2 ∧ s.staleUnder die (lineOf key) slot = true then s.dropCopy die (lineOf key) else s).mem = s.mem := by
      split
      · exact (s.dropCopy_drops die _).mem
      · rfl
    dsimp only
    generalize (if ca ≠ 2 ∧ s.staleUnder die (lineOf key) slot = true then s.dropCopy die (lineOf key) else s) = u at hd ⊢
    split
    · exact hd
    · exact (u.evictCopy_mem die).trans hd
  · rfl

theorem State.readPieces_mem (s : State) (pl ctx : Nat) (vat : Option Nat) (x : Reader) (n : Nat) (ps : List (BitVec 64 × Nat))
    (acc : List Byte) : (s.readPieces pl ctx vat x n ps acc).1.mem = s.mem := by
  induction ps generalizing s n acc with
  | nil => rfl
  | cons p ps ih =>
    obtain ⟨va, k⟩ := p
    have hw := s.noteWalk_mem pl ctx (s.translate pl ctx va .read n)
    unfold State.readPieces
    dsimp only
    split
    · split
      · exact ih _ _ _
      · rfl
    · split
      · split
        · exact hw
        · split
          · exact hw
          · exact (ih _ _ _).trans ((State.fillCopy_mem _ _ _ _ _).trans hw)
      all_goals exact hw

theorem State.mapEntries_dies (s : State) (ctx die : Nat) : (s.mapEntries ctx die).1.dies = s.dies := by
  have hr : (s.agentRead ctx die (s.ctx ctx).poolVa 4096 170).1.dies = s.dies := (s.readPieces_onward _ _ _ _ _ _ _).dies
  unfold State.mapEntries
  dsimp only
  split
  · rfl
  · split <;> exact hr

/-! ### Renaming (R92) -/

theorem State.resolveWrites_dies (s : State) (ctx die : Nat) (ws : List Word) (js : List Nat) (m : List (BitVec 64 × BitVec 64))
    (acc : List (BitVec 64)) : (s.resolveWrites ctx die ws js m acc).1.dies = s.dies := by
  induction js generalizing s m acc with
  | nil => rfl
  | cons j js ih =>
    rw [State.resolveWrites]
    dsimp only
    split
    · next a i _ =>
      have hw := (s.agentWrite_onward ctx ((s.ctx ctx).poolVa + BitVec.ofNat 64 (16 * i))
        (natToBytes 8 (recKey ws (4 + j)).toNat ++ natToBytes 8 a.toNat) 180 (agentPlace die)).dies
      split
      · exact (ih _ _ _).trans hw
      · split
        · exact hw
        · exact (ih _ _ _).trans hw
    · exact ih _ _ _

theorem mapOf_nil (k : BitVec 64) : mapOf [] k = k := ite_self k

theorem State.poolTake_nil (s : State) (ctx : Nat) (k : BitVec 64) : s.poolTake ctx [] k = none := rfl

/-- With no renaming, the write keys stand as they are. -/
theorem State.resolveWrites_of_no_map (s : State) (ctx die : Nat) (ws : List Word) (js : List Nat) (acc : List (BitVec 64)) :
    s.resolveWrites ctx die ws js [] acc = (s, acc ++ js.map (fun j => recKey ws (4 + j)), none) := by
  induction js generalizing acc with
  | nil => rw [State.resolveWrites, List.map_nil, List.append_nil]
  | cons j js ih =>
    rw [State.resolveWrites]
    simp only [State.poolTake_nil, ite_self, mapOf_nil, ih, List.map_cons, List.append_assoc, List.cons_append, List.nil_append]

theorem State.mapEntries_of_no_pool (s : State) (ctx die : Nat) (h : (s.ctx ctx).poolTiles = 0) : s.mapEntries ctx die = (s, [], none) := if_pos h

/-! ### A record enters the table (R91) -/

/-- The tasks of a table that a record of keys `rd` and `wr` waits for. -/
def Die.predsOf (d : Die) (t : Task) : List Nat :=
  (d.entries t.ctx).filterMap (fun e =>
    if e.2.wr.any t.rd.contains || e.2.wr.any t.wr.contains || e.2.rd.any t.wr.contains || stencilPred e.2 t then some e.1 else none)

/-- A record stands in the table with the tasks it waits for. -/
def State.standing (s : State) (die n : Nat) (t : Task) : State :=
  s.modDie die (fun d => { d with tasks := d.tasks.set n { t with preds := (s.die die).predsOf t } })

theorem State.enterTable_eq (s : State) (die n : Nat) (t : Task) :
    s.enterTable die n t = if ((s.die die).predsOf t).isEmpty then (s.standing die n t).releaseTask die n else s.standing die n t := rfl

theorem State.standing_die (s : State) (die n : Nat) (t : Task) : ((s.standing die n t).die die).released = (s.die die).released ∧
    ((s.standing die n t).die die).tasks.get n = { t with preds := (s.die die).predsOf t } := by
  unfold State.standing
  rw [State.die_modDie, if_pos rfl]
  exact ⟨rfl, Map.get_set_self _ _ _⟩

/-- What a task is when its record has entered and the bins are filled. -/
structure State.Entered (u : State) (die n : Nat) (t : Task) (ps : List Nat) : Prop where
  rd : ((u.die die).tasks.get n).rd = t.rd
  wr : ((u.die die).tasks.get n).wr = t.wr
  preds : ((u.die die).tasks.get n).preds = ps
  waits : ps ≠ [] → ((u.die die).tasks.get n).place = .table
  released : ps = [] → ((u.die die).tasks.get n).place = .released ∨ ∃ i, ((u.die die).tasks.get n).place = .bin i

theorem State.enterTable_entered (s : State) (die n : Nat) (t : Task) (hn : n ∉ (s.die die).released) (ht : t.place = .table) :
    ((s.enterTable die n t).fillBins die).Entered die n t ((s.die die).predsOf t) := by
  obtain ⟨hrel, htask⟩ := s.standing_die die n t
  rw [State.enterTable_eq]
  by_cases hp : (s.die die).predsOf t = []
  · rw [if_pos (List.isEmpty_iff.2 hp)]
    obtain ⟨r, ⟨p4, p5, hr⟩, hd⟩ := (s.standing die n t).releaseTask_die die n
    have hget : (((s.standing die n t).releaseTask die n).die die).tasks.get n = r := by
      rw [hd]
      exact Map.get_set_self _ _ _
    have hmoved := ((s.standing die n t).releaseTask die n).fillBins_moved die n
    rw [hget, hr, htask] at hmoved
    refine ⟨hmoved.rd, hmoved.wr, hmoved.preds, fun h => absurd hp h, fun _ => ?_⟩
    rcases ((s.standing die n t).releaseTask die n).fillBins_task die n with h | ⟨-, i, h⟩ <;> rw [h, hget, hr]
    · exact .inl rfl
    · exact .inr ⟨i, rfl⟩
  · rw [if_neg (by rwa [List.isEmpty_iff])]
    have hsame := (s.standing die n t).fillBins_task_of_not_released die (hrel ▸ hn)
    rw [htask] at hsame
    refine ⟨?_, ?_, ?_, fun _ => ?_, fun h => absurd h hp⟩ <;> rw [hsame]
    exact ht

theorem State.enterTable_mem (s : State) (die n : Nat) (t : Task) : (s.enterTable die n t).mem = s.mem := by
  rw [State.enterTable_eq]
  split <;> rfl

/-- A waiting record as it enters. -/
def Task.entering (t : Task) (rd wr : List (BitVec 64)) : Task := { t with rd := rd, wr := wr, place := .table }

section Enter
variable {s : State} {die ctx n : Nat}
  (hfirst : (s.die die).tasks.firstKey (fun _ t => decide (t.ctx = ctx) && t.place == .waiting) = some n)
include hfirst

theorem execTaskEnter_spilled (h : ((s.die die).tasks.get n).spilled = true) : execTaskEnter die ctx s = .next s := by
  unfold execTaskEnter
  rw [hfirst]
  exact if_pos h

theorem execTaskEnter_enters (hw : (s.die die).tasks.wf = true) (hspill : ((s.die die).tasks.get n).spilled = false)
    (hrel : n ∉ (s.die die).released) :
    let t := (s.die die).tasks.get n
    let m := s.mapEntries ctx die
    let w := m.1.resolveWrites ctx die t.words (List.range (recNwr t.words)) m.2.1 []
    let e := t.entering ((List.range (recNrd t.words)).map (fun j => mapOf m.2.1 (recKey t.words j))) w.2.1
    m.2.2 = none → w.2.2 = none → ∃ u, execTaskEnter die ctx s = .next u ∧ u.mem = w.1.mem ∧ t.ctx = ctx ∧
      u.Entered die n e ((w.1.die die).predsOf e) := by
  intro t m w e hm hwm
  have hctx : t.ctx = ctx := by
    have hp := Map.get_of_firstKey hw hfirst
    exact of_decide_eq_true (Bool.and_eq_true_iff.1 hp).1
  have hdie : w.1.die die = s.die die := by
    unfold State.die
    rw [State.resolveWrites_dies, State.mapEntries_dies]
  refine ⟨(w.1.enterTable die n e).fillBins die, ?_, State.enterTable_mem _ _ _ _, hctx, State.enterTable_entered _ _ _ _ (hdie ▸ hrel) rfl⟩
  unfold execTaskEnter
  rw [hfirst]
  dsimp only
  refine (if_neg (by rw [hspill]; exact Bool.false_ne_true)).trans ?_
  rw [hm]
  simp only [Option.isSome_none, Bool.false_eq_true, if_false]
  rw [show (m.1.resolveWrites ctx die t.words (List.range (recNwr t.words)) m.2.1 []).2.2 = none from hwm]
  rfl

end Enter

/-! ### A record comes back from the overflow ring (R101, R102) -/

section Refill
variable {s : State} {die ctx n : Nat} (hspilled : (s.ctx ctx).spilled die ≠ 0) (hroom : (s.die die).tableUsed < 4096)
  (hgo : (s.ctx ctx).refillStopped.getLsbD die = false) (hok : (s.ctx ctx).faulted = false)
  (hfirst : (s.die die).tasks.firstKey (fun _ t => decide (t.ctx = ctx) && t.spilled) = some n)

/-- The read of the record at the head of a quarter. -/
def State.headRead (s : State) (ctx die : Nat) : State × Except Miss (List Byte) :=
  s.agentRead ctx die ((s.ctx ctx).ringVa die ((s.ctx ctx).ovf.get (2 * die)).toNat) 64 190

/-- The state with the head of a quarter read and moved on. -/
def State.headTaken (s : State) (ctx die : Nat) : State := (s.headRead ctx die).1.modCtx ctx (fun c => c.bump (2 * die))

/-- A record of a spilled task as it comes back. -/
def Task.unspilled (t : Task) (bs : List Byte) : Task :=
  { t with spilled := false, words := (List.range 16).map (fun i => BitVec.ofNat 32 (word bs (4 * i))) }

theorem State.headTaken_mem (s : State) (ctx die : Nat) : (s.headTaken ctx die).mem = s.mem := s.readPieces_mem _ _ _ _ _ _ _

theorem State.headTaken_die (s : State) (ctx die j : Nat) : (s.headTaken ctx die).die j = s.die j := by
  unfold State.die
  rw [show (s.headTaken ctx die).dies = s.dies from (s.readPieces_onward _ _ _ _ _ _ _).dies]

theorem Context.bump_ovf (c : Context) (i : Nat) : (c.bump i).ovf.get i = BitVec.ofNat 32 (((c.ovf.get i).toNat + 1) % (2 * c.quarter)) := by
  unfold Context.bump
  rw [Map.get_modify, if_pos rfl]

theorem State.headTaken_ovf (s : State) (ctx die : Nat) : ((s.headTaken ctx die).ctx ctx).ovf.get (2 * die) =
    BitVec.ofNat 32 ((((s.ctx ctx).ovf.get (2 * die)).toNat + 1) % (2 * (s.ctx ctx).quarter)) := by
  obtain ⟨m, hm⟩ := (s.readPieces_acts (agentPlace die) ctx none (.exact none) 190
    (rangePieces ((s.ctx ctx).ringVa die ((s.ctx ctx).ovf.get (2 * die)).toNat) 64) []).ctx ctx
  have hm : (s.headRead ctx die).1.ctx ctx = { s.ctx ctx with tdmask := m } := hm
  unfold State.headTaken
  rw [State.ctx_modCtx, if_pos rfl, hm]
  exact Context.bump_ovf _ _

include hspilled hroom hgo hok hfirst

theorem execOverflowRefill_read {bs : List Byte} (hbs : (s.headRead ctx die).2 = .ok bs) : execOverflowRefill die ctx s =
    if ((s.die die).tasks.get n).place = .retired then .next ((s.headTaken ctx die).dropTask die n)
    else .next ((s.headTaken ctx die).modDie die (fun d => { d with tasks := d.tasks.modify n (fun t => t.unspilled bs) })) := by
  have hroom : ¬ 4096 ≤ (s.die die).tableUsed := Nat.not_le.2 hroom
  unfold execOverflowRefill
  dsimp only
  rw [if_neg (by simp [hspilled, hroom, hgo, hok]), hfirst]
  dsimp only
  rw [show (s.agentRead ctx die ((s.ctx ctx).ringVa die ((s.ctx ctx).ovf.get (2 * die)).toNat) 64 190).2 = .ok bs from hbs]
  rfl

theorem execOverflowRefill_drops {bs : List Byte} (hbs : (s.headRead ctx die).2 = .ok bs) (hw : (s.die die).tasks.wf = true)
    (hret : ((s.die die).tasks.get n).place = .retired) :
    ∃ u, execOverflowRefill die ctx s = .next u ∧ (s.headTaken ctx die).Left u die n ∧ u.ctxs = (s.headTaken ctx die).ctxs := by
  have hd := s.headTaken_die ctx die die
  refine ⟨_, (execOverflowRefill_read hspilled hroom hgo hok hfirst hbs).trans (if_pos hret), (State.dropTask_left _ die n (hd ▸ hw) ?_).1, ?_⟩
  · rw [hd, hret]
    exact fun h => TaskPlace.noConfusion h
  · rw [State.dropTask_eq]
    generalize hu : (s.headTaken ctx die).leaveTable die n = u
    have hu : u.ctxs = (s.headTaken ctx die).ctxs := hu ▸ rfl
    rw [← hu]
    exact List.foldlRecOn (motive := fun t : State => t.ctxs = u.ctxs) _ _ rfl (fun _ h _ _ => h)

theorem execOverflowRefill_refills {bs : List Byte} (hbs : (s.headRead ctx die).2 = .ok bs)
    (hret : ((s.die die).tasks.get n).place ≠ .retired) :
    ∃ u, execOverflowRefill die ctx s = .next u ∧ u.mem = (s.headTaken ctx die).mem ∧ u.ctxs = (s.headTaken ctx die).ctxs ∧
      (u.die die).tasks.get n = ((s.die die).tasks.get n).unspilled bs := by
  refine ⟨_, (execOverflowRefill_read hspilled hroom hgo hok hfirst hbs).trans (if_neg hret), rfl, rfl, ?_⟩
  rw [State.die_modDie, if_pos rfl, s.headTaken_die]
  dsimp only
  rw [Map.get_modify, if_pos rfl]

end Refill

theorem execOvfStall_raises {s : State} {k : Nat} (hp : (s.warp k).hold = .parked .spawn) (ht : (s.warp k).holdSince + 2000000 ≤ s.gtime) :
    execOvfStall k s = .next (s.raise k { code := 0x12, flm := (s.warp k).clause.enabled &&& ~~~ (s.warp k).spawnDone,
                                          fpc := (s.warp k).clause.pc } .again) :=
  if_pos (by simp [hp, ht])

end Sys2Proof.Machine
end

section
/-! PROOFS. The start of a vat (spec/04 R87): what it and its warps begin with, and what its placement leaves alone. -/

namespace Sys2Proof.Machine

/-! ### Masks of lanes and PCs -/

theorem getLsbD_laneBit (k l : Nat) (hl : l < 32) : (laneBit k).getLsbD l = decide (l = k) := by
  rw [laneBit, BitVec.getLsbD_shiftLeft, show (1 : Lanes) = 1#32 from rfl, BitVec.getLsbD_one, decide_eq_true hl]
  rcases Nat.lt_trichotomy l k with h | h | h
  · simp [h, Nat.ne_of_lt h]
  · simp [h]
  · simp [Nat.not_lt.2 (Nat.le_of_lt h), Nat.ne_of_gt h, Nat.sub_eq_zero_iff_le, Nat.not_le.2 h]

theorem inMask_maskOf (ls : List Nat) {l : Nat} (hl : l < 32) : inMask (maskOf ls) l = decide (l ∈ ls) := by
  unfold inMask
  induction ls with
  | nil => simp [maskOf]
  | cons k ks ih => simp only [maskOf, BitVec.getLsbD_or, ih, getLsbD_laneBit k l hl, List.mem_cons, Bool.decide_or]

theorem mem_lanesOf_maskOf {ls : List Nat} {l : Nat} (hl : l < 32) (h : l ∈ ls) : l ∈ lanesOf (maskOf ls) :=
  List.mem_filter.2 ⟨List.mem_range.2 hl, by rw [inMask_maskOf ls hl, decide_eq_true h]⟩

theorem get_setPcs (m : Map Word) (ls : List Nat) (pc : Nat → Word) (l : Nat) :
    (setPcs m ls pc).get l = if l ∈ ls then pc l else m.get l := by
  unfold setPcs
  induction ls generalizing m with
  | nil => rfl
  | cons k ks ih =>
    rw [List.foldl_cons, ih, Map.get_set]
    by_cases hks : l ∈ ks
    · rw [if_pos hks, if_pos (List.mem_cons_of_mem _ hks)]
    · by_cases hk : l = k
      · rw [if_neg hks, if_pos hk, if_pos (hk ▸ List.mem_cons_self), hk]
      · rw [if_neg hks, if_neg hk, if_neg (by simp [hk, hks])]

theorem startWarp_lpc {vat num core slot placed entry l : Nat} {mat : Bool} {live : Lanes} {code : CodeHeader} {regs : Map Word}
    (h : l ∈ lanesOf live) : (startWarp vat num mat core slot placed live entry code regs).lpc.get l = BitVec.ofNat 32 entry :=
  (get_setPcs _ _ _ _).trans (if_pos h)

/-! ### Warps written one after another -/

theorem warpKey_injective (k : Nat) : Function.Injective (warpKey k) := fun i j h => by
  unfold warpKey at h
  omega

section SetWarps
variable (s : State) (key : Nat → Nat) (w : Nat → Nat → Warp) (ns : List Nat)

/-- Warps written at keys that number them, each at the next place as it stands. -/
def State.setWarps : State := ns.foldl (fun s i => s.setWarp (key i) (w s.nextPlace i)) s

theorem State.setWarps_only : s.setWarps key w ns = { s with warps := (s.setWarps key w ns).warps } := by
  unfold State.setWarps
  induction ns generalizing s with
  | nil => rfl
  | cons n ns ih =>
    rw [List.foldl_cons, ih]
    rfl

theorem State.setWarps_warp (hk : Function.Injective key) (i : Nat) :
    (s.setWarps key w ns).warp (key i) = if i ∈ ns then w s.nextPlace i else s.warp (key i) := by
  unfold State.setWarps
  induction ns generalizing s with
  | nil => rfl
  | cons n ns ih =>
    rw [List.foldl_cons, ih, State.warp_setWarp]
    by_cases hns : i ∈ ns
    · rw [if_pos hns, if_pos (List.mem_cons_of_mem _ hns)]
      rfl
    · by_cases hn : i = n
      · rw [if_neg hns, if_pos (congrArg key hn), if_pos (hn ▸ List.mem_cons_self), hn]
      · rw [if_neg hns, if_neg (hk.ne hn), if_neg (by simp [hn, hns])]

theorem State.setWarps_other {j : Nat} (hj : ∀ i ∈ ns, j ≠ key i) : (s.setWarps key w ns).warp j = s.warp j := by
  unfold State.setWarps
  induction ns generalizing s with
  | nil => rfl
  | cons n ns ih =>
    obtain ⟨hn, hns⟩ := List.forall_mem_cons.1 hj
    rw [List.foldl_cons, ih _ hns, State.warp_setWarp, if_neg hn]

end SetWarps

/-! ### A new vat -/

/-- Lanes live at the start of warps 0 to `n - 1`. -/
def firstLanes (live : Nat → Lanes) (n : Nat) : Nat := ((List.range n).map (fun i => countLanes (live i))).foldl (· + ·) 0

/-- What a new vat has of its lot, its core and its number. -/
structure Vat.Starts (v : Vat) (r : LotRecord) (code : CodeHeader) (lot : Nat) (need : Need) (core : Nat) (vatnum : Word) (task : Bool)
    (first : Nat) : Prop where
  grid : task = false → v.gridX = BitVec.ofNat 32 (vatnum.toNat % r.gx) ∧ v.gridY = BitVec.ofNat 32 (vatnum.toNat / r.gx % r.gy) ∧
    v.gridZ = BitVec.ofNat 32 (vatnum.toNat / r.gx / r.gy)
  lot : v.lot = lot
  vatnum : v.vatnum = vatnum
  place : v.place = .resident
  core : v.core = core
  nwarp : v.nwarp = need.nvec + need.nmat
  regs : v.regs = need.regs
  scr : v.scr = need.scr
  acc : v.acc = need.acc
  task : v.task = task
  vvmask : v.vvmask = code.vvm
  vbstat : v.vbstat = vbMake false first 0
  scratch : v.scratch = []
  tiles : v.tiles = []
  ringd : v.ringd = []
  hist : v.hist = []

/-- What the start of a vat leaves alone: all but the new vat, its warps and the next numbers. -/
structure State.Begins (s t : State) (n : Nat) : Prop where
  only : t = { s with vats := t.vats, nextLseq := s.nextLseq + 1, nextPlace := s.nextPlace + n, warps := t.warps }
  vat : ∀ k, k ≠ s.nextLseq → t.vat k = s.vat k
  warp : ∀ j, (∀ i < n, j ≠ warpKey s.nextLseq i) → t.warp j = s.warp j

theorem State.Begins.mem {s t : State} {n : Nat} (h : s.Begins t n) : t.mem = s.mem := by rw [h.only]
theorem State.Begins.nextLseq {s t : State} {n : Nat} (h : s.Begins t n) : t.nextLseq = s.nextLseq + 1 := by rw [h.only]

section StartVat
variable (s : State) (lot : Nat) (need : Need) (core : Nat) (subs : List Nat) (vatnum : Word) (task : Bool) (live : Nat → Lanes) (entry : Nat)
  (regs : Nat → Map Word)

/-- A new vat is a vat listed, and its warps written in number order. -/
theorem State.startVat_eq : ∃ (u : State) (v : Vat) (w : Nat → Nat → Warp),
    s.startVat lot need core subs vatnum task live entry regs = u.setWarps (warpKey s.nextLseq) w (List.range (need.nvec + need.nmat)) ∧
    u = { s with vats := s.vats.set s.nextLseq (some v), nextLseq := s.nextLseq + 1, nextPlace := s.nextPlace + (need.nvec + need.nmat) } ∧
    v.Starts (s.lot lot).record (s.lot lot).code lot need core vatnum task (firstLanes live (need.nvec + need.nmat)) ∧
    ∀ p i, ∃ slot placed, w p i =
      startWarp s.nextLseq i (decide (need.nvec ≤ i)) core slot placed (live i) entry (s.lot lot).code (regs i) := by
  refine ⟨_, _, fun p i => startWarp s.nextLseq i (decide (need.nvec ≤ i)) core ((s.slotsFor core subs []).getD i 0)
    (p - (need.nvec + need.nmat) + i) (live i) entry (s.lot lot).code (regs i), rfl, rfl, ?_, fun p i => ⟨_, _, rfl⟩⟩
  refine ⟨fun h => ?_, rfl, rfl, rfl, rfl, rfl, rfl, rfl, rfl, rfl, rfl, rfl, rfl, rfl, rfl, rfl⟩
  subst h
  exact ⟨rfl, rfl, rfl⟩

theorem State.startVat_begins : s.Begins (s.startVat lot need core subs vatnum task live entry regs) (need.nvec + need.nmat) := by
  obtain ⟨u, v, w, heq, hu, -, -⟩ := s.startVat_eq lot need core subs vatnum task live entry regs
  have honly := u.setWarps_only (warpKey s.nextLseq) w (List.range (need.nvec + need.nmat))
  rw [heq]
  refine ⟨?_, fun k hk => ?_, fun j hj => ?_⟩
  · rw [honly, hu]
  · have hv : (u.setWarps (warpKey s.nextLseq) w (List.range (need.nvec + need.nmat))).vats = u.vats := by rw [honly]
    unfold State.vat
    rw [hv, hu]
    dsimp only
    rw [Map.get_set_ne _ _ hk]
  · rw [State.setWarps_other _ _ _ _ (fun i hi => hj i (List.mem_range.1 hi)), hu]
    rfl

theorem State.startVat_vat : ((s.startVat lot need core subs vatnum task live entry regs).vat s.nextLseq).Starts (s.lot lot).record
    (s.lot lot).code lot need core vatnum task (firstLanes live (need.nvec + need.nmat)) := by
  obtain ⟨u, v, w, heq, hu, hv, -⟩ := s.startVat_eq lot need core subs vatnum task live entry regs
  have hvats : (u.setWarps (warpKey s.nextLseq) w (List.range (need.nvec + need.nmat))).vats = u.vats := by rw [State.setWarps_only]
  have hget : (s.startVat lot need core subs vatnum task live entry regs).vat s.nextLseq = v := by
    unfold State.vat
    rw [heq, hvats, hu]
    dsimp only
    rw [Map.get_set_self]
    rfl
  rwa [hget]

theorem State.startVat_warp {i : Nat} (hi : i < need.nvec + need.nmat) : ∃ slot placed,
    (s.startVat lot need core subs vatnum task live entry regs).warp (warpKey s.nextLseq i) =
      startWarp s.nextLseq i (decide (need.nvec ≤ i)) core slot placed (live i) entry (s.lot lot).code (regs i) := by
  obtain ⟨u, v, w, heq, hu, -, hw⟩ := s.startVat_eq lot need core subs vatnum task live entry regs
  obtain ⟨slot, placed, hw⟩ := hw u.nextPlace i
  refine ⟨slot, placed, ?_⟩
  rw [heq, State.setWarps_warp _ _ _ _ (warpKey_injective _), if_pos (List.mem_range.2 hi), hw]

end StartVat

/-! ### A bin forms a warp (R98, R99) -/

/-- Each task of a bin goes to the lane of its place. -/
theorem get_tasks_of_bin (ts : List Nat) (l : Nat) :
    ((ts.zip (List.range ts.length)).foldl (fun (m : Map (Option Nat)) e => m.set e.2 (some e.1)) []).get l = ts[l]? := by
  have hzip (ts : List Nat) (k : Nat) (m : Map (Option Nat)) : ((ts.zipIdx k).foldl (fun m e => m.set e.2 (some e.1)) m).get l =
      if k ≤ l ∧ l - k < ts.length then ts[l - k]? else m.get l := by
    induction ts generalizing k m with
    | nil => simp
    | cons t ts ih =>
      rw [List.zipIdx_cons, List.foldl_cons, ih, Map.get_set]
      by_cases hk : l = k
      · subst hk
        simp
      · by_cases hlt : k + 1 ≤ l
        · have hsub : l - k = l - (k + 1) + 1 := by omega
          rw [hsub]
          simp [hlt, Nat.le_of_succ_le hlt, hk]
        · rw [if_neg (fun h => hlt h.1), if_neg hk, if_neg (fun h => hlt (by omega))]
  rw [List.range_eq_range', ← List.zipIdx_eq_zip_range', hzip]
  split
  · rfl
  · next h => exact (List.getElem?_eq_none (by simpa using h)).symm

/-- A bin is due when it is full, or its timer has counted BTIM cycles of 1.4 GHz. -/
theorem bin_due {b : Bin} {btim : BitVec 8} {now : Nat}
    (h : b.tasks.length = 32 ∨ (b.since ≤ now ∧ btim.toNat * 1000 ≤ (now - b.since) * 1400)) :
    (b.tasks.length == 32 || decide (b.since + binTime btim ≤ now)) = true := by
  unfold binTime
  rcases h with h | h
  · simp [h]
  · simp only [Bool.or_eq_true, decide_eq_true_eq]
    exact .inr (by omega)

section BinFormWarp
variable {s : State} {die bin core : Nat} {b : Bin} {f : FuncEntry} {subs : List Nat}

/-- What a warp of a function's tasks needs. -/
def FuncEntry.taskNeed (f : FuncEntry) : Need := { nvec := 1, nmat := 0, regs := f.regs, scr := f.scr, acc := f.acc }

/-- The lanes that the tasks of a bin take, and the registers that its warp begins with. -/
def Bin.lanes (b : Bin) : List (Nat × Nat) := b.tasks.zip (List.range b.tasks.length)
def State.binRegs (s : State) (die : Nat) (b : Bin) : Map Word :=
  b.lanes.foldl (fun m e => m.setAll (((s.die die).tasks.get e.1).laneRegs e.2 e.1)) (kinitRegs (s.lot b.lot).record.kinit)

/-- A warp with the tasks of a bin in its lanes. -/
def Warp.withBin (w : Warp) (b : Bin) : Warp := { w with tasks := b.lanes.foldl (fun m e => m.set e.2 (some e.1)) [] }

/-- The state with the vat of a bin started. -/
def State.binVat (s : State) (die : Nat) (b : Bin) (f : FuncEntry) (core : Nat) (subs : List Nat) : State :=
  s.startVat b.lot f.taskNeed core subs 0xFFFFFFFF true (fun _ => maskOf (b.lanes.map (·.2))) f.eoff (fun _ => s.binRegs die b)

/-- The state with the tasks of a bin in the lanes of its warp. -/
def State.binWarp (s : State) (die : Nat) (b : Bin) (f : FuncEntry) (core : Nat) (subs : List Nat) : State :=
  (s.binVat die b f core subs).modWarp (warpKey s.nextLseq 0) (fun w => w.withBin b)

/-- The state with a bin emptied and its tasks running. -/
def State.binFormed (s : State) (die bin : Nat) (b : Bin) (f : FuncEntry) (core : Nat) (subs : List Nat) : State :=
  ((s.binWarp die b f core subs).modDie die (fun d => { d with
    bins := d.bins.set bin none, tasks := b.tasks.foldl (fun m n => m.modify n (fun t => { t with place := .running })) d.tasks })).fillBins die

theorem execBinFormWarp_forms (hb : (s.die die).bins.get bin = some b) (hrun : (s.lot b.lot).phase = .running)
    (h1 : (s.lot b.lot).status ≠ 1) (h5 : (s.lot b.lot).status ≠ 5) (hf : (s.lot b.lot).code.taskFunc b.entry = some f)
    (hdue : b.tasks.length = 32 ∨ (b.since ≤ s.gtime ∧ (s.die die).btim.toNat * 1000 ≤ (s.gtime - b.since) * 1400))
    (hlive : (s.die die).state = .live) (hcore : chooseCore f.taskNeed die (s.candidates [die]) = some (core, subs)) :
    execBinFormWarp die bin s = .next (s.binFormed die bin b f core subs) := by
  unfold execBinFormWarp
  dsimp only
  rw [hb]
  dsimp only
  rw [if_pos (by rw [hrun, bne_iff_ne.2 h1, bne_iff_ne.2 h5]; rfl), hf]
  dsimp only
  unfold FuncEntry.taskNeed at hcore
  rw [if_pos (by rw [bin_due hdue, hlive]; rfl), hcore]
  rfl

theorem State.binFormed_vat (j : Nat) : (s.binFormed die bin b f core subs).vat j = (s.binWarp die b f core subs).vat j := rfl
theorem State.binFormed_warp (j : Nat) : (s.binFormed die bin b f core subs).warp j = (s.binWarp die b f core subs).warp j := rfl

theorem State.binVat_begins : s.Begins (s.binVat die b f core subs) 1 := s.startVat_begins _ _ _ _ _ _ _ _ _

theorem State.binFormed_frame : (s.binFormed die bin b f core subs).mem = s.mem ∧
    (s.binFormed die bin b f core subs).nextLseq = s.nextLseq + 1 :=
  have h : s.Begins (s.binVat die b f core subs) 1 := State.binVat_begins
  ⟨h.mem, h.nextLseq⟩

theorem State.binWarp_vat : ∃ first,
    ((s.binWarp die b f core subs).vat s.nextLseq).Starts (s.lot b.lot).record (s.lot b.lot).code b.lot f.taskNeed core 0xFFFFFFFF true first :=
  ⟨_, s.startVat_vat _ _ _ _ _ _ _ _ _⟩

theorem State.binWarp_warp : ∃ slot placed, (s.binWarp die b f core subs).warp (warpKey s.nextLseq 0) =
    (startWarp s.nextLseq 0 false core slot placed (maskOf (List.range b.tasks.length)) f.eoff (s.lot b.lot).code (s.binRegs die b)).withBin b := by
  have hlanes : b.lanes.map (·.2) = List.range b.tasks.length := List.map_snd_zip (by rw [List.length_range])
  obtain ⟨slot, placed, hw⟩ := s.startVat_warp b.lot f.taskNeed core subs 0xFFFFFFFF true (fun _ => maskOf (b.lanes.map (·.2))) f.eoff
    (fun _ => s.binRegs die b) (i := 0) Nat.one_pos
  refine ⟨slot, placed, ?_⟩
  rw [← hlanes]
  unfold State.binWarp State.binVat
  rw [State.warp_modWarp, if_pos rfl, hw]
  rfl

end BinFormWarp

end Sys2Proof.Machine
end

section
/-! PROOFS. What becomes of tasks, assembled (spec/04 R89–R102). -/

namespace Sys2Proof.Machine

/-- The warp of a bin has each task in the lane of its place, at the start of its function. -/
theorem State.binWarp_lanes {s : State} {die core : Nat} {b : Bin} {f : FuncEntry} {subs : List Nat} (hlen : b.tasks.length ≤ 32) :
    let w := (s.binWarp die b f core subs).warp (warpKey s.nextLseq 0)
    w.resident = true ∧ w.core = core ∧ w.masks.lmask = maskOf (List.range b.tasks.length) ∧
      ∀ l < b.tasks.length, w.lpc.get l = BitVec.ofNat 32 f.eoff ∧ w.tasks.get l = b.tasks[l]? := by
  obtain ⟨slot, placed, hw⟩ := State.binWarp_warp (s := s) (die := die) (b := b) (f := f) (core := core) (subs := subs)
  dsimp only
  rw [hw]
  refine ⟨rfl, rfl, rfl, fun l hl => ⟨(get_setPcs [] _ _ l).trans (if_pos ?_), get_tasks_of_bin b.tasks l⟩⟩
  exact mem_lanesOf_maskOf (Nat.lt_of_lt_of_le hl hlen) (List.mem_range.2 hl)

/-- Settles O38. The tasks of a table change by releases, bins and retirements as the lemmas before this say; the accesses of the task engine
leave the dies' tables and, where they read, memory alone. -/
theorem taskFlow : Obligations.TaskFlow := by
  unfold Obligations.TaskFlow
  intro s die ctx n bin k
  dsimp only
  intro hwf
  refine ⟨fun hfirst => ⟨fun h => execTaskEnter_spilled hfirst h, fun hspill hrel hm hw => ?_, fun hpool => ?_⟩,
    fun hrun => ⟨fun h => execTaskRetire_waits s die n h, fun ops h hops => execTaskRetire_held s die n h hops, fun ops h hops => ?_⟩,
    fun b f core subs hb hphase h1 h5 hf hdue hlive hlen hcore => ?_, fun hspilled hroom hgo hok hfirst bs hbs => ?_,
    fun hp ht => execOvfStall_raises hp ht⟩
  · obtain ⟨u, hu, hmem, hctx, hin⟩ := execTaskEnter_enters hfirst hwf hspill hrel hm hw
    have hpreds := hin.preds
    have hwaits := hin.waits
    have hreleased := hin.released
    unfold Die.predsOf Task.entering at hpreds hwaits hreleased
    dsimp only at hpreds hwaits hreleased
    rw [hctx] at hpreds hwaits hreleased
    exact ⟨u, hu, hmem, hin.rd, hin.wr, hpreds, hwaits, hreleased⟩
  · rw [s.mapEntries_of_no_pool ctx die hpool]
    dsimp only
    rw [s.resolveWrites_of_no_map]
    exact ⟨rfl, rfl⟩
  · obtain ⟨u, hu, hleft⟩ := execTaskRetire_leaves s die n hwf hrun h hops
    exact ⟨u, hu, hleft.gone, hleft.preds, hleft.freed, hleft.mem, hleft.warps⟩
  · obtain ⟨hmem, hnext⟩ := State.binFormed_frame (s := s) (die := die) (bin := bin) (b := b) (f := f) (core := core) (subs := subs)
    obtain ⟨first, hv⟩ := State.binWarp_vat (s := s) (die := die) (b := b) (f := f) (core := core) (subs := subs)
    refine ⟨_, execBinFormWarp_forms hb hphase h1 h5 hf hdue hlive hcore, hnext, hmem, ?_, ?_⟩
    · rw [State.binFormed_vat]
      exact ⟨hv.task, hv.nwarp, hv.lot, hv.core, hv.regs, hv.scr, hv.acc⟩
    · rw [State.binFormed_warp]
      exact State.binWarp_lanes hlen
  · have hctx {u : State} (h : u.ctxs = (s.headTaken ctx die).ctxs) : (u.ctx ctx).ovf.get (2 * die) =
        BitVec.ofNat 32 ((((s.ctx ctx).ovf.get (2 * die)).toNat + 1) % (2 * (s.ctx ctx).quarter)) := by
      unfold State.ctx at *
      rw [h]
      exact s.headTaken_ovf ctx die
    by_cases hret : ((s.die die).tasks.get n).place = .retired
    · obtain ⟨u, hu, hleft, hctxs⟩ := execOverflowRefill_drops hspilled hroom hgo hok hfirst hbs hwf hret
      exact ⟨u, hu, hleft.mem.trans (s.headTaken_mem ctx die), hctx hctxs, fun h => absurd hret h, fun _ => hleft.gone⟩
    · obtain ⟨u, hu, hmem, hctxs, htask⟩ := execOverflowRefill_refills hspilled hroom hgo hok hfirst hbs hret
      exact ⟨u, hu, hmem.trans (s.headTaken_mem ctx die), hctx hctxs, fun _ => by rw [htask]; exact ⟨rfl, rfl⟩, fun h => absurd h hret⟩

end Sys2Proof.Machine
end

section
/-! PROOFS. Placement (spec/04 R80–R87): the core that a vat goes to, and what a placed vat and its warps begin with. -/

namespace Sys2Proof.Machine

/-! ### The choice of a core (R82) -/

/-- The better of the best so far and one more. -/
def keepBest {α : Type} (better : α → α → Bool) (r : Option α) (a : α) : Option α :=
  match r with
  | none => some a
  | some b => if better a b then some a else some b

/-- Where the better of two measures no less, the best of a list is one of it, and of the greatest measure. -/
theorem keepBest_foldl {α : Type} {better : α → α → Bool} {size : α → Nat} (hyes : ∀ a b, better a b = true → size b ≤ size a)
    (hno : ∀ a b, better a b = false → size a ≤ size b) {xs : List α} {r : Option α} {x : α} (h : xs.foldl (keepBest better) r = some x) :
    (x ∈ xs ∨ r = some x) ∧ ∀ y, y ∈ xs ∨ r = some y → size y ≤ size x := by
  induction xs generalizing r with
  | nil => exact ⟨.inr h, fun y hy => Nat.le_of_eq (congrArg size (Option.some.inj (hy.resolve_left List.not_mem_nil ▸ h)))⟩
  | cons a as ih =>
    obtain ⟨hmem, hmax⟩ := ih h
    cases r with
    | none =>
      refine ⟨.inl (hmem.elim (List.mem_cons_of_mem _) (fun e => Option.some.inj e ▸ List.mem_cons_self)), fun y hy => ?_⟩
      exact hmax y ((List.mem_cons.1 (hy.resolve_right (fun e => by cases e))).symm.imp id (congrArg some ·.symm))
    | some b =>
      have hstep : keepBest better (some b) a = if better a b then some a else some b := rfl
      cases hab : better a b with
      | true =>
        rw [hstep, if_pos hab] at hmem hmax
        refine ⟨.inl (hmem.elim (List.mem_cons_of_mem _) (fun e => Option.some.inj e ▸ List.mem_cons_self)), fun y hy => ?_⟩
        rcases hy with hy | hy
        · exact hmax y ((List.mem_cons.1 hy).symm.imp id (congrArg some ·.symm))
        · exact Option.some.inj hy ▸ Nat.le_trans (hyes a b hab) (hmax a (.inr rfl))
      | false =>
        rw [hstep, if_neg (by rw [hab]; exact Bool.false_ne_true)] at hmem hmax
        refine ⟨hmem.imp (List.mem_cons_of_mem _) id, fun y hy => ?_⟩
        rcases hy with hy | hy
        · rcases List.mem_cons.1 hy with rfl | hy
          · exact Nat.le_trans (hno y b hab) (hmax b (.inr rfl))
          · exact hmax y (.inl hy)
        · exact hmax y (.inr hy)

/-- Core `a` is better than core `b`: more free warp slots, then ring order, then the lower number. -/
def coreBetter (start : Nat) (a b : Nat × Nat × List Nat) : Bool :=
  let ring (c : Nat) : Nat := (c / 44 + 4 - start) % 4
  b.2.1 < a.2.1 || (a.2.1 == b.2.1 && (ring a.1 < ring b.1 || (ring a.1 == ring b.1 && a.1 < b.1)))

theorem coreBetter_free {start : Nat} {a b : Nat × Nat × List Nat} (h : coreBetter start a b = true) : b.2.1 ≤ a.2.1 := by
  simp only [coreBetter, Bool.or_eq_true, Bool.and_eq_true, decide_eq_true_eq, beq_iff_eq] at h
  omega

theorem free_of_not_coreBetter {start : Nat} {a b : Nat × Nat × List Nat} (h : coreBetter start a b = false) : a.2.1 ≤ b.2.1 := by
  simp only [coreBetter, Bool.or_eq_false_iff, decide_eq_false_iff_not] at h
  omega

/-- The cores that a vat fits, with their free warp slots and the sub-partitions of its warps. -/
def fitting (n : Need) (cs : List (Nat × Room)) : List (Nat × Nat × List Nat) :=
  cs.filterMap (fun c => (c.2.fits n).map (fun p => (c.1, c.2.free, p)))

theorem chooseCore_eq (n : Need) (start : Nat) (cs : List (Nat × Room)) :
    chooseCore n start cs = ((fitting n cs).foldl (keepBest (coreBetter start)) none).map (fun x => (x.1, x.2.2)) := by
  have hstep : keepBest (coreBetter start) = fun r a => match r with
      | none => some a
      | some b => if coreBetter start a b then some a else some b := by
    funext r a
    cases r <;> rfl
  rw [hstep]
  rfl

theorem chooseCore_spec {n : Need} {start core : Nat} {cs : List (Nat × Room)} {subs : List Nat} (h : chooseCore n start cs = some (core, subs)) :
    ∃ room, (core, room) ∈ cs ∧ room.fits n = some subs ∧ ∀ y ∈ cs, (y.2.fits n).isSome = true → y.2.free ≤ room.free := by
  rw [chooseCore_eq] at h
  obtain ⟨x, hx, he⟩ := Option.map_eq_some_iff.1 h
  obtain ⟨hmem, hmax⟩ := keepBest_foldl (size := fun x => x.2.1) (fun _ _ => coreBetter_free) (fun _ _ => free_of_not_coreBetter) hx
  obtain ⟨⟨c, room⟩, hc, hroom⟩ := List.mem_filterMap.1 (hmem.resolve_right (fun e => by cases e))
  obtain ⟨p, hp, rfl⟩ := Option.map_eq_some_iff.1 hroom
  cases he
  refine ⟨room, hc, hp, fun y hy hfit => ?_⟩
  obtain ⟨q, hq⟩ := Option.isSome_iff_exists.1 hfit
  exact hmax _ (.inl (List.mem_filterMap.2 ⟨y, hy, by rw [hq]; rfl⟩))

theorem chooseCore_none {n : Need} {start : Nat} {cs : List (Nat × Room)} (h : ∀ y ∈ cs, y.2.fits n = none) : chooseCore n start cs = none := by
  have hfit : fitting n cs = [] := List.filterMap_eq_nil_iff.2 (fun y hy => by rw [h y hy]; rfl)
  rw [chooseCore_eq, hfit]
  rfl

/-! ### A placed vat (R87) -/

/-- The lanes of warp `i` that are live at the start: all of a vector warp, one of a MAT warp. -/
def LotRecord.live (r : LotRecord) (i : Nat) : Lanes := if i < r.nvec then 0xFFFFFFFF else 1

theorem firstLanes_live (r : LotRecord) (n : Nat) : firstLanes r.live n = 32 * min n r.nvec + (n - r.nvec) := by
  have h32 : countLanes 0xFFFFFFFF = 32 := by decide
  have h1 : countLanes 1 = 1 := by decide
  induction n with
  | zero => simp [firstLanes]
  | succ n ih =>
    have hstep : firstLanes r.live (n + 1) = firstLanes r.live n + countLanes (r.live n) := by
      unfold firstLanes
      rw [List.range_succ, List.map_append, List.foldl_append]
      rfl
    rw [hstep, ih, LotRecord.live]
    split
    · rw [h32]; omega
    · rw [h1]; omega

/-- A vat of a lot stands on a core as its placement leaves it. -/
structure State.VatStarts (t : State) (r : LotRecord) (code : CodeHeader) (entry : Word) (lot k core num : Nat) : Prop where
  vat : (t.vat k).Starts r code lot r.need core (BitVec.ofNat 32 num) false (32 * r.nvec + r.nmat)
  warp : ∀ i < r.nvec + r.nmat, ∃ slot placed, t.warp (warpKey k i) =
    startWarp k i (decide (r.nvec ≤ i)) core slot placed (r.live i) entry.toNat code (kinitRegs r.kinit)

theorem warpKey_ne {j k a b n : Nat} (hjk : j ≠ k) (ha : a < n) (hb : b < n) (hn : n ≤ 32) : warpKey j a ≠ warpKey k b := by
  unfold warpKey
  omega

section PlaceNext
variable (s : State) (lot core : Nat) (subs : List Nat)

/-- The state with the next vat of a lot on a core, before its lot takes note. -/
def State.nextStarted : State :=
  (s.touch (s.lot lot).ctx (dieBit (dieOfCore core))).startVat lot (s.lot lot).record.need core subs (BitVec.ofNat 32 (s.lot lot).nextVat) false
    (s.lot lot).record.live (s.lot lot).entryOff.toNat (fun _ => kinitRegs (s.lot lot).record.kinit)

/-- A lot once its next vat is placed on a core. -/
def Lot.placedOn (l : Lot) (core : Nat) : Lot := { l with nextVat := l.nextVat + 1, lastDie := some (dieOfCore core), phase := .running }

theorem State.placeNext_eq : s.placeNext lot core subs = (s.nextStarted lot core subs).modLot lot (fun l => l.placedOn core) := rfl

theorem State.nextStarted_begins : (s.touch (s.lot lot).ctx (dieBit (dieOfCore core))).Begins (s.nextStarted lot core subs)
    ((s.lot lot).record.nvec + (s.lot lot).record.nmat) := State.startVat_begins _ _ _ _ _ _ _ _ _ _

theorem State.nextStarted_lot (j : Nat) : (s.nextStarted lot core subs).lot j = s.lot j := by
  unfold State.lot
  rw [(s.nextStarted_begins lot core subs).only]
  rfl

theorem State.placeNext_frame : (s.placeNext lot core subs).mem = s.mem ∧ (s.placeNext lot core subs).nextLseq = s.nextLseq + 1 ∧
    (s.placeNext lot core subs).lot lot = (s.lot lot).placedOn core := by
  have hb := s.nextStarted_begins lot core subs
  rw [State.placeNext_eq]
  refine ⟨hb.mem, hb.nextLseq, ?_⟩
  rw [State.lot_modLot, if_pos rfl, State.nextStarted_lot]

theorem State.placeNext_starts : (s.placeNext lot core subs).VatStarts (s.lot lot).record (s.lot lot).code (s.lot lot).entryOff lot s.nextLseq core
    (s.lot lot).nextVat := by
  let u := s.touch (s.lot lot).ctx (dieBit (dieOfCore core))
  refine ⟨?_, fun i hi => ?_⟩
  · have hv := u.startVat_vat lot (s.lot lot).record.need core subs (BitVec.ofNat 32 (s.lot lot).nextVat) false (s.lot lot).record.live
      (s.lot lot).entryOff.toNat (fun _ => kinitRegs (s.lot lot).record.kinit)
    have hfirst := firstLanes_live (s.lot lot).record ((s.lot lot).record.nvec + (s.lot lot).record.nmat)
    rw [Nat.min_eq_right (Nat.le_add_right _ _), Nat.add_sub_cancel_left] at hfirst
    exact hfirst ▸ hv
  · exact u.startVat_warp lot (s.lot lot).record.need core subs (BitVec.ofNat 32 (s.lot lot).nextVat) false (s.lot lot).record.live
      (s.lot lot).entryOff.toNat (fun _ => kinitRegs (s.lot lot).record.kinit) hi

variable {s} {lot} {r : LotRecord} {code : CodeHeader} {entry : Word} {k num c : Nat}

/-- A vat placed earlier stands as it was placed. -/
theorem State.VatStarts.placeNext (h : s.VatStarts r code entry lot k c num) (hk : k < s.nextLseq) (hr : (s.lot lot).record = r)
    (hn : r.nvec + r.nmat ≤ 32) : (s.placeNext lot core subs).VatStarts r code entry lot k c num := by
  have hb := s.nextStarted_begins lot core subs
  have hvat : (s.placeNext lot core subs).vat k = s.vat k := hb.vat k (Nat.ne_of_lt hk)
  have hwarp (i : Nat) (hi : i < r.nvec + r.nmat) : (s.placeNext lot core subs).warp (warpKey k i) = s.warp (warpKey k i) :=
    hb.warp _ (fun j hj => warpKey_ne (Nat.ne_of_lt hk) hi (hr ▸ hj) hn)
  refine ⟨hvat ▸ h.vat, fun i hi => ?_⟩
  rw [hwarp i hi]
  exact h.warp i hi

end PlaceNext

/-- The vats of a lot are placed one after another: each stands at the end as it was placed. -/
theorem State.placeAll_starts {s : State} {lot : Nat} {r : LotRecord} {code : CodeHeader} {entry : Word} (ps : List (Nat × List Nat))
    (hr : (s.lot lot).record = r) (hc : (s.lot lot).code = code) (he : (s.lot lot).entryOff = entry) (hn : r.nvec + r.nmat ≤ 32) :
    let t := ps.foldl (fun s p => s.placeNext lot p.1 p.2) s
    (t.mem = s.mem ∧ t.nextLseq = s.nextLseq + ps.length ∧ (t.lot lot).nextVat = (s.lot lot).nextVat + ps.length) ∧
      (∀ k c num, k < s.nextLseq → s.VatStarts r code entry lot k c num → t.VatStarts r code entry lot k c num) ∧
      ∀ i p, ps[i]? = some p → t.VatStarts r code entry lot (s.nextLseq + i) p.1 ((s.lot lot).nextVat + i) := by
  dsimp only
  induction ps generalizing s with
  | nil => exact ⟨⟨rfl, rfl, rfl⟩, fun _ _ _ _ h => h, fun i p h => by cases h⟩
  | cons p ps ih =>
    obtain ⟨hmem, hnext, hlot⟩ := s.placeNext_frame lot p.1 p.2
    have hstarts := s.placeNext_starts lot p.1 p.2
    rw [hr, hc, he] at hstarts
    obtain ⟨⟨hmem', hnext', hnum'⟩, hkept, hnew⟩ := ih (s := s.placeNext lot p.1 p.2) (by rw [hlot]; exact hr) (by rw [hlot]; exact hc)
      (by rw [hlot]; exact he)
    have hnum : ((s.placeNext lot p.1 p.2).lot lot).nextVat = (s.lot lot).nextVat + 1 := by rw [hlot]; rfl
    rw [List.foldl_cons]
    refine ⟨⟨hmem'.trans hmem, ?_, ?_⟩, fun k c num hk h => hkept k c num (by omega) (h.placeNext p.1 p.2 hk hr hn), fun i q hi => ?_⟩
    · rw [hnext', hnext, List.length_cons]; omega
    · rw [hnum', hnum, List.length_cons]; omega
    · cases i with
      | zero =>
        cases hi
        exact hkept _ _ _ (by omega) hstarts
      | succ i =>
        have := hnew i q hi
        rwa [hnext, hnum, Nat.add_assoc, Nat.add_assoc, Nat.add_comm 1 i] at this

/-! ### The registers of a warp at its start -/

theorem kinitRegs_get (kinit : Map Word) (c : Nat) :
    (kinitRegs kinit).get c = if 8192 ≤ c ∧ c < 8200 then kinit.get (c - 8192) else 0 := by
  have hfold (n : Nat) : ((List.range n).foldl (fun (m : Map Word) i => m.set (cellKn i) (kinit.get i)) []).get c =
      if 8192 ≤ c ∧ c < 8192 + n then kinit.get (c - 8192) else 0 := by
    induction n with
    | zero => exact (if_neg (by omega)).symm
    | succ n ih =>
      rw [List.range_succ, List.foldl_append, List.foldl_cons, List.foldl_nil, Map.get_set, ih, cellKn]
      by_cases hc : c = 8192 + n
      · rw [if_pos hc, if_pos (by omega), hc, Nat.add_sub_cancel_left]
      · rw [if_neg hc]
        exact if_congr (by omega) rfl rfl
  exact hfold 8

theorem startWarp_final {vat num core slot placed entry : Nat} {mat : Bool} {live : Lanes} {code : CodeHeader} {regs : Map Word} (c : Nat) :
    (startWarp vat num mat core slot placed live entry code regs).final c = regs.get c := rfl

/-! ### The instructions that place -/

section Place
variable {s : State} {lot : Nat}

theorem execVatPlace_not_due (h : s.placing lot = false ∨ s.servedFirst lot = true) : execVatPlace lot s = .next s :=
  if_pos (by rcases h with h | h <;> simp [h])

theorem execCohabPlace_not_due (h : s.placing lot = false ∨ s.servedFirst lot = true) : execCohabPlace lot s = .next s :=
  if_pos (by rcases h with h | h <;> simp [h])

theorem execVatPlace_of_cohab (h : (s.lot lot).record.cohab = true) : execVatPlace lot s = .next s := if_pos (by simp [h])

theorem execCohabPlace_of_not_cohab (h : (s.lot lot).record.cohab = false) : execCohabPlace lot s = .next s := if_pos (by simp [h])

variable (hp : s.placing lot = true) (hf : s.servedFirst lot = false)
include hp hf

theorem execVatPlace_places (hc : (s.lot lot).record.cohab = false) {core : Nat} {subs : List Nat}
    (h : chooseCore (s.lot lot).record.need (s.ringStart lot) (s.candidates (s.placeDies lot)) = some (core, subs)) :
    execVatPlace lot s = .next (s.placeNext lot core subs) := by
  refine (if_neg (by simp [hp, hf, hc])).trans ?_
  rw [h]

theorem execVatPlace_draws (hc : (s.lot lot).record.cohab = false)
    (h : chooseCore (s.lot lot).record.need (s.ringStart lot) (s.candidates (s.placeDies lot)) = none) :
    execVatPlace lot s = .next (s.drawEvictions lot (s.lot lot).record.need 1) := by
  refine (if_neg (by simp [hp, hf, hc])).trans ?_
  rw [h]

theorem execCohabPlace_places (hc : (s.lot lot).record.cohab = true) {ps : List (Nat × List Nat)} (h : s.cohabAll lot = some ps) :
    execCohabPlace lot s = .next (ps.foldl (fun s p => s.placeNext lot p.1 p.2) s) := by
  refine (if_neg (by simp [hp, hf, hc])).trans ?_
  rw [h]

theorem execCohabPlace_draws (hc : (s.lot lot).record.cohab = true) (h : s.cohabAll lot = none) : execCohabPlace lot s =
    .next (s.drawEvictions lot (s.lot lot).record.need ((s.lot lot).record.total - (s.lot lot).nextVat)) := by
  refine (if_neg (by simp [hp, hf, hc])).trans ?_
  rw [h]

end Place

theorem State.cohabAll_length {s : State} {lot : Nat} {ps : List (Nat × List Nat)} (h : s.cohabAll lot = some ps) :
    ps.length = (s.lot lot).record.total - (s.lot lot).nextVat := by
  unfold State.cohabAll at h
  dsimp only at h
  split at h
  · next hlen => exact Option.some.inj h ▸ hlen
  · cases h

theorem State.nextVat_of_placing {s : State} {lot : Nat} (h : s.placing lot = true) : (s.lot lot).nextVat < (s.lot lot).record.total := by
  simp only [State.placing, Bool.and_eq_true, decide_eq_true_eq] at h
  exact h.1.1.2

end Sys2Proof.Machine
end

section
/-! PROOFS. The end of a vat (spec/04 R86): its warps leave their core, and what it owned there is freed. -/

namespace Sys2Proof

/-- An element that a map of the values changed has been changed. -/
theorem Map.get_mapVals_of_change {α : Type} [Inhabited α] [DecidableEq α] (m : Map α) (f : α → α) {P : α → Prop} (hd : P default)
    (hf : ∀ v, P (f v)) (k : Nat) : P (Map.get (m.mapVals (fun _ v => f v)) k) := by
  by_cases h : Map.get (m.mapVals (fun _ v => f v)) k = default
  · rw [h]
    exact hd
  · obtain ⟨x, -, hx⟩ := Map.of_mem_mapVals (Map.mem_of_get h)
    rw [(Prod.mk.inj hx).2]
    exact hf x.2

end Sys2Proof

namespace Sys2Proof.Machine

/-! ### What frees a vat's holdings -/

/-- Operations end, engines are released, grants are answered, tasks leave their table: memory, lots, where vats are and which warps are
resident stand, and so do the core objects. -/
structure State.Frees (s t : State) : Prop where
  mem : t.mem = s.mem
  lots : t.lots = s.lots
  vat : ∀ k, (t.vat k).place = (s.vat k).place ∧ (t.vat k).image = (s.vat k).image ∧ (t.vat k).core = (s.vat k).core
  warp : ∀ k, (t.warp k).resident = (s.warp k).resident
  core : ∀ c, (t.core c).tables = (s.core c).tables ∧ (t.core c).chains = (s.core c).chains

theorem State.Frees.refl (s : State) : s.Frees s := ⟨rfl, rfl, fun _ => ⟨rfl, rfl, rfl⟩, fun _ => rfl, fun _ => ⟨rfl, rfl⟩⟩

theorem State.Frees.trans {s t u : State} (h : s.Frees t) (g : t.Frees u) : s.Frees u where
  mem := g.mem.trans h.mem
  lots := g.lots.trans h.lots
  vat k := ⟨(g.vat k).1.trans (h.vat k).1, (g.vat k).2.1.trans (h.vat k).2.1, (g.vat k).2.2.trans (h.vat k).2.2⟩
  warp k := (g.warp k).trans (h.warp k)
  core c := ⟨(g.core c).1.trans (h.core c).1, (g.core c).2.trans (h.core c).2⟩

theorem State.Frees.of_same {s t : State} (hm : t.mem = s.mem) (hl : t.lots = s.lots) (hv : t.vats = s.vats) (hw : t.warps = s.warps)
    (hc : t.cores = s.cores) : s.Frees t := by
  refine ⟨hm, hl, fun k => ?_, fun k => ?_, fun c => ?_⟩
  · unfold State.vat
    rw [hv]
    exact ⟨rfl, rfl, rfl⟩
  · unfold State.warp
    rw [hw]
  · unfold State.core
    rw [hc]
    exact ⟨rfl, rfl⟩

theorem State.Frees.foldl {α : Type} {f : State → α → State} (hf : ∀ (s : State) x, s.Frees (f s x)) (xs : List α) (s : State) :
    s.Frees (xs.foldl f s) := by
  induction xs generalizing s with
  | nil => exact .refl s
  | cons x xs ih => exact (hf s x).trans (ih _)

theorem State.finish_frees (s : State) (n : Nat) (f : Op → Op) : s.Frees (s.finish n f) := by
  unfold State.finish
  split
  · exact .refl s
  · refine State.Frees.trans (t := s.setOp n _) (.of_same rfl rfl rfl rfl rfl) (.foldl (fun u k => ?_) _ _)
    split
    · split <;> exact .of_same rfl rfl rfl rfl rfl
    · exact .refl u

theorem State.modEngine_frees (s : State) (core e : Nat) (f : StreamEngine → StreamEngine) : s.Frees (s.modEngine core e f) := by
  refine ⟨rfl, rfl, fun _ => ⟨rfl, rfl, rfl⟩, fun _ => rfl, fun c => ?_⟩
  unfold State.modEngine
  rw [State.core_modCore]
  split
  · next h => rw [h]; exact ⟨rfl, rfl⟩
  · exact ⟨rfl, rfl⟩

theorem State.freeEngines_frees (s : State) (vk : Nat) : s.Frees (s.freeEngines vk) := by
  refine .foldl (fun u e => ?_) _ s
  dsimp only
  split
  · refine State.Frees.trans ?_ (State.modEngine_frees _ _ _ _)
    split
    · exact u.finish_frees _ _
    · exact .refl u
  · exact .refl u

theorem State.modWarp_frees (s : State) (k : Nat) {f : Warp → Warp} (hf : ∀ w, (f w).resident = w.resident) : s.Frees (s.modWarp k f) := by
  refine ⟨rfl, rfl, fun _ => ⟨rfl, rfl, rfl⟩, fun j => ?_, fun _ => ⟨rfl, rfl⟩⟩
  rw [State.warp_modWarp]
  split
  · next h => rw [h, hf]
  · rfl

theorem State.setVat_frees (s : State) (k : Nat) {v : Vat} (hp : v.place = (s.vat k).place) (hi : v.image = (s.vat k).image)
    (hc : v.core = (s.vat k).core) : s.Frees (s.setVat k v) := by
  refine ⟨rfl, rfl, fun j => ?_, fun _ => rfl, fun _ => ⟨rfl, rfl⟩⟩
  rw [State.vat_setVat]
  split
  · next h => rw [h]; exact ⟨hp, hi, hc⟩
  · exact ⟨rfl, rfl, rfl⟩

theorem State.acqAnswer_frees (s : State) (k : Nat) (n : Option Nat) : s.Frees (s.acqAnswer k n) := by
  unfold State.acqAnswer
  dsimp only
  split
  · refine State.Frees.trans (s.setVat_frees _ ?_ ?_ ?_) (State.modWarp_frees _ k fun _ => ?_) <;> rfl
  · refine s.modWarp_frees k fun _ => ?_
    rfl

theorem State.acqServe_frees (s : State) (core : Nat) : s.Frees (s.acqServe core) := by
  refine .foldl (fun u e => ?_) _ s
  split
  · exact u.acqAnswer_frees _ _
  · exact .refl u

theorem State.acqCycle_frees (s : State) (core n : Nat) : s.Frees (s.acqCycle core n) := by
  induction n generalizing s with
  | zero => exact .refl s
  | succ n ih =>
    unfold State.acqCycle
    dsimp only
    split
    · split
      · exact (s.acqAnswer_frees _ _).trans (ih _)
      · exact .refl s
    · exact .refl s

theorem State.allocate_frees (s : State) (core : Nat) : s.Frees (s.allocate core) := (s.acqServe_frees core).trans (State.acqCycle_frees _ _ _)

theorem State.modDie_frees (s : State) (d : Nat) (f : Die → Die) : s.Frees (s.modDie d f) := .of_same rfl rfl rfl rfl rfl

theorem State.dropTask_frees (s : State) (die n : Nat) : s.Frees (s.dropTask die n) :=
  State.Frees.trans (t := s.leaveTable die n) (s.modDie_frees die _) (.foldl (fun u _ => u.modDie_frees die _) _ _)

theorem State.abandonTasks_frees (s : State) (vk : Nat) : s.Frees (s.abandonTasks vk) := by
  refine .foldl (fun u k => .foldl (fun u l => ?_) _ _) _ s
  split
  · split
    · exact .refl u
    · exact u.dropTask_frees _ _
  · exact .refl u

/-! ### The end of a vat -/

theorem State.freeImage_vat (s : State) (vk : Nat) : ((s.freeImage vk).vat vk).image = none ∧ ((s.freeImage vk).vat vk).core = (s.vat vk).core := by
  unfold State.freeImage
  dsimp only
  split
  · rw [State.vat_setVat, if_pos rfl]
    exact ⟨rfl, rfl⟩
  · next h => exact ⟨h, rfl⟩

theorem State.freeImage_rest (s : State) (vk : Nat) : (s.freeImage vk).mem = s.mem ∧ (s.freeImage vk).lots = s.lots := by
  unfold State.freeImage
  dsimp only
  split <;> exact ⟨rfl, rfl⟩

/-- A warp as it leaves its core. -/
def Warp.left (w : Warp) : Warp := { w with resident := false, hold := .free }

/-- Warps leave their cores. -/
def State.leaveWarps (s : State) (ks : List Nat) : State := ks.foldl (fun s k => s.modWarp k Warp.left) s

theorem State.leaveWarps_only (s : State) (ks : List Nat) : s.leaveWarps ks = { s with warps := (s.leaveWarps ks).warps } := by
  unfold State.leaveWarps
  induction ks generalizing s with
  | nil => rfl
  | cons k ks ih =>
    rw [List.foldl_cons, ih]
    rfl

theorem State.leaveWarps_resident (s : State) (ks : List Nat) {j : Nat} (h : j ∈ ks ∨ (s.warp j).resident = false) :
    ((s.leaveWarps ks).warp j).resident = false := by
  unfold State.leaveWarps
  induction ks generalizing s with
  | nil => exact h.resolve_left List.not_mem_nil
  | cons k ks ih =>
    refine ih _ ?_
    rw [State.warp_modWarp]
    by_cases hk : j = k
    · rw [if_pos hk]
      exact .inr rfl
    · rw [if_neg hk]
      exact h.imp_left (fun h => (List.mem_cons.1 h).resolve_left hk)

/-- A lot once a vat of it has ended. -/
def Lot.vatEnded (l : Lot) (exc : BitVec 5) (tend : Nat) : Lot := { l with exc := l.exc ||| exc, tend := tend }

/-- A vat once it has ended. -/
def Vat.ended (v : Vat) : Vat := { v with place := .gone }

/-- The sticky flags of the warps of a vat. -/
def State.vatFlags (s : State) (vk : Nat) : BitVec 5 := (warpKeys vk (s.vat vk)).foldl (fun f k => f ||| (s.warp k).fstat.setWidth 5) 0

theorem State.endVat_eq (s : State) (vk : Nat) : s.endVat vk =
    (((s.modLot (s.vat vk).lot (fun l => l.vatEnded (s.vatFlags vk) s.gtime)).freeImage vk).modVat vk Vat.ended).leaveWarps
      (warpKeys vk (s.vat vk)) := rfl

theorem or_foldl (ks : List Nat) (g : Nat → BitVec 5) (e : BitVec 5) : ks.foldl (fun f k => f ||| g k) e = e ||| ks.foldl (fun f k => f ||| g k) 0 := by
  induction ks generalizing e with
  | nil => exact BitVec.or_zero.symm
  | cons k ks ih => rw [List.foldl_cons, List.foldl_cons, ih, ih (0 ||| g k), BitVec.or_assoc]; simp

/-- What the end of a vat leaves of it, its warps and its lot. -/
structure State.VatEnds (s t : State) (vk : Nat) : Prop where
  mem : t.mem = s.mem
  place : (t.vat vk).place = .gone
  image : (t.vat vk).image = none
  core : (t.vat vk).core = (s.vat vk).core
  warps : ∀ k ∈ warpKeys vk (s.vat vk), (t.warp k).resident = false
  lot : t.lot (s.vat vk).lot = (s.lot (s.vat vk).lot).vatEnded (s.vatFlags vk) s.gtime

theorem State.endVat_ends (s : State) (vk : Nat) : s.VatEnds (s.endVat vk) vk := by
  let u := s.modLot (s.vat vk).lot (fun l => l.vatEnded (s.vatFlags vk) s.gtime)
  let g := (u.freeImage vk).modVat vk Vat.ended
  obtain ⟨himage, hcore⟩ := u.freeImage_vat vk
  obtain ⟨hmem, hlots⟩ := u.freeImage_rest vk
  have hg : s.endVat vk = { g with warps := (g.leaveWarps (warpKeys vk (s.vat vk))).warps } :=
    (s.endVat_eq vk).trans (g.leaveWarps_only _)
  have hvat : (s.endVat vk).vat vk = ((u.freeImage vk).vat vk).ended := by
    rw [hg]
    exact ((u.freeImage vk).vat_modVat vk vk Vat.ended).trans (if_pos rfl)
  refine ⟨?_, ?_, ?_, ?_, fun k hk => g.leaveWarps_resident _ (.inl hk), ?_⟩
  · rw [hg]
    exact hmem
  · rw [hvat]
    rfl
  · rw [hvat]
    exact himage
  · rw [hvat]
    exact hcore
  · rw [hg]
    unfold State.lot
    rw [show ({ g with warps := (g.leaveWarps (warpKeys vk (s.vat vk))).warps } : State).lots = u.lots from hlots]
    exact (s.lot_modLot _ _ _).trans (if_pos rfl)

theorem State.VatEnds.frees {s t u : State} {vk : Nat} (h : s.VatEnds t vk) (g : t.Frees u) : s.VatEnds u vk where
  mem := g.mem.trans h.mem
  place := (g.vat vk).1.trans h.place
  image := (g.vat vk).2.1.trans h.image
  core := (g.vat vk).2.2.trans h.core
  warps k hk := (g.warp k).trans (h.warps k hk)
  lot := by
    unfold State.lot at *
    rw [g.lots]
    exact h.lot

/-! ### The core objects of a vat are freed (spec/06 R158) -/

/-- A vat owns no code table and no chain of a core. -/
def Core.OwnsNone (c : Core) (vk : Nat) : Prop := ∀ e, (c.tables.get e).owner ≠ some vk ∧ (c.chains.get e).owner ≠ some vk

theorem Core.freeOwned_ownsNone (c : Core) (vk : Nat) : (c.freeOwned vk).OwnsNone vk := by
  intro e
  constructor
  · refine Map.get_mapVals_of_change c.tables (fun t => if t.owner = some vk then default else t) (P := fun t => t.owner ≠ some vk) ?_ (fun v => ?_) e
    · exact nofun
    · split
      · exact nofun
      · assumption
  · refine Map.get_mapVals_of_change c.chains (fun t => if t.owner = some vk then default else t) (P := fun t => t.owner ≠ some vk) ?_ (fun v => ?_) e
    · exact nofun
    · split
      · exact nofun
      · assumption

theorem State.Frees.ownsNone {s t : State} {c vk : Nat} (h : s.Frees t) (hn : (s.core c).OwnsNone vk) : (t.core c).OwnsNone vk := by
  unfold Core.OwnsNone at *
  rwa [(h.core c).1, (h.core c).2]

theorem State.VatEnds.freeCore {s t : State} {vk : Nat} (h : s.VatEnds t vk) :
    s.VatEnds (t.freeCore vk) vk ∧ ((t.freeCore vk).core (s.vat vk).core).OwnsNone vk := by
  have hg := h.frees (t.freeEngines_frees vk)
  let u := (t.freeEngines vk).modCore ((t.freeEngines vk).vat vk).core (·.freeOwned vk)
  have hu : s.VatEnds u vk := ⟨hg.mem, hg.place, hg.image, hg.core, hg.warps, hg.lot⟩
  have hn : (u.core (s.vat vk).core).OwnsNone vk := by
    rw [← hg.core, State.core_modCore, if_pos rfl]
    exact Core.freeOwned_ownsNone _ vk
  have ha := u.allocate_frees ((t.freeEngines vk).vat vk).core
  exact ⟨hu.frees ha, ha.ownsNone hn⟩

/-! ### VAT_LEAVE -/

/-- The state once a vat has left its core, before its lot counts it. -/
def State.leftCore (s : State) (vk : Nat) : State :=
  if (s.vat vk).stop.isSome && (s.vat vk).task then ((s.endVat vk).freeCore vk).abandonTasks vk else (s.endVat vk).freeCore vk

/-- A vat that ran to its end, and is none of tasks, counts. -/
def State.vatCounts (s : State) (vk : Nat) : Bool :=
  !(s.vat vk).task && (warpKeys vk (s.vat vk)).all (fun k => (s.warp k).masks.lmask == 0)

theorem State.vatCounts_iff (s : State) (vk : Nat) :
    s.vatCounts vk = true ↔ (s.vat vk).task = false ∧ ∀ k ∈ warpKeys vk (s.vat vk), (s.warp k).masks.lmask = 0 := by
  simp only [State.vatCounts, Bool.and_eq_true, Bool.not_eq_true', List.all_eq_true, beq_iff_eq]

theorem State.leftCore_ends (s : State) (vk : Nat) : s.VatEnds (s.leftCore vk) vk ∧ ((s.leftCore vk).core (s.vat vk).core).OwnsNone vk := by
  obtain ⟨hends, hnone⟩ := (s.endVat_ends vk).freeCore
  unfold State.leftCore
  split
  · have ha := ((s.endVat vk).freeCore vk).abandonTasks_frees vk
    exact ⟨hends.frees ha, ha.ownsNone hnone⟩
  · exact ⟨hends, hnone⟩

theorem execVatLeave_waits {s : State} {vk : Nat} (h : s.mayLeave vk = false) : execVatLeave vk s = .next s := if_pos (by rw [h]; rfl)

theorem execVatLeave_leaves {s : State} {vk : Nat} (h : s.mayLeave vk = true) : execVatLeave vk s = .next ((s.leftCore vk).modLot (s.vat vk).lot
    (fun l => { l with vatsDone := if s.vatCounts vk then l.vatsDone + 1 else l.vatsDone })) :=
  (if_neg (by rw [h]; exact Bool.false_ne_true)).trans rfl

end Sys2Proof.Machine
end

section
/-! PROOFS. Bytes as numbers, the completion record (spec/03 R67), and what performed bytes read as (spec/02 R56). -/

namespace Sys2Proof.Machine

/-! ### Bytes and words -/

theorem bytesToNat_natToBytes (n v : Nat) : bytesToNat (natToBytes n v) = v % 256 ^ n := by
  induction n generalizing v with
  | zero => rw [Nat.pow_zero, Nat.mod_one]; rfl
  | succ n ih =>
    have hpow : 256 ^ (n + 1) = 256 * 256 ^ n := Nat.pow_succ'
    rw [natToBytes, bytesToNat, ih, BitVec.toNat_ofNat, hpow]
    exact Nat.mod_mul.symm

theorem natToBytes_add (m n v : Nat) : natToBytes (m + n) v = natToBytes m v ++ natToBytes n (v / 256 ^ m) := by
  induction m generalizing v with
  | zero => rw [Nat.zero_add, Nat.pow_zero, Nat.div_one]; rfl
  | succ m ih =>
    rw [Nat.succ_add, natToBytes, ih, natToBytes, Nat.div_div_eq_div_mul, ← Nat.pow_succ', List.cons_append]

theorem natToBytes_mod (n v : Nat) : natToBytes n (v % 256 ^ n) = natToBytes n v := by
  induction n generalizing v with
  | zero => rfl
  | succ n ih =>
    have hlow : BitVec.ofNat 8 (v % 256 ^ (n + 1)) = BitVec.ofNat 8 v := by
      apply BitVec.eq_of_toNat_eq
      rw [BitVec.toNat_ofNat, BitVec.toNat_ofNat]
      exact Nat.mod_mod_of_dvd v (Dvd.intro_left (256 ^ n) rfl)
    rw [natToBytes, natToBytes, hlow, Nat.pow_succ', Nat.mod_mul_right_div_self, ih]

/-- Eight bytes are two words, the low one first. -/
theorem natToBytes_eight (v : Nat) : natToBytes 8 v = wordBytes (BitVec.ofNat 32 v) ++ wordBytes (BitVec.ofNat 32 (v / 2 ^ 32)) := by
  have hword (x : Nat) : natToBytes 4 x = wordBytes (BitVec.ofNat 32 x) := by
    rw [wordBytes, BitVec.toNat_ofNat]
    exact (natToBytes_mod 4 x).symm
  rw [natToBytes_add 4 4, hword, hword]
  rfl

theorem length_wordBytes (w : Word) : (wordBytes w).length = 4 := rfl

/-- The words of a record read back from its bytes. -/
theorem word_of_words (ws : List Word) (zs : List Byte) {i : Nat} (h : i < ws.length) :
    word (ws.flatMap wordBytes ++ zs) (4 * i) = ws[i].toNat := by
  induction ws generalizing i with
  | nil => cases h
  | cons w ws ih =>
    rw [List.flatMap_cons, List.append_assoc]
    cases i with
    | zero => exact (bytesToNat_natToBytes 4 w.toNat).trans (Nat.mod_eq_of_lt w.isLt)
    | succ i =>
      have hdrop : word (wordBytes w ++ (ws.flatMap wordBytes ++ zs)) (4 * (i + 1)) = word (ws.flatMap wordBytes ++ zs) (4 * i) := by
        unfold word
        rw [show 4 * (i + 1) = (wordBytes w).length + 4 * i by rw [length_wordBytes]; omega, List.drop_length_add_append]
      rw [hdrop, ih (Nat.lt_of_succ_lt_succ h)]
      rfl

theorem length_words (ws : List Word) : (ws.flatMap wordBytes).length = 4 * ws.length := by
  induction ws with
  | nil => rfl
  | cons w ws ih => rw [List.flatMap_cons, List.length_append, ih, length_wordBytes, List.length_cons]; omega

/-! ### The completion record (R67) -/

/-- The words of a completion record that are not reserved. -/
def Lot.completionWords (l : Lot) : List Word :=
  let f := l.first.getD default
  let lane := match l.first with | some f => (lowest f.flm).getD 0 | none => 0
  [l.status.setWidth 32 ||| (if l.status == 3 then l.detail.setWidth 32 <<< 8 else 0) ||| f.code.setWidth 32 <<< 16 ||| 0x80000000,
    l.record.lottag, BitVec.ofNat 32 l.tacc, BitVec.ofNat 32 (l.tacc / 2 ^ 32), BitVec.ofNat 32 l.tstart, BitVec.ofNat 32 (l.tstart / 2 ^ 32),
    BitVec.ofNat 32 l.tend, BitVec.ofNat 32 (l.tend / 2 ^ 32), BitVec.ofNat 32 f.fva.toNat, BitVec.ofNat 32 (f.fva.toNat / 2 ^ 32),
    BitVec.ofNat 32 l.firstPc.toNat, BitVec.ofNat 32 (l.firstPc.toNat / 2 ^ 32), f.vatnum,
    f.warp.setWidth 32 ||| BitVec.ofNat 32 (64 * lane) ||| f.rung.setWidth 32 <<< 11, l.exc.setWidth 32, l.qseq, BitVec.ofNat 32 l.vatsDone,
    l.dlost.setWidth 32]

theorem Lot.completion_eq (l : Lot) : l.completion = l.completionWords.flatMap wordBytes ++ zeros 56 := by
  unfold Lot.completion Lot.completionWords
  simp only [natToBytes_eight, List.flatMap_cons, List.flatMap_nil, List.append_assoc, List.nil_append] <;> rfl

theorem Lot.length_completion (l : Lot) : l.completion.length = 128 := by
  rw [Lot.completion_eq, List.length_append, length_words]
  rfl

theorem Lot.word_completion (l : Lot) {i : Nat} (h : i < 18) : word l.completion (4 * i) = (l.completionWords[i]'h).toNat := by
  rw [Lot.completion_eq]
  exact word_of_words l.completionWords _ h

/-- Two words of a number of 64 bits. -/
theorem low_add_high {v : Nat} (h : v < 2 ^ 64) : (BitVec.ofNat 32 v).toNat + 2 ^ 32 * (BitVec.ofNat 32 (v / 2 ^ 32)).toNat = v := by
  rw [BitVec.toNat_ofNat, BitVec.toNat_ofNat]
  omega

/-- The first word of a record of status 0: its valid bit and its code. -/
theorem status_word (code : BitVec 8) : ((0 : BitVec 8).setWidth 32 ||| (0 : Word) ||| code.setWidth 32 <<< 16 ||| (0x80000000 : Word)).toNat =
    2 ^ 31 + 2 ^ 16 * code.toNat := by
  have hcode := code.isLt
  have hshift : (code.setWidth 32 <<< 16 : Word).toNat = 2 ^ 16 * code.toNat := by
    rw [BitVec.toNat_shiftLeft, BitVec.toNat_setWidth, Nat.shiftLeft_eq, Nat.mod_eq_of_lt (by omega : code.toNat < 2 ^ 32)]
    omega
  have hzero : (0 : BitVec 8).setWidth 32 ||| (0 : Word) = 0#32 := rfl
  rw [hzero, BitVec.zero_or, BitVec.toNat_or, hshift, Nat.or_comm]
  exact (Nat.two_pow_add_eq_or_of_lt (i := 31) (b := 2 ^ 16 * code.toNat) (by omega) 1).symm

/-! ### What performed bytes read as -/

theorem region_of_line {j k : Nat} (h : lineOf j = lineOf k) : region (keyPa j) = region (keyPa k) := by
  unfold lineOf at h
  unfold region keyPa
  omega

section Decrypted
variable (s : State)

/-- A byte reads by what is stored of its line, the key its line was written under, and the key slots. -/
theorem State.decrypted_congr {s t : State} {k : Nat} (slot : BitVec 10) (hmem : ∀ j, lineOf j = lineOf k → t.mem.get j = s.mem.get j)
    (hkey : t.lineKey.get (lineOf k) = s.lineKey.get (lineOf k)) (hhub : t.hub = s.hub) : t.decrypted k slot = s.decrypted k slot := by
  have hline (i : Nat) (hi : i ∈ List.range 128) : t.mem.get (128 * lineOf k + i) = s.mem.get (128 * lineOf k + i) := by
    have hi := List.mem_range.1 hi
    exact hmem _ (by unfold lineOf; omega)
  unfold State.decrypted State.keyOf
  rw [hkey, hhub, hmem k rfl, List.map_congr_left hline]

/-- Under the key its line was written under, or in system memory, a byte reads as it is stored. -/
theorem State.decrypted_stored {s : State} {k : Nat} {slot : BitVec 10} (h : 8 ≤ region (keyPa k) ∨ s.lineKey.get (lineOf k) = s.keyOf slot) :
    s.decrypted k slot = s.mem.get k := if_pos (h.imp id .inr)

theorem State.rekey_decrypted (b k : Nat) (slot : BitVec 10) : (s.rekey b slot).decrypted k slot = s.decrypted k slot := by
  unfold State.rekey
  dsimp only
  split
  · rfl
  · have hget (j : Nat) : (s.mem.setFrom (128 * lineOf b) ((List.range 128).map (fun i => s.decrypted (128 * lineOf b + i) slot))).get j =
        if lineOf j = lineOf b then s.decrypted j slot else s.mem.get j := by
      rw [Map.get_setFrom]
      by_cases hj : lineOf j = lineOf b
      · have hin : 128 * lineOf b ≤ j ∧ j - 128 * lineOf b < 128 := by unfold lineOf at hj ⊢; omega
        rw [if_pos hj, dif_pos (by rw [List.length_map, List.length_range]; exact hin), List.getElem_map, List.getElem_range,
          Nat.add_sub_cancel' hin.1]
      · rw [if_neg hj, dif_neg (by rw [List.length_map, List.length_range]; unfold lineOf at hj ⊢; omega)]
    by_cases hk : lineOf k = lineOf b
    · rw [State.decrypted_stored (.inr ?_)]
      · exact (hget k).trans (if_pos hk)
      · rw [hk]
        exact Map.get_set_self _ _ _
    · refine State.decrypted_congr slot (fun j hj => (hget j).trans (if_neg (hj ▸ hk))) ?_ rfl
      exact Map.get_set_ne _ _ hk

/-- After a byte is written, its line is kept under the key it was written through, or is system memory's. -/
theorem State.rekey_lineKey (b : Nat) (slot : BitVec 10) :
    8 ≤ region (keyPa b) ∨ (s.rekey b slot).lineKey.get (lineOf b) = (s.rekey b slot).keyOf slot := by
  unfold State.rekey
  dsimp only
  split
  · assumption
  · exact .inr (Map.get_set_self _ _ _)

/-- A written byte reads back through its key slot, and no other byte reads otherwise. -/
theorem State.putByte_decrypted (b : WByte) (k : Nat) :
    (s.putByte b).decrypted k b.slot = if k = b.key then b.val else s.decrypted k b.slot := by
  have hget (j : Nat) : (s.putByte b).mem.get j = if j = b.key then b.val else (s.rekey b.key b.slot).mem.get j := Map.get_set _ _ _ _
  have hstored (h : lineOf k = lineOf b.key) (t : State) (hkey : t.lineKey = (s.rekey b.key b.slot).lineKey)
      (hhub : t.hub = (s.rekey b.key b.slot).hub) : t.decrypted k b.slot = t.mem.get k := by
    refine State.decrypted_stored ?_
    unfold State.keyOf
    rw [region_of_line h, h, hkey, hhub]
    exact s.rekey_lineKey b.key b.slot
  by_cases hl : lineOf k = lineOf b.key
  · rw [hstored hl (s.putByte b) rfl rfl, hget, ← s.rekey_decrypted b.key k b.slot, hstored hl (s.rekey b.key b.slot) rfl rfl]
  · rw [if_neg (fun e : k = b.key => hl (congrArg lineOf e)), ← s.rekey_decrypted b.key k b.slot]
    refine State.decrypted_congr b.slot (fun j hj => ?_) rfl rfl
    rw [hget, if_neg (fun e => hl (by rw [← hj, e]))]

theorem State.dropCopies_lineKey (line : Nat) (ds : List Nat) : (ds.foldl (fun s d => s.dropCopy d line) s).lineKey = s.lineKey := by
  induction ds generalizing s with
  | nil => rfl
  | cons d ds ih => exact ih _

theorem State.dropL1_lineKey (dies : BitVec 4) (line : Nat) : (s.dropL1 dies line).lineKey = s.lineKey := by
  unfold State.dropL1
  split <;> rfl

/-- Bytes performed as .G at consecutive keys read back through their key slot. -/
theorem State.performG_decrypted (key : Nat) (slot : BitVec 10) (bs : List Byte) (k : Nat) : (s.performG (wbytes key slot bs)).decrypted k slot =
    if key ≤ k ∧ k < key + bs.length then bs.getD (k - key) 0 else s.decrypted k slot := by
  induction bs generalizing s key with
  | nil => exact (if_neg (by rw [List.length_nil]; omega)).symm
  | cons b bs ih =>
    rw [wbytes, State.performG_cons, ih]
    have hdrop : ∀ u : State, u = ([0, 1, 2, 3].foldl (fun s d => s.dropCopy d (lineOf key)) s).dropL1 15 (lineOf key) →
        u.decrypted k slot = s.decrypted k slot := by
      rintro u rfl
      have hc := s.dropCopies_same (lineOf key) [0, 1, 2, 3]
      have hck := s.dropCopies_lineKey (lineOf key) [0, 1, 2, 3]
      generalize [0, 1, 2, 3].foldl (fun s d => State.dropCopy s d (lineOf key)) s = u at hc hck
      have hd := u.dropL1_same 15 (lineOf key)
      refine State.decrypted_congr slot (fun j _ => by rw [hd.2, hc.2]) ?_ (hd.1.hub_eq.trans hc.1.hub_eq)
      rw [u.dropL1_lineKey, hck]
    have hput := State.putByte_decrypted (([0, 1, 2, 3].foldl (fun s d => s.dropCopy d (lineOf key)) s).dropL1 15 (lineOf key))
      { key := key, val := b, slot := slot } k
    rw [hput, hdrop _ rfl]
    dsimp only
    rw [List.length_cons]
    by_cases hk : k = key
    · rw [if_neg (by omega), if_pos hk, if_pos (by omega), hk, Nat.sub_self]
      rfl
    · by_cases hin : key + 1 ≤ k ∧ k < key + 1 + bs.length
      · rw [if_pos hin, if_pos (by omega), show k - key = k - (key + 1) + 1 by omega, List.getD_cons_succ]
      · rw [if_neg hin, if_neg hk, if_neg (by omega)]

end Decrypted

end Sys2Proof.Machine
end

section
/-! PROOFS. The completion of a lot (spec/03 R68): where its record goes, what it reads back as, and the interrupt behind it. -/

namespace Sys2Proof.Machine

/-! ### A translation reads nothing of the lots -/

section Lots
variable (s : State) (L : Map (Option Lot))

/-- The state with other lots. -/
def State.withLots : State := { s with lots := L }

theorem State.walkFrom_withLots (die ctx p : Nat) (mode : BitVec 2) (va n : Nat) (lvs : List Nat) (table : Nat) (t : BitVec 4)
    (ups : List TlbEntry) : (s.withLots L).walkFrom die ctx p mode va n lvs table t ups = s.walkFrom die ctx p mode va n lvs table t ups := by
  induction lvs generalizing table t ups with
  | nil => rfl
  | cons lv lvs ih =>
    simp only [State.walkFrom, ih]
    rfl

theorem State.leafAddr_withLots (ctx p : Nat) (mode : BitVec 2) (va n : Nat) (acc : Access) (e : TlbEntry) :
    (s.withLots L).leafAddr ctx p mode va n acc e = s.leafAddr ctx p mode va n acc e := rfl

theorem State.endWalk_withLots (ctx p : Nat) (mode : BitVec 2) (va n : Nat) (acc : Access) (w : Walk) :
    (s.withLots L).endWalk ctx p mode va n acc w = s.endWalk ctx p mode va n acc w := by
  unfold State.endWalk
  simp only [State.leafAddr_withLots]
  rfl

theorem State.pickWalk_withLots (n : Nat) (new : Walk) (ws : List Walk) (i : Nat) :
    (s.withLots L).pickWalk n new ws i = s.pickWalk n new ws i := by
  induction ws generalizing i with
  | nil => rfl
  | cons w ws ih =>
    simp only [State.pickWalk, ih]
    rfl

theorem State.translate_withLots (pl ctx : Nat) (va : BitVec 64) (acc : Access) (n m : Nat) (waits : Bool) :
    (s.withLots L).translate pl ctx va acc n m waits = s.translate pl ctx va acc n m waits := by
  have hmode (p k : Nat) : (s.withLots L).modeUsed p k = s.modeUsed p k := rfl
  have hctx : (s.withLots L).ctx ctx = s.ctx ctx := rfl
  have hroot : (s.withLots L).rootOf ctx = s.rootOf ctx := rfl
  have hleaves (v : Nat) : (s.withLots L).cachedLeaves pl ctx v = s.cachedLeaves pl ctx v := rfl
  have huppers (v : Nat) : (s.withLots L).cachedUppers pl ctx v = s.cachedUppers pl ctx v := rfl
  unfold State.translate
  simp only [State.endWalk_withLots, State.walkFrom_withLots, State.pickWalk_withLots, hmode, hctx, hroot, hleaves, huppers]

theorem State.launchXlat_withLots (ctx : Nat) (va : BitVec 64) (acc : Access) (n : Nat) :
    ((s.withLots L).launchXlat ctx va acc n).2 = (s.launchXlat ctx va acc n).2 := by
  have hres (u : State) : (u.launchXlat ctx va acc n).2 = (u.translate hubPlace ctx va acc n).res := by
    unfold State.launchXlat
    dsimp only
    split
    · split <;> rfl
    · rfl
  rw [hres, hres, State.translate_withLots]

end Lots

/-! ### A write of a launch processor -/

section LaunchWrite
variable {u : State} {ctx : Nat} {va : BitVec 64} {parts : List (Nat × List Byte)} {n : Nat}

/-- The state with the parts of a write sent, to be performed later. -/
def State.sentLater (u : State) (ctx : Nat) (va : BitVec 64) (parts : List (Nat × List Byte)) (n : Nat) : State :=
  { (u.launchXlat ctx va .write n).1 with posted := u.posted ++ parts.map (fun p => .range hubPlace ctx (va + BitVec.ofNat 64 p.1) p.2) }

theorem State.launchWrite_of_fault {code : BitVec 8} {cause : BitVec 4} (h : (u.launchXlat ctx va .write n).2 = .fault code cause) :
    u.launchWrite ctx va parts n = ((u.launchXlat ctx va .write n).1, false) := by
  unfold State.launchWrite
  dsimp only
  rw [h]

theorem State.launchWrite_of_held (h : (u.launchXlat ctx va .write n).2 = .held) :
    u.launchWrite ctx va parts n = (u.sentLater ctx va parts n, true) := by
  unfold State.launchWrite
  dsimp only
  rw [h]
  rfl

/-- The state with the parts of a write performed in order. -/
def State.performParts (u : State) (key : Nat) (slot : BitVec 10) (parts : List (Nat × List Byte)) : State :=
  parts.foldl (fun s p => s.performG (wbytes (key + p.1) slot p.2)) u

theorem State.performParts_same (u : State) (key : Nat) (slot : BitVec 10) (parts : List (Nat × List Byte)) :
    u.SameBut (u.performParts key slot parts) := by
  unfold State.performParts
  induction parts generalizing u with
  | nil => exact .refl u
  | cons p ps ih => exact (u.performG_keeps _).1.trans (ih _)

theorem State.launchWrite_of_ok {pa : Nat} {slot : BitVec 10} {ca : BitVec 2} (h : (u.launchXlat ctx va .write n).2 = .ok pa slot ca)
    (hb : u.postedBehind ctx = false) (hs : u.ackSilent hubDie [u.memKey (u.ctx ctx).part pa] = false) :
    u.launchWrite ctx va parts n = ((u.launchXlat ctx va .write n).1.performParts (u.memKey (u.ctx ctx).part pa) slot parts, true) := by
  have hkey : (u.launchXlat ctx va .write n).1.memKey (u.ctx ctx).part pa = u.memKey (u.ctx ctx).part pa := by
    have hw := u.launchXlat_walks ctx va .write n (fun d e => by rw [h] at e; cases e)
    unfold State.memKey State.normal
    rw [hw.hub]
  unfold State.launchWrite State.performParts
  dsimp only
  rw [h]
  dsimp only
  rw [hkey, hb, hs, List.foldl_map]
  rfl

end LaunchWrite

/-! ### The completion -/

section Complete
variable (s : State) (lot : Nat)

/-- The state with a lot complete, its record still to be written. -/
def State.closing : State := s.setLot lot { s.lot lot with phase := .complete }

/-- The record of a lot in the order it is written: the first word, which makes it valid, last. -/
def Lot.recordParts (l : Lot) : List (Nat × List Byte) := [(4, l.completion.drop 4), (0, l.completion.take 4)]

/-- The state with the record of a lot written, and whether its address translates. -/
def State.recordSent : State × Bool := (s.closing lot).launchWrite (s.lot lot).ctx (s.lot lot).record.cplva (s.lot lot).recordParts 480

/-- The translation of the record's address. -/
def State.recordXlat : State × Xlat := s.launchXlat (s.lot lot).ctx (s.lot lot).record.cplva .write 480
def State.closingXlat : State × Xlat := (s.closing lot).launchXlat (s.lot lot).ctx (s.lot lot).record.cplva .write 480

theorem State.closingXlat_eq : (s.closingXlat lot).2 = (s.recordXlat lot).2 := s.launchXlat_withLots _ _ _ _ _

/-- The interrupt of a lot, where its record asks for one. -/
def State.lotIrq (u : State) (part : Nat) (l : Lot) : State := if l.record.irq then u.signalBehind l.ctx part l.record.irqv.toNat else u

variable {s lot}

theorem State.completeLot_of_failed (h : (s.recordSent lot).2 = false) :
    s.completeLot lot = (s.recordSent lot).1.modQueue (s.lot lot).ctx (s.lot lot).queue Queue.fail := by
  have h' : (!(s.recordSent lot).2) = true := by rw [h]; rfl
  exact if_pos h'

theorem State.completeLot_of_no_sema (h : (s.recordSent lot).2 = true) (hs : (s.lot lot).record.sema = false) :
    s.completeLot lot = (s.recordSent lot).1.lotIrq (s.ctx (s.lot lot).ctx).part (s.lot lot) := by
  have h' : ¬ (!(s.recordSent lot).2) = true := by rw [h]; exact Bool.false_ne_true
  have hs' : (!(s.lot lot).record.sema) = true := by rw [hs]; rfl
  exact (if_neg h').trans (if_pos hs')

theorem State.closingXlat_walks (h : ∀ d, (s.recordXlat lot).2 ≠ .lost d) : (s.closing lot).Walks (s.closingXlat lot).1 :=
  (s.closing lot).launchXlat_walks _ _ _ _ (fun d e => h d ((s.closingXlat_eq lot).symm.trans e))

/-! A record whose address faults (R68): ERR is set and EN cleared. -/

theorem State.completeLot_faults {code : BitVec 8} {cause : BitVec 4} (h : (s.recordXlat lot).2 = .fault code cause) :
    let t := s.completeLot lot
    t.mem = s.mem ∧ t.hub = s.hub ∧ ((t.ctx (s.lot lot).ctx).queues.get (s.lot lot).queue).err = true ∧
      ((t.ctx (s.lot lot).ctx).queues.get (s.lot lot).queue).en = false := by
  have hw := State.closingXlat_walks (s := s) (lot := lot) (fun d e => by rw [h] at e; cases e)
  have hsent : s.recordSent lot = ((s.closingXlat lot).1, false) := State.launchWrite_of_fault ((s.closingXlat_eq lot).trans h)
  have heq := State.completeLot_of_failed (s := s) (lot := lot) (by rw [hsent])
  dsimp only
  rw [heq, hsent]
  refine ⟨hw.mem, hw.hub, ?_, ?_⟩ <;> rw [State.queue_modQueue] <;> rfl

/-! A record that a SILENT die holds up (spec/01 R31): it is sent, and what follows it goes behind it. -/

theorem State.completeLot_held (h : (s.recordXlat lot).2 = .held) (hs : (s.lot lot).record.sema = false) :
    ∃ more, (s.completeLot lot).mem = s.mem ∧ (s.completeLot lot).hub = s.hub ∧ (s.completeLot lot).posted = s.posted ++
      [.range hubPlace (s.lot lot).ctx ((s.lot lot).record.cplva + 4) ((s.lot lot).completion.drop 4),
        .range hubPlace (s.lot lot).ctx (s.lot lot).record.cplva ((s.lot lot).completion.take 4)] ++ more := by
  have hw := State.closingXlat_walks (s := s) (lot := lot) (fun d e => by rw [h] at e; cases e)
  have hsent : s.recordSent lot = ((s.closing lot).sentLater (s.lot lot).ctx (s.lot lot).record.cplva (s.lot lot).recordParts 480, true) :=
    State.launchWrite_of_held ((s.closingXlat_eq lot).trans h)
  have hposted : (s.recordSent lot).1.posted = s.posted ++
      [.range hubPlace (s.lot lot).ctx ((s.lot lot).record.cplva + 4) ((s.lot lot).completion.drop 4),
        .range hubPlace (s.lot lot).ctx (s.lot lot).record.cplva ((s.lot lot).completion.take 4)] := by
    rw [hsent]
    unfold State.sentLater Lot.recordParts
    rw [List.map_cons, List.map_cons, List.map_nil, show BitVec.ofNat 64 0 = 0#64 from rfl, BitVec.add_zero]
    rfl
  have hmem : (s.recordSent lot).1.mem = s.mem := by
    rw [hsent]
    exact hw.mem
  have hhub : (s.recordSent lot).1.hub = s.hub := by
    rw [hsent]
    exact hw.hub
  have hbehind : (s.recordSent lot).1.postedBehind (s.lot lot).ctx = true := by
    unfold State.postedBehind
    rw [hposted]
    simp
  rw [State.completeLot_of_no_sema (by rw [hsent]) hs]
  unfold State.lotIrq State.signalBehind
  rw [hbehind]
  split
  · exact ⟨[.irq _ _ _], hmem, hhub, congrArg (· ++ _) hposted⟩
  · exact ⟨[], hmem, hhub, hposted.trans (List.append_nil _).symm⟩

/-! A record that is written: it reads back through the key slot of its page, and the interrupt follows. -/

/-- The two parts of a record, performed in order, read back as the record. -/
theorem Lot.recordParts_decrypted (l : Lot) (u : State) (key : Nat) (slot : BitVec 10) {i : Nat} (hi : i < 128) :
    (u.performParts key slot l.recordParts).decrypted (key + i) slot = l.completion.getD i 0 := by
  have hlen := l.length_completion
  have hparts : u.performParts key slot l.recordParts =
      (u.performG (wbytes (key + 4) slot (l.completion.drop 4))).performG (wbytes key slot (l.completion.take 4)) := by
    unfold State.performParts Lot.recordParts
    rw [List.foldl_cons, List.foldl_cons, List.foldl_nil, Nat.add_zero]
  have hdrop : (l.completion.drop 4).length = 124 := by rw [List.length_drop, hlen]
  have htake : (l.completion.take 4).length = 4 := by rw [List.length_take, hlen]; rfl
  rw [hparts, State.performG_decrypted, htake]
  by_cases h : i < 4
  · rw [if_pos (by omega), Nat.add_sub_cancel_left, List.getD_eq_getElem?_getD, List.getD_eq_getElem?_getD, List.getElem?_take_of_lt h]
  · rw [if_neg (by omega), State.performG_decrypted, hdrop, if_pos (by omega), List.getD_eq_getElem?_getD, List.getD_eq_getElem?_getD,
      List.getElem?_drop, show 4 + (key + i - (key + 4)) = i by omega]

theorem State.completeLot_written {pa : Nat} {slot : BitVec 10} {ca : BitVec 2} (h : (s.recordXlat lot).2 = .ok pa slot ca)
    (hb : s.postedBehind (s.lot lot).ctx = false)
    (ha : s.ackSilent hubDie [s.memKey (s.ctx (s.lot lot).ctx).part pa] = false) (hs : (s.lot lot).record.sema = false) :
    (∀ i < 128, (s.completeLot lot).decrypted (s.memKey (s.ctx (s.lot lot).ctx).part pa + i) slot = (s.lot lot).completion.getD i 0) ∧
      (s.completeLot lot).hub.irqs =
        s.hub.irqs ++ (if (s.lot lot).record.irq then [((s.ctx (s.lot lot).ctx).part, (s.lot lot).record.irqv.toNat)] else []) := by
  have hw := State.closingXlat_walks (s := s) (lot := lot) (fun d e => by rw [h] at e; cases e)
  have hsent : s.recordSent lot =
      ((s.closingXlat lot).1.performParts (s.memKey (s.ctx (s.lot lot).ctx).part pa) slot (s.lot lot).recordParts, true) :=
    State.launchWrite_of_ok ((s.closingXlat_eq lot).trans h) hb ha
  generalize s.memKey (s.ctx (s.lot lot).ctx).part pa = key at hsent ⊢
  have hsame := (s.closingXlat lot).1.performParts_same key slot (s.lot lot).recordParts
  have hhub : (s.recordSent lot).1.hub = s.hub := by
    rw [hsent]
    exact hsame.hub_eq.trans hw.hub
  have hbehind : (s.recordSent lot).1.postedBehind (s.lot lot).ctx = false := by
    have hposted : (s.recordSent lot).1.posted = s.posted := by
      rw [hsent, hsame, hw.only]
      rfl
    unfold State.postedBehind at *
    rwa [hposted]
  have hst : (s.recordSent lot).1 = (s.closingXlat lot).1.performParts key slot (s.lot lot).recordParts := by rw [hsent]
  have hread (t : State) (hm : t.mem = (s.recordSent lot).1.mem) (hk : t.lineKey = (s.recordSent lot).1.lineKey)
      (hkeys : t.hub.keys = (s.recordSent lot).1.hub.keys) (i : Nat) (hi : i < 128) :
      t.decrypted (key + i) slot = (s.lot lot).completion.getD i 0 := by
    have hsee : t.decrypted (key + i) slot = (s.recordSent lot).1.decrypted (key + i) slot := by
      unfold State.decrypted State.keyOf
      rw [hm, hk, hkeys]
    rw [hsee, hst]
    exact (s.lot lot).recordParts_decrypted (s.closingXlat lot).1 key slot hi
  rw [State.completeLot_of_no_sema (by rw [hsent]) hs]
  unfold State.lotIrq State.signalBehind
  rw [hbehind]
  split
  · exact ⟨hread _ rfl rfl rfl, congrArg (fun h : Hub => h.irqs ++ _) hhub⟩
  · exact ⟨hread _ rfl rfl rfl, (congrArg Hub.irqs hhub).trans (List.append_nil _).symm⟩

/-! ### LOT_COMPLETE -/

theorem execLotComplete_not_over (h : s.lotOver lot = false) : execLotComplete lot s = .next s := if_pos (by rw [h]; rfl)

theorem execLotComplete_over (h : s.lotOver lot = true) (h0 : (s.lot lot).status = 0) : execLotComplete lot s = .next (s.completeLot lot) := by
  refine (if_neg (by rw [h]; exact Bool.false_ne_true)).trans ?_
  rw [if_pos (by rw [h0]; rfl)]

theorem execLotComplete_failed (h : s.lotOver lot = true) (h0 : (s.lot lot).status ≠ 0) :
    execLotComplete lot s = .next (([0, 1, 2, 3].foldl (fun s d => s.discardTasks lot d) s).completeLot lot) := by
  refine (if_neg (by rw [h]; exact Bool.false_ne_true)).trans ?_
  rw [if_neg (by simpa using h0)]

end Complete

end Sys2Proof.Machine
end

section
/-! PROOFS. Placement, the end of vats and the completion of lots, assembled (spec/04 R80–R87, spec/03 R67–R69). -/

namespace Sys2Proof.Machine

/-- What warp `i` of a new vat begins with (R87). -/
def Warp.BeginsAs (w : Warp) (r : LotRecord) (code : CodeHeader) (entry : Word) (k i core : Nat) : Prop :=
  w.vat = k ∧ w.num = i ∧ w.resident = true ∧ w.core = core ∧ w.mat = decide (r.nvec ≤ i) ∧ w.hdep = 0 ∧ w.trap.tmode = false ∧
    w.masks.lmask = (if i < r.nvec then 0xFFFFFFFF else 1) ∧ w.masks.amask = w.masks.lmask ∧ w.sgcfg = 0x10000100 ∧
    w.dhv = (if code.hndoff = 0 then 0 else BitVec.ofNat 32 code.hndoff ||| 1) ∧ w.trap.tvmask = code.tvm ∧ w.fstat = 0 ∧
    (∀ j ∈ lanesOf w.masks.lmask, w.lpc.get j = BitVec.ofNat 32 entry.toNat) ∧
    (∀ j < 8, w.final (cellKn j) = r.kinit.get j) ∧ ∀ c, (c < 8192 ∨ 8200 ≤ c) → w.final c = 0

theorem startWarp_begins (r : LotRecord) (code : CodeHeader) (entry : Word) (k i core slot placed : Nat) :
    (startWarp k i (decide (r.nvec ≤ i)) core slot placed (r.live i) entry.toNat code (kinitRegs r.kinit)).BeginsAs r code entry k i core := by
  refine ⟨rfl, rfl, rfl, rfl, rfl, rfl, rfl, rfl, rfl, rfl, rfl, rfl, rfl, fun j hj => startWarp_lpc hj, fun j hj => ?_, fun c hc => ?_⟩
  · rw [startWarp_final, kinitRegs_get, cellKn, if_pos (by omega), Nat.add_sub_cancel_left]
  · rw [startWarp_final, kinitRegs_get, if_neg (by omega)]

/-- What a placed vat and its warps begin with. -/
theorem State.VatStarts.begins {t : State} {r : LotRecord} {code : CodeHeader} {entry : Word} {lot k core num : Nat}
    (h : t.VatStarts r code entry lot k core num) :
    let v := t.vat k
    v.lot = lot ∧ v.vatnum = BitVec.ofNat 32 num ∧ v.place = .resident ∧ v.core = core ∧ v.nwarp = r.nvec + r.nmat ∧ v.regs = r.regs ∧
      v.scr = r.scr ∧ v.acc = r.acc ∧ v.task = false ∧ v.vvmask = code.vvm ∧
      (num < 2 ^ 32 → v.gridX = BitVec.ofNat 32 (num % r.gx) ∧ v.gridY = BitVec.ofNat 32 (num / r.gx % r.gy) ∧
        v.gridZ = BitVec.ofNat 32 (num / r.gx / r.gy)) ∧
      v.vbstat = vbMake false (32 * r.nvec + r.nmat) 0 ∧ v.scratch = [] ∧ v.tiles = [] ∧ v.ringd = [] ∧ v.hist = [] ∧
      ∀ i < r.nvec + r.nmat, (t.warp (warpKey k i)).BeginsAs r code entry k i core := by
  have hv := h.vat
  refine ⟨hv.lot, hv.vatnum, hv.place, hv.core, hv.nwarp, hv.regs, hv.scr, hv.acc, hv.task, hv.vvmask, fun hnum => ?_, hv.vbstat, hv.scratch,
    hv.tiles, hv.ringd, hv.hist, fun i hi => ?_⟩
  · have hgrid := hv.grid rfl
    rwa [BitVec.toNat_ofNat, Nat.mod_eq_of_lt hnum] at hgrid
  · obtain ⟨slot, placed, hw⟩ := h.warp i hi
    rw [hw]
    exact startWarp_begins r code entry k i core slot placed

/-- The words of a completion record that its statement names, for a lot of status 0. -/
theorem Lot.completion_words {l : Lot} (h0 : l.status = 0) :
    let w (o : Nat) : Nat := word l.completion o
    let f := l.first.getD default
    w 0x00 = 2 ^ 31 + 2 ^ 16 * f.code.toNat ∧ w 0x04 = l.record.lottag.toNat ∧
    (l.tacc < 2 ^ 64 → w 0x08 + 2 ^ 32 * w 0x0C = l.tacc) ∧ (l.tstart < 2 ^ 64 → w 0x10 + 2 ^ 32 * w 0x14 = l.tstart) ∧
    (l.tend < 2 ^ 64 → w 0x18 + 2 ^ 32 * w 0x1C = l.tend) ∧ w 0x20 + 2 ^ 32 * w 0x24 = f.fva.toNat ∧
    w 0x28 + 2 ^ 32 * w 0x2C = l.firstPc.toNat ∧ w 0x30 = f.vatnum.toNat ∧ w 0x38 = l.exc.toNat ∧ w 0x3C = l.qseq.toNat ∧
    (l.vatsDone < 2 ^ 32 → w 0x40 = l.vatsDone) ∧ w 0x44 = l.dlost.toNat := by
  have hw (i : Nat) (hi : i < 18) := l.word_completion hi
  have hpair {v i : Nat} (hi : i + 1 < 18) (hlow : l.completionWords[i]'(Nat.lt_of_succ_lt hi) = BitVec.ofNat 32 v)
      (hhigh : l.completionWords[i + 1]'hi = BitVec.ofNat 32 (v / 2 ^ 32)) (hv : v < 2 ^ 64) :
      word l.completion (4 * i) + 2 ^ 32 * word l.completion (4 * (i + 1)) = v := by
    rw [hw i (Nat.lt_of_succ_lt hi), hw (i + 1) hi, hlow, hhigh]
    exact low_add_high hv
  refine ⟨?_, hw 1 (by decide), hpair (i := 2) (by decide) rfl rfl, hpair (i := 4) (by decide) rfl rfl, hpair (i := 6) (by decide) rfl rfl,
    hpair (i := 8) (by decide) rfl rfl (BitVec.isLt _), hpair (i := 10) (by decide) rfl rfl (BitVec.isLt _), hw 12 (by decide), ?_,
    hw 15 (by decide), fun hlt => ?_, ?_⟩
  · refine (hw 0 (by decide)).trans ?_
    unfold Lot.completionWords
    rw [List.getElem_cons_zero, h0]
    exact status_word _
  · exact (hw 14 (by decide)).trans ((BitVec.toNat_setWidth _ _).trans (Nat.mod_eq_of_lt (by omega)))
  · exact (hw 16 (by decide)).trans ((BitVec.toNat_ofNat _ _).trans (Nat.mod_eq_of_lt hlt))
  · exact (hw 17 (by decide)).trans ((BitVec.toNat_setWidth _ _).trans (Nat.mod_eq_of_lt (by omega)))

/-- Settles O49. Placement: the fold over the fitting cores keeps the best, and a vat placed stands as it was placed while the rest of its
lot is. The end of a vat: its holdings are freed beside it. Completion: the parts of the record read back through their key slot. -/
theorem vatsAndLots : Obligations.VatsAndLots := by
  unfold Obligations.VatsAndLots
  intro s lot vat
  dsimp only
  refine ⟨fun h => ⟨execVatPlace_not_due h, execCohabPlace_not_due h⟩, execVatPlace_of_cohab, execCohabPlace_of_not_cohab,
    fun hp hf hn => ⟨fun hc => ⟨fun core subs hcore => ⟨?_, chooseCore_spec hcore⟩, fun hnone =>
      execVatPlace_draws hp hf hc (chooseCore_none hnone)⟩, fun hc => ⟨fun ps hps => ?_, execCohabPlace_draws hp hf hc⟩⟩,
    execVatLeave_waits, fun h => ?_, execLotComplete_not_over, fun h h0 => ?_, execLotComplete_failed⟩
  · obtain ⟨hmem, hnext, hlot⟩ := s.placeNext_frame lot core subs
    exact ⟨_, execVatPlace_places hp hf hc hcore, hmem, hnext, by rw [hlot]; rfl, by rw [hlot]; rfl, (s.placeNext_starts lot core subs).begins⟩
  · obtain ⟨⟨hmem, hnext, hnum⟩, -, hstarts⟩ := State.placeAll_starts (s := s) (lot := lot) ps rfl rfl rfl hn
    have hlen := State.cohabAll_length hps
    have hlt := State.nextVat_of_placing hp
    refine ⟨_, execCohabPlace_places hp hf hc hps, hmem, hlen, hnext, by rw [hnum, hlen]; omega, fun i _ p hi => ?_⟩
    exact (hstarts i p hi).begins
  · obtain ⟨hends, hnone⟩ := s.leftCore_ends vat
    refine ⟨_, execVatLeave_leaves h, hends.mem, hends.place, hends.image, hends.warps, ?_, ?_, ?_, fun e => hnone e⟩
    all_goals rw [State.lot_modLot, if_pos rfl, hends.lot]
    · exact (or_foldl _ _ _).symm
    · rfl
    · refine Eq.trans (b := (s.lot (s.vat vat).lot).vatsDone + if s.vatCounts vat = true then 1 else 0) ?_
        (congrArg _ (if_congr (s.vatCounts_iff vat) rfl rfl))
      dsimp only
      split <;> rfl
  · have hover := execLotComplete_over h h0
    obtain ⟨hw0, hw1, hw2, hw4, hw6, hw8, hw10, hw12, hw14, hw15, hw16, hw17⟩ := (s.lot lot).completion_words h0
    refine ⟨⟨_, hover, (s.completeLot_over lot).2.phase⟩, (s.lot lot).length_completion, hw0, hw1, hw2, hw4, hw6, hw8, hw10, hw12, hw14, hw15,
      hw16, hw17, fun pa slot ca hx hb ha hs => ?_, fun hx hs => ?_, fun code cause hx => ?_⟩
    · obtain ⟨hread, hirqs⟩ := State.completeLot_written hx hb ha hs
      exact ⟨_, hover, hread, hirqs⟩
    · obtain ⟨more, hmem, hhub, hposted⟩ := State.completeLot_held hx hs
      exact ⟨_, more, hover, hmem, by rw [hhub], hposted⟩
    · obtain ⟨hmem, hhub, herr, hen⟩ := State.completeLot_faults hx
      exact ⟨_, hover, hmem, by rw [hhub], herr, hen⟩

end Sys2Proof.Machine
end

section
/-! PROOFS. Stream engines (spec/06 R150–R152): an engine stands as it is through every access of a box (`State.EnginesStand`), the end of an
operation changes nothing but the operations (`State.finish_only`), and one lemma for each way a box can go. -/

namespace Sys2Proof

/-- Each listed element changed by a function that keeps it listed, in an array of any form. -/
theorem Map.get_mapVals_listed {α : Type} [Inhabited α] [DecidableEq α] {m : Map α} {f : Nat → α → α} {k : Nat} (hm : m.get k ≠ default)
    (hf : f k (m.get k) ≠ default) : Map.get (m.mapVals f) k = f k (m.get k) := by
  induction m with
  | nil => exact absurd rfl hm
  | cons e m ih =>
    obtain ⟨j, v⟩ := e
    have hcons : Map.mapVals ((j, v) :: m) f = if f j v = default then Map.mapVals m f else (j, f j v) :: Map.mapVals m f := by
      unfold Map.mapVals
      rw [List.filterMap_cons]
      dsimp only
      split_ifs <;> rfl
    by_cases hj : j = k
    · subst hj
      rw [Map.get, if_pos rfl] at hf ⊢
      rw [hcons, if_neg hf]
      exact if_pos rfl
    · rw [Map.get, if_neg hj] at hm hf ⊢
      rw [hcons]
      split
      · exact ih hm hf
      · exact (if_neg hj).trans (ih hm hf)

end Sys2Proof

namespace Sys2Proof.Machine

/-! ### The fields of a ring -/

/-- A tag written is the tag read. -/
theorem tagOf_setTag (t : BitVec 128) {p v : Nat} (hp : p < 64) (hv : v < 4) : tagOf (setTag t p v) p = v := by
  have hbits : (setTag t p v).extractLsb' (2 * p) 2 = BitVec.ofNat 2 v := BitVec.eq_of_getLsbD_eq fun i hi => by
    have hlt : 2 * p + i < 128 := by omega
    have h3 : (3 : BitVec 128).getLsbD i = true := by
      rcases (show i = 0 ∨ i = 1 by omega) with rfl | rfl <;> rfl
    rw [setTag, BitVec.getLsbD_extractLsb', BitVec.getLsbD_or, BitVec.getLsbD_and, BitVec.getLsbD_not, BitVec.getLsbD_shiftLeft,
      BitVec.getLsbD_shiftLeft, Nat.add_sub_cancel_left, h3, BitVec.getLsbD_ofNat, BitVec.getLsbD_ofNat, Nat.mod_eq_of_lt hv]
    simp [hlt, hi, show i < 128 by omega]
  rw [tagOf, hbits, BitVec.toNat_ofNat]
  exact Nat.mod_eq_of_lt hv

/-! ### Engines beside the accesses to memory -/

/-- The engines of core `c`, where it has any that is not idle, are as they were. -/
def State.EnginesStand (c : Nat) (s t : State) : Prop := (s.core c).engines ≠ [] → (t.core c).engines = (s.core c).engines

section
variable {c : Nat}

theorem State.EnginesStand.of_cores {s t : State} (h : t.cores = s.cores) : s.EnginesStand c t := fun _ => by unfold State.core; rw [h]

theorem State.EnginesStand.refl (s : State) : s.EnginesStand c s := .of_cores rfl

theorem State.EnginesStand.trans {s t u : State} (h : s.EnginesStand c t) (g : t.EnginesStand c u) : s.EnginesStand c u := fun hs =>
  (g (by rwa [h hs])).trans (h hs)

theorem State.EnginesStand.foldl {α : Type} {f : State → α → State} (hf : ∀ (s : State) x, s.EnginesStand c (f s x)) (xs : List α)
    (s : State) : s.EnginesStand c (xs.foldl f s) := by
  induction xs generalizing s with
  | nil => exact .refl s
  | cons x xs ih => exact (hf s x).trans (ih _)

theorem State.Walks.enginesStand {s t : State} (h : s.Walks t) : s.EnginesStand c t := .of_cores (by rw [h.only])

theorem State.Drops.enginesStand {s t : State} (h : s.Drops t) : s.EnginesStand c t := .of_cores (by rw [h.only])

/-- A core with an engine stays listed when lines leave its L1. -/
theorem State.dropL1_enginesStand (s : State) (dies : BitVec 4) (line : Nat) : s.EnginesStand c (s.dropL1 dies line) := fun hs => by
  have hlisted : s.cores.get c ≠ default := fun h => hs (congrArg Core.engines h)
  unfold State.dropL1
  split
  · unfold State.core at hs hlisted ⊢
    dsimp only
    rw [Map.get_mapVals_listed hlisted fun h => hs ?_]
    · split <;> rfl
    · refine Eq.trans ?_ (congrArg Core.engines h)
      split <;> rfl
  · rfl

theorem State.putByte_cores (s : State) (b : WByte) : (s.putByte b).cores = s.cores := by
  show (s.rekey b.key b.slot).cores = s.cores
  unfold State.rekey
  dsimp only
  split <;> rfl

theorem State.performG_enginesStand (s : State) (bs : List WByte) : s.EnginesStand c (s.performG bs) :=
  .foldl (fun u b => ((State.EnginesStand.foldl (fun v d => (v.dropCopy_drops d _).enginesStand) _ u).trans
    (State.dropL1_enginesStand _ _ _)).trans (.of_cores (State.putByte_cores _ b))) bs s

theorem State.fillCopy_enginesStand (s : State) (die key : Nat) (ca : BitVec 2) (slot : BitVec 10) :
    s.EnginesStand c (s.fillCopy die key ca slot) := by
  unfold State.fillCopy
  split
  · dsimp only
    have hd : s.EnginesStand c (if ca ≠ 2 ∧ s.staleUnder die (lineOf key) slot = true then s.dropCopy die (lineOf key) else s) := by
      split
      · exact (s.dropCopy_drops _ _).enginesStand
      · exact .refl s
    generalize (if ca ≠ 2 ∧ s.staleUnder die (lineOf key) slot = true then s.dropCopy die (lineOf key) else s) = u at hd ⊢
    split
    · exact hd
    · refine hd.trans (State.EnginesStand.trans (t := u.evictCopy die) ?_ (.of_cores rfl))
      unfold State.evictCopy
      dsimp only
      split
      · exact .refl u
      · exact (u.dropCopy_drops _ _).enginesStand
  · exact .refl s

theorem State.readPieces_enginesStand (s : State) (pl ctx : Nat) (vat : Option Nat) (x : Reader) (n : Nat) (ps : List (BitVec 64 × Nat))
    (acc : List Byte) : s.EnginesStand c (s.readPieces pl ctx vat x n ps acc).1 := by
  induction ps generalizing s n acc with
  | nil => exact .refl s
  | cons p ps ih =>
    obtain ⟨va, k⟩ := p
    have hw : s.EnginesStand c _ := (s.noteWalk_walks pl ctx (s.translate pl ctx va .read n)).enginesStand
    unfold State.readPieces
    dsimp only
    split
    · split
      · exact ih _ _ _
      · exact .refl s
    · split
      · split
        · exact hw
        · split
          · exact hw
          · exact (hw.trans (State.fillCopy_enginesStand _ _ _ _ _)).trans (ih _ _ _)
      all_goals exact hw

theorem State.placeWrite_enginesStand (s : State) (pl ctx : Nat) (va : BitVec 64) (bs : List Byte) (k : Nat) :
    s.EnginesStand c (s.placeWrite pl ctx va bs k).1 := by
  have hw : s.EnginesStand c _ := (s.writePieces_walks pl ctx k (rangePieces va bs.length) []).enginesStand
  unfold State.placeWrite
  dsimp only
  split
  · split
    · exact hw
    · exact hw.trans (State.performG_enginesStand _ _)
  · exact hw

theorem State.writeRange_enginesStand (s : State) (core ctx vk : Nat) (va : BitVec 64) (bs : List Byte) (n : Nat) :
    s.EnginesStand c (s.writeRange core ctx vk va bs n).1 := by
  unfold State.writeRange
  split
  · split
    · exact .of_cores rfl
    · exact .refl s
  · exact s.placeWrite_enginesStand _ _ _ _ _

theorem State.moveElements_enginesStand (s : State) (core ctx vk : Nat) (t : Tlr) (box : List Nat) (off n i : Nat) :
    s.EnginesStand c (s.moveElements core ctx vk t box off n i).1 := by
  induction n generalizing s i with
  | zero => exact .refl s
  | succ n ih =>
    unfold State.moveElements
    dsimp only
    split
    · refine State.EnginesStand.trans ?_ (ih _ _)
      split <;> exact .of_cores rfl
    · split
      · have hw : s.EnginesStand c _ := s.writeRange_enginesStand core ctx vk ‹_› ((s.vat vk).scratchBytes (off + t.slotOffset i) (2 ^ t.es)) 40
        split
        · exact hw
        · exact hw.trans (ih _ _)
      · have hr : s.EnginesStand c _ := s.readPieces_enginesStand core ctx (some vk) (.exact none) 40 (rangePieces ‹_› (2 ^ t.es)) []
        split
        · exact hr
        · exact hr.trans (State.EnginesStand.trans (.of_cores (State.modVat_cores _ _ _)) (ih _ _))

/-- An engine that works is one of its core's. -/
theorem State.EnginesStand.engine {s t : State} {e : Nat} (h : s.EnginesStand c t) (hb : (s.engine c e).busy = true) :
    t.engine c e = s.engine c e := by
  unfold State.engine at hb ⊢
  rw [h fun hnil => by rw [hnil] at hb; cases hb]

end

theorem State.engine_modEngine (s : State) (core e : Nat) (f : StreamEngine → StreamEngine) :
    (s.modEngine core e f).engine core e = f (s.engine core e) := by
  unfold State.engine State.modEngine
  rw [State.core_modCore, if_pos rfl]
  exact (Map.get_modify _ _ _ _).trans (if_pos rfl)

@[simp] theorem State.modEngine_mem (s : State) (core e : Nat) (f : StreamEngine → StreamEngine) : (s.modEngine core e f).mem = s.mem := rfl
@[simp] theorem State.modEngine_vats (s : State) (core e : Nat) (f : StreamEngine → StreamEngine) : (s.modEngine core e f).vats = s.vats := rfl

theorem State.vat_modEngine (s : State) (core e : Nat) (f : StreamEngine → StreamEngine) (k : Nat) : (s.modEngine core e f).vat k = s.vat k := by
  unfold State.vat
  rw [State.modEngine_vats]

/-! ### The end of a traversal -/

theorem State.report_only (s : State) (k : Nat) (cls : OpClass) : s.report k cls = { s with ops := (s.report k cls).ops } := by
  unfold State.report
  dsimp only
  generalize reportPrefix _ = ns
  induction ns generalizing s with
  | nil => rfl
  | cons n ns ih =>
    rw [List.foldl_cons, ih]
    split
    · split <;> rfl
    · rfl

/-- An operation that ends changes nothing but the operations. -/
theorem State.finish_only (s : State) (n : Nat) (f : Op → Op) : s.finish n f = { s with ops := (s.finish n f).ops } := by
  unfold State.finish
  split
  · rfl
  · rw [State.report_only]
    rfl

/-- A traversal that ends releases its engine, which keeps its place (R150). -/
theorem State.endTraversal_spec (s : State) (core e : Nat) : (s.endTraversal core e).mem = s.mem ∧ (s.endTraversal core e).vats = s.vats ∧
    (s.endTraversal core e).engine core e = (s.engine core e).release := by
  have hops := s.finish_only (s.engine core e).op id
  unfold State.endTraversal
  rw [State.engine_modEngine, hops]
  exact ⟨rfl, rfl, rfl⟩

/-! ### A box (R151) -/

section
variable {s : State} {core e vk : Nat}

/-- The box that engine `e` moves next: the slot it has or takes, the state with the slot taken, and what becomes of the elements left. -/
def State.boxSlot (s : State) (core e vk : Nat) : Nat :=
  (s.engine core e).slot.getD (rdPtr ((s.vat vk).ringd.get (s.engine core e).ring.toNat) (!(tlrOf (s.engine core e).tlr).dir))
def State.boxTaken (s : State) (core e vk : Nat) : State :=
  if (s.engine core e).slot.isSome then s
  else s.modVat vk (fun v => v.takeSlot (s.engine core e).ring.toNat (!(tlrOf (s.engine core e).tlr).dir))
def State.boxMoved (s : State) (core e vk : Nat) : State × Option (Nat × Miss) :=
  let x := s.engine core e
  let t := tlrOf x.tlr
  let done := x.bytes.toNat / 2 ^ t.es
  (s.boxTaken core e vk).moveElements core ((s.boxTaken core e vk).lot (s.vat vk).lot).ctx vk t (t.boxAt x.sepos.toNat)
    (rdOff ((s.vat vk).ringd.get x.ring.toNat) (s.boxSlot core e vk)) (t.elements - done) done
/-- The engine's traversal waits for its slot. -/
def State.boxWaits (s : State) (core e vk : Nat) : Bool :=
  (s.engine core e).slot.isNone && !(s.vat vk).canTake (s.engine core e).ring.toNat (!(tlrOf (s.engine core e).tlr).dir)
/-- It is over: behind its last box, by an abort, or because nobody can give its slot any more. -/
def State.boxesOver (s : State) (core e vk : Nat) : Bool :=
  (s.engine core e).slot.isNone && (decide ((tlrOf (s.engine core e).tlr).total ≤ (s.engine core e).sepos.toNat) || s.vatAborted vk ||
    (s.boxWaits core e vk && s.warpsStopped vk))

/-- The box is moved: the rest of a slot that is filled is zeroed, the slot is given, and the engine stands before the next box. -/
def State.boxGiven (s : State) (core e vk : Nat) : State :=
  let x := s.engine core e
  let t := tlrOf x.tlr
  let n := x.ring.toNat
  let r := (s.vat vk).ringd.get n
  let used := t.elements * 2 ^ t.es
  let u := (s.boxMoved core e vk).1
  let u := if t.dir then u else u.modVat vk (fun v => { v with
    scratch := v.scratch.setFrom (rdOff r (s.boxSlot core e vk) + used) (List.replicate (rdSize r - used) 0) })
  (u.modVat vk (fun v => v.giveSlot n (s.boxSlot core e vk) (!t.dir))).modEngine core e (fun x => { x with sepos := x.sepos + 1, slot := none, bytes := 0 })

theorem State.boxTaken_lot (s : State) (core e vk k : Nat) : (s.boxTaken core e vk).lot k = s.lot k := by
  unfold State.boxTaken
  split <;> rfl

theorem State.boxMoved_engine (hb : (s.engine core e).busy = true) : (s.boxMoved core e vk).1.engine core e = s.engine core e := by
  have htaken : s.EnginesStand core (s.boxTaken core e vk) := by
    unfold State.boxTaken
    split
    · exact .refl s
    · exact .of_cores rfl
  exact (htaken.trans (State.moveElements_enginesStand _ _ _ _ _ _ _ _ _)).engine hb

theorem State.boxGiven_spec (hb : (s.engine core e).busy = true) (hp : s.boxSlot core e vk < 64) :
    (s.boxGiven core e vk).mem = (s.boxMoved core e vk).1.mem ∧
    tagOf (((s.boxGiven core e vk).vat vk).ringtag.get (s.engine core e).ring.toNat) (s.boxSlot core e vk) =
      (if (tlrOf (s.engine core e).tlr).dir then 0 else 2) ∧
    (s.boxGiven core e vk).engine core e = { s.engine core e with sepos := (s.engine core e).sepos + 1, slot := none, bytes := 0 } := by
  have hx := s.boxMoved_engine (vk := vk) hb
  unfold State.boxGiven
  dsimp only
  generalize hu : (if (tlrOf (s.engine core e).tlr).dir then (s.boxMoved core e vk).1 else State.modVat (s.boxMoved core e vk).1 vk _) = u
  have hsame : u.mem = (s.boxMoved core e vk).1.mem ∧ u.cores = (s.boxMoved core e vk).1.cores := by
    rw [← hu]
    split <;> exact ⟨rfl, rfl⟩
  refine ⟨?_, ?_, ?_⟩
  · rw [State.modEngine_mem, State.modVat_mem, hsame.1]
  · rw [State.vat_modEngine, State.vat_modVat, if_pos rfl, Vat.giveSlot, Map.get_modify, if_pos rfl]
    cases (tlrOf (s.engine core e).tlr).dir
    · exact tagOf_setTag _ hp (by decide)
    · exact tagOf_setTag _ hp (by decide)
  · have he : (State.modVat u vk (fun v => v.giveSlot (s.engine core e).ring.toNat (s.boxSlot core e vk)
        (!(tlrOf (s.engine core e).tlr).dir))).engine core e = s.engine core e := by
      rw [← hx]
      unfold State.engine State.core
      rw [State.modVat_cores, hsame.2]
    rw [State.engine_modEngine, he]

theorem execStreamBox_idle (hh : (s.engine core e).holder = some vk) (h : (s.engine core e).busy = false ∨ (s.engine core e).flt = true) :
    execStreamBox core e s = .next s := by
  unfold execStreamBox
  simp only [hh]
  exact if_pos (by rcases h with h | h <;> simp [h])

variable (hh : (s.engine core e).holder = some vk) (hb : (s.engine core e).busy = true) (hf : (s.engine core e).flt = false)
include hh hb hf

/-- What an engine at work does: its traversal ends, it waits, or it moves the box. -/
theorem execStreamBox_works : execStreamBox core e s =
    if s.boxesOver core e vk then .next (s.endTraversal core e)
    else if s.boxWaits core e vk then .next s
    else
      let x := s.engine core e
      let m := s.boxMoved core e vk
      match m.2 with
      | some (i, miss) =>
        let u := m.1.modEngine core e (fun y => { y with
          flt := decide (miss ≠ .held), slot := some (s.boxSlot core e vk), bytes := BitVec.ofNat 18 (i * 2 ^ (tlrOf x.tlr).es) })
        if miss = .held then .next u else .next ((u.finish x.op id).asyncFault x.warp (miss.toRaise (laneBit x.lane) x.fpc))
      | none =>
        if (tlrOf x.tlr).total ≤ x.sepos.toNat + 1 || x.stopping then .next ((s.boxGiven core e vk).endTraversal core e)
        else .next (s.boxGiven core e vk) := by
  unfold execStreamBox
  simp only [hh]
  rw [if_neg (by simp [hb, hf])]
  rfl

theorem execStreamBox_over (ho : s.boxesOver core e vk = true) : ∃ u, execStreamBox core e s = .next u ∧ u.mem = s.mem ∧ u.vats = s.vats ∧
    (u.engine core e).holder = none ∧ (u.engine core e).sepos = (s.engine core e).sepos := by
  obtain ⟨hmem, hvats, hengine⟩ := s.endTraversal_spec core e
  exact ⟨_, (execStreamBox_works hh hb hf).trans (if_pos ho), hmem, hvats, by rw [hengine]; rfl, by rw [hengine]; rfl⟩

theorem execStreamBox_waits (ho : s.boxesOver core e vk = false) (hw : s.boxWaits core e vk = true) : execStreamBox core e s = .next s := by
  rw [execStreamBox_works hh hb hf, ho, hw]
  rfl

/-- An access that a SILENT die holds up leaves the engine at its element, in its slot. -/
theorem execStreamBox_held (ho : s.boxesOver core e vk = false) (hw : s.boxWaits core e vk = false) {i : Nat}
    (hm : (s.boxMoved core e vk).2 = some (i, .held)) : ∃ u, execStreamBox core e s = .next u ∧ u.mem = (s.boxMoved core e vk).1.mem ∧
      u.engine core e = { s.engine core e with flt := false, slot := some (s.boxSlot core e vk),
                                               bytes := BitVec.ofNat 18 (i * 2 ^ (tlrOf (s.engine core e).tlr).es) } := by
  refine ⟨(s.boxMoved core e vk).1.modEngine core e fun y => { y with
    flt := false, slot := some (s.boxSlot core e vk), bytes := BitVec.ofNat 18 (i * 2 ^ (tlrOf (s.engine core e).tlr).es) }, ?_,
    State.modEngine_mem _ _ _ _, ?_⟩
  · rw [execStreamBox_works hh hb hf, ho, hw, if_neg Bool.false_ne_true, if_neg Bool.false_ne_true]
    dsimp only
    rw [hm]
    exact if_pos rfl
  · rw [State.engine_modEngine, s.boxMoved_engine hb]

/-- A box whose elements are moved is given; with the last box, or at SESTOP, the traversal ends. -/
theorem execStreamBox_given (ho : s.boxesOver core e vk = false) (hw : s.boxWaits core e vk = false) (hm : (s.boxMoved core e vk).2 = none)
    (hp : s.boxSlot core e vk < 64) : ∃ u, execStreamBox core e s = .next u ∧ u.mem = (s.boxMoved core e vk).1.mem ∧
      tagOf ((u.vat vk).ringtag.get (s.engine core e).ring.toNat) (s.boxSlot core e vk) =
        (if (tlrOf (s.engine core e).tlr).dir then 0 else 2) ∧
      (u.engine core e).sepos = (s.engine core e).sepos + 1 ∧ (u.engine core e).slot = none ∧
      (if (tlrOf (s.engine core e).tlr).total ≤ (s.engine core e).sepos.toNat + 1 ∨ (s.engine core e).stopping = true then
        (u.engine core e).holder = none ∧ (u.engine core e).busy = false
       else (u.engine core e).holder = some vk ∧ (u.engine core e).busy = true) := by
  obtain ⟨hmem, htag, hengine⟩ := s.boxGiven_spec hb hp
  have hgives := execStreamBox_works hh hb hf
  rw [ho, hw, if_neg Bool.false_ne_true, if_neg Bool.false_ne_true] at hgives
  dsimp only at hgives
  rw [hm] at hgives
  by_cases hend : (tlrOf (s.engine core e).tlr).total ≤ (s.engine core e).sepos.toNat + 1 ∨ (s.engine core e).stopping = true
  · obtain ⟨hmem', hvats, hengine'⟩ := (s.boxGiven core e vk).endTraversal_spec core e
    refine ⟨_, hgives.trans (if_pos (by simpa using hend)), hmem'.trans hmem, ?_, ?_⟩
    · unfold State.vat at htag ⊢
      rw [hvats, htag]
    · rw [if_pos hend, hengine', hengine]
      exact ⟨rfl, rfl, rfl, rfl⟩
  · refine ⟨_, hgives.trans (if_neg (by simpa using hend)), hmem, htag, ?_⟩
    rw [if_neg hend, hengine]
    exact ⟨rfl, rfl, hh, hb⟩

end

/-- Settles O31: where the slot cannot be taken the engine waits or its traversal ends; else it moves the box, and the engine that it moves with is
the one that it stands with afterwards, since no access to memory reaches it (`State.boxMoved_engine`). -/
theorem streamBoxes : Obligations.StreamBoxes := by
  unfold Obligations.StreamBoxes
  intro s core e vk
  dsimp only
  intro hh
  have hslot : (s.engine core e).slot.getD (if (tlrOf (s.engine core e).tlr).dir = true
      then rdQptr ((s.vat vk).ringd.get (s.engine core e).ring.toNat)
      else rdPptr ((s.vat vk).ringd.get (s.engine core e).ring.toNat)) = s.boxSlot core e vk := by
    unfold State.boxSlot rdPtr
    cases (tlrOf (s.engine core e).tlr).dir <;> rfl
  rw [hslot]
  have hmoved : State.moveElements (if (s.engine core e).slot.isSome = true then s
      else s.modVat vk (fun v => v.takeSlot (s.engine core e).ring.toNat (!(tlrOf (s.engine core e).tlr).dir))) core (s.lot (s.vat vk).lot).ctx vk
      (tlrOf (s.engine core e).tlr) ((tlrOf (s.engine core e).tlr).boxAt (s.engine core e).sepos.toNat)
      (rdOff ((s.vat vk).ringd.get (s.engine core e).ring.toNat) (s.boxSlot core e vk))
      ((tlrOf (s.engine core e).tlr).elements - (s.engine core e).bytes.toNat / 2 ^ (tlrOf (s.engine core e).tlr).es)
      ((s.engine core e).bytes.toNat / 2 ^ (tlrOf (s.engine core e).tlr).es) = s.boxMoved core e vk := by
    rw [State.boxMoved, State.boxTaken_lot]
    rfl
  rw [hmoved]
  have hwaits (hn : (s.engine core e).slot = none) : s.boxWaits core e vk = true ↔
      ¬ tagOf ((s.vat vk).ringtag.get (s.engine core e).ring.toNat) (s.boxSlot core e vk) = if (tlrOf (s.engine core e).tlr).dir = true then 2 else 0 := by
    unfold State.boxWaits Vat.canTake State.boxSlot
    rw [hn]
    cases (tlrOf (s.engine core e).tlr).dir <;> simp
  have hover : s.boxesOver core e vk = true ↔ (s.engine core e).slot = none ∧ ((tlrOf (s.engine core e).tlr).total ≤ (s.engine core e).sepos.toNat ∨
      s.vatAborted vk = true ∨ (s.boxWaits core e vk = true ∧ s.warpsStopped vk = true)) := by
    unfold State.boxesOver
    simp [or_assoc]
  refine ⟨execStreamBox_idle hh, fun hb hf => ⟨fun hn hlt ha ht hst => ?_, fun htake => ?_, fun hn h => ?_⟩⟩
  · refine execStreamBox_waits hh hb hf (Bool.eq_false_iff.2 fun h => ?_) ((hwaits hn).2 ht)
    rcases (hover.1 h).2 with h | h | h
    · omega
    · rw [ha] at h; cases h
    · rw [hst] at h; cases h.2
  · have hgo : s.boxWaits core e vk = false := Bool.eq_false_iff.2 fun h => by
      have hn : (s.engine core e).slot = none := by
        unfold State.boxWaits at h
        exact Option.isNone_iff_eq_none.1 (Bool.and_eq_true_iff.1 h).1
      exact (hwaits hn).1 h (htake hn).2.2
    have hon : s.boxesOver core e vk = false := Bool.eq_false_iff.2 fun h => by
      obtain ⟨hn, h⟩ := hover.1 h
      obtain ⟨hlt, ha, -⟩ := htake hn
      rcases h with h | h | h
      · omega
      · rw [ha] at h; cases h
      · rw [hgo] at h; cases h.1
    exact ⟨fun i hm => execStreamBox_held hh hb hf hon hgo hm, fun hm hp => execStreamBox_given hh hb hf hon hgo hm hp⟩
  · refine execStreamBox_over hh hb hf (hover.2 ⟨hn, h.imp id (Or.imp id ?_)⟩)
    exact fun h => ⟨(hwaits hn).2 h.1, h.2⟩

end Sys2Proof.Machine
end

section
/-! PROOFS. What an instruction that makes lanes wait no longer, or leave, keeps of every warp (`State.Keeps`), and what a word that goes on keeps
of its own (`Warp.Rolls`): for the writes of LSTATE, LPC, VBSTAT and NBSTAT (spec/05 R110, R113, R132, spec/13 R313). -/

namespace Sys2Proof.Machine

/-! ### Masks -/

theorem mem_lanesOf {m : Lanes} {l : Nat} : l ∈ lanesOf m ↔ l < 32 ∧ inMask m l = true := by
  unfold lanesOf allLanes
  rw [List.mem_filter, List.mem_range]

theorem inMask_maskWhere (p : Nat → Bool) {l : Nat} (hl : l < 32) : inMask (maskWhere p) l = p l := by
  rw [maskWhere, inMask_maskOf _ hl, Bool.eq_iff_iff, decide_eq_true_iff, allLanes, List.mem_filter, List.mem_range]
  exact and_iff_right hl

theorem maskWhere_eq_zero {p : Nat → Bool} (h : ∀ l < 32, p l = false) : maskWhere p = 0 := by
  have hnone : allLanes.filter p = [] := List.filter_eq_nil_iff.2 fun l hl => by rw [h l (List.mem_range.1 hl)]; decide
  rw [maskWhere, hnone]
  rfl

theorem inMask_and (a b : Lanes) (l : Nat) : inMask (a &&& b) l = (inMask a l && inMask b l) := BitVec.getLsbD_and

theorem inMask_and_not (a b : Lanes) {l : Nat} (hl : l < 32) : inMask (a &&& ~~~ b) l = (inMask a l && !inMask b l) := by
  unfold inMask
  rw [BitVec.getLsbD_and, BitVec.getLsbD_not, decide_eq_true hl, Bool.true_and]

theorem inMask_zero (l : Nat) : inMask 0 l = false := BitVec.getLsbD_zero

/-- A set without a lane is empty. -/
theorem lanes_eq_zero {m : Lanes} (h : ∀ l < 32, inMask m l = false) : m = 0 :=
  BitVec.eq_of_getLsbD_eq fun l hl => (h l hl).trans BitVec.getLsbD_zero.symm

/-- Elements set to one value at the lanes of a list. -/
theorem get_foldl_set_const {α : Type} [Inhabited α] [DecidableEq α] (ls : List Nat) (m : Map α) (x : α) (l : Nat) :
    Map.get (ls.foldl (fun m l => m.set l x) m) l = if l ∈ ls then x else m.get l := by
  induction ls generalizing m with
  | nil => rfl
  | cons k ks ih =>
    rw [List.foldl_cons, ih, Map.get_set]
    by_cases hks : l ∈ ks
    · rw [if_pos hks, if_pos (List.mem_cons_of_mem _ hks)]
    · by_cases hk : l = k
      · rw [if_neg hks, if_pos hk, if_pos (hk ▸ List.mem_cons_self)]
      · rw [if_neg hks, if_neg hk, if_neg (by simp [hk, hks])]

/-! ### A word that goes on -/

/-- The live lanes, the lanes that wait at joins and the register bank are the same, and LPC too outside the normal mode. -/
structure Warp.Rolls (w x : Warp) : Prop where
  lmask : x.masks.lmask = w.masks.lmask
  ja : x.masks.ja = w.masks.ja
  bank : x.bank = w.bank
  lpc : w.bank ≠ 0 → x.lpc = w.lpc

theorem Warp.Rolls.refl (w : Warp) : w.Rolls w := ⟨rfl, rfl, rfl, fun _ => rfl⟩

theorem Warp.Rolls.trans {w x y : Warp} (h : w.Rolls x) (g : x.Rolls y) : w.Rolls y where
  lmask := g.lmask.trans h.lmask
  ja := g.ja.trans h.ja
  bank := g.bank.trans h.bank
  lpc hb := (g.lpc (h.bank ▸ hb)).trans (h.lpc hb)

theorem Warp.rolls_setModePc (w : Warp) (l : Nat) (pc : Word) : w.Rolls (w.setModePc l pc) := by
  unfold Warp.setModePc
  split
  next h => exact ⟨rfl, rfl, rfl, fun hb => absurd h hb⟩
  all_goals exact ⟨rfl, rfl, rfl, fun _ => rfl⟩

theorem Warp.rolls_setModePcs (w : Warp) (ls : List Nat) (pc : Nat → Word) : w.Rolls (w.setModePcs ls pc) := by
  unfold Warp.setModePcs
  induction ls generalizing w with
  | nil => exact .refl w
  | cons l ls ih => exact (w.rolls_setModePc l (pc l)).trans (ih _)

theorem Warp.rolls_past (w : Warp) (len : Nat) : w.Rolls (w.past len) := by
  unfold Warp.past
  dsimp only
  split
  · exact (w.rolls_setModePcs _ _).trans ⟨rfl, rfl, rfl, fun _ => rfl⟩
  · exact ⟨rfl, rfl, rfl, fun _ => rfl⟩

theorem Warp.rolls_advance (w : Warp) (len : Nat) : w.Rolls (w.advance len) := by
  unfold Warp.advance
  split
  · split
    · exact ⟨rfl, rfl, rfl, fun _ => rfl⟩
    · exact w.rolls_past len
  · exact w.rolls_past len

theorem Warp.rolls_leaveOut (w : Warp) (left : Lanes) (succ : Word) : w.Rolls (w.leaveOut left succ) := by
  unfold Warp.leaveOut
  split <;> exact ⟨rfl, rfl, rfl, fun _ => rfl⟩

theorem Warp.rolls_resumeAt (w : Warp) (c : Clause) (how : Resume) (len : Nat) : w.Rolls (w.resumeAt c how len) := by
  unfold Warp.resumeAt
  have h := w.rolls_leaveOut (w.trap.trmask &&& ~~~ w.resumeSet) c.next
  dsimp only
  generalize w.leaveOut (w.trap.trmask &&& ~~~ w.resumeSet) c.next = x at h ⊢
  refine h.trans ?_
  split
  · exact ⟨rfl, rfl, rfl, fun _ => rfl⟩
  · split
    · exact ⟨rfl, rfl, rfl, fun _ => rfl⟩
    · split
      · exact ⟨rfl, rfl, rfl, fun _ => rfl⟩
      · exact Warp.Rolls.trans (x := { x with clause := _, replay := none }) ⟨rfl, rfl, rfl, fun _ => rfl⟩ (Warp.rolls_advance _ len)

theorem Warp.rolls_countIssue (w : Warp) (st : BitVec 2) : w.Rolls (w.countIssue st) := ⟨rfl, rfl, rfl, fun _ => rfl⟩

theorem State.retire_rolls (s : State) (g : Sig) : s.w.Rolls (s.retire g).w := by
  unfold State.retire
  dsimp only
  split
  · rw [State.w_setW]
    exact (s.w.rolls_countIssue _).trans (Warp.rolls_resumeAt _ _ _ _)
  · rw [State.w_setW]
    exact (s.w.rolls_countIssue _).trans (Warp.rolls_advance _ _)

/-! ### What every warp keeps -/

/-- A lane that has left its warp (R112). -/
def Warp.Out (w : Warp) (l : Nat) : Prop := w.lstate.get l = exited ∧ inMask w.masks.lmask l = false

/-- A warp's registers once every result is in, its vat and the faults it has to raise are the same, and a lane that has left stays away. -/
structure Warp.Keeps (w x : Warp) : Prop where
  final : ∀ c, x.final c = w.final c
  vat : x.vat = w.vat
  async : x.async = w.async
  out : ∀ l < 32, w.Out l → x.Out l

theorem Warp.Keeps.refl (w : Warp) : w.Keeps w := ⟨fun _ => rfl, rfl, rfl, fun _ _ => id⟩

theorem Warp.Keeps.trans {w x y : Warp} (h : w.Keeps x) (g : x.Keeps y) : w.Keeps y where
  final c := (g.final c).trans (h.final c)
  vat := g.vat.trans h.vat
  async := g.async.trans h.async
  out l hl := g.out l hl ∘ h.out l hl

theorem Warp.Keeps.foldl {α : Type} {f : Warp → α → Warp} (hf : ∀ (w : Warp) x, w.Keeps (f w x)) (xs : List α) (w : Warp) :
    w.Keeps (xs.foldl f w) := by
  induction xs generalizing w with
  | nil => exact .refl w
  | cons x xs ih => exact (hf w x).trans (ih _)

/-- Lane states and the live lanes are the same, too. -/
theorem Warp.Keeps.of_same {w x : Warp} (hr : x.regs = w.regs) (hp : x.pending = w.pending) (hv : x.vat = w.vat) (ha : x.async = w.async)
    (hs : x.lstate = w.lstate) (hl : x.masks.lmask = w.masks.lmask) : w.Keeps x :=
  ⟨Warp.final_congr hr hp, hv, ha, fun l _ h => by unfold Warp.Out; rw [hs, hl]; exact h⟩

theorem Warp.flush_keeps (w : Warp) : w.Keeps w.flush := ⟨fun _ => rfl, rfl, rfl, fun _ _ => id⟩

/-- Lanes that have not left become READY. -/
theorem Warp.ready_keeps {w x : Warp} {made : Lanes} (hr : x.regs = w.regs) (hp : x.pending = w.pending) (hv : x.vat = w.vat)
    (ha : x.async = w.async) (hs : x.lstate = (lanesOf made).foldl (fun m l => m.set l ready) w.lstate) (hl : x.masks.lmask = w.masks.lmask)
    (hm : ∀ l < 32, w.Out l → inMask made l = false) : w.Keeps x := by
  refine ⟨Warp.final_congr hr hp, hv, ha, fun l hlt h => ⟨?_, by rw [hl]; exact h.2⟩⟩
  rw [hs, get_foldl_set_const, if_neg fun hmem => ?_]
  · exact h.1
  · exact absurd (hm l hlt h) (by rw [(mem_lanesOf.1 hmem).2]; decide)

theorem Warp.wake_keeps {w : Warp} {made : Lanes} {b : Bool} (hm : ∀ l < 32, w.Out l → inMask made l = false) : w.Keeps (w.wake made b) := by
  unfold Warp.wake
  split
  · exact .refl w
  · split
    · exact .of_same rfl rfl rfl rfl rfl rfl
    · dsimp only
      split <;> exact Warp.ready_keeps rfl rfl rfl rfl rfl rfl hm

theorem Warp.inMask_lanesIn (w : Warp) (st : BitVec 3) {l : Nat} (hl : l < 32) :
    inMask (w.lanesIn st) l = (inMask w.masks.lmask l && w.lstate.get l == st) := inMask_maskWhere _ hl

theorem Warp.inMask_waitingAt (w : Warp) (id : BitVec 5) {l : Nat} (hl : l < 32) :
    inMask (w.waitingAt id) l = (inMask w.masks.lmask l && w.lstate.get l == waitBar && w.barid.get l == id) := by
  rw [Warp.waitingAt, inMask_maskWhere _ hl, w.inMask_lanesIn _ hl]

theorem Warp.Out.not_waiting {w : Warp} {l : Nat} (h : w.Out l) (hl : l < 32) (id : BitVec 5) : inMask (w.waitingAt id) l = false := by
  rw [w.inMask_waitingAt id hl, h.2]
  rfl

/-- A lane that a completion wakes is READY, unless its warp is away (R128, R136). -/
theorem Warp.wake_ready {w : Warp} {made : Lanes} {b : Bool} {l : Nat} (hl : l < 32) (hm : inMask made l = true)
    (he : w.evict = .running ∨ w.evict = .requested ∨ w.evict = .drain) : (w.wake made b).lstate.get l = ready := by
  have hne : (made == 0) = false := beq_eq_false_iff_ne.2 fun h => by rw [h, inMask_zero] at hm; cases hm
  have hhere : (w.evict != .running && w.evict != .requested && w.evict != .drain) = false := by
    rcases he with h | h | h <;> rw [h] <;> rfl
  have hset : Map.get ((lanesOf made).foldl (fun m l => m.set l ready) w.lstate) l = ready := by
    rw [get_foldl_set_const, if_pos (mem_lanesOf.2 ⟨hl, hm⟩)]
  simp only [Warp.wake, hne, hhere, Bool.false_eq_true, if_false]
  split <;> exact hset

theorem Warp.wake_barid (w : Warp) (made : Lanes) (b : Bool) : (w.wake made b).barid = w.barid := by
  unfold Warp.wake
  split
  · rfl
  · split
    · rfl
    · dsimp only
      split <;> rfl

/-! ### What the state keeps -/

/-- Memory, the turn, what every warp keeps, and who holds the trap of each vat. -/
structure State.Keeps (s t : State) : Prop where
  mem : t.mem = s.mem
  cur : t.cur = s.cur
  warp : ∀ k, (s.warp k).Keeps (t.warp k)
  trap : ∀ j, (t.vat j).trapWarp = (s.vat j).trapWarp

theorem State.Keeps.of_warps {s t : State} (hm : t.mem = s.mem) (hc : t.cur = s.cur) (hw : t.warps = s.warps) (hv : t.vats = s.vats) :
    s.Keeps t :=
  ⟨hm, hc, fun k => by unfold State.warp; rw [hw]; exact .refl _, fun j => by unfold State.vat; rw [hv]⟩

theorem State.Keeps.refl (s : State) : s.Keeps s := .of_warps rfl rfl rfl rfl

theorem State.Keeps.trans {s t u : State} (h : s.Keeps t) (g : t.Keeps u) : s.Keeps u where
  mem := g.mem.trans h.mem
  cur := g.cur.trans h.cur
  warp k := (h.warp k).trans (g.warp k)
  trap j := (g.trap j).trans (h.trap j)

theorem State.Keeps.foldl {α : Type} {f : State → α → State} (hf : ∀ (s : State) x, s.Keeps (f s x)) (xs : List α) (s : State) :
    s.Keeps (xs.foldl f s) := by
  induction xs generalizing s with
  | nil => exact .refl s
  | cons x xs ih => exact (hf s x).trans (ih _)

theorem State.Keeps.w {s t : State} (h : s.Keeps t) : s.w.Keeps t.w := by
  unfold State.w
  rw [h.cur]
  exact h.warp s.cur

theorem State.setWarp_keeps {s : State} {k : Nat} {x : Warp} (h : (s.warp k).Keeps x) : s.Keeps (s.setWarp k x) := by
  refine ⟨rfl, rfl, fun j => ?_, fun _ => rfl⟩
  rw [State.warp_setWarp]
  split
  · next e => exact e ▸ h
  · exact .refl _

theorem State.setVat_keeps {s : State} {k : Nat} {v : Vat} (h : v.trapWarp = (s.vat k).trapWarp) : s.Keeps (s.setVat k v) := by
  refine ⟨rfl, rfl, fun _ => .refl _, fun j => ?_⟩
  rw [State.vat_setVat]
  split
  · next e => exact e ▸ h
  · rfl

theorem State.modVat_keeps {f : Vat → Vat} (h : ∀ v, (f v).trapWarp = v.trapWarp) (s : State) (k : Nat) : s.Keeps (s.modVat k f) :=
  State.setVat_keeps (h _)

theorem State.modWarp_keeps {f : Warp → Warp} (h : ∀ w : Warp, w.Keeps (f w)) (s : State) (k : Nat) : s.Keeps (s.modWarp k f) :=
  State.setWarp_keeps (h _)

/-- What an issue leaves of a warp is kept. -/
theorem Warp.Rolls.keeps {w x : Warp} (h : w.Rolls x) (hf : ∀ c, x.final c = w.final c) (hr : x.rest = w.rest) : w.Keeps x := by
  have hvat : x.rest.vat = w.rest.vat := by rw [hr]
  have hasync : x.rest.async = w.rest.async := by rw [hr]
  have hlstate : x.rest.lstate = w.rest.lstate := by rw [hr]
  refine ⟨hf, hvat, hasync, fun l _ ho => ?_⟩
  unfold Warp.Out
  rw [show x.lstate = w.lstate from hlstate, h.lmask]
  exact ho

theorem State.retire_keeps (s : State) (g : Sig) : s.Keeps (s.retire g) := by
  have hrolls := s.retire_rolls g
  obtain ⟨x, hx, hfinal, hrest, -⟩ := s.w_retire g
  rw [hx, State.w_setW] at hrolls
  rw [hx]
  exact State.setWarp_keeps (hrolls.keeps hfinal hrest)

theorem State.retireAtBoundary_keeps (s : State) (g : Sig) : s.Keeps (s.retireAtBoundary g) :=
  State.setWarp_keeps (((s.w.rolls_countIssue g.stall).keeps (s.w.final_countIssue g.stall) rfl).trans (.of_same rfl rfl rfl rfl rfl rfl))

/-- What no issue changes of any warp. -/
theorem State.retire_rest (s : State) (g : Sig) (k : Nat) : ((s.retire g).warp k).rest = (s.warp k).rest := by
  obtain ⟨x, hx, -, hrest, -⟩ := s.w_retire g
  rw [hx, State.warp_setW]
  split
  · next e => rw [hrest, e]; rfl
  · rfl

/-! ### Warps woken one after another -/

theorem State.takeOverAt_spec (s : State) (k : Nat) (id : BitVec 5) : s.takeOverAt k id = { s with warps := (s.takeOverAt k id).warps } ∧
    ∀ j, ∃ r, (s.takeOverAt k id).warp j = if j = k then (s.warp j).withReached r else s.warp j := by
  have hsame (j : Nat) : ∃ r, s.warp j = if j = k then (s.warp j).withReached r else s.warp j := ⟨(s.warp j).reached, by split <;> rfl⟩
  unfold State.takeOverAt State.takeOver State.reach
  split
  · exact ⟨rfl, hsame⟩
  · split
    · exact ⟨rfl, hsame⟩
    · refine ⟨rfl, fun j => ⟨s.still ((s.warp k).reached ++ (s.vat (s.warp k).vat).carried), (s.warp_modWarp j k _).trans ?_⟩⟩
      split
      · next e => rw [e]; rfl
      · rfl

/-- Each warp of a list takes over what its vat hands on, where lanes of it wait at a barrier, and is changed. -/
def State.wakeEach (s : State) (id : BitVec 5) (f : Warp → Warp) (ks : List Nat) : State :=
  ks.foldl (fun s k => (s.takeOverAt k id).modWarp k f) s

theorem State.wakeEach_spec (s : State) (id : BitVec 5) (f : Warp → Warp) {ks : List Nat} (hn : ks.Nodup) :
    s.wakeEach id f ks = { s with warps := (s.wakeEach id f ks).warps } ∧
    ∀ j, ∃ r, (s.wakeEach id f ks).warp j = if j ∈ ks then f ((s.warp j).withReached r) else s.warp j := by
  unfold State.wakeEach
  induction ks generalizing s with
  | nil => exact ⟨rfl, fun j => ⟨[], rfl⟩⟩
  | cons k ks ih =>
    obtain ⟨hk, hks⟩ := List.nodup_cons.1 hn
    obtain ⟨htake, htakes⟩ := s.takeOverAt_spec k id
    obtain ⟨honly, hwarps⟩ := ih ((s.takeOverAt k id).modWarp k f) hks
    rw [List.foldl_cons]
    refine ⟨?_, fun j => ?_⟩
    · have hstep : (s.takeOverAt k id).modWarp k f = { s with warps := ((s.takeOverAt k id).modWarp k f).warps } := by
        rw [htake]
        rfl
      rw [honly, hstep]
    · obtain ⟨r, hr⟩ := hwarps j
      obtain ⟨q, hq⟩ := htakes j
      rw [hr, State.warp_modWarp]
      by_cases hj : j = k
      · subst hj
        rw [if_pos rfl] at hq
        exact ⟨q, by rw [if_neg hk, if_pos rfl, if_pos List.mem_cons_self, hq]⟩
      · rw [if_neg hj] at hq
        refine ⟨r, ?_⟩
        rw [if_neg hj, hq]
        exact if_congr (by simp [hj]) rfl rfl

theorem State.wakeEach_keeps (s : State) (id : BitVec 5) {f : Warp → Warp} (hf : ∀ w : Warp, w.Keeps (f w)) (ks : List Nat) :
    s.Keeps (s.wakeEach id f ks) := by
  refine .foldl (fun u k => ?_) ks s
  obtain ⟨htake, htakes⟩ := u.takeOverAt_spec k id
  refine State.Keeps.trans (t := u.takeOverAt k id) ⟨by rw [htake], by rw [htake], fun j => ?_, fun j => by rw [htake]; rfl⟩ (State.setWarp_keeps (hf _))
  obtain ⟨r, hr⟩ := htakes j
  rw [hr]
  split
  · exact .of_same rfl rfl rfl rfl rfl rfl
  · exact .refl _

theorem warpKeys_nodup (vat : Nat) (v : Vat) : (warpKeys vat v).Nodup := List.nodup_range.map (warpKey_injective vat)

/-! ### Barriers that complete -/

/-- The lanes that wait at the vat barrier wake; those that wait at a named barrier, whose BARID clears. -/
def Warp.wakeVat (w : Warp) : Warp := w.wake (w.waitingAt 0) true
def Warp.wakeNamed (nb : Nat) (w : Warp) : Warp :=
  let made := w.waitingAt (BitVec.ofNat 5 (16 + nb))
  ({ w with barid := (lanesOf made).foldl (fun m l => m.set l 0) w.barid }).wake made true

theorem Warp.wakeVat_keeps (w : Warp) : w.Keeps w.wakeVat := Warp.wake_keeps fun _ hl h => h.not_waiting hl 0

theorem State.testVatBarrier_waits {s : State} {vk : Nat} (h : vbArrived (s.vat vk).vbstat < vbExpect (s.vat vk).vbstat) :
    s.testVatBarrier vk = s := if_pos h

theorem State.testVatBarrier_wakes {s : State} {vk : Nat} (h : vbExpect (s.vat vk).vbstat ≤ vbArrived (s.vat vk).vbstat) :
    s.testVatBarrier vk = (s.setVat vk { s.vat vk with
      vbstat := vbMake (!(s.vat vk).vbstat.getLsbD 31) (vbExpect (s.vat vk).vbstat) 0 }).wakeEach 0 Warp.wakeVat (warpKeys vk (s.vat vk)) :=
  if_neg (Nat.not_lt.2 h)

theorem State.testNamedBarrier_wakes {s : State} {vk nb : Nat} (h : vbExpect ((s.vat vk).nbstat.get nb) ≤ vbArrived ((s.vat vk).nbstat.get nb)) :
    s.testNamedBarrier vk nb = (s.setVat vk { s.vat vk with
      nbstat := (s.vat vk).nbstat.set nb (vbMake (!((s.vat vk).nbstat.get nb).getLsbD 31) 0 0) }).wakeEach (BitVec.ofNat 5 (16 + nb))
        (Warp.wakeNamed nb) (warpKeys vk (s.vat vk)) :=
  if_neg (Nat.not_lt.2 h)

theorem State.testNamedBarrier_waits {s : State} {vk nb : Nat} (h : vbArrived ((s.vat vk).nbstat.get nb) < vbExpect ((s.vat vk).nbstat.get nb)) :
    s.testNamedBarrier vk nb = s := if_pos h

theorem State.testVatBarrier_keeps (s : State) (vk : Nat) : s.Keeps (s.testVatBarrier vk) := by
  rcases Nat.lt_or_ge (vbArrived (s.vat vk).vbstat) (vbExpect (s.vat vk).vbstat) with h | h
  · rw [State.testVatBarrier_waits h]
    exact .refl s
  · rw [State.testVatBarrier_wakes h]
    exact (State.setVat_keeps (by rfl)).trans (State.wakeEach_keeps _ _ Warp.wakeVat_keeps _)

theorem State.lowerExpect_keeps (s : State) (vk n : Nat) : s.Keeps (s.lowerExpect vk n) := by
  unfold State.lowerExpect
  split
  · exact .refl s
  · dsimp only
    generalize hv : ({ s.vat vk with vbstat := _ } : Vat) = v
    exact (State.setVat_keeps (hv ▸ rfl)).trans (State.testVatBarrier_keeps _ vk)

/-- A lane that waits at the vat barrier and is woken. -/
theorem Warp.wakeVat_ready {w : Warp} {l : Nat} (hl : l < 32) (hlive : inMask w.masks.lmask l = true) (hst : w.lstate.get l = waitBar)
    (hb : w.barid.get l = 0) (he : w.evict = .running ∨ w.evict = .requested ∨ w.evict = .drain) : w.wakeVat.lstate.get l = ready := by
  refine Warp.wake_ready hl ?_ he
  rw [w.inMask_waitingAt 0 hl, hlive, hst, hb]
  rfl

/-- A lane that waits at a named barrier and is woken. -/
theorem Warp.wakeNamed_ready {w : Warp} {l nb : Nat} (hl : l < 32) (hlive : inMask w.masks.lmask l = true) (hst : w.lstate.get l = waitBar)
    (hb : w.barid.get l = BitVec.ofNat 5 (16 + nb)) : (w.wakeNamed nb).barid.get l = 0 ∧
      (w.evict = .running ∨ w.evict = .requested ∨ w.evict = .drain → (w.wakeNamed nb).lstate.get l = ready) := by
  have hm : inMask (w.waitingAt (BitVec.ofNat 5 (16 + nb))) l = true := by
    rw [w.inMask_waitingAt _ hl, hlive, hst, hb, beq_self_eq_true, beq_self_eq_true]
    rfl
  refine ⟨?_, fun he => Warp.wake_ready hl hm he⟩
  unfold Warp.wakeNamed
  rw [Warp.wake_barid]
  exact (get_foldl_set_const _ _ _ _).trans (if_pos (mem_lanesOf.2 ⟨hl, hm⟩))

/-! ### Lanes that leave -/

theorem Warp.exitLane_keeps (w : Warp) (k : Nat) : w.Keeps (w.exitLane k) := by
  refine ⟨fun _ => rfl, rfl, rfl, fun l hl h => ⟨?_, ?_⟩⟩
  · show (w.lstate.set k exited).get l = exited
    rw [Map.get_set]
    split
    · rfl
    · exact h.1
  · show inMask (w.masks.lmask &&& ~~~ laneBit k) l = false
    rw [inMask_and_not _ _ hl, h.2]
    rfl

theorem Warp.exitLane_out (w : Warp) {l : Nat} (hl : l < 32) : (w.exitLane l).Out l := by
  refine ⟨(Map.get_set w.lstate l l exited).trans (if_pos rfl), ?_⟩
  show inMask (w.masks.lmask &&& ~~~ laneBit l) l = false
  rw [inMask_and_not _ _ hl]
  unfold inMask
  rw [getLsbD_laneBit l l hl, decide_eq_true rfl, Bool.not_true, Bool.and_false]

theorem Warp.exitEach_out {ls : List Nat} (w : Warp) {l : Nat} (hl : l < 32) (h : l ∈ ls) : (ls.foldl Warp.exitLane w).Out l := by
  induction ls generalizing w with
  | nil => cases h
  | cons k ks ih =>
    rw [List.foldl_cons]
    rcases List.mem_cons.1 h with rfl | h
    · exact (Warp.Keeps.foldl Warp.exitLane_keeps ks _).out l hl (w.exitLane_out hl)
    · exact ih _ h

theorem Warp.completeOne_keeps (w : Warp) (pc : Word) (j : Nat) : w.Keeps (w.completeOne pc j) := by
  have hset (x : Warp) (made : Lanes) (lpc : Word) : x.Keeps (Warp.completeOne.set pc j x made lpc) := by
    unfold Warp.completeOne.set
    split
    · exact .of_same rfl rfl rfl rfl rfl rfl
    · exact .refl x
  have hready : w.Keeps { w with
      lstate := (lanesOf (maskWhere (fun l => inMask (w.masks.jm.get j) l && w.lstate.get l == waitJoin))).foldl (fun m l => m.set l ready) w.lstate,
      masks := { w.masks with jm := w.masks.jm.set j 0, ja := w.masks.ja.set j 0 } } := by
    refine Warp.ready_keeps rfl rfl rfl rfl rfl rfl fun l hl h => ?_
    rw [inMask_maskWhere _ hl, h.1]
    exact Bool.and_false _
  unfold Warp.completeOne
  dsimp only
  split
  · split
    · exact hready
    · exact hready.trans (hset _ _ _)
  · exact hready.trans (hset _ _ _)

theorem Warp.testJoins_keeps (w : Warp) (pc : Word) (n : Nat) : w.Keeps (w.testJoins pc n) := by
  induction n generalizing w with
  | zero => exact .refl w
  | succ n ih =>
    unfold Warp.testJoins
    split
    · exact (w.completeOne_keeps pc _).trans (ih _)
    · exact .refl w

/-- Lanes that leave have left, whatever the joins and the vat barrier that this completes. -/
theorem State.exitLanes_spec (s : State) (k : Nat) (lanes : Lanes) (pc : Word) (keep : Bool) : s.Keeps (s.exitLanes k lanes pc keep) ∧
    ∀ l < 32, inMask lanes l = true → inMask (s.warp k).masks.lmask l = true → ((s.exitLanes k lanes pc keep).warp k).Out l := by
  unfold State.exitLanes
  dsimp only
  split
  · next h0 =>
    refine ⟨.refl s, fun l _ hl hlive => ?_⟩
    have hin := inMask_and lanes (s.warp k).masks.lmask l
    rw [eq_of_beq h0, inMask_zero, hl, hlive] at hin
    cases hin
  · have hjoins := Warp.testJoins_keeps ((lanesOf (lanes &&& (s.warp k).masks.lmask)).foldl Warp.exitLane (s.warp k)) pc 8
    have hset : s.Keeps (s.setWarp k _) := State.setWarp_keeps ((Warp.Keeps.foldl Warp.exitLane_keeps _ _).trans hjoins)
    have hlower (t : State) : t.Keeps (if keep = true then t else t.lowerExpect (s.warp k).vat
        (countLanes (lanes &&& (s.warp k).masks.lmask &&& ~~~ (s.warp k).masks.blmask))) := by
      split
      · exact .refl t
      · exact t.lowerExpect_keeps _ _
    refine ⟨hset.trans (hlower _), fun l hl hin hlive => ((hlower _).warp k).out l hl ?_⟩
    rw [State.warp_setWarp, if_pos rfl]
    refine hjoins.out l hl (Warp.exitEach_out _ hl (mem_lanesOf.2 ⟨hl, ?_⟩))
    rw [inMask_and, hin, hlive]
    rfl

theorem State.foldl_dies {f : State → Nat → State} (hf : ∀ u l, f u l = { u with dies := (f u l).dies }) (ls : List Nat) (s : State) :
    ls.foldl f s = { s with dies := (ls.foldl f s).dies } := by
  induction ls generalizing s with
  | nil => rfl
  | cons l ls ih => rw [List.foldl_cons, ih, hf s l]

/-- TDONE of the lanes whose tasks end. -/
def Warp.endTasks (lanes : Lanes) (w : Warp) : Warp := { w with tdone := w.tdone ||| (lanes &&& maskWhere (fun l => (w.tasks.get l).isSome)) }

theorem Warp.endTasks_keeps (lanes : Lanes) (w : Warp) : w.Keeps (w.endTasks lanes) := .of_same rfl rfl rfl rfl rfl rfl

theorem State.retireTasks_spec (s : State) (k : Nat) (lanes : Lanes) :
    ∃ dies, s.retireTasks k lanes = State.modWarp { s with dies := dies } k (Warp.endTasks lanes) := by
  refine ⟨(s.retireTasks k lanes).dies, ?_⟩
  unfold State.retireTasks
  dsimp only
  rw [State.foldl_dies fun u l => ?_]
  · rfl
  · split
    · split <;> rfl
    · rfl

theorem State.retireTasks_keeps (s : State) (k : Nat) (lanes : Lanes) : s.Keeps (s.retireTasks k lanes) := by
  obtain ⟨dies, h⟩ := s.retireTasks_spec k lanes
  rw [h]
  exact State.Keeps.trans (t := { s with dies := dies }) (.of_warps rfl rfl rfl rfl) (State.modWarp_keeps (Warp.endTasks_keeps lanes) _ _)

theorem State.retireTasks_lmask (s : State) (k : Nat) (lanes : Lanes) (j : Nat) :
    ((s.retireTasks k lanes).warp j).masks.lmask = (s.warp j).masks.lmask := by
  obtain ⟨dies, h⟩ := s.retireTasks_spec k lanes
  rw [h, State.warp_modWarp]
  split
  · next e => rw [e]; rfl
  · rfl

theorem State.noteRelease_keeps (s : State) (k scope : Nat) : s.Keeps (s.noteRelease k scope) := by
  refine ⟨?_, s.noteRelease_cur k scope, fun j => by unfold State.warp; rw [State.noteRelease_warps]; exact .refl _, fun j => ?_⟩
  · unfold State.noteRelease
    dsimp only
    split <;> rfl
  · unfold State.noteRelease
    dsimp only
    split
    · rfl
    · rw [State.vat_modVat]
      split
      · next e => rw [e]; rfl
      · rfl

theorem Vat.endIteration_trapWarp (v : Vat) (warp : Nat) : (v.endIteration warp).trapWarp = v.trapWarp := by
  unfold Vat.endIteration Vat.endSlot
  split
  · dsimp only
    split <;> rfl
  · rfl

theorem State.endStage_keeps (s : State) (k : Nat) : s.Keeps (s.endStage k) := by
  unfold State.endStage
  dsimp only
  split
  · exact (s.noteRelease_keeps k 1).trans (State.modVat_keeps (fun v => v.endIteration_trapWarp _) _ _)
  · exact .refl s

/-- A warp without live lanes is at the boundary, with every result in its registers. -/
def Warp.ended (w : Warp) : Warp := { w.flush with
  wpark := false, cause := none, phase := .boundary, hold := .free, replay := none, sgact := false,
  trap := { w.trap with tmode := false, tmsk := false } }

theorem Warp.ended_keeps (w : Warp) : w.Keeps w.ended := w.flush_keeps.trans (.of_same rfl rfl rfl rfl rfl rfl)

/-- What `State.leave` does once the lanes are away: the warp ends if no lane is left. -/
def State.endWarp (s : State) (k : Nat) : State :=
  if (s.warp k).masks.lmask != 0 then s
  else
    let t := (s.endStage k).modWarp k Warp.ended
    let t := if (t.vat (s.warp k).vat).trapWarp == some k then t.releaseVat (s.warp k).vat else t
    (s.warp k).async.foldl (fun s fr => s.offerVat k fr .boundary) (t.modWarp k (fun w => { w with async := [] }))

/-- A warp without live lanes that holds no trap and no engine's fault ends without a fault of its own (R112). -/
theorem State.endWarp_keeps {s : State} {k : Nat} (ha : (s.warp k).async = []) (ht : (s.vat (s.warp k).vat).trapWarp ≠ some k) :
    s.Keeps (s.endWarp k) := by
  have hend : s.Keeps ((s.endStage k).modWarp k Warp.ended) :=
    (s.endStage_keeps k).trans (State.modWarp_keeps Warp.ended_keeps _ k)
  unfold State.endWarp
  split
  · exact .refl s
  · dsimp only
    rw [hend.trap, if_neg (by simpa using ht), ha]
    exact hend.trans (State.setWarp_keeps ⟨fun _ => rfl, rfl, ((hend.warp k).async.trans ha).symm, fun _ _ => id⟩)

/-- Nothing happens where no live lane leaves. -/
theorem State.leave_none {s : State} {k : Nat} {lanes : Lanes} (h : lanes &&& (s.warp k).masks.lmask = 0) (pc : Word) (keep : Bool) :
    s.leave k lanes pc keep = s := by
  unfold State.leave
  exact if_pos (beq_iff_eq.2 h)

/-- Lanes that leave have left; a warp that holds no trap and no engine's fault keeps what it keeps (R112, R306). -/
theorem State.leave_spec {s : State} {k : Nat} (ha : (s.warp k).async = []) (ht : (s.vat (s.warp k).vat).trapWarp ≠ some k) (lanes : Lanes)
    (pc : Word) (keep : Bool) : s.Keeps (s.leave k lanes pc keep) ∧
    ∀ l < 32, inMask lanes l = true → inMask (s.warp k).masks.lmask l = true → ((s.leave k lanes pc keep).warp k).Out l := by
  unfold State.leave
  dsimp only
  split
  · next h0 =>
    refine ⟨.refl s, fun l _ hl hlive => ?_⟩
    have hin := inMask_and lanes (s.warp k).masks.lmask l
    rw [eq_of_beq h0, inMask_zero, hl, hlive] at hin
    cases hin
  · have hbefore : s.Keeps ((s.retireTasks k (lanes &&& (s.warp k).masks.lmask)).noteRelease k 0) :=
      (s.retireTasks_keeps k _).trans (State.noteRelease_keeps _ k 0)
    have hlive (l : Nat) : inMask (((s.retireTasks k (lanes &&& (s.warp k).masks.lmask)).noteRelease k 0).warp k).masks.lmask l =
        inMask (s.warp k).masks.lmask l := by
      unfold State.warp
      rw [State.noteRelease_warps]
      exact congrArg (inMask · l) (s.retireTasks_lmask k _ k)
    generalize (s.retireTasks k (lanes &&& (s.warp k).masks.lmask)).noteRelease k 0 = u at hbefore hlive ⊢
    obtain ⟨hkeeps, hout⟩ := u.exitLanes_spec k (lanes &&& (s.warp k).masks.lmask) pc keep
    have hgone (l : Nat) (hl : l < 32) (hin : inMask lanes l = true) (hlv : inMask (s.warp k).masks.lmask l = true) :
        ((u.exitLanes k (lanes &&& (s.warp k).masks.lmask) pc keep).warp k).Out l := by
      refine hout l hl ?_ ((hlive l).trans hlv)
      rw [inMask_and, hin, hlv]
      rfl
    have hall := hbefore.trans hkeeps
    generalize u.exitLanes k (lanes &&& (s.warp k).masks.lmask) pc keep = t at hall hgone ⊢
    suffices h : t.Keeps _ from ⟨hall.trans h, fun l hl hin hlv => (h.warp k).out l hl (hgone l hl hin hlv)⟩
    exact State.endWarp_keeps ((hall.warp k).async.trans ha) (by rw [(hall.warp k).vat, hall.trap]; exact ht)

end Sys2Proof.Machine
end

section
/-! PROOFS. SYSW of the registers whose writes do more (spec/06 R142, R143, spec/05 R110, R113, R132, spec/13 R313, spec/04 R103): one lemma for
what each instruction does where it issues normally. -/

namespace Sys2Proof.Machine

/-! ### The issue of a SYSW -/

/-- Its source has no error in any enabled lane, so it has none in those whose value is used. -/
theorem State.clear_sysw {s : State} {st : BitVec 2} {d : Code} {num : BitVec 14}
    (h : s.clear { slot := 0x1F1, stall := st, ok := sysAssigned num.toNat, dst := false, uses := [(d, 1)] } = true) :
    s.clear (syswSig st d num) = true := by
  unfold State.clear at h ⊢
  obtain ⟨h, hecc⟩ := Bool.and_eq_true_iff.1 h
  refine Bool.and_eq_true_iff.2 ⟨h, beq_iff_eq.2 ?_⟩
  have hown := eq_of_beq hecc
  unfold State.eccLanes at hown ⊢
  dsimp only at hown ⊢
  split
  · rfl
  · next hp =>
    rw [if_neg hp] at hown
    refine maskWhere_eq_zero fun l hl => ?_
    have hl' := (inMask_maskWhere _ hl).symm.trans (congrArg (inMask · l) hown)
    rw [inMask_zero] at hl'
    unfold syswSig Warp.cellsRead
    dsimp only
    cases sysPerLane num.toNat
    · by_cases hlow : lowest s.w.clause.enabled = some l
      · simp only [Bool.false_eq_true, if_false, if_pos hlow]
        exact hl'
      · simp only [Bool.false_eq_true, if_false, if_neg hlow]
        exact Bool.and_false _
    · exact hl'

theorem State.sysw_next {s : State} {st : BitVec 2} {d : Code} {num : BitVec 14}
    (h : s.clear { slot := 0x1F1, stall := st, ok := sysAssigned num.toNat, dst := false, uses := [(d, 1)] } = true) (eff : State → State) :
    s.issueRaw (syswSig st d num) eff = .next (eff s) := State.issueRaw_of_clear (State.clear_sysw h) eff

/-- An instruction whose effect is a new vat. -/
theorem State.setVat_retire (s : State) (v : Vat) (g : Sig) : (∀ c, ((s.setVat s.w.vat v).retire g).w.final c = s.w.final c) ∧
    (s.setVat s.w.vat v).OnlyWarp ((s.setVat s.w.vat v).retire g) ∧ s.w.Issued ((s.setVat s.w.vat v).retire g).w 0 := by
  obtain ⟨honly, hissued, hfinal⟩ := (s.setVat s.w.vat v).retire_wrote g
  exact ⟨hfinal, honly, hissued⟩

/-! ### Words of wide registers -/

theorem getLsbD_setWordOf {n : Nat} (x : BitVec n) (i : Nat) (v : Word) {b : Nat} (hb : b < n) :
    (setWordOf x i v).getLsbD b = if 32 * i ≤ b ∧ b < 32 * i + 32 then v.getLsbD (b - 32 * i) else x.getLsbD b := by
  have hones (j : Nat) (hj : j < n) : (0xFFFFFFFF : BitVec n).getLsbD j = decide (j < 32) := by
    show (BitVec.ofNat n (2 ^ 32 - 1)).getLsbD j = _
    rw [BitVec.getLsbD_ofNat, decide_eq_true hj, Bool.true_and, Nat.testBit_two_pow_sub_one]
  rw [setWordOf, BitVec.getLsbD_or, BitVec.getLsbD_and, BitVec.getLsbD_not, BitVec.getLsbD_shiftLeft, BitVec.getLsbD_shiftLeft,
    BitVec.getLsbD_setWidth, hones _ (by omega)]
  by_cases hlo : b < 32 * i
  · simp [hb, hlo, show ¬ (32 * i ≤ b ∧ b < 32 * i + 32) by omega]
  · by_cases hhi : b < 32 * i + 32
    · simp [hb, hlo, show 32 * i ≤ b ∧ b < 32 * i + 32 by omega, show b - 32 * i < 32 by omega, show b - 32 * i < n by omega]
    · have hv : v.getLsbD (b - 32 * i) = false := BitVec.getLsbD_of_ge _ _ (by omega)
      simp [hb, hlo, hv, show ¬ (32 * i ≤ b ∧ b < 32 * i + 32) by omega, show ¬ b - 32 * i < 32 by omega]

/-- The first `m` bits. -/
theorem getLsbD_ofNat_two_pow_sub_one (n m b : Nat) (hb : b < n) : (BitVec.ofNat n (2 ^ m - 1)).getLsbD b = decide (b < m) := by
  rw [BitVec.getLsbD_ofNat, decide_eq_true hb, Bool.true_and, Nat.testBit_two_pow_sub_one]

/-! ### RINGD (R142) -/

/-- One word of a descriptor whose reserved bits are zero. -/
theorem setWordOf_ring {old : BitVec 64} (hlow : old &&& 0xF800F800 = 0) (hhigh : old >>> 52 = 0) (x : Word) {i : Nat} (hi : i < 2) :
    setWordOf old i x &&& 0xFFFFF07FF07FF =
      if i = 0 then old.extractLsb' 32 32 ++ (x &&& 0x07FF07FF) else (x &&& 0x000FFFFF) ++ old.extractLsb' 0 32 := by
  have hmask : (0xFFFFF07FF07FF : BitVec 64) = (0x000FFFFF : Word) ++ (0x07FF07FF : Word) := by decide
  have hfields : ∀ b < 32, (0x07FF07FF : Word).getLsbD b = !(0xF800F800 : BitVec 64).getLsbD b := by decide
  have hupper : ∀ b < 32, (0x000FFFFF : Word).getLsbD b = decide (b < 20) := by decide
  have hold (b : Nat) : (old.getLsbD b && (0xF800F800 : BitVec 64).getLsbD b) = false := by
    rw [← BitVec.getLsbD_and, hlow]
    exact BitVec.getLsbD_zero
  have habove {b : Nat} (hb : 52 ≤ b) : old.getLsbD b = false := by
    have h := BitVec.getLsbD_ushiftRight old 52 (b - 52)
    rw [hhigh, Nat.add_sub_cancel' hb] at h
    exact h.symm.trans BitVec.getLsbD_zero
  refine BitVec.eq_of_getLsbD_eq fun b hb => ?_
  rw [BitVec.getLsbD_and, getLsbD_setWordOf _ _ _ hb, hmask, BitVec.getLsbD_append]
  by_cases hb32 : b < 32
  · rw [if_pos hb32, hfields b hb32]
    rcases (show i = 0 ∨ i = 1 by omega) with rfl | rfl
    · rw [if_pos rfl, if_pos (by omega), BitVec.getLsbD_append, if_pos hb32, BitVec.getLsbD_and, hfields b hb32]
      rfl
    · rw [if_neg Nat.one_ne_zero, if_neg (by omega), BitVec.getLsbD_append, if_pos hb32, BitVec.getLsbD_extractLsb', decide_eq_true hb32, Nat.zero_add]
      have h := hold b
      revert h
      cases old.getLsbD b <;> simp
  · have hlt : b - 32 < 32 := by omega
    rw [if_neg hb32, hupper _ hlt]
    rcases (show i = 0 ∨ i = 1 by omega) with rfl | rfl
    · rw [if_pos rfl, if_neg (by omega), BitVec.getLsbD_append, if_neg hb32, BitVec.getLsbD_extractLsb', decide_eq_true hlt,
        Nat.add_sub_cancel' (by omega)]
      by_cases h52 : b < 52
      · simp [show b - 32 < 20 by omega]
      · rw [habove (by omega)]
        rfl
    · rw [if_neg Nat.one_ne_zero, if_pos (by omega), BitVec.getLsbD_append, if_neg hb32, BitVec.getLsbD_and, hupper _ hlt]

/-- A descriptor is bad where it breaks a bound of R142. -/
theorem Vat.ringBad_iff (v : Vat) (r : BitVec 64) : v.ringBad r = true ↔ (rdKind r ≠ 0 ∧ rdNm1 r = 0) ∨ rdNm1 r < rdQptr r ∨ rdNm1 r < rdPptr r ∨
    ((rdKind r = 1 ∨ rdKind r = 2) ∧ 1024 * v.scr < rdOff r (rdNm1 r + 1)) ∨ (rdKind r = 3 ∧ 15 < rdBase r + rdNm1 r) := by
  unfold Vat.ringBad
  simp [or_assoc]

theorem State.ringBound_iff (s : State) (r : Nat) : s.ringBound r = true ↔ ∃ e < 2,
    (s.engine s.w.core e).holder = some s.w.vat ∧ (s.engine s.w.core e).busy = true ∧ (s.engine s.w.core e).ring.toNat = r := by
  have hmem (e : Nat) : e ∈ [0, 1] ↔ e < 2 := by
    rw [List.mem_cons, List.mem_singleton]
    omega
  unfold State.ringBound
  simp only [List.any_eq_true, hmem, Bool.and_eq_true, beq_iff_eq, and_assoc]

/-! ### VBSTAT and NBSTAT (R132, R313) -/

theorem State.v_setVat (s : State) (v : Vat) : (s.setVat s.w.vat v).v = v := (s.vat_setVat _ _ _).trans (if_pos rfl)

theorem State.setVat_setVat (s : State) (k : Nat) (v v' : Vat) : (s.setVat k v).setVat k v' = s.setVat k v' := by
  unfold State.setVat
  rw [Map.set_set]

theorem State.retire_vat (s : State) (g : Sig) (k : Nat) : (s.retire g).vat k = s.vat k := by
  obtain ⟨x, hx, -⟩ := s.w_retire g
  rw [hx]
  rfl

theorem Warp.wakeNamed_keeps (nb : Nat) (w : Warp) : w.Keeps (w.wakeNamed nb) := by
  have hset (b : Map (BitVec 5)) : w.Keeps ({ w with barid := b } : Warp) := .of_same rfl rfl rfl rfl rfl rfl
  unfold Warp.wakeNamed
  exact (hset _).trans (Warp.wake_keeps fun _ hl h => Warp.Out.not_waiting (w := w) h hl _)

section
variable {s : State} {y : Word} {b : Nat}

/-- A write of VBSTAT or NBSTAT that leaves lanes of the barrier to arrive completes nothing. -/
theorem State.writeVbstat_waits (h : vbArrived y < vbExpect y) :
    (s.setVat s.w.vat { s.v with vbstat := y }).testVatBarrier s.w.vat = s.setVat s.w.vat { s.v with vbstat := y } := by
  have hv := s.v_setVat { s.v with vbstat := y }
  exact State.testVatBarrier_waits (congrArg Vat.vbstat hv ▸ h)

theorem State.writeNbstat_waits (h : vbArrived y < vbExpect y) : (s.setVat s.w.vat { s.v with nbstat := s.v.nbstat.set b y }).testNamedBarrier
    s.w.vat b = s.setVat s.w.vat { s.v with nbstat := s.v.nbstat.set b y } := by
  have hv : (s.setVat s.w.vat { s.v with nbstat := s.v.nbstat.set b y }).vat s.w.vat = { s.v with nbstat := s.v.nbstat.set b y } := s.v_setVat _
  have hy : (s.v.nbstat.set b y).get b = y := Map.get_set_self _ b y
  exact State.testNamedBarrier_waits (by rw [hv]; exact hy.symm ▸ h)

/-- Any other completes the barrier: the word written is the state of its next phase. -/
theorem State.writeVbstat_wakes (h : vbExpect y ≤ vbArrived y) :
    (s.setVat s.w.vat { s.v with vbstat := y }).testVatBarrier s.w.vat = (s.setVat s.w.vat { s.v with
      vbstat := vbMake (!y.getLsbD 31) (vbExpect y) 0 }).wakeEach 0 Warp.wakeVat (warpKeys s.w.vat s.v) := by
  have hv : (s.setVat s.w.vat { s.v with vbstat := y }).vat s.w.vat = { s.v with vbstat := y } := s.v_setVat _
  rw [State.testVatBarrier_wakes (hv.symm ▸ h), hv, State.setVat_setVat]
  rfl

theorem State.writeNbstat_wakes (h : vbExpect y ≤ vbArrived y) :
    (s.setVat s.w.vat { s.v with nbstat := s.v.nbstat.set b y }).testNamedBarrier s.w.vat b = (s.setVat s.w.vat { s.v with
      nbstat := s.v.nbstat.set b (vbMake (!y.getLsbD 31) 0 0) }).wakeEach (BitVec.ofNat 5 (16 + b)) (Warp.wakeNamed b)
        (warpKeys s.w.vat s.v) := by
  have hv : (s.setVat s.w.vat { s.v with nbstat := s.v.nbstat.set b y }).vat s.w.vat = { s.v with nbstat := s.v.nbstat.set b y } := s.v_setVat _
  have hy : (s.v.nbstat.set b y).get b = y := Map.get_set_self _ b y
  rw [State.testNamedBarrier_wakes (by rw [hv]; exact hy.symm ▸ h), hv, State.setVat_setVat]
  dsimp only
  rw [hy, Map.set_set]
  rfl

end

/-- A barrier that an instruction completes: registers and memory stand, the vat is as written, and each warp of the list is woken. -/
theorem State.wakes_retire {s t : State} {v : Vat} {id : BitVec 5} {f : Warp → Warp} {ks : List Nat} {g : Sig}
    (ht : t = ((s.setVat s.w.vat v).wakeEach id f ks).retire g) (hv : v.trapWarp = s.v.trapWarp) (hf : ∀ w : Warp, w.Keeps (f w)) (hn : ks.Nodup) :
    (∀ c, t.w.final c = s.w.final c) ∧ t.mem = s.mem ∧ t.v = v ∧
    ∀ k ∈ ks, ∃ r, (t.warp k).lstate = (f ((s.warp k).withReached r)).lstate ∧ (t.warp k).barid = (f ((s.warp k).withReached r)).barid := by
  obtain ⟨honly, hwarps⟩ := (s.setVat s.w.vat v).wakeEach_spec id f hn
  have hkeeps : s.Keeps t := ht ▸ ((State.setVat_keeps hv).trans (State.wakeEach_keeps _ id hf ks)).trans (State.retire_keeps _ g)
  refine ⟨hkeeps.w.final, hkeeps.mem, ?_, fun k hk => ?_⟩
  · rw [State.v, hkeeps.w.vat, ht, State.retire_vat, honly]
    exact s.v_setVat v
  · obtain ⟨r, hr⟩ := hwarps k
    rw [if_pos hk] at hr
    have hrest := ((s.setVat s.w.vat v).wakeEach id f ks).retire_rest g k
    rw [← ht, hr] at hrest
    exact ⟨r, (congrArg Warp.lstate hrest :), (congrArg Warp.barid hrest :)⟩

/-! ### LPC and LSTATE (R110, R113) -/

theorem Warp.bank_of_handles {w : Warp} (h : w.handles = true) : w.bank ≠ 0 := by
  unfold Warp.bank
  split
  · decide
  · split
    · decide
    · next ht =>
      have hd : (w.hdep != 0) = true := by
        unfold Warp.handles at h
        rwa [Bool.eq_false_iff.2 ht, Bool.or_false] at h
      exact fun h0 => (bne_iff_ne.1 hd) (BitVec.eq_of_toNat_eq h0)

/-- The warp with LPC of the enabled lanes written, and the lanes noted that a trap's handler writes. -/
def State.lpcWrites (s : State) (d : Code) : Warp := { s.w with
  lpc := setPcs s.w.lpc s.lanes (fun l => s.readOp d l &&& 0xFFFFFFFC),
  trap := { s.w.trap with
    lpcWritten := if s.w.trap.tmode && !s.w.saveRestore then s.w.trap.lpcWritten ||| s.w.clause.enabled else s.w.trap.lpcWritten } }

theorem State.lpcWrites_eq (s : State) (d : Code) : { s.w with
    lpc := (s.lanes.map (fun l => (l, s.readOp d l &&& 0xFFFFFFFC))).foldl (fun m e => m.set e.1 e.2) s.w.lpc,
    trap := if s.w.trap.tmode && !s.w.saveRestore then { s.w.trap with lpcWritten := s.w.trap.lpcWritten ||| s.w.clause.enabled }
      else s.w.trap } = s.lpcWrites d := by
  unfold State.lpcWrites setPcs
  rw [List.foldl_map]
  split <;> rfl

/-- The warp with lanes that leave their joins. -/
def Warp.leaveJoins (w : Warp) (left : Lanes) : Warp := { w with
  lstate := (lanesOf left).foldl (fun m l => m.set l ready) w.lstate,
  masks := { w.masks with ja := w.masks.ja.mapVals (fun _ m => m &&& ~~~ left) } }

/-- The end of a write of LSTATE by which lanes exit. -/
def State.endLstate (s : State) (g : Sig) (gone : Lanes) : State :=
  if s.w.saveRestore then s.retire g
  else if s.w.masks.lmask == 0 then s.retireAtBoundary g
  else (s.modW (fun w => { w with
    clause := { w.clause with issue := w.clause.issue &&& ~~~ gone, enabled := w.clause.enabled &&& ~~~ gone } })).retire g

theorem State.OnlyWarp.of_setW {s t : State} {x : Warp} (h : (s.setW x).OnlyWarp t) : s.OnlyWarp t := by
  unfold State.OnlyWarp at h ⊢
  refine h.trans ?_
  unfold State.setW State.setWarp
  dsimp only
  rw [Map.set_set]

/-- The lanes that a write of LSTATE takes from one state to another. -/
theorem State.inMask_lstateWrites (s : State) (d : Code) {l : Nat} (hl : l < 32) :
    (inMask (s.lstateWrites d).1 l = true ↔
      inMask s.w.clause.enabled l = true ∧ s.w.lstate.get l = 0 ∧ (s.readOp d l).extractLsb' 0 3 = 4) ∧
    (inMask (s.lstateWrites d).2 l = true ↔
      inMask s.w.clause.enabled l = true ∧ s.w.lstate.get l = 1 ∧ (s.readOp d l).extractLsb' 0 3 = 0) := by
  unfold State.lstateWrites
  simp only [inMask_maskWhere _ hl, Bool.and_eq_true, beq_iff_eq, and_assoc]
  exact ⟨Iff.rfl, Iff.rfl⟩

theorem Warp.leaveJoins_lstate (w : Warp) (left : Lanes) (l : Nat) :
    (w.leaveJoins left).lstate.get l = if l ∈ lanesOf left then ready else w.lstate.get l := get_foldl_set_const _ _ _ _

/-- A lane that leaves waits at no join. -/
theorem Warp.leaveJoins_ja (w : Warp) (left : Lanes) {l : Nat} (hl : l < 32) (h : inMask left l = true) (j : Nat) :
    inMask ((w.leaveJoins left).masks.ja.get j) l = false := by
  refine Map.get_mapVals_of_change w.masks.ja (· &&& ~~~ left) (P := fun m => inMask m l = false) (inMask_zero l) (fun m => ?_) j
  rw [inMask_and_not _ _ hl, h]
  exact Bool.and_false _

theorem State.leaveJoins_keeps (s : State) (d : Code) : s.w.Keeps (s.w.leaveJoins (s.lstateWrites d).2) := by
  refine Warp.ready_keeps rfl rfl rfl rfl rfl rfl fun l hl hout => Bool.eq_false_iff.2 fun hin => ?_
  have hjoin := (((s.inMask_lstateWrites d hl).2.1 hin).2.1).symm.trans hout.1
  exact absurd hjoin (by decide)

theorem State.endLstate_spec (s : State) (g : Sig) (gone : Lanes) : s.Keeps (s.endLstate g gone) ∧ (s.endLstate g gone).vats = s.vats ∧
    (s.endLstate g gone).w.lstate = s.w.lstate ∧ (s.endLstate g gone).w.masks.ja = s.w.masks.ja := by
  have hretire (u : State) : u.Keeps (u.retire g) ∧ (u.retire g).vats = u.vats ∧ (u.retire g).w.lstate = u.w.lstate ∧
      (u.retire g).w.masks.ja = u.w.masks.ja := by
    obtain ⟨x, hx, -, hrest, -⟩ := u.w_retire g
    refine ⟨u.retire_keeps g, by rw [hx]; rfl, ?_, (u.retire_rolls g).ja⟩
    rw [hx, State.w_setW]
    exact (congrArg Warp.lstate hrest :)
  unfold State.endLstate
  split
  · exact hretire s
  · split
    · refine ⟨s.retireAtBoundary_keeps g, rfl, ?_, ?_⟩
      · rw [State.retireAtBoundary, State.w_setW]; rfl
      · rw [State.retireAtBoundary, State.w_setW]; rfl
    · have hclause (c : Clause) : s.w.Keeps { s.w with clause := c } := .of_same rfl rfl rfl rfl rfl rfl
      obtain ⟨hkeeps, hvats, hlstate, hja⟩ := hretire (s.modW fun w => { w with
        clause := { w.clause with issue := w.clause.issue &&& ~~~ gone, enabled := w.clause.enabled &&& ~~~ gone } })
      rw [State.modW, State.w_setW] at hlstate hja
      exact ⟨(State.setWarp_keeps (hclause _)).trans hkeeps, hvats, hlstate, hja⟩

section
variable {s : State} {st : BitVec 2} {d : Code} {num : BitVec 14}
  (h : s.clear { slot := 0x1F1, stall := st, ok := sysAssigned num.toNat, dst := false, uses := [(d, 1)] } = true)
include h

/-- The ways of a write of RINGD, in terms of the descriptor `r` that it gives. -/
theorem exec_syswRingd_of_clear {n : Nat} {r : BitVec 64} (hn : (num.toNat - 0x80) / 2 = n)
    (hr : setWordOf (s.v.ringd.get n) (num.toNat % 2) (s.readOp d s.lane0) &&& 0xFFFFF07FF07FF = r) :
    exec (.syswRingd st d num) s = .next (
      if s.ringBound n then s.raiseHere fSlotState (BitVec.ofNat 32 n)
      else if s.v.ringBad r then
        (s.setVat s.w.vat { s.v with
          ringd := s.v.ringd.set n (r &&& ~~~ 0x000000C000000000), ringtag := s.v.ringtag.set n 0,
          ringQuiet := s.v.ringQuiet.set n false }).raiseHere fIllegalOperand 0
      else (s.setVat s.w.vat { s.v with
        ringd := s.v.ringd.set n r, ringtag := s.v.ringtag.set n 0, ringQuiet := s.v.ringQuiet.set n false }).retire (syswSig st d num)) := by
  subst hn hr
  exact State.sysw_next h _

theorem exec_syswRingtag_of_clear {k i : Nat} (hi : i < 4) (hn : num.toNat = 0x90 + 4 * k + i) {t : BitVec 128}
    (ht : setWordOf (s.v.ringtag.get k) i (s.readOp d s.lane0) &&& BitVec.ofNat 128 (2 ^ (2 * (rdNm1 (s.v.ringd.get k) + 1)) - 1) = t) :
    exec (.syswRingtag st d num) s = .next ((s.setVat s.w.vat { s.v with
      ringtag := s.v.ringtag.set k t, ringQuiet := s.v.ringQuiet.set k true }).retire (syswSig st d num)) := by
  have hk : (num.toNat - 0x90) / 4 = k := by omega
  have hi : num.toNat % 4 = i := by omega
  subst hk hi ht
  exact State.sysw_next h _

theorem exec_syswHistbin_of_clear {b : Nat} (hn : num.toNat = 0x200 + b) :
    exec (.syswHistbin st d num) s = .next ((s.setVat s.w.vat { s.v with
      hist := s.v.hist.set b (s.readOp d s.lane0) }).retire (syswSig st d num)) := by
  have hb : num.toNat - 0x200 = b := by omega
  subst hb
  exact State.sysw_next h _

/-- LPC and LSTATE stand outside the handlers. -/
theorem exec_syswLpc_ignored (hm : s.w.handles = false) : exec (.syswLpc st d num) s = .next (s.retire (syswSig st d num)) := by
  refine (State.sysw_next h _).trans ?_
  dsimp only
  rw [hm]
  rfl

theorem exec_syswLstate_ignored (hm : s.w.handles = false) : exec (.syswLstate st d num) s = .next (s.retire (syswSig st d num)) := by
  refine (State.sysw_next h _).trans ?_
  rw [hm]
  rfl

theorem exec_syswLpc_of_clear (hm : s.w.handles = true) :
    exec (.syswLpc st d num) s = .next ((s.setW (s.lpcWrites d)).retire (syswSig st d num)) := by
  refine (State.sysw_next h _).trans ?_
  dsimp only
  rw [hm, if_neg (by decide : ¬ (!true) = true)]
  rw [← s.lpcWrites_eq d]
  rfl

theorem exec_syswLstate_of_clear (hm : s.w.handles = true) : exec (.syswLstate st d num) s =
    .next (((s.setW (s.w.leaveJoins (s.lstateWrites d).2)).leave s.cur (s.lstateWrites d).1 s.w.clause.pc).endLstate
      (syswSig st d num) (s.lstateWrites d).1) := by
  refine (State.sysw_next h _).trans ?_
  rw [hm]
  rfl

/-- A barrier's completion follows the write where enough lanes have arrived. -/
theorem exec_syswVbstat_of_clear : exec (.syswVbstat st d num) s = .next (((s.setVat s.w.vat { s.v with
    vbstat := s.readOp d s.lane0 &&& 0x87FF07FF }).testVatBarrier s.w.vat).retire (syswSig st d num)) := State.sysw_next h _

theorem exec_syswNbstat_of_clear {b : Nat} (hn : num.toNat = 0x140 + b) {y : Word} (hy : s.readOp d s.lane0 &&& 0x87FF07FF = y) :
    exec (.syswNbstat st d num) s = .next ((if vbExpect y = 0 then s.setVat s.w.vat { s.v with nbstat := s.v.nbstat.set b y }
      else (s.setVat s.w.vat { s.v with nbstat := s.v.nbstat.set b y }).testNamedBarrier s.w.vat b).retire (syswSig st d num)) := by
  have hb : num.toNat - 0x140 = b := by omega
  subst hb hy
  have hv : ((s.setVat s.w.vat { s.v with
      nbstat := s.v.nbstat.set (num.toNat - 0x140) (s.readOp d s.lane0 &&& 0x87FF07FF) }).v.nbstat.get (num.toNat - 0x140)) =
      s.readOp d s.lane0 &&& 0x87FF07FF := by
    rw [State.v_setVat]
    exact Map.get_set_self _ _ _
  exact (State.sysw_next h _).trans (congrArg (fun u : State => Host.Outcome.next (u.retire (syswSig st d num))) (if_congr (by rw [← hv]; rfl) rfl rfl))

theorem syswVbstat_completes {y : Word} (hy : s.readOp d s.lane0 &&& 0x87FF07FF = y) (hw : vbExpect y ≤ vbArrived y) :
    ∃ t, exec (.syswVbstat st d num) s = .next t ∧ (∀ c, t.w.final c = s.w.final c) ∧ t.mem = s.mem ∧
      t.v = { s.v with vbstat := vbMake (!y.getLsbD 31) (vbExpect y) 0 } ∧
      ∀ k ∈ warpKeys s.w.vat s.v, ∃ r, (t.warp k).lstate = (Warp.wakeVat ((s.warp k).withReached r)).lstate ∧
        (t.warp k).barid = (Warp.wakeVat ((s.warp k).withReached r)).barid := by
  have hexec := exec_syswVbstat_of_clear h
  rw [hy, State.writeVbstat_wakes hw] at hexec
  exact ⟨_, hexec, State.wakes_retire rfl (by rfl) Warp.wakeVat_keeps (warpKeys_nodup _ _)⟩

theorem syswNbstat_completes {b : Nat} (hn : num.toNat = 0x140 + b) {y : Word} (hy : s.readOp d s.lane0 &&& 0x87FF07FF = y)
    (hw : vbExpect y ≤ vbArrived y) (h0 : vbExpect y ≠ 0) :
    ∃ t, exec (.syswNbstat st d num) s = .next t ∧ (∀ c, t.w.final c = s.w.final c) ∧ t.mem = s.mem ∧
      t.v = { s.v with nbstat := s.v.nbstat.set b (vbMake (!y.getLsbD 31) 0 0) } ∧
      ∀ k ∈ warpKeys s.w.vat s.v, ∃ r, (t.warp k).lstate = (Warp.wakeNamed b ((s.warp k).withReached r)).lstate ∧
        (t.warp k).barid = (Warp.wakeNamed b ((s.warp k).withReached r)).barid := by
  have hexec := exec_syswNbstat_of_clear h hn hy
  rw [if_neg h0, State.writeNbstat_wakes hw] at hexec
  exact ⟨_, hexec, State.wakes_retire rfl (by rfl) (Warp.wakeNamed_keeps b) (warpKeys_nodup _ _)⟩

theorem syswLpc_writes (hm : s.w.handles = true) : ∃ t, exec (.syswLpc st d num) s = .next t ∧ (∀ c, t.w.final c = s.w.final c) ∧ s.OnlyWarp t ∧
    { s.w with lpc := t.w.lpc, trap := { s.w.trap with lpcWritten := t.w.trap.lpcWritten } }.Issued t.w 0 ∧
    t.w.lpc = (s.lpcWrites d).lpc ∧ t.w.trap.lpcWritten = (s.lpcWrites d).trap.lpcWritten := by
  have hrolls := (s.setW (s.lpcWrites d)).retire_rolls (syswSig st d num)
  obtain ⟨honly, ⟨hrest, hmasks⟩, hfinal⟩ := (s.setW (s.lpcWrites d)).retire_wrote (syswSig st d num)
  rw [State.w_setW] at hrolls hrest hmasks hfinal
  have hlpc := hrolls.lpc (Warp.bank_of_handles hm)
  have htrap : ((s.setW (s.lpcWrites d)).retire (syswSig st d num)).w.trap = (s.lpcWrites d).trap := (congrArg Warp.trap hrest :)
  refine ⟨_, exec_syswLpc_of_clear h hm, hfinal, .of_setW honly, ?_, hlpc, by rw [htrap]⟩
  rw [htrap]
  exact ⟨hrest, hmasks⟩

/-- Where no live lane exits, lanes leave their joins. -/
theorem syswLstate_leaves (hm : s.w.handles = true) (hno : (s.lstateWrites d).1 &&& s.w.masks.lmask = 0) :
    ∃ t, exec (.syswLstate st d num) s = .next t ∧ s.Keeps t ∧ t.vats = s.vats ∧
      t.w.lstate = (s.w.leaveJoins (s.lstateWrites d).2).lstate ∧ t.w.masks.ja = (s.w.leaveJoins (s.lstateWrites d).2).masks.ja := by
  have hleave := State.leave_none (s := s.setW (s.w.leaveJoins (s.lstateWrites d).2)) (k := s.cur) (lanes := (s.lstateWrites d).1)
    (by rw [State.warp_setW, if_pos rfl]; exact hno) s.w.clause.pc false
  obtain ⟨hkeeps, hvats, hlstate, hja⟩ := (s.setW (s.w.leaveJoins (s.lstateWrites d).2)).endLstate_spec (syswSig st d num) (s.lstateWrites d).1
  rw [State.w_setW] at hlstate hja
  refine ⟨_, (exec_syswLstate_of_clear h hm).trans ?_, (State.setWarp_keeps (s.leaveJoins_keeps d)).trans hkeeps, hvats, hlstate, hja⟩
  rw [hleave]

/-- Lanes that exit have left, where the warp holds no trap and no engine's fault. -/
theorem syswLstate_exits (hm : s.w.handles = true) (ha : s.w.async = []) (ht : s.v.trapWarp ≠ some s.cur) :
    ∃ t, exec (.syswLstate st d num) s = .next t ∧ s.Keeps t ∧
      ∀ l < 32, inMask (s.lstateWrites d).1 l = true → inMask s.w.masks.lmask l = true → t.w.Out l := by
  have hjoins : s.Keeps (s.setW (s.w.leaveJoins (s.lstateWrites d).2)) := State.setWarp_keeps (s.leaveJoins_keeps d)
  have hw : (s.setW (s.w.leaveJoins (s.lstateWrites d).2)).warp s.cur = s.w.leaveJoins (s.lstateWrites d).2 :=
    (s.warp_setW _ _).trans (if_pos rfl)
  obtain ⟨hleave, hout⟩ := State.leave_spec (s := s.setW (s.w.leaveJoins (s.lstateWrites d).2)) (k := s.cur) (by rw [hw]; exact ha)
    (by rw [hw]; exact ht) (s.lstateWrites d).1 s.w.clause.pc false
  obtain ⟨hend, -⟩ := State.endLstate_spec ((s.setW (s.w.leaveJoins (s.lstateWrites d).2)).leave s.cur (s.lstateWrites d).1 s.w.clause.pc)
    (syswSig st d num) (s.lstateWrites d).1
  refine ⟨_, exec_syswLstate_of_clear h hm, (hjoins.trans hleave).trans hend, fun l hl hin hlive => ?_⟩
  refine hend.w.out l hl ?_
  rw [State.w, (hjoins.trans hleave).cur]
  exact hout l hl hin (by rw [hw]; exact hlive)

end

/-- Settles O42, register by register: the lanes that wake at a barrier by `State.wakes_retire`, those that exit by `State.leave_spec`; the fields
of a word written are read bit by bit. -/
theorem sysWriteOwn : Obligations.SysWriteOwn := by
  unfold Obligations.SysWriteOwn
  intro s st d num
  dsimp only
  intro h
  refine ⟨fun ⟨hlow, hhigh⟩ => ?ringd, fun k _ i hi hn => ?ringtag, ⟨fun hw => ?vbWaits, fun hw => ?vbCompletes⟩,
    fun b _ hn => ⟨fun hw => ?nbWaits, fun hw h0 => ?nbCompletes⟩,
    ⟨fun hm => ?ignored, fun hm => ?lpc, fun hm hno => ?joins, fun hm ha ht => ?exits⟩, fun b _ hn => ?histbin⟩
  case ringd =>
    have hexec := exec_syswRingd_of_clear h rfl (setWordOf_ring hlow hhigh (s.readOp d s.lane0) (Nat.mod_lt _ Nat.two_pos))
    refine ⟨fun hb => ?_, fun hb hbad => ?_, fun hb hbad => ?_⟩
    · rw [hexec, if_pos ((s.ringBound_iff _).2 hb)]
      rfl
    · rw [hexec, if_neg (mt (s.ringBound_iff _).1 hb), if_pos ((Vat.ringBad_iff _ _).2 hbad)]
      rfl
    · rw [hexec, if_neg (mt (s.ringBound_iff _).1 hb), if_neg (mt (Vat.ringBad_iff _ _).1 hbad)]
      exact ⟨_, rfl, s.setVat_retire _ _⟩
  case ringtag =>
    refine ⟨_, ⟨_, exec_syswRingtag_of_clear h hi hn rfl, s.setVat_retire _ _⟩, fun b hb => ?_⟩
    rw [BitVec.getLsbD_and, getLsbD_setWordOf _ _ _ hb, getLsbD_ofNat_two_pow_sub_one _ _ _ hb, Bool.and_comm]
    rfl
  case vbWaits =>
    rw [exec_syswVbstat_of_clear h, State.writeVbstat_waits hw]
    exact ⟨_, rfl, s.setVat_retire _ _⟩
  case vbCompletes =>
    obtain ⟨t, hexec, hfinal, hmem, hv, hwoken⟩ := syswVbstat_completes h rfl hw
    refine ⟨t, hexec, hfinal, hmem, by rw [hv], fun k hk l hl hlive hst hb he => ?_⟩
    obtain ⟨r, hlstate, -⟩ := hwoken k hk
    rw [hlstate]
    exact Warp.wakeVat_ready (w := (s.warp k).withReached r) hl hlive hst hb he
  case nbWaits =>
    have hstands : (if vbExpect (s.readOp d s.lane0 &&& 0x87FF07FF) = 0 then _ else _) = _ :=
      ite_eq_left_iff.2 fun h0 => State.writeNbstat_waits (s := s) (b := b) (hw.resolve_right h0)
    rw [exec_syswNbstat_of_clear h hn rfl, hstands]
    exact ⟨_, rfl, s.setVat_retire _ _⟩
  case nbCompletes =>
    obtain ⟨t, hexec, hfinal, hmem, hv, hwoken⟩ := syswNbstat_completes h hn rfl hw h0
    refine ⟨t, hexec, hfinal, hmem, ?_, fun k hk l hl hlive hst hb => ?_⟩
    · rw [hv]
      exact Map.get_set_self _ _ _
    · obtain ⟨r, hlstate, hbarid⟩ := hwoken k hk
      rw [hlstate, hbarid]
      exact Warp.wakeNamed_ready (w := (s.warp k).withReached r) hl hlive hst hb
  case ignored => exact ⟨_, s.retire_wrote _, exec_syswLstate_ignored h hm, exec_syswLpc_ignored h hm⟩
  case lpc =>
    obtain ⟨t, hexec, hfinal, honly, hissued, hlpc, hnoted⟩ := syswLpc_writes h hm
    refine ⟨t, hexec, hfinal, honly, hissued, fun l hl => ?_, hnoted⟩
    rw [hlpc]
    refine (get_setPcs _ _ _ _).trans (if_congr ?_ rfl rfl)
    exact mem_lanesOf.trans (and_iff_right hl)
  case joins =>
    have hnone : (s.lstateWrites d).1 &&& s.w.masks.lmask = 0 := lanes_eq_zero fun l hl => Bool.eq_false_iff.2 fun hin => by
      rw [inMask_and] at hin
      obtain ⟨hin, hlive⟩ := Bool.and_eq_true_iff.1 hin
      obtain ⟨hen, hst, hx⟩ := (s.inMask_lstateWrites d hl).1.1 hin
      exact hno l hl ⟨by rw [inMask_and, hen, hlive]; rfl, hst, hx⟩
    obtain ⟨t, hexec, hkeeps, hvats, hlstate, hja⟩ := syswLstate_leaves h hm hnone
    refine ⟨t, hexec, hkeeps.w.final, hkeeps.mem, hvats, fun l hl => ⟨fun ⟨hen, hst, hx⟩ => ?_, fun hen => ?_⟩⟩
    · rw [inMask_and] at hen
      have hin := (s.inMask_lstateWrites d hl).2.2 ⟨(Bool.and_eq_true_iff.1 hen).1, hst, hx⟩
      rw [hlstate, hja]
      exact ⟨(s.w.leaveJoins_lstate _ l).trans (if_pos (mem_lanesOf.2 ⟨hl, hin⟩)), s.w.leaveJoins_ja _ hl hin⟩
    · rw [hlstate]
      refine (s.w.leaveJoins_lstate _ l).trans (if_neg fun hmem => ?_)
      have hin := ((s.inMask_lstateWrites d hl).2.1 (mem_lanesOf.1 hmem).2).1
      rw [hen] at hin
      cases hin
  case exits =>
    obtain ⟨t, hexec, hkeeps, hout⟩ := syswLstate_exits h hm ha ht
    refine ⟨t, hexec, hkeeps.w.final, hkeeps.mem, fun l hl ⟨hen, hst, hx⟩ => ?_⟩
    rw [inMask_and] at hen
    obtain ⟨hen, hlive⟩ := Bool.and_eq_true_iff.1 hen
    exact hout l hl ((s.inMask_lstateWrites d hl).1.2 ⟨hen, hst, hx⟩) hlive
  case histbin =>
    rw [exec_syswHistbin_of_clear h hn]
    exact ⟨_, rfl, s.setVat_retire _ _⟩

end Sys2Proof.Machine
end

section
/-! PROOFS. A word that has issued already has no fault of the whole instruction (spec/07 R167, spec/15 R356). -/

namespace Sys2Proof.Machine

/-- A MAT warp inside a clause whose MMAS has issued and reached its operand-complete point (spec/15 R356), of a vat that is being stopped, on a
device with no feature accessible. -/
def issuedMmas : State :=
  { State.reset with
    warps := [(0, { (default : Warp) with mat := true, matrixOp := some 0, clause := { (default : Clause) with enabled := 1 } })],
    vats := [(0, some { (default : Vat) with stop := some 0 })] }

theorem mmas_encodes : encode (.mmas 1 5 6 7 1 5 8) = [0x7C414307, 0x04050008] := by decide

theorem mmas_decodes : decodeWord 0x7C414307 0x04050008 = .ok (.mmas 1 5 6 7 1 5 8, slotLong 0x1E2) := by rfl

/-- The word in turn has issued already: it ends, and the warp runs on. -/
theorem issuedMmas_ends : ∃ t, exec (.mmas 1 5 6 7 1 5 8) issuedMmas = .next t ∧ t.w.stopped = false := ⟨_, rfl, by decide +kernel⟩

/-- FEATURE_ABSENT in its place finds the vat being stopped, and stops the warp (spec/07 R395). -/
theorem issuedMmas_raiseHere : (issuedMmas.raiseHere 0x15 0).w.stopped = true := by decide +kernel

/-- Refutes O55: an MMAS that has issued and stands at its word until its operand-complete point (spec/15 R356) has no whole-instruction fault
again when it ends, while the statement has it take FEATURE_ABSENT then. -/
theorem not_wholeFaults : ¬ Obligations.WholeFaults := by
  unfold Obligations.WholeFaults
  intro h
  obtain ⟨-, hword, -⟩ := h (.mmas 1 5 6 7 1 5 8) issuedMmas 0x7C414307 0x04050008 [0x04050008] 0 0 0 0
  obtain ⟨-, hon⟩ := hword mmas_encodes mmas_decodes
  obtain ⟨-, -, -, -, -, -, -, habsent, -⟩ := hon (by decide)
  obtain ⟨t, ht, hruns⟩ := issuedMmas_ends
  have hfault := habsent (by decide) ⟨6, by decide, by decide⟩
  rw [ht, Host.Outcome.next.injEq] at hfault
  rw [hfault, issuedMmas_raiseHere] at hruns
  exact absurd hruns (by decide)

end Sys2Proof.Machine
end

section
/-! PROOFS. The return from a trap (spec/07 R173): where the word behind the fault is. -/

namespace Sys2Proof.Machine

/-- A split load of lane 0 that waits for its data, and a store that has not been performed yet: it puts the opcode of a two-word instruction
into the code of the clause. -/
def waitingLoad : Op :=
  { (default : Op) with work := .load [] [] true 1, fpc := 0x84, lanes := 1, reported := true }
def codeStore : Op := { (default : Op) with cls := .st, work := .store false [⟨0x10087, 1, 0⟩] }

/-- A warp in the handler of a fault of that load, in a clause of two words, on a machine whose operations list number 0 twice, which
`Map.wf` excludes and the statement does not. -/
def twiceListedOp : State :=
  let s := State.reset.placeCode 0
  { s.modW (fun w => { w with trap := { w.trap with
      tmode := true, trpc := 0x84, trmask := 1, frec := { (default : FaultRecord) with flm := 1, fpc := 0x84 }, clause := w.clause,
      resume := .after, issue := 1 } }) with
    ops := [(0, some waitingLoad), (0, some codeStore)] }

theorem twiceListedOp_clear : twiceListedOp.clear { slot := 0x1F3, stall := 0, legal := twiceListedOp.w.trap.tmode } = true := by decide +kernel

/-- While the store is listed its opcode is the faulting word's. -/
theorem twiceListedOp_wordLen : twiceListedOp.wordLen twiceListedOp.cur twiceListedOp.w.trap.clause = 2 := by decide +kernel

/-- The load's lane is skipped, and the load's number with the store leaves the operations: the word behind the fault is within the clause. -/
theorem twiceListedOp_returns :
    ((twiceListedOp.modW (·.countIssue 0)).trapReturn false).w.phase = .word := by decide +kernel

/-- Refutes O43: TRET reads the length of the faulting word of `twiceListedOp` behind the load that it skips, and so goes on within the clause, while
the statement, which does not ask that the table of operations is in its canonical form (`Map.wf`), takes the length from before. -/
theorem not_traps : ¬ Obligations.Traps := by
  unfold Obligations.Traps
  intro h
  obtain ⟨-, -, htret, -, -⟩ := h twiceListedOp 0 0 0 0 0 0
  obtain ⟨hpast, -, -⟩ := htret twiceListedOp_clear (by decide) (by decide)
  obtain ⟨hreturn, -⟩ := hpast (by decide +kernel) (by decide) (by decide)
  obtain ⟨t, ht, -, -, hboundary⟩ := hreturn (by decide) (by decide +kernel)
  have hphase := (hboundary (by rw [twiceListedOp_wordLen]; decide)).1
  rw [exec_tret, execTret, State.tretSig, slot, State.issueRaw_of_clear twiceListedOp_clear, Host.Outcome.next.injEq] at ht
  rw [← ht, twiceListedOp_returns] at hphase
  exact absurd hphase (by decide)

end Sys2Proof.Machine
end

section
/-! PROOFS. The host's answers to a serviceable fault (spec/07 R174, R175). -/

namespace Sys2Proof.Machine

/-! ### The replay of a warp that waited for its answer -/

/-- A warp's registers, and what it waits for at the context rung, are the same. -/
structure Warp.SameWait (w x : Warp) : Prop where
  final : ∀ r, x.final r = w.final r
  serviceWait : x.serviceWait = w.serviceWait
  swapFault : x.swapFault = w.swapFault

theorem Warp.SameWait.refl (w : Warp) : w.SameWait w := ⟨fun _ => rfl, rfl, rfl⟩

theorem Warp.SameWait.trans {w x y : Warp} (h : w.SameWait x) (g : x.SameWait y) : w.SameWait y :=
  ⟨fun r => (g.final r).trans (h.final r), g.serviceWait.trans h.serviceWait, g.swapFault.trans h.swapFault⟩

theorem Warp.Moved.sameWait {w x : Warp} (h : Warp.Moved w x) : w.SameWait x :=
  ⟨h.final, show x.rest.serviceWait = w.rest.serviceWait by rw [h.2], show x.rest.swapFault = w.rest.swapFault by rw [h.2]⟩

theorem Warp.wake_sameWait (w : Warp) (made : Lanes) (barrier : Bool) : w.SameWait (w.wake made barrier) := by
  unfold Warp.wake
  split
  · exact .refl w
  · split
    · exact ⟨Warp.final_congr rfl rfl, rfl, rfl⟩
    · dsimp only
      split <;> exact ⟨Warp.final_congr rfl rfl, rfl, rfl⟩

theorem Warp.tret_sameWait (w : Warp) (skip : Bool) (c : Clause) (len : Nat) : w.SameWait (w.tret skip c len) := by
  have hl : w.SameWait w.leaveTrap := ⟨Warp.final_congr rfl rfl, rfl, rfl⟩
  unfold Warp.tret
  dsimp only
  split
  · exact hl.trans ⟨Warp.final_congr rfl rfl, rfl, rfl⟩
  · split <;> exact hl.trans (Warp.moved_resumeAt _ _ _ _).sameWait

/-- Only warps, vats and operations differ, and no warp's registers or what it waits for at the context rung. -/
structure State.Settles (s t : State) : Prop where
  only : t = { s with warps := t.warps, vats := t.vats, ops := t.ops }
  warp : ∀ j, (s.warp j).SameWait (t.warp j)

theorem State.Settles.refl (s : State) : s.Settles s := ⟨rfl, fun _ => .refl _⟩

theorem State.Settles.trans {s t u : State} (h : s.Settles t) (g : t.Settles u) : s.Settles u where
  only := by rw [g.only, h.only]
  warp j := (h.warp j).trans (g.warp j)

theorem State.Settles.foldl {α : Type} {f : State → α → State} (hf : ∀ (s : State) x, s.Settles (f s x)) (xs : List α) (s : State) :
    s.Settles (xs.foldl f s) := by
  induction xs generalizing s with
  | nil => exact .refl s
  | cons x xs ih => exact (hf s x).trans (ih _)

theorem State.modWarp_settles (s : State) (k : Nat) {f : Warp → Warp} (hf : (s.warp k).SameWait (f (s.warp k))) : s.Settles (s.modWarp k f) where
  only := rfl
  warp j := by
    rw [State.warp_modWarp]
    split
    · next e => exact e ▸ hf
    · exact .refl _

theorem State.settleClaim_settles (s : State) (k : Nat) (fr : FaultRecord) (replay : Bool) : s.Settles (s.settleClaim k fr replay) := by
  unfold State.settleClaim
  dsimp only
  split
  · exact .refl s
  · split
    · exact s.modWarp_settles k ⟨Warp.final_congr rfl rfl, rfl, rfl⟩
    · exact State.Settles.trans (t := s.modVat _ _) ⟨rfl, fun _ => .refl _⟩ (State.modWarp_settles _ k ⟨Warp.final_congr rfl rfl, rfl, rfl⟩)

theorem State.arriveLanes_settles (s : State) (k : Nat) (lanes : Lanes) : s.Settles (s.arriveLanes k lanes) :=
  s.modWarp_settles k (Warp.wake_sameWait _ _ _)

theorem State.skipPending_settles (s : State) (k : Nat) (fr : FaultRecord) : s.Settles (s.skipPending k fr) := by
  refine .foldl (fun u n => ?_) _ s
  split
  · split
    · dsimp only
      split
      · exact .refl u
      · refine State.Settles.trans (t := if _ then u.dropOp n else u.setOp n _) ?_ (State.arriveLanes_settles _ k _)
        split <;> exact ⟨rfl, fun _ => .refl _⟩
    · exact .refl u
  · exact .refl u

theorem State.resolve_settles (s : State) (k : Nat) : s.Settles (s.resolve k false) := by
  let fr := (s.warp k).trap.frec
  let u := s.settleClaim k fr fr.replay
  have hu : s.Settles (if fr.replay then u else u.skipPending k fr) := by
    refine (s.settleClaim_settles k fr fr.replay).trans ?_
    split
    · exact .refl u
    · exact u.skipPending_settles k fr
  refine hu.trans (t := if fr.replay then u else u.skipPending k fr) ?_
  exact State.modWarp_settles _ k (f := fun w => w.tret false _ _) (Warp.tret_sameWait _ false _ _)

/-- The replay of a fault that waited for its answer. -/
theorem State.replaySwapped_keeps (s : State) (k : Nat) {fr : FaultRecord} (h : (s.warp k).swapFault = some fr) :
    (s.replaySwapped k).mem = s.mem ∧ (s.replaySwapped k).ctxs = s.ctxs ∧ ((s.replaySwapped k).warp k).serviceWait = false ∧
      ((s.replaySwapped k).warp k).swapFault = none ∧ ∀ r, ((s.replaySwapped k).warp k).final r = (s.warp k).final r := by
  let u := s.modWarp k (fun w => { w with swapFault := none, serviceWait := false, trap := { w.trap with frec := fr } })
  have hu : s.replaySwapped k = u.resolve k false := by
    unfold State.replaySwapped
    rw [h]
  obtain ⟨honly, hwarp⟩ := u.resolve_settles k
  have hw := hwarp k
  have hk : u.warp k = { s.warp k with swapFault := none, serviceWait := false, trap := { (s.warp k).trap with frec := fr } } :=
    (s.warp_modWarp k k _).trans (if_pos rfl)
  rw [hk] at hw
  rw [hu]
  exact ⟨by rw [honly]; rfl, by rw [honly]; rfl, hw.serviceWait, hw.swapFault, fun r => (hw.final r).trans (Warp.final_congr rfl rfl r)⟩

/-! ### The vats that an answer stops -/

/-- From `s` to `t` no more has changed than vats of `P` that stop, and what their ends free or count. -/
structure State.Halts (P : Nat → Prop) (s t : State) : Prop where
  mem : t.mem = s.mem
  ctx : ∀ c, ∃ used, t.ctx c = { s.ctx c with saveUsed := used }
  lot : ∀ k, (t.lot k).status = (s.lot k).status ∧ (t.lot k).first = (s.lot k).first ∧ (t.lot k).ctx = (s.lot k).ctx
  stop : ∀ k, (s.vat k).stop.isSome = true → (t.vat k).stop.isSome = true
  vat : ∀ k, ¬ P k → t.vat k = s.vat k

section
variable {P : Nat → Prop}

theorem State.Halts.refl (s : State) : State.Halts P s s := ⟨rfl, fun _ => ⟨_, rfl⟩, fun _ => ⟨rfl, rfl, rfl⟩, fun _ => id, fun _ _ => rfl⟩

theorem State.Halts.trans {s t u : State} (h : State.Halts P s t) (g : State.Halts P t u) : State.Halts P s u where
  mem := g.mem.trans h.mem
  ctx c := by
    obtain ⟨a, ha⟩ := h.ctx c
    obtain ⟨b, hb⟩ := g.ctx c
    exact ⟨b, by rw [hb, ha]⟩
  lot k := by
    obtain ⟨h1, h2, h3⟩ := h.lot k
    obtain ⟨g1, g2, g3⟩ := g.lot k
    exact ⟨g1.trans h1, g2.trans h2, g3.trans h3⟩
  stop k := g.stop k ∘ h.stop k
  vat k hk := (g.vat k hk).trans (h.vat k hk)

theorem State.Halts.of_same {s t : State} (hm : t.mem = s.mem) (hc : t.ctxs = s.ctxs) (hl : t.lots = s.lots) (hv : t.vats = s.vats) :
    State.Halts P s t := by
  refine ⟨hm, fun c => ⟨(s.ctx c).saveUsed, ?_⟩, fun k => ?_, fun k => ?_, fun k _ => ?_⟩
  · unfold State.ctx; rw [hc]
  · unfold State.lot; rw [hl]; exact ⟨rfl, rfl, rfl⟩
  · unfold State.vat; rw [hv]; exact id
  · unfold State.vat; rw [hv]

theorem State.Halts.foldl {α : Type} {f : State → α → State} {xs : List α} (hf : ∀ x ∈ xs, ∀ s : State, State.Halts P s (f s x)) (s : State) :
    State.Halts P s (xs.foldl f s) := by
  induction xs generalizing s with
  | nil => exact .refl s
  | cons x xs ih => exact (hf x List.mem_cons_self s).trans (ih (fun y hy => hf y (List.mem_cons_of_mem _ hy)) _)

theorem State.setVat_halts (s : State) {k : Nat} (hk : P k) {v : Vat} (hv : (s.vat k).stop.isSome = true → v.stop.isSome = true) :
    State.Halts P s (s.setVat k v) where
  mem := rfl
  ctx _ := ⟨_, rfl⟩
  lot _ := ⟨rfl, rfl, rfl⟩
  stop j := by
    rw [State.vat_setVat]
    split
    · next e =>
      subst e
      exact hv
    · exact id
  vat j hj := (s.vat_setVat j k v).trans (if_neg (fun e => hj (by rw [e]; exact hk)))

theorem State.modWarp_halts (s : State) (k : Nat) (f : Warp → Warp) : State.Halts P s (s.modWarp k f) := .of_same rfl rfl rfl rfl

/-- A change of a lot's summary. -/
theorem State.modLot_halts (s : State) (k : Nat) {f : Lot → Lot} (hs : (f (s.lot k)).status = (s.lot k).status)
    (hf : (f (s.lot k)).first = (s.lot k).first) (hc : (f (s.lot k)).ctx = (s.lot k).ctx) : State.Halts P s (s.modLot k f) where
  mem := rfl
  ctx _ := ⟨_, rfl⟩
  lot j := by
    rw [State.lot_modLot]
    split
    · next e =>
      subst e
      exact ⟨hs, hf, hc⟩
    · exact ⟨rfl, rfl, rfl⟩
  stop _ := id
  vat _ _ := rfl

theorem State.setSaveUsed_halts (s : State) (ctx : Nat) (used : Context → List (Nat × Nat)) :
    State.Halts P s (s.modCtx ctx (fun c => { c with saveUsed := used c })) where
  mem := rfl
  ctx c := by
    rw [State.ctx_modCtx]
    split
    · next e => exact ⟨_, by rw [e]⟩
    · exact ⟨_, rfl⟩
  lot _ := ⟨rfl, rfl, rfl⟩
  stop _ := id
  vat _ _ := rfl

theorem State.freeImage_halts (s : State) {vk : Nat} (hv : P vk) : State.Halts P s (s.freeImage vk) := by
  unfold State.freeImage
  dsimp only
  split
  · exact (s.setSaveUsed_halts _ _).trans (State.setVat_halts _ hv id)
  · exact .refl s

theorem State.endVat_halts (s : State) {vk : Nat} (hv : P vk) : State.Halts P s (s.endVat vk) := by
  rw [s.endVat_eq]
  have h1 : State.Halts P s (s.modLot (s.vat vk).lot (fun l => l.vatEnded (s.vatFlags vk) s.gtime)) := s.modLot_halts _ rfl rfl rfl
  have h2 := h1.trans (State.freeImage_halts _ hv)
  exact (h2.trans (State.setVat_halts (v := Vat.ended _) _ hv id)).trans (.foldl (fun k _ u => u.modWarp_halts k Warp.left) _)

/-- A vat that is told to stop is marked so. -/
theorem State.stopVat_halts (s : State) {vk : Nat} (hv : P vk) (discard : Bool) :
    State.Halts P s (s.stopVat vk discard) ∧ ((s.stopVat vk discard).vat vk).stop.isSome = true := by
  let u := s.setVat vk { s.vat vk with stop := some ((s.vat vk).stop.getD s.gtime), discard := (s.vat vk).discard || discard }
  have hu : State.Halts P s u := s.setVat_halts hv (fun _ => rfl)
  have hstop : (u.vat vk).stop.isSome = true := by
    rw [State.vat_setVat, if_pos rfl]
    rfl
  have ht : State.Halts P u (s.stopVat vk discard) := by
    unfold State.stopVat
    refine State.Halts.trans ?_ (.foldl (fun k _ u => u.modWarp_halts k _) _)
    split
    · exact u.endVat_halts hv
    · exact .refl u
  exact ⟨hu.trans ht, ht.stop vk hstop⟩

/-- Vats that are told to stop are marked so. -/
theorem State.stopAll_halts {ks : List Nat} (hP : ∀ k ∈ ks, P k) (discard : Bool) (s : State) :
    State.Halts P s (ks.foldl (fun s v => s.stopVat v discard) s) ∧
      ∀ k ∈ ks, ((ks.foldl (fun s v => s.stopVat v discard) s).vat k).stop.isSome = true := by
  induction ks generalizing s with
  | nil => exact ⟨.refl s, nofun⟩
  | cons v vs ih =>
    obtain ⟨h1, h2⟩ := s.stopVat_halts (hP v List.mem_cons_self) discard
    obtain ⟨h3, h4⟩ := ih (fun k hk => hP k (List.mem_cons_of_mem _ hk)) (s.stopVat v discard)
    refine ⟨h1.trans h3, fun k hk => ?_⟩
    rcases List.mem_cons.1 hk with rfl | hk
    · exact h3.stop k h2
    · exact h4 k hk

end

/-! ### FAILLOT -/

theorem State.noteFirst_isSome (s : State) (lot : Nat) (fr : FaultRecord) : ((s.noteFirst lot fr).lot lot).first.isSome = true := by
  unfold State.noteFirst
  rw [State.lot_modLot, if_pos rfl]
  cases h : (s.lot lot).first with
  | none => rfl
  | some f =>
    dsimp only
    split
    · rfl
    · rw [h]; rfl

theorem State.noteFirst_lot (s : State) (lot : Nat) (fr : FaultRecord) (k : Nat) :
    ((s.noteFirst lot fr).lot k).status = (s.lot k).status ∧ ((s.noteFirst lot fr).lot k).ctx = (s.lot k).ctx := by
  unfold State.noteFirst
  rw [State.lot_modLot]
  split
  · next e =>
    subst e
    split
    · exact ⟨rfl, rfl⟩
    · split <;> exact ⟨rfl, rfl⟩
  · exact ⟨rfl, rfl⟩

/-- A lot that FAILLOT ends. -/
def Lot.failed (l : Lot) : Lot := { l with
  status := if l.status == 0 || l.status == 2 then 1 else l.status, first := l.first.map (fun f => { f with rung := 2 }) }

/-- A context, its dies' refills stopped no more by a lot that FAILLOT ends. -/
def Context.lotAnswered (lot : Nat) (dies : BitVec 4) (c : Context) : Context := { c with
  refillStopped := c.refillStopped &&& ~~~ dies, services := c.services.filter (fun y => y.lot != lot) }

/-- The dies whose refills stopped by the faults of a lot. -/
def State.lotDies (s : State) (ctx : Nat) (x : Service) : BitVec 4 :=
  (x :: (s.ctx ctx).services.filter (fun y => y.lot == x.lot)).foldl (fun m y => match y.refill with | some d => m ||| dieBit d | none => m) 0

/-- The state in which FAILLOT begins to discard what its lot has left. -/
def State.lotFailed (s : State) (ctx : Nat) (x : Service) : State :=
  let t := (s.noteFirst x.lot x.record).modLot x.lot Lot.failed
  t.modCtx ctx (Context.lotAnswered x.lot (t.lotDies ctx x))

/-- The same once the tasks of the lot are discarded. -/
def State.lotDiscarded (s : State) (ctx : Nat) (x : Service) : State :=
  [0, 1, 2, 3].foldl (fun s d => s.discardTasks x.lot d) (s.lotFailed ctx x)

/-- The vats of a lot stop. -/
def State.stopLot (s : State) (ctx lot : Nat) : State :=
  ((s.vatsOf ctx).filter (fun v => (s.vat v).lot == lot)).foldl (fun s v => s.stopVat v false) s

theorem State.failLot_eq (s : State) (ctx : Nat) (x : Service) : s.failLot ctx x = (s.lotDiscarded ctx x).stopLot ctx x.lot := rfl

theorem State.stopLot_halts (s : State) (ctx lot : Nat) : State.Halts (fun k => (s.vat k).lot = lot) s (s.stopLot ctx lot) ∧
    ∀ k v, s.vats.get k = some v → v.lot = lot → (s.lot v.lot).ctx = ctx → v.place ≠ .gone → ((s.stopLot ctx lot).vat k).stop.isSome = true := by
  obtain ⟨h, hstop⟩ := s.stopAll_halts (P := fun k => (s.vat k).lot = lot) (ks := (s.vatsOf ctx).filter (fun v => (s.vat v).lot == lot))
    (fun k hk => eq_of_beq (List.mem_filter.1 hk).2) false
  refine ⟨h, fun k v hv hl hc hp => hstop k (List.mem_filter.2 ⟨State.mem_vatsOf hv hc hp, ?_⟩)⟩
  rw [show s.vat k = v by rw [State.vat, hv]; rfl, hl]
  exact beq_self_eq_true _

theorem State.diesOnly_trans {s t u : State} (h : t = { s with dies := t.dies }) (g : u = { t with dies := u.dies }) :
    u = { s with dies := u.dies } := by
  rw [g, h]

theorem State.diesOnly_foldl {α : Type} {f : State → α → State} (hf : ∀ (s : State) x, f s x = { s with dies := (f s x).dies }) (xs : List α)
    (s : State) : xs.foldl f s = { s with dies := (xs.foldl f s).dies } := by
  induction xs generalizing s with
  | nil => rfl
  | cons x xs ih => exact State.diesOnly_trans (hf s x) (ih _)

/-- What a discard of tasks changes lies in its die. -/
theorem State.discardTasks_only (s : State) (lot die : Nat) : s.discardTasks lot die = { s with dies := (s.discardTasks lot die).dies } := by
  unfold State.discardTasks
  refine State.diesOnly_trans (State.diesOnly_trans (t := s.modDie die _) rfl (State.diesOnly_foldl (fun u e => ?_) _ _)) rfl
  split
  · rfl
  · exact State.diesOnly_trans (t := u.modDie die _) rfl (State.diesOnly_foldl (fun _ _ => rfl) _ _)

theorem State.lotDiscarded_only (s : State) (ctx : Nat) (x : Service) :
    s.lotDiscarded ctx x = { s.lotFailed ctx x with dies := (s.lotDiscarded ctx x).dies } :=
  State.diesOnly_foldl (fun u d => u.discardTasks_only x.lot d) _ _

/-- FAILLOT: the lot is FAULTED with its first fault noted. -/
theorem State.lotFailed_lot (s : State) (ctx : Nat) (x : Service) (h : (s.lot x.lot).status = 0 ∨ (s.lot x.lot).status = 2) :
    ((s.lotFailed ctx x).lot x.lot).status = 1 ∧ ((s.lotFailed ctx x).lot x.lot).first.isSome = true := by
  have hs := (s.noteFirst_lot x.lot x.record x.lot).1
  have hl : (s.lotFailed ctx x).lot x.lot = ((s.noteFirst x.lot x.record).lot x.lot).failed :=
    ((s.noteFirst x.lot x.record).lot_modLot x.lot x.lot _).trans (if_pos rfl)
  rw [hl]
  refine ⟨if_pos ?_, (Option.isSome_map ..).trans (s.noteFirst_isSome x.lot x.record)⟩
  rw [hs]
  simpa using h

theorem State.lotFailed_ctx (s : State) (ctx : Nat) (x : Service) : ∃ dies, (s.lotFailed ctx x).ctx ctx = (s.ctx ctx).lotAnswered x.lot dies :=
  
  ⟨_, (State.ctx_modCtx (s := (s.noteFirst x.lot x.record).modLot x.lot Lot.failed) ctx ctx _).trans (if_pos rfl)⟩

theorem State.lotFailed_lotCtx (s : State) (ctx : Nat) (x : Service) (k : Nat) : ((s.lotFailed ctx x).lot k).ctx = (s.lot k).ctx := by
  refine Eq.trans ?_ (s.noteFirst_lot x.lot x.record k).2
  refine (congrArg Lot.ctx ((s.noteFirst x.lot x.record).lot_modLot k x.lot Lot.failed)).trans ?_
  split
  · next e =>
    subst e
    rfl
  · rfl

/-- FAILLOT ends its lot: its vats stop, no other vat changes. -/
theorem State.failLot_fails (s : State) (ctx : Nat) (x : Service) (h : (s.lot x.lot).status = 0 ∨ (s.lot x.lot).status = 2) :
    ((s.failLot ctx x).lot x.lot).status = 1 ∧ ((s.failLot ctx x).lot x.lot).first.isSome = true ∧
      ((s.failLot ctx x).ctx ctx).faulted = (s.ctx ctx).faulted ∧ (∀ y ∈ ((s.failLot ctx x).ctx ctx).services, y.lot ≠ x.lot) ∧
      (∀ k v, s.vats.get k = some v → v.lot = x.lot → (s.lot v.lot).ctx = ctx → v.place ≠ .gone →
        ((s.failLot ctx x).vat k).stop.isSome = true) ∧
      ∀ k, (s.vat k).lot ≠ x.lot → (s.failLot ctx x).vat k = s.vat k := by
  obtain ⟨t, ht⟩ : ∃ t, s.lotDiscarded ctx x = t := ⟨_, rfl⟩
  have honly := s.lotDiscarded_only ctx x
  rw [ht] at honly
  have hvats : t.vats = s.vats := (congrArg State.vats honly).trans rfl
  have hvat (k : Nat) : t.vat k = s.vat k := congrArg (fun m => (Map.get m k).getD default) hvats
  have hlot (k : Nat) : t.lot k = (s.lotFailed ctx x).lot k := (congrArg (fun u => State.lot u k) honly).trans rfl
  have hctx : t.ctx ctx = (s.lotFailed ctx x).ctx ctx := (congrArg (fun u => State.ctx u ctx) honly).trans rfl
  obtain ⟨hh, hstop⟩ := t.stopLot_halts ctx x.lot
  rw [s.failLot_eq, ht]
  obtain ⟨hstatus, hfirst⟩ := s.lotFailed_lot ctx x h
  obtain ⟨dies, hd⟩ := s.lotFailed_ctx ctx x
  obtain ⟨used, hused⟩ := hh.ctx ctx
  rw [hctx, hd] at hused
  obtain ⟨hl1, hl2, -⟩ := hh.lot x.lot
  rw [hlot] at hl1 hl2
  refine ⟨hl1.trans hstatus, (congrArg Option.isSome hl2).trans hfirst, (congrArg Context.faulted hused).trans rfl, fun y hy => ?_, fun k v hv hvl hc hp => ?_,
    fun k hk => ?_⟩
  · rw [congrArg Context.services hused] at hy
    exact bne_iff_ne.1 (List.mem_filter.1 hy).2
  · refine hstop k v (by rw [hvats]; exact hv) hvl ?_ hp
    rw [hlot, s.lotFailed_lotCtx, hc]
  · refine (hh.vat k ?_).trans (hvat k)
    rwa [hvat]

/-! ### FAILCTX -/

/-- Queues that a fault of their context stops have ERR set. -/
theorem stopQueues_stops (js : List Nat) (m : Map Queue) {i : Nat} (h : i ∈ js ∨ (m.get i).err = true ∧ (m.get i).en = false) :
    ((js.foldl (fun q i => q.modify i (fun d => { d with err := true, en := false })) m).get i).err = true ∧
      ((js.foldl (fun q i => q.modify i (fun d => { d with err := true, en := false })) m).get i).en = false := by
  induction js generalizing m with
  | nil => exact h.resolve_left List.not_mem_nil
  | cons j js ih =>
    refine ih _ ?_
    rw [Map.get_modify]
    by_cases e : i = j
    · rw [if_pos e]
      exact .inr ⟨rfl, rfl⟩
    · rw [if_neg e]
      exact h.imp_left (fun h => (List.mem_cons.1 h).resolve_left e)

/-- Failing a context's lots touches no more than lots. -/
theorem State.failLots_only (s : State) (ctx : Nat) (fr : FaultRecord) (ends : LotPhase → Bool) :
    s.failLots ctx fr ends = { s with lots := (s.failLots ctx fr ends).lots } ∧ ∀ k, ((s.failLots ctx fr ends).lot k).ctx = (s.lot k).ctx := by
  unfold State.failLots
  generalize s.lotsOf ctx ends = ls
  induction ls generalizing s with
  | nil => exact ⟨rfl, fun _ => rfl⟩
  | cons l ls ih =>
    rw [List.foldl_cons]
    obtain ⟨h1, h2⟩ := ih ((s.noteFirst l fr).modLot l (fun l => { l with
      phase := .running, status := if l.status == 0 || l.status == 2 then 1 else l.status,
      first := l.first.map (fun f => { f with rung := fr.rung }) }))
    refine ⟨by rw [h1]; rfl, fun k => (h2 k).trans (Eq.trans ?_ (s.noteFirst_lot l fr k).2)⟩
    rw [State.lot_modLot]
    split
    · next e => rw [e]
    · rfl

/-- The queues of a context that a terminal fault ends. -/
def stopQueues (m : Map Queue) : Map Queue := (List.range 16).foldl (fun q i => q.modify i (fun d => { d with err := true, en := false })) m

theorem stopQueues_stopped (m : Map Queue) {i : Nat} (h : i < 16) : ((stopQueues m).get i).err = true ∧ ((stopQueues m).get i).en = false := by
  unfold stopQueues
  exact stopQueues_stops _ m (.inl (List.mem_range.2 h))

/-- A context that a terminal fault ends. -/
def Context.terminated (c : Context) : Context := { c with faulted := true, services := [], queues := stopQueues c.queues }

theorem State.terminate_eq (s : State) (ctx : Nat) (fr : FaultRecord) : s.terminate ctx fr =
    (State.vatsOf ((s.modCtx ctx Context.terminated).failLots ctx fr (fun p => p == .running || (p == .gated && fr.code == fDieLost))) ctx).foldl
      (fun s v => s.stopVat v false)
      ((s.modCtx ctx Context.terminated).failLots ctx fr (fun p => p == .running || (p == .gated && fr.code == fDieLost))) := rfl

/-- The terminal action: the context is faulted, its queues and vats are stopped, no record is outstanding. -/
theorem State.terminate_stopped (s : State) (ctx : Nat) (fr : FaultRecord) :
    (s.terminate ctx fr).mem = s.mem ∧ ((s.terminate ctx fr).ctx ctx).faulted = true ∧ ((s.terminate ctx fr).ctx ctx).services = [] ∧
      (∀ i < 16, (((s.terminate ctx fr).ctx ctx).queues.get i).err = true ∧ (((s.terminate ctx fr).ctx ctx).queues.get i).en = false) ∧
      ∀ k v, s.vats.get k = some v → (s.lot v.lot).ctx = ctx → v.place ≠ .gone → ((s.terminate ctx fr).vat k).stop.isSome = true := by
  obtain ⟨t, ht⟩ : ∃ t, s.modCtx ctx Context.terminated = t := ⟨_, rfl⟩
  have htc : t.ctx ctx = (s.ctx ctx).terminated := by
    rw [← ht, State.ctx_modCtx, if_pos rfl]
  have htv : t.vats = s.vats := by
    rw [← ht]
    rfl
  have htl (k : Nat) : t.lot k = s.lot k := by
    rw [← ht]
    rfl
  have htm : t.mem = s.mem := by
    rw [← ht]
    rfl
  obtain ⟨u, hu⟩ : ∃ u, t.failLots ctx fr (fun p => p == .running || (p == .gated && fr.code == fDieLost)) = u := ⟨_, rfl⟩
  obtain ⟨honly, hlot⟩ := t.failLots_only ctx fr (fun p => p == .running || (p == .gated && fr.code == fDieLost))
  rw [hu] at honly
  rw [hu] at hlot
  rw [s.terminate_eq, ht, hu]
  obtain ⟨hh, hstop⟩ := u.stopAll_halts (P := fun _ => True) (ks := u.vatsOf ctx) (fun _ _ => trivial) false
  obtain ⟨used, hused⟩ := hh.ctx ctx
  rw [show u.ctx ctx = t.ctx ctx from (congrArg (fun u => State.ctx u ctx) honly).trans rfl, htc] at hused
  refine ⟨(hh.mem.trans (congrArg State.mem honly)).trans htm, (congrArg Context.faulted hused).trans rfl, (congrArg Context.services hused).trans rfl, fun i hi => ?_,
    fun k v hv hc hp => hstop k (State.mem_vatsOf (v := v) ?_ ((hlot _).trans ?_) hp)⟩
  · have hq := congrArg Context.queues hused
    dsimp only [Context.terminated] at hq
    rw [hq]
    exact stopQueues_stopped _ hi
  · rw [congrArg State.vats honly]
    exact htv ▸ hv
  · rw [htl, hc]

/-! ### The answers -/

/-- The state in which an answer takes effect: its record is outstanding no more. -/
def State.answered (s : State) (ctx : Nat) (seq : BitVec 16) : State :=
  s.modCtx ctx (fun c => { c with services := c.services.filter (fun x => x.seq != seq) })

theorem State.answered_ctx (s : State) (ctx : Nat) (seq : BitVec 16) :
    (s.answered ctx seq).ctx ctx = { s.ctx ctx with services := (s.ctx ctx).services.filter (fun x => x.seq != seq) } :=
  (s.ctx_modCtx _ _ _).trans (if_pos rfl)

/-- Answers reach a context that stands, neither faulted nor being reset. -/
def State.Answerable (s : State) (ctx : Nat) : Prop :=
  s.hub.devst = .ready ∧ (s.ctxs.get ctx).isSome = true ∧ (s.ctx ctx).faulted = false ∧ (s.ctx ctx).resetting = false

theorem State.answer_idle {s : State} {ctx : Nat} {seq : BitVec 16} (h : ¬ s.Answerable ctx ∨ ∀ x ∈ (s.ctx ctx).services, x.seq ≠ seq)
    (eff : State → Service → State) : s.answer ctx seq eff = s := by
  unfold State.answer
  dsimp only
  split
  · rfl
  · next hn =>
    have ha : s.Answerable ctx := by
      simp only [State.ready, Bool.or_eq_true, Bool.not_eq_true', beq_eq_false_iff_ne, Option.isNone_iff_eq_none, not_or, ne_eq,
        Decidable.not_not, Bool.not_eq_true] at hn
      exact ⟨hn.1.1.1, Option.isSome_iff_ne_none.2 hn.1.1.2, hn.1.2, hn.2⟩
    rw [List.find?_eq_none.2 (fun x hx => by simpa using h.resolve_left (not_not_intro ha) x hx)]

theorem State.answer_takes {s : State} {ctx : Nat} {seq : BitVec 16} {x : Service} (h : s.Answerable ctx)
    (hx : (s.ctx ctx).services.find? (fun x => x.seq == seq) = some x) (eff : State → Service → State) :
    s.answer ctx seq eff = eff (s.answered ctx seq) x := by
  obtain ⟨hd, hc, hf, hr⟩ := h
  unfold State.answer
  dsimp only
  rw [if_neg (by simp [State.ready, hd, hf, hr, Option.isSome_iff_ne_none.1 hc]), hx]
  rfl

/-- No outstanding record of a vat is one of those that its answers wait for. -/
theorem not_any_waits (xs : List Service) (vat : Nat) :
    (!xs.any (fun y => y.refill.isNone && y.vat == vat)) = xs.all (fun y => y.refill.isSome || y.vat != vat) := by
  rw [List.not_any_eq_all_not]
  refine congrArg (xs.all ·) (funext fun y => ?_)
  cases y.refill <;> rfl

/-- The memory, the vats and the warps are as they were before the answer. -/
theorem State.resumeRecord_refill {s : State} {ctx : Nat} {seq : BitVec 16} {x : Service} {d : Nat} (hd : x.refill = some d) :
    let t := (s.answered ctx seq).resumeRecord ctx x
    t.mem = s.mem ∧ t.vats = s.vats ∧ t.warps = s.warps ∧ t.ctx ctx = { s.ctx ctx with
      services := (s.ctx ctx).services.filter (fun x => x.seq != seq), refillStopped := (s.ctx ctx).refillStopped &&& ~~~ dieBit d } := by
  unfold State.resumeRecord
  rw [hd]
  refine ⟨rfl, rfl, rfl, ?_⟩
  rw [State.ctx_modCtx, if_pos rfl, s.answered_ctx]

/-- RESUME of a warp that an eviction has taken: it replays once it runs again. -/
theorem State.resumeRecord_away {s : State} {ctx : Nat} {seq : BitVec 16} {x : Service} (hr : x.refill = none)
    (hp : (s.vat x.vat).place ≠ .gone) (hs : (s.vat x.vat).stop = none)
    (hw : (s.warp x.warp).serviceWait = false ∨ (s.warp x.warp).onCore = false) :
    let t := (s.answered ctx seq).resumeRecord ctx x
    t.mem = s.mem ∧ (∀ k, t.warp k = if k = x.warp then { s.warp k with serviceWait := false } else s.warp k) ∧
      (t.ctx ctx).services = (s.ctx ctx).services.filter (fun x => x.seq != seq) ∧ t.vat x.vat = { s.vat x.vat with
        resumed := ((s.ctx ctx).services.filter (fun x => x.seq != seq)).all (fun y => y.refill.isSome || y.vat != x.vat) } := by
  have hc := congrArg Context.services (s.answered_ctx ctx seq)
  have hoff : ((s.warp x.warp).serviceWait && (s.warp x.warp).onCore) = false := by
    rcases hw with h | h <;> simp [h]
  have ht : (s.answered ctx seq).resumeRecord ctx x =
      ((s.answered ctx seq).modWarp x.warp (fun w => { w with serviceWait := false })).modVat x.vat (fun v => { v with
        resumed := !((s.answered ctx seq).ctx ctx).services.any (fun y => y.refill.isNone && y.vat == x.vat) }) := by
    unfold State.resumeRecord
    rw [hr]
    dsimp only
    rw [show (s.answered ctx seq).vat x.vat = s.vat x.vat from rfl, show (s.answered ctx seq).warp x.warp = s.warp x.warp from rfl,
      if_neg (by simp [hp, hs]), hoff]
    rfl
  dsimp only
  rw [ht]
  refine ⟨rfl, fun k => ?_, hc, ?_⟩
  · refine ((s.answered ctx seq).warp_modWarp k x.warp (fun w => { w with serviceWait := false })).trans ?_
    split
    · next e =>
      subst e
      rfl
    · rfl
  · rw [State.vat_modVat, if_pos rfl, hc, not_any_waits]
    rfl

/-- RESUME of a warp that waits on its core: it replays. -/
theorem State.resumeRecord_replay {s : State} {ctx : Nat} {seq : BitVec 16} {x : Service} {fr : FaultRecord} (hr : x.refill = none)
    (hp : (s.vat x.vat).place ≠ .gone) (hs : (s.vat x.vat).stop = none) (hw : (s.warp x.warp).serviceWait = true)
    (ho : (s.warp x.warp).onCore = true) (hf : (s.warp x.warp).swapFault = some fr) :
    let t := (s.answered ctx seq).resumeRecord ctx x
    t.mem = s.mem ∧ (t.ctx ctx).services = (s.ctx ctx).services.filter (fun x => x.seq != seq) ∧ (t.warp x.warp).serviceWait = false ∧
      (t.warp x.warp).swapFault = none ∧ ∀ r, (t.warp x.warp).final r = (s.warp x.warp).final r := by
  have ht : (s.answered ctx seq).resumeRecord ctx x = (s.answered ctx seq).replaySwapped x.warp := by
    unfold State.resumeRecord
    rw [hr]
    dsimp only
    rw [show (s.answered ctx seq).vat x.vat = s.vat x.vat from rfl, show (s.answered ctx seq).warp x.warp = s.warp x.warp from rfl,
      if_neg (by simp [hp, hs]), hw, ho]
    rfl
  obtain ⟨hm, hc, h1, h2, h3⟩ := (s.answered ctx seq).replaySwapped_keeps x.warp (fr := fr) hf
  dsimp only
  rw [ht]
  refine ⟨hm, ?_, h1, h2, h3⟩
  unfold State.ctx at *
  rw [hc]
  exact congrArg Context.services (s.answered_ctx ctx seq)

/-- FAILCTX: the record that is answered stands as the terminal one. -/
theorem State.failCtx_fails (s : State) (ctx : Nat) (x : Service) :
    let t := s.failCtx ctx x
    t.mem = s.mem ∧ (t.ctx ctx).faulted = true ∧ (t.ctx ctx).terminal = some x.record ∧ (t.ctx ctx).services = [] ∧
      (∀ i < 16, ((t.ctx ctx).queues.get i).err = true ∧ ((t.ctx ctx).queues.get i).en = false) ∧
      ∀ k v, s.vats.get k = some v → (s.lot v.lot).ctx = ctx → v.place ≠ .gone → (t.vat k).stop.isSome = true := by
  obtain ⟨hm, hf, hs, hq, hv⟩ := s.terminate_stopped ctx x.record
  have hc : (s.failCtx ctx x).ctx ctx = { (s.terminate ctx x.record).ctx ctx with terminal := some x.record } :=
    ((s.terminate ctx x.record).ctx_modCtx ctx ctx _).trans (if_pos rfl)
  dsimp only
  rw [hc]
  exact ⟨hm, hf, rfl, hs, hq, hv⟩

/-- Settles O51: each answer in its cases, with the records of the vat that are still outstanding counted as R175 has it. -/
theorem faultAnswers : Obligations.FaultAnswers := by
  unfold Obligations.FaultAnswers
  intro s ctx seq
  dsimp only
  simp only [exec_fsvcResume, exec_fsvcFaillot, exec_fsvcFailctx, execFsvcResume, execFsvcFaillot, execFsvcFailctx]
  refine ⟨fun h => ⟨congrArg _ (State.answer_idle h _), congrArg _ (State.answer_idle h _), congrArg _ (State.answer_idle h _)⟩,
    fun x hmay hx => ?_⟩
  simp only [State.answer_takes (seq := seq) hmay hx]
  refine ⟨fun d hd => ⟨_, rfl, State.resumeRecord_refill hd⟩, fun hr hp hs => ⟨fun hw => ⟨_, rfl, State.resumeRecord_away hr hp hs hw⟩,
    fun fr hw ho hf => ⟨_, rfl, State.resumeRecord_replay hr hp hs hw ho hf⟩⟩, fun hl _ => ⟨_, rfl, ?_⟩, fun _ => ⟨_, rfl, State.failCtx_fails _ ctx x⟩⟩
  obtain ⟨h1, h2, h3, h4, h5, h6⟩ := (s.answered ctx seq).failLot_fails ctx x hl
  exact ⟨h1, h2, h3.trans ((congrArg Context.faulted (s.answered_ctx ctx seq)).trans hmay.2.2.1), h4, h5, h6⟩

end Sys2Proof.Machine
end

section
/-! PROOFS. Timeouts (spec/07 R164, R182, R395, R396 and the parks that name them). -/

namespace Sys2Proof.Machine

/-! ### The vat trap -/

/-- A fault of code `c` finds the vat rung open to it, in warp `k`. -/
def State.MayTrap (s : State) (k c : Nat) : Prop :=
  let w := s.warp k
  let v := s.vat w.vat
  (s.lot v.lot).code.vvec ≠ 0 ∧ v.vvmask.getLsbD c = true ∧ v.trapWarp = none ∧ w.saveRestore = false ∧ w.masks.lmask ≠ 0 ∧ v.stop = none ∧
    (w.trap.tmode && w.trap.frec.rung == 1) = false ∧ w.onCore = true

/-- From `s` to `t` warp `k` has entered the vat trap with the fault `fr`: its live lanes stand at the vector, and keep their registers. -/
def State.VatTraps (s t : State) (k : Nat) (fr : FaultRecord) : Prop :=
  let w := s.warp k
  (t.vat w.vat).trapWarp = some k ∧ (t.warp k).trap.tmode = true ∧ (t.warp k).trap.frec = fr ∧ (t.warp k).hold = .free ∧
    (∀ l ∈ lanesOf w.masks.lmask, (t.warp k).tlpc.get l = BitVec.ofNat 32 (s.lot (s.vat w.vat).lot).code.vvec) ∧
    (t.warp k).lstate = w.lstate ∧ (∀ r, (t.warp k).final r = w.final r) ∧ t.mem = s.mem

/-- What the vat rung asks of a warp is the same. -/
structure Warp.SameAtRung (w x : Warp) : Prop where
  vat : x.vat = w.vat
  masks : x.masks = w.masks
  lstate : x.lstate = w.lstate
  final : ∀ r, x.final r = w.final r
  saveRestore : x.saveRestore = w.saveRestore
  onCore : x.onCore = w.onCore

theorem Warp.SameAtRung.trans {w x y : Warp} (h : w.SameAtRung x) (g : x.SameAtRung y) : w.SameAtRung y :=
  ⟨g.vat.trans h.vat, g.masks.trans h.masks, g.lstate.trans h.lstate, fun r => (g.final r).trans (h.final r), g.saveRestore.trans h.saveRestore,
    g.onCore.trans h.onCore⟩

theorem Warp.restartWait_sameAtRung (w : Warp) (now : Nat) : w.SameAtRung (w.restartWait now) := ⟨rfl, rfl, rfl, Warp.final_congr rfl rfl, rfl, rfl⟩

theorem Warp.unTrap_sameAtRung (w : Warp) : w.SameAtRung w.unTrap := ⟨rfl, rfl, rfl, fun _ => rfl, rfl, rfl⟩

theorem Warp.enterTrap_sameAtRung (w : Warp) (rung : BitVec 3) (fr : FaultRecord) (resume : Resume) (issue : Lanes) (vec : Word) (now : Nat) :
    w.SameAtRung (w.enterTrap rung fr resume issue vec now) := ⟨rfl, rfl, rfl, fun _ => rfl, rfl, rfl⟩

theorem Warp.enterTrap_vat_tlpc (w : Warp) (fr : FaultRecord) (resume : Resume) {issue : Lanes} (vec : Word) (now : Nat) {l : Nat}
    (hl : l ∈ lanesOf issue) : (w.enterTrap 1 fr resume issue vec now).tlpc.get l = vec :=
  (get_setPcs _ _ _ _).trans (if_pos hl)

/-- What the rung's summary of a lot leaves: its code. -/
theorem State.noteFirst_code (s : State) (lot : Nat) (fr : FaultRecord) (k : Nat) : (s.noteFirst lot fr).code k = s.code k := by
  have hl (j : Nat) : ((s.noteFirst lot fr).lot j).code = (s.lot j).code := by
    unfold State.noteFirst
    rw [State.lot_modLot]
    split
    · next e =>
      subst e
      split
      · rfl
      · split <;> rfl
    · rfl
  exact hl _

/-- A warp stands at its boundary, or waits before an instruction: a fault that it did not raise can be taken. -/
def Warp.stands (x : Warp) : Bool := x.phase != .word || (match x.hold with | .parked _ => true | _ => false)

/-- A fault that a warp takes at its clause's boundary. -/
def Warp.findsLater (w : Warp) (fr : FaultRecord) : Warp := { w with async := w.async ++ [fr] }

/-- A vat that a warp of it holds in vat-trap mode. -/
def Vat.trapsIn (v : Vat) (k : Nat) : Vat := { v with trapWarp := some k }

/-- A fault finds the vat rung open: its warp enters the vat trap, or first goes on to its clause's boundary. -/
theorem State.offerVat_open (s : State) (k : Nat) (fr : FaultRecord) (resume : Resume) {c : Nat}
    (hc : takes (s.vat (s.warp k).vat).vvmask fr.code = (s.vat (s.warp k).vat).vvmask.getLsbD c) (hm : s.MayTrap k c) :
    s.offerVat k fr resume =
      let u := s.noteFirst (s.vat (s.warp k).vat).lot { fr with rung := 1 }
      if resume = .boundary ∧ !(s.warp k).stands then u.modWarp k (·.findsLater { fr with rung := 1 })
      else (u.modVat (s.warp k).vat (·.trapsIn k)).modWarp k (fun x => x.enterTrap 1 { fr with rung := 1 }
        (if resume = .boundary ∧ (s.warp k).phase = .word then .again else resume) (s.warp k).masks.lmask (BitVec.ofNat 32 (s.code k).vvec) s.gtime) := by
  obtain ⟨hvec, htake, htrap, hsave, hlive, -, hrung, -⟩ := hm
  have hvec' : ((s.code k).vvec == 0) = false := beq_eq_false_iff_ne.2 hvec
  unfold State.offerVat
  dsimp only
  rw [State.noteFirst_code, hc, htake, hsave, hrung, htrap, hvec']
  simp only [Bool.or_self, Bool.not_true, Bool.false_eq_true, ↓reduceIte, bne_iff_ne, ne_eq, hlive, not_false_eq_true]
  rfl

/-- The rung is as open to a warp that waits or stands anew. -/
theorem State.MayTrap.congr {s u : State} {k c : Nat} (hm : s.MayTrap k c) (hu : u = s.setWarp k (u.warp k))
    (hw : (s.warp k).SameAtRung (u.warp k)) (hr : ((u.warp k).trap.tmode && (u.warp k).trap.frec.rung == 1) = false) : u.MayTrap k c := by
  have hv : u.vat (u.warp k).vat = s.vat (s.warp k).vat := by
    rw [hw.vat]
    exact (congrArg (fun t => State.vat t (s.warp k).vat) hu).trans rfl
  have hl (j : Nat) : u.lot j = s.lot j := (congrArg (fun t => State.lot t j) hu).trans rfl
  obtain ⟨hvec, htake, htrap, hsave, hlive, hstop, -, hcore⟩ := hm
  unfold State.MayTrap
  dsimp only
  rw [hv, hl, hw.masks, hw.saveRestore, hw.onCore]
  exact ⟨hvec, htake, htrap, hsave, hlive, hstop, hr, hcore⟩

/-- What the rung makes of a fault that it takes at once. -/
theorem State.offerVat_traps {s u : State} {k c : Nat} {fr : FaultRecord} {resume : Resume} (hm : s.MayTrap k c)
    (hc : ∀ mask, takes mask fr.code = mask.getLsbD c)
    (hu : u = s.setWarp k (u.warp k)) (hw : (s.warp k).SameAtRung (u.warp k)) (hr : ((u.warp k).trap.tmode && (u.warp k).trap.frec.rung == 1) = false)
    (hstand : resume ≠ .boundary ∨ (u.warp k).stands = true) :
    s.VatTraps (u.offerVat k fr resume) k { fr with rung := 1 } := by
  have hv : u.vat (u.warp k).vat = s.vat (s.warp k).vat := by
    rw [hw.vat]
    exact (congrArg (fun t => State.vat t (s.warp k).vat) hu).trans rfl
  have hcode : u.code k = s.code k := by
    unfold State.code
    rw [hv]
    exact congrArg Lot.code ((congrArg (fun t => State.lot t (s.vat (s.warp k).vat).lot) hu).trans rfl)
  rw [u.offerVat_open k fr resume (hc _) (hm.congr hu hw hr)]
  dsimp only
  rw [if_neg (by simpa [Decidable.or_iff_not_imp_left] using hstand)]
  unfold State.VatTraps
  dsimp only
  generalize (if resume = .boundary ∧ (u.warp k).phase = .word then .again else resume : Resume) = how
  rw [State.warp_modWarp, if_pos rfl, hcode, hw.masks]
  have he := (u.warp k).enterTrap_sameAtRung 1 { fr with rung := 1 } how (s.warp k).masks.lmask (BitVec.ofNat 32 (s.code k).vvec) u.gtime
  refine ⟨?_, rfl, rfl, rfl, fun l hl => Warp.enterTrap_vat_tlpc _ _ _ _ _ hl, he.lstate.trans hw.lstate, fun r => (he.final r).trans (hw.final r),
    (congrArg State.mem hu).trans rfl⟩
  rw [hw.vat]
  exact congrArg Vat.trapWarp ((State.vat_modVat _ (s.warp k).vat _ (·.trapsIn k)).trans (if_pos rfl))

/-! ### The lowest-numbered waiting warp -/

/-- Warp `k` is the lowest-numbered of its vat on its core that satisfies a test. -/
def State.First (s : State) (k : Nat) (p : Warp → Bool) : Prop :=
  let vk := (s.warp k).vat
  k ∈ warpKeys vk (s.vat vk) ∧ ∀ j ∈ warpKeys vk (s.vat vk), j < k → (s.warp j).onCore = false ∨ p (s.warp j) = false

theorem warpKeys_sorted (vk : Nat) (v : Vat) : (warpKeys vk v).Pairwise (· < ·) := by
  unfold warpKeys
  rw [List.pairwise_map]
  exact List.pairwise_lt_range.imp (fun h => Nat.add_lt_add_left h _)

theorem find?_of_first {ks : List Nat} {q : Nat → Bool} {k : Nat} (hs : ks.Pairwise (· < ·)) (hk : k ∈ ks) (hq : q k = true)
    (hf : ∀ j ∈ ks, j < k → q j = false) : ks.find? q = some k := by
  induction ks with
  | nil => cases hk
  | cons j js ih =>
    obtain ⟨hj, hjs⟩ := List.pairwise_cons.1 hs
    rcases List.mem_cons.1 hk with rfl | hk
    · exact List.find?_cons_of_pos hq
    · rw [List.find?_cons_of_neg (by rw [hf j List.mem_cons_self (hj k hk)]; decide)]
      exact ih hjs hk (fun i hi => hf i (List.mem_cons_of_mem _ hi))

theorem State.First.lowestWarp {s : State} {k : Nat} {p : Warp → Bool} (h : s.First k p) (hc : (s.warp k).onCore = true) (hp : p (s.warp k) = true) :
    s.lowestWarp (s.warp k).vat (fun x => x.onCore && p x) = some k := by
  obtain ⟨hk, hf⟩ := h
  refine find?_of_first (warpKeys_sorted _ _) hk (Bool.and_eq_true_iff.2 ⟨hc, hp⟩) (fun j hj hlt => ?_)
  exact Bool.and_eq_false_iff.2 (hf j hj hlt)

/-! ### The parks of warps before their instructions (R396) -/

theorem State.modWarp_eq_setWarp (s : State) (k : Nat) (f : Warp → Warp) : s.modWarp k f = s.setWarp k ((s.modWarp k f).warp k) := by
  rw [State.warp_modWarp, if_pos rfl]
  rfl

theorem State.parkTimeout_early (s : State) (k : Nat) (code : BitVec 8) (info : Word) (p : Hold → Bool)
    (h : s.gtime < (s.warp k).holdSince + 200000) : s.parkTimeout k code info p = s := by
  unfold State.parkTimeout
  exact if_neg (by simp; omega)

theorem State.parkTimeout_traps {s : State} {k c : Nat} {code : BitVec 8} (info : Word) {p : Hold → Bool} (hc : ∀ mask, takes mask code = mask.getLsbD c)
    (hp : p (s.warp k).hold = true) (ht : (s.warp k).holdSince + 200000 ≤ s.gtime) (hf : s.First k (fun x => p x.hold)) (hm : s.MayTrap k c) :
    s.VatTraps (s.parkTimeout k code info p) k
      { s.record k { code := code, flm := (s.warp k).clause.enabled, fpc := (s.warp k).clause.pc, info := info } with rung := 1 } := by
  obtain ⟨-, -, -, -, -, hstop, hr, hcore⟩ := id hm
  unfold State.parkTimeout
  dsimp only
  rw [if_pos (by simp [hcore, hp, ht]), hf.lowestWarp hcore hp]
  have hw : (s.modWarp k (·.restartWait s.gtime)).warp k = (s.warp k).restartWait s.gtime := (s.warp_modWarp _ _ _).trans (if_pos rfl)
  dsimp only
  rw [if_neg (by rw [State.vat, State.modWarp_vats, ← State.vat, hstop]; exact Bool.false_ne_true)]
  exact State.offerVat_traps hm hc (s.modWarp_eq_setWarp k _) (by rw [hw]; exact Warp.restartWait_sameAtRung _ _) (by rw [hw]; exact hr)
    (.inl nofun)

/-! ### Barriers (R132) -/

theorem State.barrierTimeout_early (s : State) (k : Nat) (h : ∀ l ∈ lanesOf ((s.warp k).lanesIn waitBar), s.gtime < (s.warp k).barSince.get l + 200000) :
    execBarrierTimeout k s = .next s := by
  unfold execBarrierTimeout
  refine if_neg ?_
  rw [Bool.and_eq_true, List.any_eq_true, not_and, not_exists]
  rintro - l ⟨hl, ht⟩
  have := h l hl
  have := of_decide_eq_true ht
  omega

/-- The fault of a warp whose lanes wait at a barrier. -/
def Warp.barrierRaise (w : Warp) : Raise :=
  { code := fBarrierTimeout, flm := w.lanesIn waitBar, fpc := w.waitPc.get ((lowest (w.lanesIn waitBar)).getD 0) }

/-- The state in which that fault is raised: the warp's waits have begun anew. -/
def State.rewaits (s : State) (k : Nat) : State := s.setWarp k (((s.warp k).restartWait s.gtime).restartWait s.gtime)

theorem State.rewaits_eq (s : State) (k : Nat) : (s.modWarp k (·.restartWait s.gtime)).modWarp k (·.restartWait s.gtime) = s.rewaits k := by
  unfold State.rewaits
  rw [State.modWarp, State.warp_modWarp, if_pos rfl]
  unfold State.modWarp State.setWarp
  rw [Map.set_set]

theorem State.warp_rewaits (s : State) (k : Nat) : (s.rewaits k).warp k = ((s.warp k).restartWait s.gtime).restartWait s.gtime :=
  (s.warp_setWarp _ _ _).trans (if_pos rfl)

theorem State.rewaits_sameAtRung (s : State) (k : Nat) : (s.warp k).SameAtRung ((s.rewaits k).warp k) := by
  rw [s.warp_rewaits]
  exact (Warp.restartWait_sameAtRung _ _).trans (Warp.restartWait_sameAtRung _ _)

theorem State.rewaits_setWarp (s : State) (k : Nat) : s.rewaits k = s.setWarp k ((s.rewaits k).warp k) := by
  rw [s.warp_rewaits]
  rfl

theorem State.record_rewaits (s : State) (k : Nat) (r : Raise) : (s.rewaits k).record k r = s.record k r := by
  unfold State.record
  rw [s.warp_rewaits]
  rfl

/-- A lane's wait at a barrier is over: the fault goes to the vat rung. -/
theorem State.barrierTimeout_offers {s : State} {k c : Nat}
    (ht : ∃ l ∈ lanesOf ((s.warp k).lanesIn waitBar), (s.warp k).barSince.get l + 200000 ≤ s.gtime)
    (hf : s.First k (fun x => x.lanesIn waitBar != 0)) (hm : s.MayTrap k c) :
    execBarrierTimeout k s = .next ((s.rewaits k).offerVat k (s.record k (s.warp k).barrierRaise) .boundary) := by
  obtain ⟨-, -, -, hsave, -, hstop, -, hcore⟩ := hm
  obtain ⟨l, hl, hlate⟩ := ht
  have hwaits : ((s.warp k).lanesIn waitBar != 0) = true := by
    rw [bne_iff_ne]
    intro h
    rw [h] at hl
    exact absurd (mem_lanesOf.1 hl).2 (by simp [inMask])
  have hw := s.rewaits_sameAtRung k
  have hstop' : ((s.rewaits k).vat ((s.rewaits k).warp k).vat).stop = none := by
    rw [hw.vat]
    exact hstop
  unfold execBarrierTimeout
  dsimp only
  rw [if_pos (by rw [hcore, Bool.true_and, List.any_eq_true]; exact ⟨l, hl, decide_eq_true hlate⟩), hf.lowestWarp hcore hwaits]
  dsimp only
  rw [s.rewaits_eq]
  unfold State.raise
  dsimp only
  rw [hstop', hw.saveRestore, hsave, s.record_rewaits]
  rfl

/-- A warp that stands takes its barrier's fault at once. -/
theorem State.barrierTimeout_traps {s : State} {k : Nat} (hm : s.MayTrap k 0x10) (hphase : (s.warp k).phase ≠ .word) :
    s.VatTraps ((s.rewaits k).offerVat k (s.record k (s.warp k).barrierRaise) .boundary) k
      { s.record k (s.warp k).barrierRaise with rung := 1 } := by
  refine State.offerVat_traps hm (fun _ => rfl) (s.rewaits_setWarp k) (s.rewaits_sameAtRung k) ?_ (.inr ?_)
  · rw [s.warp_rewaits]
    exact hm.2.2.2.2.2.2.1
  · rw [s.warp_rewaits]
    exact Bool.or_eq_true_iff.2 (.inl (bne_iff_ne.2 hphase))

/-- A warp within a clause takes it at the clause's boundary. -/
theorem State.barrierTimeout_waits {s : State} {k : Nat} (hm : s.MayTrap k 0x10) (hphase : (s.warp k).phase = .word) (hhold : (s.warp k).hold = .free) :
    let fr := s.record k (s.warp k).barrierRaise
    let t := (s.rewaits k).offerVat k fr .boundary
    (t.warp k).async = (s.warp k).async ++ [{ fr with rung := 1 }] ∧ (t.warp k).clause = (s.warp k).clause ∧ (t.warp k).phase = .word ∧
      t.vats = s.vats ∧ t.mem = s.mem := by
  have hr : (((s.rewaits k).warp k).trap.tmode && ((s.rewaits k).warp k).trap.frec.rung == 1) = false := by
    rw [s.warp_rewaits]
    exact hm.2.2.2.2.2.2.1
  have hstands : ((s.rewaits k).warp k).stands = false := by
    rw [s.warp_rewaits]
    unfold Warp.stands Warp.restartWait
    rw [hphase, hhold]
    rfl
  dsimp only
  rw [State.offerVat_open _ _ _ _ (c := 0x10) rfl (hm.congr (s.rewaits_setWarp k) (s.rewaits_sameAtRung k) hr)]
  dsimp only
  rw [hstands, if_pos ⟨rfl, rfl⟩, State.warp_modWarp, if_pos rfl]
  have hw (lot : Nat) (fr : FaultRecord) : ((s.rewaits k).noteFirst lot fr).warp k = ((s.warp k).restartWait s.gtime).restartWait s.gtime :=
    s.warp_rewaits k
  rw [hw]
  exact ⟨rfl, rfl, hphase, rfl, rfl⟩

/-! ### The rungs' own timeouts (R164) -/

/-- The rung that holds a fault passes it on to the vat rung. -/
theorem State.passTrap_traps {s : State} {k c : Nat} {fr : FaultRecord} (hm : s.MayTrap k c) (hc : ∀ mask, takes mask fr.code = mask.getLsbD c)
    (hr : (s.warp k).trap.frec.rung = 0) : s.VatTraps (s.passTrap k fr) k { fr with rung := 1 } := by
  let u := s.modWarp k Warp.unTrap
  have hw : u.warp k = (s.warp k).unTrap := (s.warp_modWarp _ _ _).trans (if_pos rfl)
  have ht : s.passTrap k fr = u.offerVat k fr (s.warp k).trap.resume := by
    unfold State.passTrap
    dsimp only
    rw [hr]
    rfl
  rw [ht]
  refine State.offerVat_traps hm hc (s.modWarp_eq_setWarp k _) (by rw [hw]; exact (s.warp k).unTrap_sameAtRung) (by rw [hw]; rfl) ?_
  by_cases h : (s.warp k).trap.resume = .boundary
  · refine .inr ?_
    rw [hw]
    have hphase : (s.warp k).unTrap.phase = .boundary := if_pos h
    exact Bool.or_eq_true_iff.2 (.inl (by rw [hphase]; rfl))
  · exact .inl h

/-- A fault as the timeout of its rung passes it on. -/
theorem FaultRecord.timedOut_eq (fr : FaultRecord) :
    let code := if fr.origin = 0 then fr.code else fr.origin
    fr.timedOut = { fr with code := 0x11, cause := 0, replay := false, info := code.setWidth 32, origin := code } := by
  unfold FaultRecord.timedOut
  simp only [beq_iff_eq, fServiceTimeout]

/-- What a rung's timeout is told by: the rung holds the fault of a warp that runs on its core. -/
theorem State.rungTimeout_held {s : State} {k : Nat} (ht : (s.warp k).trap.tmode = true) (hs : (s.warp k).saveRestore = false)
    (hw : (s.warp k).serviceWait = false) (he : (s.warp k).evict = .requested ∨ (s.warp k).evict = .running) :
    execRungServiceTimeout k s =
      if !decide ((s.warp k).trap.offeredAt + rungTimeout (s.warp k).trap.frec.rung ≤ s.gtime) ||
          ((s.warp k).evict == .requested && !(s.warp k).faultPends) then .next s
      else .next (s.passTrap k (s.warp k).trap.frec.timedOut) := by
  unfold execRungServiceTimeout
  dsimp only
  refine if_pos ?_
  rw [ht, hs, hw]
  rcases he with h | h <;> rw [h] <;> rfl

/-- The firmware holds the fault of a warp: past its time the partition is faulted. -/
theorem State.rungTimeout_firmware {s : State} {k : Nat} (ht : (s.warp k).trap.tmode = false) (hf : s.atFirmware k = true) {fr : FaultRecord}
    (hfr : (s.warp k).swapFault = some fr) (hl : (s.warp k).trap.offeredAt + 2000000 ≤ s.gtime) :
    execRungServiceTimeout k s = .next (s.faultPartition (s.partOf k) fr.timedOut) := by
  unfold execRungServiceTimeout
  dsimp only
  rw [ht, hf, hfr, if_neg (by simp), if_pos (by simpa [rungTimeout] using hl)]

/-- Else an access that no route answers is given up, if there is one. -/
theorem State.rungTimeout_access {s : State} {k : Nat} (ht : (s.warp k).trap.tmode = false)
    (hf : s.atFirmware k = false ∨ s.gtime < (s.warp k).trap.offeredAt + 2000000) :
    execRungServiceTimeout k s = match s.overdueOp k with
      | some e => .next (s.giveUpAccess k e.1 e.2)
      | none => .next s := by
  unfold execRungServiceTimeout
  dsimp only
  rw [ht, if_neg (by simp)]
  refine if_neg ?_
  rw [Bool.and_eq_true, decide_eq_true_eq, show rungTimeout 2 = 2000000 from rfl]
  rintro ⟨h1, h2⟩
  rcases hf with h | h
  · exact Bool.false_ne_true (h.symm.trans h1)
  · omega

/-- A fault that reaches a context is there. -/
theorem Context.Reports.faultedOrWaiting {c : Context} {code : BitVec 8} (h : c.Reports code) : c.faulted = true ∨ c.waiting ≠ [] :=
  h.imp_right (fun ⟨_, hm, _⟩ => List.ne_nil_of_mem hm)

theorem State.giveUpAccess_reports {s : State} {k n : Nat} {o : Op} (hs : (s.vat (s.warp k).vat).stop = none)
    (hr : (s.ctx (s.ctxOf k)).resetting = false) : ((s.giveUpAccess k n o).ctx (s.ctxOf k)).Reports fServiceTimeout := by
  obtain ⟨u, hu⟩ : ∃ u, s.finish n (fun o => { o with work := .done, performed := true, owed := 0 }) = u := ⟨_, rfl⟩
  have honly := s.finish_only n (fun o => { o with work := .done, performed := true, owed := 0 })
  rw [hu] at honly
  have hs' : (u.vat (u.warp k).vat).stop = none := (congrArg (fun t => (State.vat t (t.warp k).vat).stop) honly).trans hs
  have hk : u.ctxOf k = s.ctxOf k := (congrArg (fun t => State.ctxOf t k) honly).trans rfl
  have hr' : (u.ctx (u.ctxOf k)).resetting = false := (congrArg (fun t => (State.ctx t (t.ctxOf k)).resetting) honly).trans hr
  unfold State.giveUpAccess
  rw [hu, ← hk]
  dsimp only
  rw [hs']
  exact (u.offerContext_reports k _ .boundary rfl hr').2

/-! ### Evictions (R181, R182) and stops (R395) -/

theorem Warp.toDrain_keeps {w : Warp} (h : w.phase ≠ .word) :
    w.toDrain.evict = .drain ∧ w.toDrain.trap = w.trap ∧ w.toDrain.masks = w.masks ∧ ∀ r, w.toDrain.final r = w.final r := by
  unfold Warp.toDrain
  dsimp only
  rw [if_neg (by simpa using h)]
  exact ⟨rfl, rfl, rfl, fun _ => rfl⟩

theorem State.evictForce_idle {s : State} {k : Nat} (h : (s.warp k).evict ≠ .requested ∨ (s.warp k).trap.tmode = false ∨ (s.warp k).faultPends = true ∨
    (s.warp k).phase = .word ∨ s.gtime < (s.warp k).trap.offeredAt + rungTimeout (s.warp k).trap.frec.rung) : execEvictForce k s = .next s := by
  unfold execEvictForce
  refine if_neg ?_
  simp only [Bool.and_eq_true, beq_iff_eq, Bool.not_eq_true', bne_iff_ne, decide_eq_true_eq, not_and_or]
  rcases h with h | h | h | h | h
  · simp [h]
  · simp [h]
  · simp [h]
  · simp [h]
  · exact .inr (by omega)

theorem State.evictForce_drains {s : State} {k : Nat} (hs : (s.warp k).saveRestore = false) (he : (s.warp k).evict = .requested)
    (ht : (s.warp k).trap.tmode = true) (hp : (s.warp k).faultPends = false) (hw : (s.warp k).phase ≠ .word)
    (hl : (s.warp k).trap.offeredAt + rungTimeout (s.warp k).trap.frec.rung ≤ s.gtime) : execEvictForce k s = .next (s.modWarp k Warp.toDrain) := by
  unfold execEvictForce
  exact if_pos (by simp [hs, he, ht, hp, hw, hl])

theorem State.saveRestoreTimeout_early {s : State} {k : Nat} (h : s.gtime < (s.warp k).modeAt + 2000000) : execSaveRestoreTimeout k s = .next s := by
  unfold execSaveRestoreTimeout
  exact if_neg (by simp; omega)

/-- 2 ms of SAVE or RESTORE fault the context, at once or when its fault queue has room. -/
theorem State.saveRestoreTimeout_reports {s : State} {k : Nat}
    (hm : (s.warp k).evict = .save ∨ ((s.warp k).evict = .restore ∧ (s.warp k).trap.rmode = true)) (hw : (s.warp k).faultWait = false)
    (hl : (s.warp k).modeAt + 2000000 ≤ s.gtime) (hs : (s.vat (s.warp k).vat).stop = none) (hr : (s.ctx (s.ctxOf k)).resetting = false) :
    ∃ t, execSaveRestoreTimeout k s = .next t ∧ (t.ctx (s.ctxOf k)).Reports fServiceTimeout := by
  have hsaving : (s.warp k).saving = true := by
    unfold Warp.saving
    rcases hm with h | ⟨h, h'⟩
    · rw [h]
      rfl
    · rw [h, h']
      rfl
  unfold execSaveRestoreTimeout
  dsimp only
  rw [if_pos (by simp [hsaving, hw, hl, hs])]
  refine ⟨_, rfl, ?_⟩
  rw [← s.ctxOf_noteFirst (s.vat (s.warp k).vat).lot _ k]
  refine ((State.faultWarp_after _ k _ .boundary).ctx _).reports _ (State.faultContext_reports _ _ _ ?_)
  exact (((s.noteFirst_onward _ _).ctx _).resetting).trans ((congrArg (fun c => (s.ctx c).resetting) (s.ctxOf_noteFirst _ _ k)).trans hr)

/-- A park's timeout passes by before its time, and traps in the lowest-numbered warp in it when its time has come. -/
theorem State.parkTimeout_parks {s : State} {k : Nat} {i : Instr} {p : Hold → Bool} {code : BitVec 8} {info : Word}
    (hc : ∀ mask, takes mask code = mask.getLsbD code.toNat) (hp : p (s.warp k).hold = true) (hi : exec i s = .next (s.parkTimeout k code info p)) :
    (s.gtime < (s.warp k).holdSince + 200000 → exec i s = .next s) ∧
      ((s.warp k).holdSince + 200000 ≤ s.gtime → s.First k (fun x => p x.hold) → s.MayTrap k code.toNat → ∃ t, exec i s = .next t ∧
        s.VatTraps t k
          { s.record k { code := code, flm := (s.warp k).clause.enabled, fpc := (s.warp k).clause.pc, info := info } with rung := 1 }) :=
  ⟨fun h => hi.trans (congrArg _ (s.parkTimeout_early k code info p h)), fun ht hf hm => ⟨_, hi, State.parkTimeout_traps info hc hp ht hf hm⟩⟩

/-- Settles O44: every timeout by the case it meets; those that go to the vat rung by one lemma about the vat trap. -/
theorem timeouts : Obligations.Timeouts := by
  unfold Obligations.Timeouts
  intro s k
  dsimp only
  refine ⟨fun ht hs hw => ⟨?_, ?_⟩, fun ht hf hw hp he he' => ⟨?_, ?_⟩, ?_, ?_, ?_, ?_, ?_, ?_, ?_, ?_, ?_, ?_, ?_, ?_⟩
  · intro h he
    rw [exec_rungServiceTimeout, State.rungTimeout_held ht hs hw he]
    refine if_pos ?_
    rcases h with ⟨h1, h2⟩ | h
    · simp [h1, h2]
    · simp
      omega
  · intro he hr hl hm
    have h := State.passTrap_traps (fr := (s.warp k).trap.frec.timedOut) hm (fun _ => rfl) hr
    rw [FaultRecord.timedOut_eq] at h
    refine ⟨_, ?_, h⟩
    rw [exec_rungServiceTimeout, State.rungTimeout_held ht hs hw (.inr he), ← FaultRecord.timedOut_eq]
    exact if_neg (by simp [hr, rungTimeout, hl, he])
  · intro hl ho
    rw [exec_rungServiceTimeout, State.rungTimeout_access ht (.inr hl), ho]
  · intro hl
    obtain ⟨fr, hfr⟩ := Option.isSome_iff_exists.1 hf
    have ha : s.atFirmware k = true := by
      unfold State.atFirmware
      simp [hf, hw, hp, he, he']
    exact ⟨_, (exec_rungServiceTimeout s).trans (State.rungTimeout_firmware ht ha hfr hl),
      fun c x hx hpart hr => s.faultPartition_faulted _ _ hx hpart hr⟩
  · intro ht hf hs hr e ho
    have ha : s.atFirmware k = false := by
      unfold State.atFirmware
      simp [hf]
    refine ⟨_, (exec_rungServiceTimeout s).trans ((State.rungTimeout_access ht (.inl ha)).trans (by rw [ho])),
      (State.giveUpAccess_reports hs hr).faultedOrWaiting⟩
  · exact s.barrierTimeout_early k
  · intro ht hf hm
    refine ⟨fun hphase => ⟨_, State.barrierTimeout_offers ht hf hm, State.barrierTimeout_traps hm hphase⟩, fun hphase hhold => ?_⟩
    exact ⟨_, State.barrierTimeout_offers ht hf hm, State.barrierTimeout_waits hm hphase hhold⟩
  · exact fun hp => State.parkTimeout_parks (code := fBarrierTimeout) (fun _ => rfl) hp (exec_stageParkTimeout s)
  · refine fun r hp => State.parkTimeout_parks (code := fBarrierTimeout) (info := BitVec.ofNat 32 r) (p := (· == .parked (.slot r)))
      (fun _ => rfl) hp ?_
    rw [exec_slotParkTimeout, execSlotParkTimeout, eq_of_beq hp]
  · exact fun hp => State.parkTimeout_parks (code := fServiceTimeout) (fun _ => rfl) hp (exec_presenceTimeout s)
  · refine fun e hp => State.parkTimeout_parks (code := fServiceTimeout) (info := BitVec.ofNat 32 e) (p := (· == .parked (.secfg e)))
      (fun _ => rfl) hp ?_
    rw [exec_secfgParkTimeout, execSecfgParkTimeout, eq_of_beq hp]
  · refine fun m hp => State.parkTimeout_parks (code := fServiceTimeout) (info := 0) (p := (· == .parked (.acqa m))) (fun _ => rfl) hp ?_
    rw [exec_acqaWaitTimeout, execAcqaWaitTimeout, eq_of_beq hp]
  · intro hs
    rw [exec_vatStopForce, execVatStopForce, hs]
  · intro t0 hs
    rw [exec_vatStopForce, execVatStopForce, hs]
    exact ⟨fun h => if_neg (by omega), fun h => if_pos h⟩
  · intro hs
    refine ⟨State.evictForce_idle, fun he ht hp hw hl => ⟨_, State.evictForce_drains hs he ht hp hw hl, s.modWarp_eq_setWarp k _, ?_⟩⟩
    rw [State.warp_modWarp, if_pos rfl]
    exact Warp.toDrain_keeps hw
  · intro hm hw
    refine ⟨State.saveRestoreTimeout_early, fun hl hs hr => ?_⟩
    obtain ⟨t, ht, h⟩ := State.saveRestoreTimeout_reports hm hw hl hs hr
    exact ⟨t, ht, h.faultedOrWaiting⟩

end Sys2Proof.Machine
end

section
/-! PROOFS. The warp control block (spec/07 R179, R184): a block that is loaded brings back the warp that it was made of. -/

namespace Sys2Proof.Machine

/-! ### The parts of a block -/

/-- The words of a block's head. -/
def Warp.headWords (w : Warp) : List Word :=
  [w.blockWord0, w.vwb.setWidth 32 ||| w.repcOut.setWidth 32 <<< 8,
   w.masks.amask, w.masks.lmask, w.masks.ham1, w.masks.ham2, w.masks.wset &&& w.masks.lmask, w.masks.arrl, w.masks.sggrp, w.masks.blmask, w.trap.trmask,
   (w.fstat &&& 0x1F) ||| (if w.dcerr then 0x100 else 0), w.dhv, w.sgcfg, w.sgcnt ||| w.sgrem.setWidth 32 <<< 16]

/-- The words of its event banks, and those behind them. -/
def Warp.eventWords (w : Warp) : List Word :=
  w.ev1.words ++ w.ev2.words ++ [w.trap.trpc, w.trap.tvmask, if w.dcerr then 1 else 0, w.cen, 0]

/-- The words of hv0–hv3 of a depth. -/
def Warp.hvWords (w : Warp) (d : Nat) : List (List Word) := allLanes.map (fun l => (List.range 4).map (fun i => w.readCell (cellHv d i l)))

/-- The words of the trap's record; without one, zeros. -/
def Warp.recordWords (w : Warp) : List Word := if w.trap.tmode then w.trap.frec.words else List.replicate 16 0

/-- The parts of a block in their order, and their sizes. -/
def State.blockParts (s : State) (k : Nat) : List (List Byte) :=
  let w := s.warp k
  [w.headWords.flatMap wordBytes, natToBytes 8 (s.counterField k), ((List.range 8).map w.masks.jm.get).flatMap wordBytes,
    ((List.range 8).map w.masks.ja.get).flatMap wordBytes, w.eventWords.flatMap wordBytes, ([0, 1, 2, 3].flatMap w.bankK).flatMap wordBytes,
    allLanes.map w.pbByte, packNibbles (allLanes.map (fun l => (w.lstate.get l).setWidth 8)), allLanes.flatMap (fun l => halfBytes (w.pkage.get l)),
    (allLanes.map w.lpc.get).flatMap wordBytes, (allLanes.map w.hpc1.get).flatMap wordBytes, (allLanes.map w.hpc2.get).flatMap wordBytes,
    (allLanes.map w.tlpc.get).flatMap wordBytes, zeros 8, w.recordWords.flatMap wordBytes, zeros 64, (w.hvWords 1).flatten.flatMap wordBytes,
    (w.hvWords 2).flatten.flatMap wordBytes]

def blockSizes : List Nat := [60, 8, 32, 32, 68, 64, 32, 16, 64, 128, 128, 128, 128, 8, 64, 64, 512, 512]

theorem laneWords_eq (m : Map Word) : laneWords m = (allLanes.map m.get).flatMap wordBytes := (List.flatMap_map ..).symm

theorem Warp.hvBytes_eq (w : Warp) (d : Nat) : w.hvBytes d = (w.hvWords d).flatten.flatMap wordBytes := by
  unfold Warp.hvBytes Warp.hvWords
  rw [← List.flatMap_def, List.flatMap_assoc]
  simp only [List.flatMap_map]

theorem Warp.recordWords_bytes (w : Warp) : w.recordWords.flatMap wordBytes = if w.trap.tmode then w.trap.frec.bytes else zeros 64 := by
  unfold Warp.recordWords
  split
  · rfl
  · decide

theorem State.controlBlock_parts (s : State) (k : Nat) : s.controlBlock k = (s.blockParts k).flatten := by
  unfold State.controlBlock State.blockParts
  dsimp only
  rw [laneWords_eq, laneWords_eq, laneWords_eq, laneWords_eq, Warp.hvBytes_eq, Warp.hvBytes_eq, Warp.recordWords_bytes]
  simp only [List.flatten_cons, List.flatten_nil, List.append_assoc, List.append_nil, List.flatMap_map, Warp.headWords, Warp.eventWords]

theorem State.blockParts_length (s : State) (k : Nat) : (s.blockParts k).map List.length = blockSizes := by
  have hrec : (s.warp k).recordWords.length = 16 := by
    unfold Warp.recordWords
    split <;> rfl
  unfold State.blockParts
  simp only [List.map_cons, List.map_nil, length_words, hrec]
  rfl

/-- A block holds 2048 bytes. -/
theorem State.controlBlock_length (s : State) (k : Nat) : (s.controlBlock k).length = 2048 := by
  rw [s.controlBlock_parts, List.length_flatten, s.blockParts_length]
  rfl

theorem State.controlBlock_drop (s : State) (k j : Nat) : (s.controlBlock k).drop (blockSizes.take j).sum = ((s.blockParts k).drop j).flatten := by
  rw [s.controlBlock_parts, ← s.blockParts_length]
  exact List.drop_sum_flatten _ _

/-- What lies at the place of a part is that part. -/
theorem State.controlBlock_part (s : State) (k : Nat) {j o : Nat} {bs : List Byte} (ho : (blockSizes.take j).sum = o)
    (hp : (s.blockParts k)[j]? = some bs) : ∃ rest, (s.controlBlock k).drop o = bs ++ rest := by
  obtain ⟨hj, hp⟩ := List.getElem?_eq_some_iff.1 hp
  rw [← ho, s.controlBlock_drop, List.drop_eq_getElem_cons hj, hp]
  exact ⟨_, List.flatten_cons⟩

/-- The words of a part read back from the block. -/
theorem State.blk_controlBlock (s : State) (k : Nat) {j o i : Nat} {ws : List Word} (ho : (blockSizes.take j).sum = o)
    (hp : (s.blockParts k)[j]? = some (ws.flatMap wordBytes)) (hi : i < ws.length) : blk (s.controlBlock k) (o + 4 * i) = ws[i] := by
  obtain ⟨rest, hr⟩ := s.controlBlock_part k ho hp
  have hw : word (s.controlBlock k) (o + 4 * i) = word ((s.controlBlock k).drop o) (4 * i) := by
    unfold word
    rw [List.drop_drop]
  unfold blk
  rw [hw, hr, word_of_words ws rest hi, BitVec.ofNat_toNat, BitVec.setWidth_eq]

/-- A byte of a part read back from the block. -/
theorem State.getD_controlBlock (s : State) (k : Nat) {j o i : Nat} {bs : List Byte} (ho : (blockSizes.take j).sum = o)
    (hp : (s.blockParts k)[j]? = some bs) (hi : i < bs.length) : (s.controlBlock k).getD (o + i) 0 = bs[i] := by
  obtain ⟨rest, hr⟩ := s.controlBlock_part k ho hp
  rw [List.getD_eq_getElem?_getD, ← List.getElem?_drop, hr, List.getElem?_append_left hi, List.getElem?_eq_getElem hi]
  rfl

/-! ### Packed fields -/

/-- The number of a warp in word 0 of its block takes six bits. -/
theorem getLsbD_blockNum (n : Nat) {i : Nat} (h : 14 ≤ i) : (BitVec.ofNat 32 (n % 64 * 256)).getLsbD i = false := by
  rw [BitVec.getLsbD_ofNat, show n % 64 * 256 = 2 ^ 8 * (n % 2 ^ 6) by omega, Nat.testBit_two_pow_mul, Nat.testBit_mod_two_pow]
  simp [show ¬ i - 8 < 6 by omega]

/-- A flag of a packed word. -/
theorem getLsbD_flag (b : Bool) {j : Nat} (hj : j < 32) (i : Nat) :
    (((if b then 1 <<< j else 0 : Nat) : Word)).getLsbD i = (b && decide (i = j)) := by
  rw [show ((if b then 1 <<< j else 0 : Nat) : Word) = BitVec.ofNat 32 (if b then 1 <<< j else 0) from rfl, BitVec.getLsbD_ofNat]
  cases b
  · simp
  · rw [if_pos rfl, Nat.one_shiftLeft, Nat.testBit_two_pow]
    by_cases h : i = j
    · simp [h, hj]
    · simp [h, Ne.symm h]

/-- A bit of a field of a packed word. -/
theorem getLsbD_fieldAt {n j : Nat} (x : BitVec n) (hj : n + j ≤ 32) (i : Nat) :
    (x.setWidth 32 <<< j).getLsbD i = (decide (j ≤ i) && x.getLsbD (i - j)) := by
  rw [BitVec.getLsbD_shiftLeft, BitVec.getLsbD_setWidth]
  by_cases h : j ≤ i ∧ i - j < n
  · simp [h.1, show i < 32 by omega, show ¬ i < j by omega, show i - j < 32 by omega]
  · by_cases h' : j ≤ i
    · rw [BitVec.getLsbD_of_ge x _ (by omega)]
      simp
    · simp [h', show i < j by omega]

/-- A field of a packed word. -/
theorem getLsbD_field {n j i : Nat} (x : BitVec n) (hj : n + j ≤ 32) (hi : j ≤ i) : (x.setWidth 32 <<< j).getLsbD i = x.getLsbD (i - j) := by
  rw [getLsbD_fieldAt x hj, decide_eq_true hi, Bool.true_and]

theorem Warp.blockWord0_bit (w : Warp) {i : Nat} (h : 14 ≤ i) : w.blockWord0.getLsbD i =
    (w.hdep.getLsbD (i - 14) || (w.sgact && decide (i = 16)) || (w.wpark && decide (i = 17)) || (w.trap.tmode && decide (i = 18)) ||
      (w.trap.tmsk && decide (i = 19))) := by
  have hone : ((1 : Nat) : Word).getLsbD i = false := by
    rw [show ((1 : Nat) : Word) = BitVec.twoPow 32 0 from rfl, BitVec.getLsbD_twoPow]
    simp
    omega
  unfold Warp.blockWord0
  simp only [BitVec.getLsbD_or, getLsbD_blockNum w.num h, hone, getLsbD_field w.hdep (by decide) h, getLsbD_flag _ (j := 16) (by decide),
    getLsbD_flag _ (j := 17) (by decide), getLsbD_flag _ (j := 18) (by decide), getLsbD_flag _ (j := 19) (by decide), Bool.false_or]

theorem Warp.blockWord0_hdep (w : Warp) : w.blockWord0.extractLsb' 14 2 = w.hdep := by
  ext i hi
  rw [BitVec.getElem_extractLsb', w.blockWord0_bit (by omega), ← BitVec.getLsbD_eq_getElem]
  simp [show ¬ 14 + i = 16 by omega, show ¬ 14 + i = 17 by omega, show ¬ 14 + i = 18 by omega, show ¬ 14 + i = 19 by omega]

theorem Warp.blockWord0_flags (w : Warp) : w.blockWord0.getLsbD 16 = w.sgact ∧ w.blockWord0.getLsbD 17 = w.wpark ∧
    w.blockWord0.getLsbD 18 = w.trap.tmode ∧ w.blockWord0.getLsbD 19 = w.trap.tmsk := by
  have h (i : Nat) (hi : 16 ≤ i) := w.blockWord0_bit (i := i) (by omega)
  have hz (i : Nat) (hi : 16 ≤ i) : w.hdep.getLsbD (i - 14) = false := BitVec.getLsbD_of_ge _ _ (by omega)
  refine ⟨?_, ?_, ?_, ?_⟩ <;> rw [h _ (by decide), hz _ (by decide)] <;> simp

/-- VWB shares a word with REPC. -/
theorem vwbWord_low (x : BitVec 8) (r : BitVec 7) : (x.setWidth 32 ||| r.setWidth 32 <<< 8 : Word).setWidth 8 = x := by
  ext i hi
  simp

/-- FSTAT and DCERR share a word. -/
theorem fstatWord_parts (x : Word) (b : Bool) : ((x &&& 0x1F) ||| (if b then 0x100 else 0)) &&& 0x1F = x &&& 0x1F ∧
    ((x &&& 0x1F) ||| (if b then 0x100 else 0)).getLsbD 8 = b := by
  have hflag (f : Word) (hf : f &&& 0x1F = 0) : ((x &&& 0x1F) ||| f) &&& 0x1F = x &&& 0x1F := by
    rw [BitVec.and_or_distrib_right, hf, show (0 : Word) = 0#32 from rfl, BitVec.or_zero, BitVec.and_assoc, BitVec.and_self]
  cases b
  · exact ⟨hflag 0 rfl, by simp⟩
  · exact ⟨hflag 0x100 rfl, by simp⟩

/-- SGCNT and the quantum that remains share a word. -/
theorem sgWord_parts (x : Word) (r : BitVec 16) (h : x &&& 0xFFFF0000 = 0) :
    (x ||| r.setWidth 32 <<< 16) &&& 0xFFFF = x ∧ (x ||| r.setWidth 32 <<< 16).extractLsb' 16 16 = r := by
  have hx (i : Nat) (hi : 16 ≤ i) : x.getLsbD i = false := by
    have hb : (x &&& 0xFFFF0000).getLsbD i = (0 : Word).getLsbD i := by rw [h]
    rw [BitVec.getLsbD_and, show (0xFFFF0000 : Word) = BitVec.allOnes 32 <<< 16 from rfl, BitVec.getLsbD_shiftLeft, BitVec.getLsbD_allOnes] at hb
    by_cases h32 : i < 32
    · simpa [h32, show ¬ i < 16 by omega, show i - 16 < 32 by omega] using hb
    · exact BitVec.getLsbD_of_ge _ _ (by omega)
  constructor
  · ext i hi
    rw [← BitVec.getLsbD_eq_getElem, ← BitVec.getLsbD_eq_getElem, BitVec.getLsbD_and, BitVec.getLsbD_or, BitVec.getLsbD_shiftLeft,
      show (0xFFFF : Word).getLsbD i = decide (i < 16) by
        rw [show (0xFFFF : Word) = BitVec.setWidth 32 (BitVec.allOnes 16) from rfl, BitVec.getLsbD_setWidth, BitVec.getLsbD_allOnes]
        simp
        omega]
    by_cases h16 : i < 16
    · simp [h16, hi]
    · simp [h16, hx i (by omega)]
  · ext i hi
    rw [BitVec.getElem_extractLsb', BitVec.getLsbD_or, hx _ (by omega), getLsbD_field r (by decide) (by omega), ← BitVec.getLsbD_eq_getElem]
    simp

/-- A copy of a field in a byte-wide nibble. -/
theorem nibble_low (x y : BitVec 3) : (((x.setWidth 8 &&& 0xF) ||| (y.setWidth 8 <<< 4) : Byte) >>> 0).setWidth 3 = x ∧
    (((x.setWidth 8 &&& 0xF) ||| (y.setWidth 8 <<< 4) : Byte) >>> 4).setWidth 3 = y := by
  revert x y
  decide

theorem lowest_lt (m : Lanes) : (lowest m).getD 0 < 32 := by
  cases h : lowest m with
  | none => decide
  | some l => exact List.mem_range.1 (List.mem_of_find?_eq_some h)

/-! ### The record of the trap -/

/-- The first word of a record. -/
def FaultRecord.word0 (f : FaultRecord) : Word :=
  f.code.setWidth 32 ||| f.cause.setWidth 32 <<< 8 ||| f.rung.setWidth 32 <<< 12
    ||| (if f.replay then 1 <<< 15 else 0) ||| f.code2.setWidth 32 <<< 16 ||| f.dies.setWidth 32 <<< 24

/-- Its fourth word. -/
def FaultRecord.word3 (f : FaultRecord) : Word :=
  f.warp.setWidth 32 ||| BitVec.ofNat 32 ((lowest f.flm).getD 0) <<< 6 ||| f.hdep.setWidth 32 <<< 11
    ||| (if f.sgq then 1 <<< 13 else 0)

theorem FaultRecord.word0_bit (f : FaultRecord) (i : Nat) : f.word0.getLsbD i = (f.code.getLsbD i || (decide (8 ≤ i) && f.cause.getLsbD (i - 8)) ||
    (decide (12 ≤ i) && f.rung.getLsbD (i - 12)) || (f.replay && decide (i = 15)) || (decide (16 ≤ i) && f.code2.getLsbD (i - 16)) ||
    (decide (24 ≤ i) && f.dies.getLsbD (i - 24))) := by
  have hcode : (f.code.setWidth 32).getLsbD i = f.code.getLsbD i := by
    rw [BitVec.getLsbD_setWidth]
    by_cases h : i < 32
    · simp [h]
    · simp [h, BitVec.getLsbD_of_ge f.code i (by omega)]
  unfold FaultRecord.word0
  simp only [BitVec.getLsbD_or, hcode, getLsbD_fieldAt f.cause (j := 8) (by decide), getLsbD_fieldAt f.rung (j := 12) (by decide),
    getLsbD_fieldAt f.code2 (j := 16) (by decide), getLsbD_fieldAt f.dies (j := 24) (by decide), getLsbD_flag f.replay (j := 15) (by decide)]

theorem FaultRecord.word0_fields (f : FaultRecord) : f.word0.setWidth 8 = f.code ∧ f.word0.extractLsb' 8 4 = f.cause ∧
    f.word0.extractLsb' 12 3 = f.rung ∧ f.word0.getLsbD 15 = f.replay ∧ f.word0.extractLsb' 16 8 = f.code2 ∧ f.word0.extractLsb' 24 4 = f.dies := by
  refine ⟨?_, ?_, ?_, ?_, ?_, ?_⟩
  · ext i hi
    rw [BitVec.getElem_setWidth, f.word0_bit, ← BitVec.getLsbD_eq_getElem]
    simp [show ¬ 8 ≤ i by omega, show ¬ 12 ≤ i by omega, show ¬ i = 15 by omega, show ¬ 16 ≤ i by omega, show ¬ 24 ≤ i by omega]
  · ext i hi
    rw [BitVec.getElem_extractLsb', f.word0_bit, ← BitVec.getLsbD_eq_getElem, BitVec.getLsbD_of_ge f.code _ (by omega)]
    simp [show ¬ 12 ≤ 8 + i by omega, show ¬ 8 + i = 15 by omega, show ¬ 16 ≤ 8 + i by omega, show ¬ 24 ≤ 8 + i by omega]
  · ext i hi
    rw [BitVec.getElem_extractLsb', f.word0_bit, ← BitVec.getLsbD_eq_getElem, BitVec.getLsbD_of_ge f.code _ (by omega),
      BitVec.getLsbD_of_ge f.cause _ (by omega)]
    simp [show ¬ 12 + i = 15 by omega, show ¬ 16 ≤ 12 + i by omega, show ¬ 24 ≤ 12 + i by omega]
  · rw [f.word0_bit, BitVec.getLsbD_of_ge f.code _ (by omega), BitVec.getLsbD_of_ge f.cause _ (by omega), BitVec.getLsbD_of_ge f.rung _ (by omega)]
    simp
  · ext i hi
    rw [BitVec.getElem_extractLsb', f.word0_bit, ← BitVec.getLsbD_eq_getElem, BitVec.getLsbD_of_ge f.code _ (by omega),
      BitVec.getLsbD_of_ge f.cause _ (by omega), BitVec.getLsbD_of_ge f.rung _ (by omega)]
    simp [show ¬ 16 + i = 15 by omega, show ¬ 24 ≤ 16 + i by omega]
  · ext i hi
    rw [BitVec.getElem_extractLsb', f.word0_bit, ← BitVec.getLsbD_eq_getElem, BitVec.getLsbD_of_ge f.code _ (by omega),
      BitVec.getLsbD_of_ge f.cause _ (by omega), BitVec.getLsbD_of_ge f.rung _ (by omega), BitVec.getLsbD_of_ge f.code2 _ (by omega)]
    simp [show ¬ 24 + i = 15 by omega]

theorem FaultRecord.word3_bit (f : FaultRecord) (i : Nat) : f.word3.getLsbD i = (f.warp.getLsbD i ||
    (decide (6 ≤ i) && (BitVec.ofNat 5 ((lowest f.flm).getD 0)).getLsbD (i - 6)) || (decide (11 ≤ i) && f.hdep.getLsbD (i - 11)) ||
    (f.sgq && decide (i = 13))) := by
  have hlane : BitVec.ofNat 32 ((lowest f.flm).getD 0) = (BitVec.ofNat 5 ((lowest f.flm).getD 0)).setWidth 32 := by
    have h := lowest_lt f.flm
    apply BitVec.eq_of_toNat_eq
    rw [BitVec.toNat_setWidth, BitVec.toNat_ofNat, BitVec.toNat_ofNat]
    omega
  have hwarp : (f.warp.setWidth 32).getLsbD i = f.warp.getLsbD i := by
    rw [BitVec.getLsbD_setWidth]
    by_cases h : i < 32
    · simp [h]
    · simp [h, BitVec.getLsbD_of_ge f.warp i (by omega)]
  unfold FaultRecord.word3
  rw [hlane]
  simp only [BitVec.getLsbD_or, hwarp, getLsbD_fieldAt _ (n := 5) (j := 6) (by decide), getLsbD_fieldAt f.hdep (j := 11) (by decide),
    getLsbD_flag f.sgq (j := 13) (by decide)]

theorem FaultRecord.word3_fields (f : FaultRecord) : f.word3.setWidth 6 = f.warp ∧ f.word3.extractLsb' 11 2 = f.hdep ∧ f.word3.getLsbD 13 = f.sgq := by
  refine ⟨?_, ?_, ?_⟩
  · ext i hi
    rw [BitVec.getElem_setWidth, f.word3_bit, ← BitVec.getLsbD_eq_getElem]
    simp [show ¬ 6 ≤ i by omega, show ¬ 11 ≤ i by omega, show ¬ i = 13 by omega]
  · ext i hi
    rw [BitVec.getElem_extractLsb', f.word3_bit, ← BitVec.getLsbD_eq_getElem, BitVec.getLsbD_of_ge f.warp _ (by omega),
      BitVec.getLsbD_of_ge (BitVec.ofNat 5 _) _ (by omega)]
    simp [show ¬ 11 + i = 13 by omega]
  · rw [f.word3_bit, BitVec.getLsbD_of_ge f.warp _ (by omega), BitVec.getLsbD_of_ge (BitVec.ofNat 5 _) _ (by omega),
      BitVec.getLsbD_of_ge f.hdep _ (by omega)]
    simp

/-- A number of 64 bits from its halves. -/
theorem halves_append (x : BitVec 64) : ((x >>> 32).setWidth 32 ++ x.setWidth 32 : BitVec 64) = x := by
  ext i hi
  rw [BitVec.getElem_append, ← BitVec.getLsbD_eq_getElem (x := x)]
  by_cases h : i < 32
  · simp [h]
  · simp [h, show 32 + (i - 32) = i by omega]

/-- A record read back from its words; its bookkeeping is not among them. -/
theorem blkRecord_of_words {bs : List Byte} {f : FaultRecord} (h : ∀ i (hi : i < f.words.length), blk bs (0x380 + 4 * i) = f.words[i])
    (g : FaultRecord) :
    { blkRecord bs with origin := g.origin, claim := g.claim, rest := g.rest } = { f with origin := g.origin, claim := g.claim, rest := g.rest } := by
  have hl : f.words.length = 16 := rfl
  have h0 : blk bs 896 = f.word0 := h 0 (by rw [hl]; decide)
  have h1 : blk bs 900 = f.flm := h 1 (by rw [hl]; decide)
  have h2 : blk bs 904 = f.fpc := h 2 (by rw [hl]; decide)
  have h3 : blk bs 908 = f.word3 := h 3 (by rw [hl]; decide)
  have h4 : blk bs 912 = f.fva.setWidth 32 := h 4 (by rw [hl]; decide)
  have h5 : blk bs 916 = (f.fva >>> 32).setWidth 32 := h 5 (by rw [hl]; decide)
  have h6 : blk bs 920 = f.vatnum := h 6 (by rw [hl]; decide)
  have h7 : blk bs 924 = f.info := h 7 (by rw [hl]; decide)
  have h8 : blk bs 928 = f.gtime.setWidth 32 := h 8 (by rw [hl]; decide)
  have h9 : blk bs 932 = (f.gtime >>> 32).setWidth 32 := h 9 (by rw [hl]; decide)
  have h10 : blk bs 936 = f.lottag := h 10 (by rw [hl]; decide)
  have h11 : blk bs 940 = f.seq.setWidth 32 := h 11 (by rw [hl]; decide)
  obtain ⟨hcode, hcause, hrung, hreplay, hcode2, hdies⟩ := f.word0_fields
  obtain ⟨hwarp, hhdep, hsgq⟩ := f.word3_fields
  have hseq : (f.seq.setWidth 32).setWidth 16 = f.seq := by simp
  unfold blkRecord
  dsimp only [Nat.reduceMul, Nat.reduceAdd]
  rw [h0, h1, h2, h3, h4, h5, h6, h7, h8, h9, h10, h11, hcode, hcause, hrung, hreplay, hcode2, hdies, hwarp, hhdep, hsgq, halves_append,
    halves_append, hseq]

/-! ### Maps and registers of a block -/

theorem get_foldl_setEach {α : Type} [Inhabited α] [DecidableEq α] (f : Nat → α) {ls : List Nat} (m : Map α) {l : Nat} (h : l ∈ ls) :
    Map.get (ls.foldl (fun m l => m.set l (f l)) m) l = f l := by
  suffices hs : ∀ (ls : List Nat) (m : Map α), (l ∈ ls ∨ m.get l = f l) → Map.get (ls.foldl (fun m l => m.set l (f l)) m) l = f l from
    hs ls m (.inl h)
  intro ls
  induction ls with
  | nil => exact fun m h => h.resolve_left List.not_mem_nil
  | cons k ks ih =>
    intro m h
    refine ih _ ?_
    by_cases hk : l = k
    · exact .inr (by rw [Map.get_set, if_pos hk, hk])
    · rw [Map.get_set, if_neg hk]
      exact h.imp_left (fun h => (List.mem_cons.1 h).resolve_left hk)

/-- A cell that some entries write, all with one value. -/
theorem Map.get_setAll_of_mem {m : Map Word} {es : List (Nat × Word)} {c : Nat} {v : Word} (hmem : (c, v) ∈ es)
    (hval : ∀ e ∈ es, e.1 = c → e.2 = v) : (m.setAll es).get c = v := by
  suffices hs : ∀ (es : List (Nat × Word)) (m : Map Word), (∀ e ∈ es, e.1 = c → e.2 = v) → ((c, v) ∈ es ∨ m.get c = v) →
      (m.setAll es).get c = v from hs es m hval (.inl hmem)
  intro es
  induction es with
  | nil => exact fun m _ h => h.resolve_left List.not_mem_nil
  | cons e es ih =>
    intro m hval h
    refine ih _ (fun x hx => hval x (List.mem_cons_of_mem _ hx)) ?_
    rw [Map.get_set]
    by_cases hc : c = e.1
    · rw [if_pos hc]
      exact .inr (hval e List.mem_cons_self hc.symm)
    · rw [if_neg hc]
      exact h.imp_left (fun h => (List.mem_cons.1 h).resolve_left (fun h => hc (congrArg Prod.fst h)))

/-- The three kinds of cells that a block holds. -/
theorem mem_blkCells {bs : List Byte} {e : Nat × Word} : e ∈ blkCells bs ↔
    (∃ j < 16, e = (if j < 4 then cellKn (28 + j) else cellKb (j / 4) (j % 4), blk bs (0xC8 + 4 * j))) ∨
    (∃ l < 32, ∃ i < 8, e = (if i < 2 then cellPn (6 + i) l else cellPb (i / 2) (i % 2) l,
      if (bs.getD (0x108 + l) 0).getLsbD i then (1 : Word) else 0)) ∨
    ∃ l < 32, ∃ i < 4, e = (cellHv 1 i l, blk bs (0x400 + 16 * l + 4 * i)) ∨ e = (cellHv 2 i l, blk bs (0x600 + 16 * l + 4 * i)) := by
  unfold blkCells allLanes
  simp only [List.mem_append, List.mem_map, List.mem_range, List.mem_flatMap, List.mem_cons, List.not_mem_nil, or_false, or_assoc,
    eq_comm (a := e)]

/-- k28–k31 of a bank come from the block's words. -/
theorem blkCells_bank {bs : List Byte} {m : Map Word} {b i : Nat} (hb : b < 4) (hi : i < 4) :
    (m.setAll (blkCells bs)).get (if b = 0 then cellKn (28 + i) else cellKb b i) = blk bs (0xC8 + 4 * (4 * b + i)) := by
  refine Map.get_setAll_of_mem (mem_blkCells.2 (.inl ⟨4 * b + i, by omega, ?_⟩)) (fun e he hc => ?_)
  · rw [show (4 * b + i) / 4 = b by omega, show (4 * b + i) % 4 = i by omega]
    by_cases h : b = 0
    · rw [if_pos h, if_pos (by omega), h, Nat.mul_zero, Nat.zero_add]
    · rw [if_neg h, if_neg (by omega)]
  · rcases mem_blkCells.1 he with ⟨j, hj, rfl⟩ | ⟨l, hl, p, hp, rfl⟩ | ⟨l, hl, n, hn, rfl | rfl⟩
    · have hj : j = 4 * b + i := by
        dsimp only at hc
        unfold cellKn cellKb at hc
        split at hc <;> split at hc <;> omega
      rw [hj]
    all_goals
      exfalso
      dsimp only at hc
      unfold cellKn cellKb at hc
    · unfold cellPn cellPb at hc
      split at hc <;> split at hc <;> omega
    · unfold cellHv at hc
      split at hc <;> omega
    · unfold cellHv at hc
      split at hc <;> omega

/-- hv0–hv3 of a depth come from the block's words. -/
theorem blkCells_hv {bs : List Byte} {m : Map Word} {d i l : Nat} (hd : d = 1 ∨ d = 2) (hi : i < 4) (hl : l < 32) :
    (m.setAll (blkCells bs)).get (cellHv d i l) = blk bs (0x200 + 0x200 * d + 16 * l + 4 * i) := by
  refine Map.get_setAll_of_mem (mem_blkCells.2 (.inr (.inr ⟨l, hl, i, hi, ?_⟩))) (fun e he hc => ?_)
  · rcases hd with rfl | rfl
    · exact .inl rfl
    · exact .inr rfl
  · rcases mem_blkCells.1 he with ⟨j, hj, rfl⟩ | ⟨l', hl', p, hp, rfl⟩ | ⟨l', hl', n, hn, rfl | rfl⟩
    · exfalso
      dsimp only at hc
      unfold cellKn cellKb cellHv at hc
      split at hc <;> omega
    · exfalso
      dsimp only at hc
      unfold cellPn cellPb cellHv at hc
      split at hc <;> omega
    · dsimp only at hc ⊢
      unfold cellHv at hc
      rw [show d = 1 by omega, show n = i by omega, show l' = l by omega]
    · dsimp only at hc ⊢
      unfold cellHv at hc
      rw [show d = 2 by omega, show n = i by omega, show l' = l by omega]

/-! ### Blocks of words and nibbles -/

/-- A word of a sequence of groups of four. -/
theorem getElem?_groups {gs : List (List Word)} (hg : ∀ g ∈ gs, g.length = 4) {j i : Nat} (hj : j < gs.length) (hi : i < 4) :
    gs.flatten[4 * j + i]? = (gs[j])[i]? := by
  rw [← block_flatten hg hj, List.getElem?_take_of_lt hi, List.getElem?_drop]

/-- What stands for a lane. -/
theorem getElem_lanes {α : Type} (f : Nat → α) {l : Nat} (h : l < (allLanes.map f).length) : (allLanes.map f)[l] = f l :=
  (List.getElem_map ..).trans (congrArg f (List.getElem_range (n := 32) _))

/-- The halves of a sequence read back from its bytes. -/
theorem half_of_halves (xs : List (BitVec 16)) (zs : List Byte) {i : Nat} (h : i < xs.length) :
    half (xs.flatMap halfBytes ++ zs) (2 * i) = xs[i].toNat := by
  induction xs generalizing i with
  | nil => cases h
  | cons x xs ih =>
    rw [List.flatMap_cons, List.append_assoc]
    cases i with
    | zero => exact (bytesToNat_natToBytes 2 x.toNat).trans (Nat.mod_eq_of_lt x.isLt)
    | succ i =>
      have hdrop : half (halfBytes x ++ (xs.flatMap halfBytes ++ zs)) (2 * (i + 1)) = half (xs.flatMap halfBytes ++ zs) (2 * i) := by
        unfold half
        rw [show 2 * (i + 1) = (halfBytes x).length + 2 * i by rw [show (halfBytes x).length = 2 from rfl]; omega, List.drop_length_add_append]
      rw [hdrop, ih (Nat.lt_of_succ_lt_succ h)]
      rfl

theorem packNibbles_getElem? (bs : List Byte) {i : Nat} (h : 2 * i + 1 < bs.length) :
    (packNibbles bs)[i]? = some ((bs[2 * i] &&& 0xF) ||| (bs[2 * i + 1] <<< 4)) := by
  induction bs using packNibbles.induct generalizing i with
  | case1 => cases h
  | case2 a => simp at h
  | case3 a b rest ih =>
    cases i with
    | zero => rfl
    | succ i =>
      have hi : 2 * i + 1 < rest.length := by
        simp only [List.length_cons] at h
        omega
      exact ih hi

section
variable (s : State) (k : Nat)

/-! ### The words of a control block -/

theorem State.blk_head {i : Nat} (hi : i < 15) : blk (s.controlBlock k) (4 * i) = (s.warp k).headWords[i]'hi := by
  have h := s.blk_controlBlock k (j := 0) (o := 0) (i := i) rfl rfl hi
  rwa [Nat.zero_add] at h

theorem State.blk_jm {j : Nat} (hj : j < 8) : blk (s.controlBlock k) (0x44 + 4 * j) = (s.warp k).masks.jm.get j := by
  refine (s.blk_controlBlock k (j := 2) (o := 0x44) rfl rfl (by simpa using hj)).trans ?_
  rw [List.getElem_map, List.getElem_range]

theorem State.blk_ja {j : Nat} (hj : j < 8) : blk (s.controlBlock k) (0x64 + 4 * j) = (s.warp k).masks.ja.get j := by
  refine (s.blk_controlBlock k (j := 3) (o := 0x64) rfl rfl (by simpa using hj)).trans ?_
  rw [List.getElem_map, List.getElem_range]

theorem State.blk_events {i : Nat} (hi : i < 17) : blk (s.controlBlock k) (0x84 + 4 * i) = (s.warp k).eventWords[i]'hi :=
  s.blk_controlBlock k (j := 4) (o := 0x84) rfl rfl hi

theorem State.blk_lanes {j o l : Nat} {m : Map Word} (ho : (blockSizes.take j).sum = o)
    (hp : (s.blockParts k)[j]? = some ((allLanes.map m.get).flatMap wordBytes)) (hl : l < 32) : (blkLanes (s.controlBlock k) o).get l = m.get l := by
  have hm : (blkLanes (s.controlBlock k) o).get l = blk (s.controlBlock k) (o + 4 * l) :=
    get_foldl_setEach (fun l => blk (s.controlBlock k) (o + 4 * l)) [] (List.mem_range.2 hl)
  rw [hm, s.blk_controlBlock k ho hp (by simpa [allLanes] using hl), getElem_lanes]

theorem State.blk_bank {b i : Nat} (hb : b < 4) (hi : i < 4) : blk (s.controlBlock k) (0xC8 + 4 * (4 * b + i)) =
    (s.warp k).readCell (if b = 0 then cellKn (28 + i) else cellKb b i) := by
  have hg : ∀ g ∈ [0, 1, 2, 3].map (s.warp k).bankK, g.length = 4 := fun g hg => by
    obtain ⟨x, -, rfl⟩ := List.mem_map.1 hg
    rfl
  have hlen : 4 * b + i < ([0, 1, 2, 3].flatMap (s.warp k).bankK).length := by
    rw [show ([0, 1, 2, 3].flatMap (s.warp k).bankK).length = 16 from rfl]
    omega
  rw [s.blk_controlBlock k (j := 5) (o := 0xC8) rfl rfl hlen]
  refine Option.some.inj ((List.getElem?_eq_getElem hlen).symm.trans ?_)
  rw [List.flatMap_def, getElem?_groups hg (j := b) hb hi]
  have hnum : ([0, 1, 2, 3].map (s.warp k).bankK)[b]'hb = (s.warp k).bankK b := by
    rw [List.getElem_map]
    exact congrArg _ (List.getElem_range (n := 4) hb)
  rw [hnum]
  unfold Warp.bankK
  rw [List.getElem?_map, List.getElem?_range hi]
  rfl

theorem State.blk_hv {d i l : Nat} (hd : d = 1 ∨ d = 2) (hi : i < 4) (hl : l < 32) :
    blk (s.controlBlock k) (0x200 + 0x200 * d + 16 * l + 4 * i) = (s.warp k).readCell (cellHv d i l) := by
  have hg : ∀ g ∈ (s.warp k).hvWords d, g.length = 4 := fun g hg => by
    obtain ⟨x, -, rfl⟩ := List.mem_map.1 hg
    rfl
  have hlanes : l < ((s.warp k).hvWords d).length := by
    unfold Warp.hvWords
    rw [List.length_map]
    exact hl
  have hlen : 4 * l + i < ((s.warp k).hvWords d).flatten.length := by
    rw [show ((s.warp k).hvWords d).flatten.length = 128 from rfl]
    omega
  have hblk : blk (s.controlBlock k) (0x200 + 0x200 * d + 16 * l + 4 * i) = ((s.warp k).hvWords d).flatten[4 * l + i] := by
    rw [show 0x200 + 0x200 * d + 16 * l + 4 * i = 0x200 + 0x200 * d + 4 * (4 * l + i) by omega]
    rcases hd with rfl | rfl
    · exact s.blk_controlBlock k (j := 16) (o := 0x400) rfl rfl hlen
    · exact s.blk_controlBlock k (j := 17) (o := 0x600) rfl rfl hlen
  rw [hblk]
  refine Option.some.inj ((List.getElem?_eq_getElem hlen).symm.trans ?_)
  have hgroup : ((s.warp k).hvWords d)[l] = (List.range 4).map (fun i => (s.warp k).readCell (cellHv d i l)) := getElem_lanes _ _
  rw [getElem?_groups hg hlanes hi, hgroup, List.getElem?_map, List.getElem?_range hi]
  rfl

theorem State.blk_lstate {l : Nat} (hl : l < 32) : blkLstate (s.controlBlock k) l = (s.warp k).lstate.get l := by
  have hlen : 2 * (l / 2) + 1 < (allLanes.map (fun l => ((s.warp k).lstate.get l).setWidth 8)).length := by
    rw [List.length_map, show allLanes.length = 32 from rfl]
    omega
  have hn := packNibbles_getElem? (allLanes.map (fun l => ((s.warp k).lstate.get l).setWidth 8)) hlen
  obtain ⟨hi, hn⟩ := List.getElem?_eq_some_iff.1 hn
  unfold blkLstate
  rw [s.getD_controlBlock k (j := 7) (o := 0x128) rfl rfl hi, hn]
  rw [getElem_lanes, getElem_lanes]
  obtain ⟨h0, h1⟩ := nibble_low ((s.warp k).lstate.get (2 * (l / 2))) ((s.warp k).lstate.get (2 * (l / 2) + 1))
  rcases Nat.mod_two_eq_zero_or_one l with h | h
  · rw [h]
    exact h0.trans (by rw [show 2 * (l / 2) = l by omega])
  · rw [h]
    exact h1.trans (by rw [show 2 * (l / 2) + 1 = l by omega])

theorem State.half_pkage {l : Nat} (hl : l < 32) : BitVec.ofNat 16 (half (s.controlBlock k) (0x138 + 2 * l)) = (s.warp k).pkage.get l := by
  obtain ⟨rest, hr⟩ := s.controlBlock_part k (j := 8) (o := 0x138) rfl rfl
  have hh : half (s.controlBlock k) (0x138 + 2 * l) = half ((s.controlBlock k).drop 0x138) (2 * l) := by
    unfold half
    rw [List.drop_drop]
  have hlen : l < (allLanes.map (s.warp k).pkage.get).length := by
    rw [List.length_map]
    exact hl
  have hx := half_of_halves (allLanes.map (s.warp k).pkage.get) rest hlen
  rw [List.flatMap_map, ← hr, ← hh, getElem_lanes] at hx
  rw [hx, BitVec.ofNat_toNat, BitVec.setWidth_eq]

end

/-! ### What a load takes from a block -/

section
variable (w : Warp) (bs : List Byte)

theorem Warp.loadBlock_masks : let m := (w.loadBlock bs).masks
    m.amask = blk bs 8 ∧ m.lmask = blk bs 0xC ∧ m.ham1 = blk bs 0x10 ∧ m.ham2 = blk bs 0x14 ∧ m.wset = blk bs 0x18 ∧ m.arrl = blk bs 0x1C ∧
      m.sggrp = blk bs 0x20 ∧ m.blmask = blk bs 0x24 ∧ m.jm = blkEight bs 0x44 ∧ m.ja = blkEight bs 0x64 :=
  ⟨rfl, rfl, rfl, rfl, rfl, rfl, rfl, rfl, rfl, rfl⟩

theorem Warp.loadBlock_lanes : let x := w.loadBlock bs
    x.lpc = blkLanes bs 0x178 ∧ x.hpc1 = blkLanes bs 0x1F8 ∧ x.hpc2 = blkLanes bs 0x278 ∧ x.tlpc = blkLanes bs 0x2F8 ∧
      (∀ l < 32, x.pkage.get l = BitVec.ofNat 16 (half bs (0x138 + 2 * l))) ∧
      ∀ l < 32, x.lstate.get l = blkLstate bs l :=
  ⟨rfl, rfl, rfl, rfl, fun _ hl => get_foldl_setEach (fun l => BitVec.ofNat 16 (half bs (0x138 + 2 * l))) [] (List.mem_range.2 hl),
    fun _ hl => get_foldl_setEach (blkLstate bs) [] (List.mem_range.2 hl)⟩

theorem Warp.loadBlock_regs : (w.loadBlock bs).regs = w.flush.regs.setAll (blkCells bs) := by
  unfold Warp.loadBlock
  dsimp only

end

section
variable (s : State) (k : Nat) (w0 : Warp)

/-! ### A block that is loaded (R184) -/

theorem State.loadBlock_mode : (w0.loadBlock (s.controlBlock k)).hdep = (s.warp k).hdep ∧ (w0.loadBlock (s.controlBlock k)).sgact = (s.warp k).sgact ∧
    (w0.loadBlock (s.controlBlock k)).wpark = (s.warp k).wpark ∧ (w0.loadBlock (s.controlBlock k)).vwb = (s.warp k).vwb := by
  have h0 : blk (s.controlBlock k) 0 = (s.warp k).blockWord0 := s.blk_head k (i := 0) (by decide)
  have h1 := s.blk_head k (i := 1) (by decide)
  obtain ⟨hs, hw, -, -⟩ := (s.warp k).blockWord0_flags
  unfold Warp.loadBlock
  dsimp only
  refine ⟨?_, ?_, ?_, ?_⟩
  · rw [h0, Warp.blockWord0_hdep]
  · rw [h0, hs]
  · rw [h0, hw]
  · exact (congrArg (BitVec.setWidth 8) h1).trans (vwbWord_low _ _)

theorem State.loadBlock_masks : let m := (w0.loadBlock (s.controlBlock k)).masks
    m.amask = (s.warp k).masks.amask ∧ m.lmask = (s.warp k).masks.lmask ∧ m.ham1 = (s.warp k).masks.ham1 ∧ m.ham2 = (s.warp k).masks.ham2 ∧
      m.wset = (s.warp k).masks.wset &&& (s.warp k).masks.lmask ∧ m.arrl = (s.warp k).masks.arrl ∧ m.sggrp = (s.warp k).masks.sggrp ∧
      m.blmask = (s.warp k).masks.blmask ∧ ∀ j < 8, m.jm.get j = (s.warp k).masks.jm.get j ∧ m.ja.get j = (s.warp k).masks.ja.get j := by
  have joins (o : Nat) {j : Nat} (hj : j < 8) : (blkEight (s.controlBlock k) o).get j = blk (s.controlBlock k) (o + 4 * j) :=
    get_foldl_setEach (fun j => blk (s.controlBlock k) (o + 4 * j)) [] (List.mem_range.2 hj)
  have h (i : Nat) (hi : i < 15) := s.blk_head k hi
  obtain ⟨h1, h2, h3, h4, h5, h6, h7, h8, h9, h10⟩ := w0.loadBlock_masks (s.controlBlock k)
  dsimp only
  rw [h1, h2, h3, h4, h5, h6, h7, h8, h9, h10]
  refine ⟨h 2 (by decide), h 3 (by decide), h 4 (by decide), h 5 (by decide), h 6 (by decide), h 7 (by decide), h 8 (by decide), h 9 (by decide),
    fun j hj => ⟨?_, ?_⟩⟩
  · rw [joins _ hj, s.blk_jm k hj]
  · rw [joins _ hj, s.blk_ja k hj]

theorem State.loadBlock_events : (w0.loadBlock (s.controlBlock k)).ev1 = (s.warp k).ev1.clear ∧
    (w0.loadBlock (s.controlBlock k)).ev2 = (s.warp k).ev2.clear := by
  have h (i : Nat) (hi : i < 17) := s.blk_events k hi
  have h1 : blkBank (s.controlBlock k) 0x84 = (s.warp k).ev1 := by
    unfold blkBank
    rw [show (s.warp k).ev1 = ⟨_, _, _, _, _, _⟩ from rfl]
    exact EventBank.mk.injEq .. |>.mpr ⟨h 0 (by decide), h 1 (by decide), h 2 (by decide), h 3 (by decide), h 4 (by decide), h 5 (by decide)⟩
  have h2 : blkBank (s.controlBlock k) 0x9C = (s.warp k).ev2 := by
    unfold blkBank
    exact EventBank.mk.injEq .. |>.mpr ⟨h 6 (by decide), h 7 (by decide), h 8 (by decide), h 9 (by decide), h 10 (by decide), h 11 (by decide)⟩
  exact ⟨congrArg EventBank.clear h1, congrArg EventBank.clear h2⟩

theorem State.loadBlock_status : let x := w0.loadBlock (s.controlBlock k)
    x.dhv = (s.warp k).dhv &&& 0xFFFFFE01 ∧ x.sgcfg = (s.warp k).sgcfg ∧ x.dcerr = (s.warp k).dcerr ∧ x.fstat = (s.warp k).fstat &&& 0x1F ∧
      ((s.warp k).sgcnt &&& 0xFFFF0000 = 0 → x.sgcnt = (s.warp k).sgcnt ∧ x.sgrem = (s.warp k).sgrem) := by
  have hf : blk (s.controlBlock k) 0x2C = _ := s.blk_head k (i := 11) (by decide)
  have hd : blk (s.controlBlock k) 0x30 = (s.warp k).dhv := s.blk_head k (i := 12) (by decide)
  have hg : blk (s.controlBlock k) 0x38 = _ := s.blk_head k (i := 14) (by decide)
  obtain ⟨hf1, hf2⟩ := fstatWord_parts (s.warp k).fstat (s.warp k).dcerr
  refine ⟨congrArg (· &&& dhvFields) hd, s.blk_head k (i := 13) (by decide), (congrArg (BitVec.getLsbD · 8) hf).trans hf2,
    (congrArg (· &&& 0x1F) hf).trans hf1, fun h => ?_⟩
  obtain ⟨hg1, hg2⟩ := sgWord_parts (s.warp k).sgcnt (s.warp k).sgrem h
  exact ⟨(congrArg (· &&& 0xFFFF) hg).trans hg1, (congrArg (BitVec.extractLsb' 16 16) hg).trans hg2⟩

theorem State.loadBlock_trap : let t := (w0.loadBlock (s.controlBlock k)).trap
    t.tmode = (s.warp k).trap.tmode ∧ t.tmsk = (s.warp k).trap.tmsk ∧ t.trpc = (s.warp k).trap.trpc ∧ t.trmask = (s.warp k).trap.trmask ∧
      t.tvmask = (s.warp k).trap.tvmask ∧ ((s.warp k).trap.tmode = true → t.frec = { (s.warp k).trap.frec with
        origin := w0.trap.frec.origin, claim := w0.trap.frec.claim, rest := w0.trap.frec.rest }) := by
  have h0 : blk (s.controlBlock k) 0 = (s.warp k).blockWord0 := s.blk_head k (i := 0) (by decide)
  obtain ⟨-, -, hm, hk⟩ := (s.warp k).blockWord0_flags
  refine ⟨(congrArg (BitVec.getLsbD · 18) h0).trans hm, (congrArg (BitVec.getLsbD · 19) h0).trans hk, s.blk_events k (i := 12) (by decide),
    s.blk_head k (i := 10) (by decide), s.blk_events k (i := 13) (by decide), fun ht => ?_⟩
  have hrec : (s.warp k).recordWords = (s.warp k).trap.frec.words := if_pos ht
  have hw (i : Nat) (hi : i < (s.warp k).trap.frec.words.length) : blk (s.controlBlock k) (0x380 + 4 * i) = (s.warp k).trap.frec.words[i] :=
    s.blk_controlBlock k (j := 14) (o := 0x380) rfl (by rw [← hrec]; rfl) hi
  unfold Warp.loadBlock
  dsimp only
  rw [h0, hm, ht, if_pos rfl]
  exact blkRecord_of_words hw w0.trap.frec

theorem State.loadBlock_lanes {l : Nat} (hl : l < 32) : let x := w0.loadBlock (s.controlBlock k)
    x.lpc.get l = (s.warp k).lpc.get l ∧ x.hpc1.get l = (s.warp k).hpc1.get l ∧ x.hpc2.get l = (s.warp k).hpc2.get l ∧
      x.tlpc.get l = (s.warp k).tlpc.get l ∧ x.pkage.get l = (s.warp k).pkage.get l ∧ x.lstate.get l = (s.warp k).lstate.get l := by
  obtain ⟨h1, h2, h3, h4, h5, h6⟩ := w0.loadBlock_lanes (s.controlBlock k)
  dsimp only
  rw [h1, h2, h3, h4, h5 l hl, h6 l hl]
  exact ⟨s.blk_lanes k (j := 9) rfl rfl hl, s.blk_lanes k (j := 10) rfl rfl hl, s.blk_lanes k (j := 11) rfl rfl hl,
    s.blk_lanes k (j := 12) rfl rfl hl, s.half_pkage k hl, s.blk_lstate k hl⟩

theorem State.loadBlock_bank {b i : Nat} (hb : b < 4) (hi : i < 4) :
    (w0.loadBlock (s.controlBlock k)).regs.get (if b = 0 then cellKn (28 + i) else cellKb b i) =
      (s.warp k).readCell (if b = 0 then cellKn (28 + i) else cellKb b i) := by
  rw [Warp.loadBlock_regs, blkCells_bank hb hi, s.blk_bank k hb hi]

theorem State.loadBlock_hv {d i l : Nat} (hd : d = 1 ∨ d = 2) (hi : i < 4) (hl : l < 32) :
    (w0.loadBlock (s.controlBlock k)).regs.get (cellHv d i l) = (s.warp k).readCell (cellHv d i l) := by
  rw [Warp.loadBlock_regs, blkCells_hv hd hi hl, s.blk_hv k hd hi hl]

end

end Sys2Proof.Machine
end

section
/-! PROOFS. SAVEW and SAVEW.DONE (spec/07 R181, R183, R184): what a store of a block writes, and what a saved warp leaves. -/

namespace Sys2Proof.Machine

/-! ### SAVEW -/

/-- What the end of an instruction leaves of the state. -/
theorem State.retire_leaves (s : State) (g : Sig) : (∀ c, (s.retire g).w.final c = s.w.final c) ∧ (s.retire g).mem = s.mem ∧ (s.retire g).v = s.v ∧
    ∀ n, (s.retire g).op n = s.op n := by
  obtain ⟨x, hx, hfinal, hrest, -⟩ := s.w_retire g
  have hvat : x.vat = s.w.vat := show x.rest.vat = s.w.rest.vat by rw [hrest]
  rw [hx]
  refine ⟨fun c => ?_, rfl, ?_, fun _ => rfl⟩
  · rw [State.w_setW]
    exact hfinal c
  · unfold State.v
    rw [State.w_setW, hvat]
    rfl

theorem State.op_startOp (s : State) (cls : OpClass) (work : Work) (lanes : Lanes) (va : BitVec 64) :
    ((s.startOp cls work lanes va).op s.nextOp).map (fun o => (o.work, o.cls, o.warp)) = some (work, cls, s.cur) := by
  unfold State.op State.startOp
  rw [Map.get_set_self]
  rfl

/-- SAVEW stores nothing at an address that is not that of a block. -/
theorem State.savew_misaligned {s : State} {st : BitVec 2} {a : Code} (hc : s.clear (saveSig 5 st a true) = true)
    (h : (s.readPair a 0).toNat % 2048 ≠ 0) : execSavew st a s = .next (s.raiseLanes 0x0A s.w.clause.enabled 0 (s.readPair a 0) 0) := by
  unfold execSavew
  refine (State.issueRaw_of_clear hc _).trans (congrArg _ ?_)
  exact if_pos (bne_iff_ne.2 h)

/-- The block of a warp in save mode is as the warp stands. -/
theorem State.savew_stores {s : State} {st : BitVec 2} {a : Code} (hc : s.clear (saveSig 5 st a true) = true)
    (ha : (s.readPair a 0).toNat % 2048 = 0) (hf : s.countFull .st = false) (hq : s.acquiring = false) (hs : s.w.saveRestore = true) :
    execSavew st a s = .next (
      if inWindow (s.readPair a 0) then
        if s.badWindow (s.readPair a 0) 2048 then s.raiseMiss (.fault pageFault 5 (s.readPair a 0))
        else ((s.modV (fun v => { v with scratch := v.scratch.setFrom (windowOff (s.readPair a 0)) (s.controlBlock s.cur) })).startOp .st .done
          s.w.clause.enabled (s.readPair a 0)).retire (saveSig 5 st a true)
      else
        match (s.writePieces s.w.core s.l.ctx 40 (rangePieces (s.readPair a 0) 2048) []).2 with
        | .error m => (s.writePieces s.w.core s.l.ctx 40 (rangePieces (s.readPair a 0) 2048) []).1.raiseMiss m
        | .ok ps => ((s.writePieces s.w.core s.l.ctx 40 (rangePieces (s.readPair a 0) 2048) []).1.startOp .st
            (.store true (layBytes ps (s.controlBlock s.cur))) s.w.clause.enabled (s.readPair a 0)).retire (saveSig 5 st a true)) := by
  unfold execSavew
  refine (State.issueRaw_of_clear hc _).trans (congrArg _ ?_)
  dsimp only
  rw [ha, hf, hq, hs]
  rfl

/-- The store of SAVEW in the warp window. -/
theorem State.savew_window {s : State} {st : BitVec 2} {a : Code} (hc : s.clear (saveSig 5 st a true) = true)
    (ha : (s.readPair a 0).toNat % 2048 = 0) (hf : s.countFull .st = false) (hq : s.acquiring = false) (hs : s.w.saveRestore = true)
    (hw : inWindow (s.readPair a 0) = true) (hr : windowOff (s.readPair a 0) + 2048 ≤ 1024 * s.v.scr) :
    ∃ t, execSavew st a s = .next t ∧ (∀ c, t.w.final c = s.w.final c) ∧ t.mem = s.mem ∧
      (∀ i < 2048, t.v.scratch.get (windowOff (s.readPair a 0) + i) = (s.controlBlock s.cur).getD i 0) ∧
      (∀ q, q < windowOff (s.readPair a 0) ∨ windowOff (s.readPair a 0) + 2048 ≤ q → t.v.scratch.get q = s.v.scratch.get q) ∧
      (t.op s.nextOp).map (fun o => (o.work, o.cls, o.warp)) = some (.done, .st, s.cur) := by
  have hbad : s.badWindow (s.readPair a 0) 2048 = false := by
    unfold State.badWindow Vat.inScratch
    rw [hw, decide_eq_true (by omega)]
    rfl
  refine ⟨_, State.savew_stores hc ha hf hq hs, ?_⟩
  rw [if_pos hw, if_neg (by rw [hbad]; decide)]
  let u := (s.modV (fun v => { v with scratch := v.scratch.setFrom (windowOff (s.readPair a 0)) (s.controlBlock s.cur) })).startOp .st .done
    s.w.clause.enabled (s.readPair a 0)
  obtain ⟨hfinal, hmem, hv, hop⟩ := u.retire_leaves (saveSig 5 st a true)
  have huv : u.v = { s.v with scratch := s.v.scratch.setFrom (windowOff (s.readPair a 0)) (s.controlBlock s.cur) } :=
    (s.vat_modVat s.w.vat s.w.vat (fun v => { v with scratch := v.scratch.setFrom (windowOff (s.readPair a 0)) (s.controlBlock s.cur) })).trans
      (if_pos rfl)
  rw [huv] at hv
  have hlen := s.controlBlock_length s.cur
  refine ⟨hfinal, hmem, fun i hi => ?_, fun q hq => ?_, ?_⟩
  · rw [hv, Map.get_setFrom, dif_pos ⟨by omega, by omega⟩, List.getD_eq_getElem?_getD, List.getElem?_eq_getElem (by omega)]
    simp only [Nat.add_sub_cancel_left, Option.getD_some]
  · rw [hv, Map.get_setFrom, dif_neg (by omega)]
  · rw [hop]
    exact State.op_startOp _ _ _ _ _

/-- The store of SAVEW in memory. -/
theorem State.savew_memory {s : State} {st : BitVec 2} {a : Code} (hc : s.clear (saveSig 5 st a true) = true)
    (ha : (s.readPair a 0).toNat % 2048 = 0) (hf : s.countFull .st = false) (hq : s.acquiring = false) (hs : s.w.saveRestore = true)
    (hw : inWindow (s.readPair a 0) = false) {ps : List (Nat × BitVec 10 × Nat)}
    (hps : (s.writePieces s.w.core s.l.ctx 40 (rangePieces (s.readPair a 0) 2048) []).2 = .ok ps) :
    ∃ t, execSavew st a s = .next t ∧ (∀ c, t.w.final c = s.w.final c) ∧ t.mem = s.mem ∧
      (t.op s.nextOp).map (fun o => (o.work, o.cls, o.warp)) = some (.store true (layBytes ps (s.controlBlock s.cur)), .st, s.cur) := by
  have honly := (s.writePieces_walks s.w.core s.l.ctx 40 (rangePieces (s.readPair a 0) 2048) []).only
  have ht := State.savew_stores hc ha hf hq hs
  rw [if_neg (by rw [hw]; decide), hps] at ht
  generalize (s.writePieces s.w.core s.l.ctx 40 (rangePieces (s.readPair a 0) 2048) []).1 = u at honly ht
  refine ⟨_, ht, ?_⟩
  obtain ⟨hfinal, hmem, -, hop⟩ := (u.startOp .st (.store true (layBytes ps (s.controlBlock s.cur))) s.w.clause.enabled (s.readPair a 0)).retire_leaves
    (saveSig 5 st a true)
  have hw' : u.w = s.w := (congrArg State.w honly).trans rfl
  have hcur : u.cur = s.cur := (congrArg State.cur honly).trans rfl
  have hnext : u.nextOp = s.nextOp := (congrArg State.nextOp honly).trans rfl
  refine ⟨fun c => (hfinal c).trans (congrArg (fun w => Warp.final w c) hw'), hmem.trans ((congrArg State.mem honly).trans rfl), ?_⟩
  rw [hop, ← hnext, ← hcur]
  exact u.op_startOp _ _ _ _

/-! ### SAVEW.DONE -/

/-- A warp that has left its core stands as it did, whatever is freed of it. -/
structure Warp.StaysSaved (w x : Warp) : Prop where
  evict : x.evict = w.evict
  trap : x.trap = w.trap
  masks : x.masks = w.masks
  lpc : x.lpc = w.lpc
  resident : w.resident = false → x.resident = false

/-- What is freed of a saved vat changes no memory, and no saved warp. -/
structure State.Unloads (s t : State) : Prop where
  mem : t.mem = s.mem
  cur : t.cur = s.cur
  warp : ∀ k, (s.warp k).StaysSaved (t.warp k)

theorem Warp.StaysSaved.refl (w : Warp) : w.StaysSaved w := ⟨rfl, rfl, rfl, rfl, id⟩

theorem State.Unloads.refl (s : State) : s.Unloads s := ⟨rfl, rfl, fun _ => .refl _⟩

theorem State.Unloads.trans {s t u : State} (h : s.Unloads t) (g : t.Unloads u) : s.Unloads u where
  mem := g.mem.trans h.mem
  cur := g.cur.trans h.cur
  warp k :=
    have hk := h.warp k
    have gk := g.warp k
    ⟨gk.evict.trans hk.evict, gk.trap.trans hk.trap, gk.masks.trans hk.masks, gk.lpc.trans hk.lpc, gk.resident ∘ hk.resident⟩

theorem State.Unloads.foldl {α : Type} {f : State → α → State} (hf : ∀ (s : State) x, s.Unloads (f s x)) (xs : List α) (s : State) :
    s.Unloads (xs.foldl f s) := by
  induction xs generalizing s with
  | nil => exact .refl s
  | cons x xs ih => exact (hf s x).trans (ih _)

theorem State.Unloads.of_warps {s t : State} (hm : t.mem = s.mem) (hc : t.cur = s.cur) (hw : t.warps = s.warps) : s.Unloads t := by
  refine ⟨hm, hc, fun k => ?_⟩
  unfold State.warp
  rw [hw]
  exact .refl _

theorem State.modWarp_unloads (s : State) (k : Nat) {f : Warp → Warp} (hf : ∀ w : Warp, w.StaysSaved (f w)) : s.Unloads (s.modWarp k f) := by
  refine ⟨rfl, rfl, fun j => ?_⟩
  rw [State.warp_modWarp]
  split
  · next e =>
    subst e
    exact hf _
  · exact .refl _

theorem State.finish_unloads (s : State) (n : Nat) (f : Op → Op) : s.Unloads (s.finish n f) := by
  rw [s.finish_only]
  exact .of_warps rfl rfl rfl

theorem State.modEngine_unloads (s : State) (core e : Nat) (f : StreamEngine → StreamEngine) : s.Unloads (s.modEngine core e f) :=
  .of_warps rfl rfl rfl

theorem State.modCore_unloads (s : State) (core : Nat) (f : Core → Core) : s.Unloads (s.modCore core f) := .of_warps rfl rfl rfl

theorem State.freeEngines_unloads (s : State) (vk : Nat) : s.Unloads (s.freeEngines vk) := by
  refine .foldl (fun u e => ?_) _ s
  dsimp only
  split
  · refine State.Unloads.trans ?_ (State.modEngine_unloads _ _ _ _)
    split
    · exact u.finish_unloads _ _
    · exact .refl u
  · exact .refl u

theorem State.acqAnswer_unloads (s : State) (k : Nat) (n : Option Nat) : s.Unloads (s.acqAnswer k n) := by
  unfold State.acqAnswer
  dsimp only
  split
  · exact State.Unloads.trans (t := s.setVat _ _) (.of_warps rfl rfl rfl) (State.modWarp_unloads _ k fun _ => ⟨rfl, rfl, rfl, rfl, id⟩)
  · exact s.modWarp_unloads k fun _ => ⟨rfl, rfl, rfl, rfl, id⟩

theorem State.acqServe_unloads (s : State) (core : Nat) : s.Unloads (s.acqServe core) := by
  refine .foldl (fun u e => ?_) _ s
  split
  · exact u.acqAnswer_unloads _ _
  · exact .refl u

theorem State.acqCycle_unloads (s : State) (core n : Nat) : s.Unloads (s.acqCycle core n) := by
  induction n generalizing s with
  | zero => exact .refl s
  | succ n ih =>
    unfold State.acqCycle
    dsimp only
    split
    · split
      · exact (s.acqAnswer_unloads _ _).trans (ih _)
      · exact .refl s
    · exact .refl s

theorem State.freeCore_unloads (s : State) (vk : Nat) : s.Unloads (s.freeCore vk) := by
  let u := (s.freeEngines vk).modCore ((s.freeEngines vk).vat vk).core (·.freeOwned vk)
  have hu : s.Unloads u := (s.freeEngines_unloads vk).trans (State.modCore_unloads _ _ _)
  exact (hu.trans (u.acqServe_unloads _)).trans (State.acqCycle_unloads _ _ _)

theorem State.freeImage_unloads (s : State) (vk : Nat) : s.Unloads (s.freeImage vk) := by
  unfold State.freeImage
  dsimp only
  split
  · exact .of_warps rfl rfl rfl
  · exact .refl s

theorem State.endVat_unloads (s : State) (vk : Nat) : s.Unloads (s.endVat vk) := by
  rw [s.endVat_eq]
  have h1 : s.Unloads (s.modLot (s.vat vk).lot (fun l => l.vatEnded (s.vatFlags vk) s.gtime)) := .of_warps rfl rfl rfl
  have h2 := h1.trans (State.freeImage_unloads _ vk)
  exact (h2.trans (u := State.modVat _ vk Vat.ended) (.of_warps rfl rfl rfl)).trans
    (.foldl (fun u k => u.modWarp_unloads k (f := Warp.left) fun _ => ⟨rfl, rfl, rfl, rfl, fun _ => rfl⟩) _ _)

/-- A warp that is saved. -/
def Warp.saved (w : Warp) : Warp := { w with evict := .saved, resident := false, regs := [], trap := { w.trap with smode := false } }

/-- A vat whose last warp is saved: what it has on its core is free. -/
def Vat.saved (v : Vat) : Vat := { v with
  place := .saved, scratch := [], tiles := [], hist := [], stage := default, stgslot := [], ringd := [], ringtag := [], ringQuiet := [], mcfg := 0,
  absent := [], nbstat := [], slotQueue := [] }

/-- A warp without lines that its faulted copies left absent. -/
def Warp.unclaimed (w : Warp) : Warp := { w with claims := [] }

/-- A whole vat leaves its core with its last warp. -/
def State.vatSaved (s : State) (vk : Nat) (v : Vat) : State :=
  (warpKeys vk v).foldl (fun s k => s.modWarp k Warp.unclaimed) ((s.modVat vk Vat.saved).freeCore vk)

theorem State.vatSaved_unloads (s : State) (vk : Nat) (v : Vat) : s.Unloads (s.vatSaved vk v) := by
  have h : s.Unloads (s.modVat vk Vat.saved) := .of_warps rfl rfl rfl
  exact (h.trans (State.freeCore_unloads _ vk)).trans (.foldl (fun u k => u.modWarp_unloads k (f := Warp.unclaimed) fun _ => ⟨rfl, rfl, rfl, rfl, id⟩) _ _)

theorem State.warpSaved_eq (s : State) (k : Nat) : s.warpSaved k =
    let u := s.modWarp k Warp.saved
    let vk := (s.warp k).vat
    let v := u.vat vk
    if v.imageWhole && (warpKeys vk v).all (fun k => (u.warp k).evict == .saved) then
      if ((u.vatSaved vk v).lot v.lot).abortAtDie (dieOfCore v.core) (u.vatSaved vk v).gtime then (u.vatSaved vk v).endVat vk else u.vatSaved vk v
    else u := rfl

/-- Beside the warp that is saved, the save of a vat's last warp frees what the vat holds. -/
theorem State.warpSaved_unloads (s : State) (k : Nat) : (s.modWarp k Warp.saved).Unloads (s.warpSaved k) := by
  rw [s.warpSaved_eq]
  dsimp only
  split
  · split
    · exact (State.vatSaved_unloads _ _ _).trans (State.endVat_unloads _ _)
    · exact State.vatSaved_unloads _ _ _
  · exact .refl _

section
variable {s : State} {st : BitVec 2}

/-- The signature of SAVEW.DONE. -/
def State.doneSig (s : State) (st : BitVec 2) : Sig := { slot := 0x1F5, stall := st, legal := s.w.trap.smode }

/-- SAVEW.DONE waits for the warp's counters. -/
theorem State.savewDone_waits (hc : s.clear (s.doneSig st) = true) (h : s.opsOf s.cur ≠ []) : execSavewDone st s = .next s.stall := by
  unfold execSavewDone
  refine (State.issueRaw_of_clear hc _).trans (congrArg _ ?_)
  exact if_pos (by simpa using h)

/-- In a vat that is being stopped the warp stops there. -/
theorem State.savewDone_stops (hc : s.clear (s.doneSig st) = true) (h : s.opsOf s.cur = []) (hs : s.v.stop ≠ none) :
    ∃ t, execSavewDone st s = .next t ∧ t.w.stopped = true ∧ t.w.evict = s.w.evict ∧ t.vats = s.vats ∧ t.mem = s.mem := by
  have he : execSavewDone st s = .next ((s.retireAtBoundary (s.doneSig st)).modW (fun w => { w with stopped := true })) := by
    unfold execSavewDone
    refine (State.issueRaw_of_clear hc _).trans (congrArg _ ?_)
    rw [h, if_neg (by simp), if_pos (Option.isSome_iff_ne_none.2 hs)]
    rfl
  refine ⟨_, he, ?_⟩
  rw [State.w_modW]
  refine ⟨rfl, ?_, rfl, rfl⟩
  unfold State.retireAtBoundary
  rw [State.w_setW]
  rfl

/-- Else the warp is SAVED. -/
theorem State.savewDone_saves (hc : s.clear (s.doneSig st) = true) (h : s.opsOf s.cur = []) (hs : s.v.stop = none) :
    ∃ t, execSavewDone st s = .next t ∧ t.w.evict = .saved ∧ t.w.resident = false ∧ t.w.trap.smode = false ∧ t.w.masks = s.w.masks ∧
      t.w.lpc = s.w.lpc ∧ t.mem = s.mem := by
  have he : execSavewDone st s = .next ((s.retireAtBoundary (s.doneSig st)).warpSaved s.cur) := by
    unfold execSavewDone
    refine (State.issueRaw_of_clear hc _).trans (congrArg _ ?_)
    rw [h, if_neg (by simp), hs]
    rfl
  let u := s.retireAtBoundary (s.doneSig st)
  have hu := u.warpSaved_unloads s.cur
  have hw := hu.warp s.cur
  have hsaved : (u.modWarp s.cur Warp.saved).warp s.cur = u.w.saved := (u.warp_modWarp s.cur s.cur _).trans (if_pos rfl)
  have huw : u.w = { s.w.countIssue st with phase := .boundary } := s.w_setW _
  rw [hsaved, huw] at hw
  refine ⟨_, he, ?_⟩
  have hcur : (u.warpSaved s.cur).w = (u.warpSaved s.cur).warp s.cur := congrArg (u.warpSaved s.cur).warp hu.cur
  rw [hcur]
  exact ⟨hw.evict, hw.resident rfl, (congrArg Trap.smode hw.trap).trans rfl, hw.masks, hw.lpc, hu.mem⟩

end

end Sys2Proof.Machine
end

section
/-! PROOFS. RESTW (spec/07 R184): what the read of an image leaves, and how a warp that is loaded runs on. -/

namespace Sys2Proof.Machine

/-! ### Reads and writes of the firmware and of the warp change no warp -/

/-- The warps, and which is in turn, are the same. -/
def State.SameWarps (s t : State) : Prop := t.warps = s.warps ∧ t.cur = s.cur

theorem State.SameWarps.refl (s : State) : s.SameWarps s := ⟨rfl, rfl⟩

theorem State.SameWarps.trans {s t u : State} (h : s.SameWarps t) (g : t.SameWarps u) : s.SameWarps u := ⟨g.1.trans h.1, g.2.trans h.2⟩

theorem State.SameWarps.warp {s t : State} (h : s.SameWarps t) (k : Nat) : t.warp k = s.warp k := congrArg (Map.get · k) h.1

theorem State.SameWarps.w {s t : State} (h : s.SameWarps t) : t.w = s.w := by
  unfold State.w
  rw [h.2, h.warp]

theorem State.Walks.sameWarps {s t : State} (h : s.Walks t) : s.SameWarps t := ⟨(congrArg State.warps h.only).trans rfl, (congrArg State.cur h.only).trans rfl⟩

theorem State.SameBut.sameWarps {s t : State} (h : s.SameBut t) : s.SameWarps t := ⟨(congrArg State.warps h).trans rfl, (congrArg State.cur h).trans rfl⟩

theorem State.Drops.sameWarps {s t : State} (h : s.Drops t) : s.SameWarps t := ⟨(congrArg State.warps h.only).trans rfl, (congrArg State.cur h.only).trans rfl⟩

theorem State.fillCopy_sameWarps (s : State) (die key : Nat) (ca : BitVec 2) (slot : BitVec 10) : s.SameWarps (s.fillCopy die key ca slot) := by
  unfold State.fillCopy
  split
  · dsimp only
    have hd : s.SameWarps (if ca ≠ 2 ∧ s.staleUnder die (lineOf key) slot = true then s.dropCopy die (lineOf key) else s) := by
      split
      · exact (s.dropCopy_drops _ _).sameWarps
      · exact .refl s
    generalize (if ca ≠ 2 ∧ s.staleUnder die (lineOf key) slot = true then s.dropCopy die (lineOf key) else s) = u at hd ⊢
    split
    · exact hd
    · have he : u.SameWarps (u.evictCopy die) := by
        unfold State.evictCopy
        dsimp only
        split
        · exact .refl u
        · exact (u.dropCopy_drops _ _).sameWarps
      exact (hd.trans he).trans (t := u.evictCopy die) ⟨rfl, rfl⟩
  · exact .refl s

theorem State.readPieces_sameWarps (s : State) (pl ctx : Nat) (vat : Option Nat) (x : Reader) (n : Nat) (ps : List (BitVec 64 × Nat))
    (acc : List Byte) : s.SameWarps (s.readPieces pl ctx vat x n ps acc).1 := by
  induction ps generalizing s n acc with
  | nil => exact .refl s
  | cons p ps ih =>
    obtain ⟨va, k⟩ := p
    have hw := (s.noteWalk_walks pl ctx (s.translate pl ctx va .read n)).sameWarps
    unfold State.readPieces
    dsimp only
    split
    · split
      · exact ih _ _ _
      · exact .refl s
    · split
      · split
        · exact hw
        · split
          · exact hw
          · exact (hw.trans (State.fillCopy_sameWarps _ _ _ _ _)).trans (ih _ _ _)
      all_goals exact hw

theorem State.agentWrite_sameWarps (s : State) (ctx : Nat) (va : BitVec 64) (bs : List Byte) (k pl : Nat) :
    s.SameWarps (s.agentWrite ctx va bs k pl).1 := by
  have hp : s.SameWarps (s.placeWrite pl ctx va bs k).1 := by
    have hw := (s.writePieces_walks pl ctx k (rangePieces va bs.length) []).sameWarps
    unfold State.placeWrite
    dsimp only
    split
    · split
      · exact hw
      · exact hw.trans (State.performG_keeps _ _).1.sameWarps
    · exact hw
  unfold State.agentWrite
  dsimp only
  split
  · exact hp.trans (t := (s.placeWrite pl ctx va bs k).1) ⟨rfl, rfl⟩
  · exact ⟨rfl, rfl⟩
  · exact hp

theorem State.saveHeader_sameWarps (s : State) (ctx : Nat) : s.SameWarps (s.saveHeader ctx).1 := by
  unfold State.saveHeader
  dsimp only
  split
  · exact s.agentWrite_sameWarps _ _ _ _ _
  · exact (s.agentWrite_sameWarps _ _ _ _ _).trans (State.agentWrite_sameWarps _ _ _ _ _ _)

theorem State.layRanges_walks (s : State) (ctx : Nat) (rs : List (BitVec 64 × List Byte)) (acc : List WByte) : s.Walks (s.layRanges ctx rs acc).1 := by
  induction rs generalizing s acc with
  | nil => exact .refl s
  | cons r rs ih =>
    have hw := s.writePieces_walks hubPlace ctx 200 (rangePieces r.1 r.2.length) []
    unfold State.layRanges
    dsimp only
    split
    · exact hw.trans (ih _ _)
    · exact hw

theorem State.agentWrites_sameWarps (s : State) (ctx : Nat) (rs : List (BitVec 64 × List Byte)) : s.SameWarps (s.agentWrites ctx rs).1 := by
  have hw := (s.layRanges_walks ctx rs []).sameWarps
  unfold State.agentWrites
  dsimp only
  split
  · split
    · exact hw.trans (t := (s.layRanges ctx rs []).1) ⟨rfl, rfl⟩
    · exact hw.trans (State.performG_keeps _ _).1.sameWarps
  · exact hw.trans (t := (s.layRanges ctx rs []).1) ⟨rfl, rfl⟩
  · exact hw

theorem State.freeImage_leaves (s : State) (vk : Nat) :
    s.SameWarps (s.freeImage vk) ∧ (s.freeImage vk).mem = s.mem ∧ (s.freeImage vk).ops = s.ops := by
  unfold State.freeImage
  dsimp only
  split
  · exact ⟨⟨rfl, rfl⟩, rfl, rfl⟩
  · exact ⟨.refl s, rfl, rfl⟩

/-! ### RESTW -/

/-- What the read of an image leaves: the warps, the vats and memory. -/
theorem State.readImage_leaves (s : State) (va : BitVec 64) (n : Nat) :
    s.SameWarps (s.readImage va n).1 ∧ (s.readImage va n).1.vats = s.vats ∧ (s.readImage va n).1.mem = s.mem := by
  have hw := s.readPieces_sameWarps s.w.core s.l.ctx (some s.w.vat) (.exact (some s.cur)) 40 (rangePieces va n) []
  have hv := (s.readPieces_acts s.w.core s.l.ctx (some s.w.vat) (.exact (some s.cur)) 40 (rangePieces va n) []).vats
  have hm := s.readPieces_mem s.w.core s.l.ctx (some s.w.vat) (.exact (some s.cur)) 40 (rangePieces va n) []
  unfold State.readImage
  dsimp only
  split
  · exact ⟨hw, hv, hm⟩
  · exact ⟨hw, hv, hm⟩

/-- A restored warp at its place: out of restore mode, its masks and program counters as loaded. -/
theorem State.standAgain_eq (s : State) (k : Nat) (bs : List Byte) : ∃ x, s.standAgain k bs = s.setWarp k x ∧ x.vat = (s.warp k).vat ∧
    x.masks = (s.warp k).masks ∧ x.lpc = (s.warp k).lpc ∧ x.away = (s.warp k).away ∧ x.swapFault = (s.warp k).swapFault ∧ x.trap.rmode = false := by
  unfold State.standAgain
  dsimp only
  split
  · exact ⟨_, rfl, rfl, rfl, rfl, rfl, rfl, rfl⟩
  · exact ⟨_, rfl, rfl, rfl, rfl, rfl, rfl, rfl⟩

/-- A warp is back on its core, with what was noted of its eviction forgotten. -/
def Warp.comesBack (w : Warp) (now : Nat) : Warp :=
  { w with evict := .running, outside := none, away := 0, trap := { w.trap with offeredAt := now } }

/-- A warp that is not evicted with its whole vat. -/
def Warp.notWhole (w : Warp) : Warp := { w with evictWhole := false }

/-- A warp that runs on, of which no lane became READY while it was away. -/
def Warp.runsOn (w : Warp) (now : Nat) : Warp := (w.comesBack now).notWhole.restartWait now

/-- A restored warp as it runs on, before its faults are looked at. -/
def State.runOn (s : State) (k : Nat) : State :=
  s.modWarp k (fun w => ((w.comesBack s.gtime).wake (w.away &&& w.lanesIn waitBar) true).notWhole.restartWait s.gtime)

theorem State.resumeWarp_eq (s : State) (k : Nat) : s.resumeWarp k =
    (if ((s.runOn k).warp k).serviceWait then s.runOn k else (s.runOn k).replaySwapped k).offerOwn k := rfl

theorem State.runOn_alone {s : State} {k : Nat} (ha : (s.warp k).away = 0) : s.runOn k = s.modWarp k (·.runsOn s.gtime) := by
  have hmade : (s.warp k).away &&& (s.warp k).lanesIn waitBar = 0 := by
    rw [ha]
    exact BitVec.zero_and
  have hwake (w : Warp) : w.wake 0 true = w := if_pos rfl
  unfold State.runOn State.modWarp
  refine congrArg (s.setWarp k) ?_
  beta_reduce
  rw [hmade, hwake]
  rfl

/-- A warp resumes alone where nothing has waited for it. -/
theorem State.resumeWarp_alone {s : State} {k : Nat} (ha : (s.warp k).away = 0) (hf : (s.warp k).swapFault = none)
    (hd : (s.vat (s.warp k).vat).deferred = []) : ∃ m, s.resumeWarp k = { s.modWarp k (·.runsOn s.gtime) with vats := m } := by
  let u := s.modWarp k (·.runsOn s.gtime)
  have huw : u.warp k = (s.warp k).runsOn s.gtime := (s.warp_modWarp k k _).trans (if_pos rfl)
  have hreplay : u.replaySwapped k = u := by
    unfold State.replaySwapped
    rw [huw]
    split
    · next fr hfr => exact absurd (hf.symm.trans hfr) (by simp)
    · rfl
  have hown : ∃ m, u.offerOwn k = { u with vats := m } := by
    have hdef : (u.vat (u.warp k).vat).deferred = [] := by
      rw [huw]
      exact hd
    unfold State.offerOwn
    dsimp only
    rw [hdef]
    split
    · exact ⟨u.vats, rfl⟩
    · exact ⟨_, rfl⟩
  obtain ⟨m, hm⟩ := hown
  refine ⟨m, Eq.trans ?_ hm⟩
  rw [State.resumeWarp_eq, State.runOn_alone ha]
  refine congrArg (State.offerOwn · k) ?_
  split
  · rfl
  · exact hreplay

/-! The steps of RESTW of a block that passes its checks. -/

/-- An operation of a warp that is counted no longer. -/
def Op.uncounted (o : Op) (k : Nat) : Op := if o.warp = k then { o with reported := true } else o

/-- The operations of the warp in turn are counted no longer. -/
def State.uncount (s : State) : State := { s with ops := s.ops.mapVals (fun _ e => e.map (·.uncounted s.cur)) }

theorem State.opsOf_uncount (s : State) : s.uncount.opsOf s.cur = [] := by
  refine List.filterMap_eq_nil_iff.2 fun e he => ?_
  obtain ⟨x, -, rfl⟩ := Map.of_mem_mapVals (m := s.ops) (f := fun _ e => e.map (·.uncounted s.cur)) he
  cases x.2 with
  | none => rfl
  | some o =>
    refine if_neg ?_
    by_cases ho : o.warp = s.cur
    · have hu : o.uncounted s.cur = { o with reported := true } := if_pos ho
      beta_reduce
      rw [hu]
      exact fun h => Bool.noConfusion h.2
    · have hu : o.uncounted s.cur = o := if_neg ho
      beta_reduce
      rw [hu]
      exact fun h => ho h.1

/-- What RESTW leaves when the block is loaded, before the warp runs on. -/
def State.reloaded (s : State) (g : Sig) (bs : List Byte) : State :=
  (((s.retireAtBoundary g).modW (fun w => w.loadBlock bs)).uncount).standAgain s.cur bs

section
variable {s : State} {st : BitVec 2} {a : Code}

/-- RESTW loads nothing from an address that is not that of a block. -/
theorem State.restw_misaligned (hc : s.clear (saveSig 6 st a s.w.trap.rmode) = true) (h : (s.readPair a 0).toNat % 2048 ≠ 0) :
    execRestw st a s = .next (s.raiseLanes 0x0A s.w.clause.enabled 0 (s.readPair a 0) 0) := by
  unfold execRestw
  refine (State.issueRaw_of_clear hc _).trans (congrArg _ ?_)
  exact if_pos (bne_iff_ne.2 h)

/-- RESTW of a block that can be read. -/
theorem State.restw_reads (hc : s.clear (saveSig 6 st a s.w.trap.rmode) = true) (ha : (s.readPair a 0).toNat % 2048 = 0)
    (hi : s.imageWaits (s.readPair a 0) 2048 = false) (hp : s.rangeAbsent (s.readPair a 0) 2048 = false) {bs : List Byte}
    (hr : (s.readImage (s.readPair a 0) 2048).2 = .ok bs) : execRestw st a s = .next (
      if !blockOk bs then (s.readImage (s.readPair a 0) 2048).1.raiseHere fIllegalOperand 0
      else ((s.readImage (s.readPair a 0) 2048).1.reloaded (saveSig 6 st a s.w.trap.rmode) bs).warpRestored s.cur) := by
  have hcur := (s.readImage_leaves (s.readPair a 0) 2048).1.2
  unfold execRestw
  refine (State.issueRaw_of_clear hc _).trans (congrArg _ ?_)
  dsimp only
  rw [ha, hi, hp, hr]
  unfold State.reloaded
  rw [← hcur]
  rfl

/-- The state a block is loaded in, before the warp stands at its place. -/
def State.blockLoaded (s : State) (g : Sig) (bs : List Byte) : State := ((s.retireAtBoundary g).modW (fun w => w.loadBlock bs)).uncount

theorem State.modW_uncount_leaves (s : State) (f : Warp → Warp) : (s.modW f).uncount.cur = s.cur ∧ (s.modW f).uncount.mem = s.mem ∧
    (s.modW f).uncount.vats = s.vats ∧ (s.modW f).uncount.opsOf s.cur = [] := ⟨rfl, rfl, rfl, (s.modW f).opsOf_uncount⟩

theorem State.blockLoaded_leaves (s : State) (g : Sig) (bs : List Byte) : (s.blockLoaded g bs).cur = s.cur ∧ (s.blockLoaded g bs).mem = s.mem ∧
    (s.blockLoaded g bs).vats = s.vats ∧ (s.blockLoaded g bs).opsOf s.cur = [] :=
  (s.retireAtBoundary g).modW_uncount_leaves (fun w => w.loadBlock bs)

theorem State.reloaded_eq (s : State) (g : Sig) (bs : List Byte) : ∃ x, s.reloaded g bs = (s.blockLoaded g bs).setWarp s.cur x ∧
    x.vat = s.w.vat ∧ x.masks = (s.w.loadBlock bs).masks ∧ x.lpc = (s.w.loadBlock bs).lpc ∧ x.away = s.w.away ∧ x.swapFault = s.w.swapFault ∧
      x.trap.rmode = false := by
  obtain ⟨x, hx, hvat, hmasks, hlpc, haway, hswap, hmode⟩ := (s.blockLoaded g bs).standAgain_eq s.cur bs
  have hw : (s.blockLoaded g bs).warp s.cur = ({ s.w.countIssue g.stall with phase := .boundary } : Warp).loadBlock bs :=
    ((s.retireAtBoundary g).w_modW (fun w => w.loadBlock bs)).trans (congrArg (Warp.loadBlock · bs) (s.w_setW _))
  rw [hw] at hvat hmasks hlpc haway hswap
  exact ⟨x, hx, hvat, hmasks, hlpc, haway, hswap, hmode⟩

/-- A warp that was evicted alone runs on alone. -/
theorem State.warpRestored_alone {s : State} {k : Nat} (hi : (s.vat (s.warp k).vat).imageWhole = false) (ha : (s.warp k).away = 0)
    (hf : (s.warp k).swapFault = none) (hd : (s.vat (s.warp k).vat).deferred = []) :
    (s.warpRestored k).warp k = (s.warp k).runsOn s.gtime ∧ (s.warpRestored k).cur = s.cur ∧ (s.warpRestored k).mem = s.mem ∧
      (s.warpRestored k).ops = s.ops := by
  obtain ⟨m, hm⟩ := State.resumeWarp_alone ha hf hd
  have hw : (s.modWarp k (·.runsOn s.gtime)).warp k = (s.warp k).runsOn s.gtime := (s.warp_modWarp k k _).trans (if_pos rfl)
  unfold State.warpRestored
  dsimp only
  rw [hi, if_pos (by decide), hm]
  split
  · exact ⟨hw, rfl, rfl, rfl⟩
  · obtain ⟨hsame, hmem, hops⟩ := State.freeImage_leaves { s.modWarp k (·.runsOn s.gtime) with vats := m } (s.warp k).vat
    exact ⟨(hsame.warp k).trans hw, hsame.2, hmem, hops⟩

theorem Warp.runsOn_keeps (w : Warp) (now : Nat) : (w.runsOn now).evict = .running ∧ (w.runsOn now).trap.rmode = w.trap.rmode ∧
    (w.runsOn now).masks = w.masks ∧ (w.runsOn now).lpc = w.lpc := ⟨rfl, rfl, rfl, rfl⟩

/-- The warp in turn as it runs on with what a block held. -/
theorem State.reloaded_warpRestored (s : State) (g : Sig) (bs : List Byte) (halone : s.v.imageWhole = false) (hswap : s.w.swapFault = none)
    (haway : s.w.away = 0) (hdef : s.v.deferred = []) : let t := (s.reloaded g bs).warpRestored s.cur
    t.mem = s.mem ∧ t.w.evict = .running ∧ t.w.trap.rmode = false ∧ t.w.masks = (s.w.loadBlock bs).masks ∧ t.w.lpc = (s.w.loadBlock bs).lpc ∧
      t.opsOf s.cur = [] := by
  obtain ⟨x, hx, hxvat, hxmasks, hxlpc, hxaway, hxswap, hxmode⟩ := s.reloaded_eq g bs
  obtain ⟨hycur, hymem, hyvats, hyops⟩ := s.blockLoaded_leaves g bs
  dsimp only
  rw [hx]
  generalize s.blockLoaded g bs = y at hycur hymem hyvats hyops
  generalize hz : y.setWarp s.cur x = z
  have hzw : z.warp s.cur = x := hz ▸ Map.get_set_self _ _ _
  have hzvats : z.vats = y.vats := hz ▸ rfl
  have hzcur : z.cur = y.cur := hz ▸ rfl
  have hzmem : z.mem = y.mem := hz ▸ rfl
  have hzops : z.ops = y.ops := hz ▸ rfl
  have hzv : z.vat x.vat = s.v := by
    unfold State.v State.vat
    rw [hxvat, hzvats, hyvats]
  obtain ⟨htwarp, htcur, htmem, htops⟩ := State.warpRestored_alone (s := z) (k := s.cur) (by rw [hzw, hzv]; exact halone)
    (by rw [hzw, hxaway]; exact haway) (by rw [hzw, hxswap]; exact hswap) (by rw [hzw, hzv]; exact hdef)
  generalize z.warpRestored s.cur = t at htwarp htcur htmem htops
  have htw : t.w = x.runsOn z.gtime := by
    unfold State.w
    rw [htcur, hzcur, hycur, htwarp, hzw]
  obtain ⟨hevict, hmode, hmasks, hlpc⟩ := x.runsOn_keeps z.gtime
  rw [htw]
  refine ⟨htmem.trans (hzmem.trans hymem), hevict, hmode.trans hxmode, hmasks.trans hxmasks, hlpc.trans hxlpc, ?_⟩
  unfold State.opsOf at hyops ⊢
  rw [htops, hzops]
  exact hyops

/-- RESTW of a block that passes its checks, of a warp that was evicted alone. -/
theorem State.restw_loads (hc : s.clear (saveSig 6 st a s.w.trap.rmode) = true) (ha : (s.readPair a 0).toNat % 2048 = 0)
    (hi : s.imageWaits (s.readPair a 0) 2048 = false) (hp : s.rangeAbsent (s.readPair a 0) 2048 = false) {bs : List Byte}
    (hr : (s.readImage (s.readPair a 0) 2048).2 = .ok bs) (hok : blockOk bs = true) (halone : s.v.imageWhole = false)
    (hswap : s.w.swapFault = none) (haway : s.w.away = 0) (hdef : s.v.deferred = []) :
    ∃ t, execRestw st a s = .next t ∧ t.mem = s.mem ∧ t.w.evict = .running ∧ t.w.trap.rmode = false ∧ t.w.masks.amask = blk bs 0x08 ∧
      t.w.masks.lmask = blk bs 0x0C ∧ t.opsOf s.cur = [] ∧ ∀ l < 32, t.w.lpc.get l = blk bs (0x178 + 4 * l) := by
  refine ⟨_, (State.restw_reads hc ha hi hp hr).trans (congrArg _ (if_neg (by rw [hok]; decide))), ?_⟩
  obtain ⟨hwarps, hvats, hmem⟩ := s.readImage_leaves (s.readPair a 0) 2048
  generalize (s.readImage (s.readPair a 0) 2048).1 = u at hwarps hvats hmem
  have hw := hwarps.w
  have hv : u.v = s.v := by
    unfold State.v
    rw [hw]
    exact congrArg (fun m : Map (Option Vat) => (m.get s.w.vat).getD default) hvats
  obtain ⟨htmem, hevict, hmode, hmasks, hlpc, hops⟩ := u.reloaded_warpRestored (saveSig 6 st a s.w.trap.rmode) bs (by rw [hv]; exact halone)
    (by rw [hw]; exact hswap) (by rw [hw]; exact haway) (by rw [hv]; exact hdef)
  obtain ⟨hamask, hlmask, -⟩ := u.w.loadBlock_masks bs
  rw [← hwarps.2]
  refine ⟨htmem.trans hmem, hevict, hmode, (congrArg Masks.amask hmasks).trans hamask, (congrArg Masks.lmask hmasks).trans hlmask, hops,
    fun l hl => ?_⟩
  exact (congrArg (Map.get · l) (hlpc.trans (u.w.loadBlock_lanes bs).1)).trans
    (get_foldl_setEach (fun l => blk bs (0x178 + 4 * l)) [] (List.mem_range.2 hl))

end

end Sys2Proof.Machine
end

section
/-! PROOFS. The end of a drain (spec/07 R181, R183): an eviction that is called off, and a warp that enters save mode. -/

namespace Sys2Proof.Machine

/-! ### WARP_DRAIN_DONE (R181) -/

section
variable {s : State} {k : Nat}

theorem State.drained_iff : s.drained k = true ↔ (s.warp k).evict = .drain ∧ s.count k .ld = 0 ∧ s.count k .st = 0 ∧ s.count k .at = 0 ∧
    (s.warp k).lanesIn pendingData = 0 := by
  unfold State.drained
  simp only [Bool.and_eq_true, beq_iff_eq, and_assoc]

/-- Before a warp is drained the event passes by. -/
theorem State.warpDrainDone_passes (hr : (s.warp k).evict ≠ .requested) (hd : s.drained k = false) : execWarpDrainDone k s = .next s := by
  have hreq : ((s.warp k).evict == Evict.requested && (s.warp k).masks.lmask == 0) = false := by
    rw [beq_eq_false_iff_ne.2 hr]
    rfl
  unfold execWarpDrainDone
  dsimp only
  rw [hreq, if_neg Bool.false_ne_true, hd]
  rfl

/-- A warp reaches SAVE. -/
def Warp.toSave (w : Warp) (now : Nat) : Warp := { w with evict := .save, modeAt := now }

/-- A drained warp that is evicted alone enters save mode alone. -/
theorem State.warpDrainDone_alone (hd : s.drained k = true) (hi : (s.vat (s.warp k).vat).imageWhole = false) :
    execWarpDrainDone k s = .next ((s.modWarp k (·.toSave s.gtime)).enterSave (s.warp k).vat [k]) := by
  have hreq : ((s.warp k).evict == Evict.requested && (s.warp k).masks.lmask == 0) = false := by
    rw [(State.drained_iff.1 hd).1]
    rfl
  unfold execWarpDrainDone
  dsimp only
  rw [hreq, if_neg Bool.false_ne_true, hd, hi]
  rfl

/-! An eviction that is called off. -/

theorem Warp.callOff_eq {w : Warp} {o : Outside} (h : w.outside = some o) : w.callOff.evict = .running ∧ w.callOff.clause = o.clause ∧
    ∀ r, w.callOff.final r = w.final r := by
  unfold Warp.callOff
  rw [h]
  exact ⟨rfl, rfl, fun _ => rfl⟩

/-- A vat of which no eviction is under way. -/
def Vat.notWhole (v : Vat) : Vat := { v with imageWhole := false }

theorem State.callOff_one (s : State) (vk k : Nat) : (s.modWarp k Warp.callOff).SameWarps (s.callOff vk [k]) ∧ (s.callOff vk [k]).mem = s.mem := by
  let u := (s.modWarp k Warp.callOff).modVat vk Vat.notWhole
  have heq : s.callOff vk [k] = if (warpKeys vk (u.vat vk)).all (fun k => (u.warp k).evict == .running) then u.freeImage vk else u := rfl
  have hu : (s.modWarp k Warp.callOff).SameWarps u := ⟨rfl, rfl⟩
  rw [heq]
  split
  · obtain ⟨hsame, hmem, -⟩ := u.freeImage_leaves vk
    exact ⟨hu.trans hsame, hmem⟩
  · exact ⟨hu, rfl⟩

/-- The image of a warp has outgrown the save area: the warp runs on. -/
theorem State.warpDrainDone_callsOff (hd : s.drained k = true) (hi : (s.vat (s.warp k).vat).imageWhole = false)
    (hn : (s.modWarp k (·.toSave s.gtime)).resizeImage (s.warp k).vat = none) {o : Outside} (ho : (s.warp k).outside = some o) :
    ∃ t, execWarpDrainDone k s = .next t ∧ (t.warp k).evict = .running ∧ (t.warp k).clause = o.clause ∧ t.mem = s.mem ∧
      ∀ r, (t.warp k).final r = (s.warp k).final r := by
  refine ⟨_, State.warpDrainDone_alone hd hi, ?_⟩
  have henter : (s.modWarp k (·.toSave s.gtime)).enterSave (s.warp k).vat [k] = (s.modWarp k (·.toSave s.gtime)).callOff (s.warp k).vat [k] := by
    unfold State.enterSave
    rw [hn]
  obtain ⟨hsame, hmem⟩ := (s.modWarp k (·.toSave s.gtime)).callOff_one (s.warp k).vat k
  have hw : ((s.modWarp k (·.toSave s.gtime)).modWarp k Warp.callOff).warp k = ((s.warp k).toSave s.gtime).callOff := by
    rw [State.warp_modWarp, if_pos rfl, State.warp_modWarp, if_pos rfl]
  obtain ⟨hevict, hclause, hfinal⟩ := Warp.callOff_eq (w := (s.warp k).toSave s.gtime) (o := o) ho
  rw [henter, hsame.warp k, hw]
  exact ⟨hevict, hclause, hmem, hfinal⟩

/-! A warp that enters save mode. -/

/-- What the resizing of an image leaves. -/
theorem State.resizeImage_leaves {s u : State} {vk : Nat} (h : s.resizeImage vk = some u) :
    s.SameWarps u ∧ u.lots = s.lots ∧ ∃ i, u.vat vk = { s.vat vk with image := i } := by
  unfold State.resizeImage at h
  dsimp only at h
  split at h
  · cases h
  · split at h
    · obtain rfl := Option.some.inj h
      exact ⟨.refl s, rfl, (s.vat vk).image, rfl⟩
    · split at h
      · cases h
      · obtain ⟨o, -, rfl⟩ := Option.map_eq_some_iff.1 h
        refine ⟨⟨rfl, rfl⟩, rfl, some (o, (s.vat vk).imageBytes (s.vat vk).nwarp), ?_⟩
        exact (State.vat_setVat _ _ _ _).trans (if_pos rfl)

/-- What save and restore mode find in their scalar registers. -/
def modeWords (image : BitVec 64) (num : Nat) (whole : Bool) (reason : BitVec 2) : List (Nat × Word) :=
  [(cellKb 4 0, image.setWidth 32), (cellKb 4 1, BitVec.ofNat 32 num), (cellKb 4 2, if whole then 1 else 0), (cellKb 4 3, reason.setWidth 32)]

/-- Their predicates, all clear. -/
def modePreds : List (Nat × Word) := allLanes.flatMap (fun l => [(cellPb 4 0 l, (0 : Word)), (cellPb 4 1 l, 0)])

theorem Warp.enterMode_readCell (w : Warp) (restore : Bool) (vec : Nat) (image : BitVec 64) (whole : Bool) (reason : BitVec 2) (now c : Nat) :
    (w.enterMode restore vec image whole reason now).readCell c = (w.flush.regs.setAll (modeWords image w.num whole reason ++ modePreds)).get c := by
  have hregs : (w.enterMode restore vec image whole reason now).regs = w.flush.regs.setAll (modeWords image w.num whole reason ++ modePreds) := by
    unfold Warp.enterMode
    dsimp only
    rfl
  have hpend : (w.enterMode restore vec image whole reason now).pending = [] := rfl
  unfold Warp.readCell
  rw [hpend, hregs]
  rfl

theorem modeWords_nodup (image : BitVec 64) (num : Nat) (whole : Bool) (reason : BitVec 2) :
    ((modeWords image num whole reason).map Prod.fst).Nodup := by
  show [cellKb 4 0, cellKb 4 1, cellKb 4 2, cellKb 4 3].Nodup
  decide

theorem Warp.enterMode_bank (w : Warp) (restore : Bool) (vec : Nat) (image : BitVec 64) (whole : Bool) (reason : BitVec 2) (now : Nat) :
    let x := w.enterMode restore vec image whole reason now
    x.readCell (cellKb 4 0) = image.setWidth 32 ∧ x.readCell (cellKb 4 1) = BitVec.ofNat 32 w.num ∧
      x.readCell (cellKb 4 2) = (if whole then 1 else 0) ∧ x.readCell (cellKb 4 3) = reason.setWidth 32 := by
  have hcell (i : Nat) {v : Word} (hi : i < 4) (hmem : (cellKb 4 i, v) ∈ modeWords image w.num whole reason) :
      (w.enterMode restore vec image whole reason now).readCell (cellKb 4 i) = v := by
    rw [Warp.enterMode_readCell]
    refine Map.get_setAll_of_mem (List.mem_append_left _ hmem) fun e he hc => ?_
    rcases List.mem_append.1 he with he | he
    · exact congrArg Prod.snd (List.inj_on_of_nodup_map (f := Prod.fst) (modeWords_nodup image w.num whole reason) he hmem hc)
    · exfalso
      obtain ⟨l, -, he⟩ := List.mem_flatMap.1 he
      simp only [List.mem_cons, List.not_mem_nil, or_false] at he
      unfold cellKb at hc
      unfold cellPb at he
      rcases he with rfl | rfl
      · dsimp only at hc
        omega
      · dsimp only at hc
        omega
  exact ⟨hcell 0 (by decide) (by simp [modeWords]), hcell 1 (by decide) (by simp [modeWords]), hcell 2 (by decide) (by simp [modeWords]),
    hcell 3 (by decide) (by simp [modeWords])⟩

theorem Warp.enterMode_leaves (w : Warp) (restore : Bool) (vec : Nat) (image : BitVec 64) (whole : Bool) (reason : BitVec 2) (now : Nat) :
    let x := w.enterMode restore vec image whole reason now
    x.trap.smode = !restore ∧ x.trap.rmode = restore ∧ x.masks = w.masks ∧ x.lpc = w.lpc ∧ x.evict = w.evict ∧ x.resident = w.resident ∧
      x.core = w.core ∧ ∀ n < 32, x.mpc.get n = BitVec.ofNat 32 vec :=
  ⟨rfl, rfl, rfl, rfl, rfl, rfl, rfl, fun _ hn => (get_setPcs [] _ _ _).trans (if_pos (List.mem_range.2 hn))⟩

/-- A warp whose image has its place enters save mode once the header and its block are written. -/
theorem State.enterSave_one {s u : State} {vk k : Nat} (hu : s.resizeImage vk = some u) (hi : (u.vat vk).imageWhole = false)
    (hh : (u.saveHeader (u.lot (u.vat vk).lot).ctx).2 = none)
    (hw : ((u.saveHeader (u.lot (u.vat vk).lot).ctx).1.agentWrites (u.lot (u.vat vk).lot).ctx
      ((u.imageVa vk, (u.saveHeader (u.lot (u.vat vk).lot).ctx).1.imageHeader vk) :: [k].map (fun k =>
        (u.imageVa vk + BitVec.ofNat 64 (0x800 + 2048 * (u.warp k).num), (u.saveHeader (u.lot (u.vat vk).lot).ctx).1.controlBlock k)))).2 = none) :
    ∃ now, (s.enterSave vk [k]).warp k =
      (u.warp k).enterMode false (u.lot (u.vat vk).lot).code.svec (u.imageVa vk) false (u.warp k).evictReason now := by
  unfold State.enterSave
  rw [hu]
  dsimp only
  rw [hh]
  dsimp only
  rw [hw, hi]
  dsimp only
  rw [if_neg Bool.false_ne_true, List.foldl_cons, List.foldl_nil, State.warp_modWarp, if_pos rfl, (State.agentWrites_sameWarps _ _ _).warp, (State.saveHeader_sameWarps _ _).warp]
  exact ⟨_, rfl⟩

/-- A drained warp that is evicted alone stands in save mode once its block is written. -/
theorem State.warpDrainDone_saves (hd : s.drained k = true) (hi : (s.vat (s.warp k).vat).imageWhole = false) {u : State}
    (hu : (s.modWarp k (·.toSave s.gtime)).resizeImage (s.warp k).vat = some u) {ctx : Nat}
    (hctx : ctx = (s.lot (s.vat (s.warp k).vat).lot).ctx) (hh : (u.saveHeader ctx).2 = none)
    (hw : ((u.saveHeader ctx).1.agentWrites ctx [(u.imageVa (s.warp k).vat, (u.saveHeader ctx).1.imageHeader (s.warp k).vat),
        (u.imageVa (s.warp k).vat + BitVec.ofNat 64 (0x800 + 2048 * (s.warp k).num), (u.saveHeader ctx).1.controlBlock k)]).2 = none) :
    ∃ t now, execWarpDrainDone k s = .next t ∧ t.warp k = ((s.warp k).toSave s.gtime).enterMode false
      (s.lot (s.vat (s.warp k).vat).lot).code.svec (u.imageVa (s.warp k).vat) false (s.warp k).evictReason now := by
  obtain ⟨hsame, hlots, i, hvat⟩ := State.resizeImage_leaves hu
  have hwarp : u.warp k = (s.warp k).toSave s.gtime := (hsame.warp k).trans ((s.warp_modWarp k k _).trans (if_pos rfl))
  have hlot : u.lot (u.vat (s.warp k).vat).lot = s.lot (s.vat (s.warp k).vat).lot := by
    rw [hvat]
    unfold State.lot
    rw [hlots]
    rfl
  have himage : (u.vat (s.warp k).vat).imageWhole = false := (congrArg Vat.imageWhole hvat).trans hi
  subst hctx
  rw [← hlot] at hh hw
  obtain ⟨now, hnow⟩ := State.enterSave_one (k := k) hu himage hh (by rw [List.map_singleton, hwarp]; exact hw)
  rw [hlot, hwarp] at hnow
  exact ⟨_, now, State.warpDrainDone_alone hd hi, hnow⟩

end

end Sys2Proof.Machine
end

section
/-! PROOFS. The return of a saved vat (spec/07 R180, R185): its image is read and checked, and its warps enter restore mode. -/

namespace Sys2Proof.Machine

/-! ### VAT_RESTORE_PLACE (R180, R185) -/

/-! The reads of an image and its code: they leave what the firmware's accesses leave, or a fault of the context. -/

/-- An access that leaves contexts, lots and vats alone, or reports a fault in a context that is not being reset. -/
def State.ActsOrReports (c : Nat) (s t : State) : Prop := s.Acts t ∨ ((s.ctx c).resetting = false → ∃ code, (t.ctx c).Reports code)

theorem State.Acts.resetting {s t : State} (h : s.Acts t) (c : Nat) : (t.ctx c).resetting = (s.ctx c).resetting := by
  obtain ⟨m, hm⟩ := h.ctx c
  rw [hm]

theorem State.Acts.thenReports {c : Nat} {s t u : State} (h : s.Acts t) (g : State.ActsOrReports c t u) : State.ActsOrReports c s u :=
  g.imp h.trans fun g hr => g ((h.resetting c).trans hr)

theorem State.launchLook_reports (s : State) (ctx : Nat) (va : BitVec 64) (n : Nat) : State.ActsOrReports ctx s (s.launchLook ctx va n).1 := by
  have hw := (s.noteWalk_walks hubPlace ctx { s.translate hubPlace ctx va .read n with home := 0 }).acts
  show State.ActsOrReports ctx s (s.launchXlat ctx va .read n).1
  unfold State.launchXlat
  dsimp only
  split
  · split
    · exact hw.thenReports (.inr fun hr => ⟨_, State.faultContext_reports _ ctx _ hr⟩)
    · exact .inl hw
  · exact .inl hw

theorem State.launchPieces_reports (s : State) (ctx n : Nat) (ps : List (BitVec 64 × Nat)) (acc : List Byte) :
    State.ActsOrReports ctx s (s.launchPieces ctx n ps acc).1 := by
  induction ps generalizing s n acc with
  | nil => exact .inl (.refl s)
  | cons p ps ih =>
    obtain ⟨va, k⟩ := p
    unfold State.launchPieces
    dsimp only
    split
    · next e =>
      exact (s.launchLook_walks ctx va n (fun d he => by rw [e] at he; cases he)).acts.thenReports (ih _ _ _)
    · exact s.launchLook_reports ctx va n

theorem State.loadCode_reports (s : State) (ctx : Nat) (r : LotRecord) : State.ActsOrReports ctx s (s.loadCode ctx r).1 := by
  have hh : State.ActsOrReports ctx s (s.launchRead ctx r.codeva 256 420).1 := s.launchPieces_reports _ _ _ _
  unfold State.loadCode
  split
  · exact .inl (.refl s)
  · dsimp only
    split
    · exact hh
    · next e =>
      have hw : s.Acts (s.launchRead ctx r.codeva 256 420).1 := (s.launchPieces_walks _ _ _ _ e).acts
      split
      · exact hh
      · split
        · exact hw.thenReports (State.launchPieces_reports _ _ _ _ _)
        · split
          · exact hw.thenReports (State.launchPieces_reports _ _ _ _ _)
          · exact hw.thenReports (State.launchPieces_reports _ _ _ _ _)

section
variable {s : State} {vk : Nat}

theorem State.headerFault_acts (s : State) (vk : Nat) : s.Acts (s.headerFault vk).1 := State.readPieces_acts _ _ _ _ _ _ _ _

theorem State.restoreFault_reports (s : State) (vk : Nat) : State.ActsOrReports (s.lot (s.vat vk).lot).ctx s (s.restoreFault vk).1 := by
  have hh := s.headerFault_acts vk
  unfold State.restoreFault
  dsimp only
  split
  · have hc := hh.thenReports (c := (s.lot (s.vat vk).lot).ctx)
      ((s.headerFault vk).1.loadCode_reports (s.lot (s.vat vk).lot).ctx (s.lot (s.vat vk).lot).record)
    split
    · exact hc
    · exact hc
    · exact hc
  · exact .inl hh

/-- An image and a code object that pass their checks were read, and nothing else. -/
theorem State.restoreFault_passes (h : (s.restoreFault vk).2 = .ok none) :
    s.Acts (s.restoreFault vk).1 ∧ s.SameWarps (s.restoreFault vk).1 ∧ (s.restoreFault vk).1.mem = s.mem := by
  have hh := s.headerFault_acts vk
  have hw : s.SameWarps (s.headerFault vk).1 := State.readPieces_sameWarps _ _ _ _ _ _ _ _
  have hm : (s.headerFault vk).1.mem = s.mem := State.readPieces_mem _ _ _ _ _ _ _ _
  revert h
  unfold State.restoreFault
  dsimp only
  split
  · split
    · next e =>
      have hl := State.loadCode_walks _ _ _ e
      exact fun _ => ⟨hh.trans hl.acts, hw.trans hl.sameWarps, hl.mem.trans hm⟩
    · exact fun h => by cases h
    · exact fun h => by cases h
  · exact fun _ => ⟨hh, hw, hm⟩

/-- A failed check or read of a restore faults the context of the vat's lot. -/
theorem State.restoreFault_answers (hr : (s.ctx (s.lot (s.vat vk).lot).ctx).resetting = false) {t : State} (fr : FaultRecord)
    (ht : t = (s.restoreFault vk).1.faultContext ((s.restoreFault vk).1.lot ((s.restoreFault vk).1.vat vk).lot).ctx fr) :
    (t.ctx (s.lot (s.vat vk).lot).ctx).faulted = true ∨ (t.ctx (s.lot (s.vat vk).lot).ctx).waiting ≠ [] := by
  rw [ht]
  rcases s.restoreFault_reports vk with h | h
  · have hlot : (s.restoreFault vk).1.lot ((s.restoreFault vk).1.vat vk).lot = s.lot (s.vat vk).lot := by
      rw [h.vat]
      unfold State.lot
      rw [h.lots]
    rw [hlot]
    exact (State.faultContext_reports _ _ fr ((h.resetting _).trans hr)).faultedOrWaiting
  · obtain ⟨code, hc⟩ := h hr
    exact (((State.faultContext_onward _ _ fr).ctx _).reports code hc).faultedOrWaiting

/-- A vat that may not return, or that another lot or return comes before, stays away. -/
theorem State.vatRestorePlace_passes (h : s.mayReturn vk = false ∧ s.mayReturnPart vk = false ∨ s.returnWaits vk = true) :
    execVatRestorePlace vk s = .next s := by
  unfold execVatRestorePlace
  dsimp only
  split
  · rfl
  · next hw =>
    rcases h with ⟨hm, hp⟩ | h
    · rw [hm, hp]
      rfl
    · exact absurd (by rw [h, Bool.or_true]) hw

/-- A vat that may return and finds room has its image read and checked. -/
theorem State.vatRestorePlace_reads (hv : (s.vats.get vk).isSome = true) (hw : s.returnWaits vk = false) (hm : s.mayReturn vk = true)
    {core : Nat} {subs : List Nat} (hp : s.placeFor (s.vat vk).lot (s.vat vk).need = some (core, subs)) :
    execVatRestorePlace vk s = .next (match (s.restoreFault vk).2 with
      | .ok (some i) => (s.restoreFault vk).1.failRestore vk i
      | .ok none => (s.restoreFault vk).1.returnVat vk core subs
      | .error .held => (s.restoreFault vk).1
      | .error m => (s.restoreFault vk).1.saveMiss vk m) := by
  have hthere : ((s.vats.get vk).isNone || s.returnWaits vk) = false := by
    rw [hw, ← Option.not_isSome, hv]
    rfl
  unfold execVatRestorePlace
  dsimp only
  rw [hthere, if_neg Bool.false_ne_true, hm, if_pos rfl, hp]
  generalize s.restoreFault vk = r
  obtain ⟨u, m | _ | i⟩ := r
  · cases m <;> rfl
  · rfl
  · rfl

theorem State.mayReturn_resetting (hm : s.mayReturn vk = true) : (s.ctx (s.lot (s.vat vk).lot).ctx).resetting = false := by
  unfold State.mayReturn at hm
  dsimp only at hm
  simpa using (Bool.and_eq_true_iff.1 hm).2

/-- A restore whose image or code fails a check, or cannot be read, faults the context. -/
theorem State.vatRestorePlace_fails (hv : (s.vats.get vk).isSome = true) (hw : s.returnWaits vk = false) (hm : s.mayReturn vk = true)
    {core : Nat} {subs : List Nat} (hp : s.placeFor (s.vat vk).lot (s.vat vk).need = some (core, subs))
    (hf : (s.restoreFault vk).2 ≠ .ok none) (hh : (s.restoreFault vk).2 ≠ .error .held) : ∃ t, execVatRestorePlace vk s = .next t ∧
      ((t.ctx (s.lot (s.vat vk).lot).ctx).faulted = true ∨ (t.ctx (s.lot (s.vat vk).lot).ctx).waiting ≠ []) := by
  have hr := State.mayReturn_resetting hm
  refine ⟨_, State.vatRestorePlace_reads hv hw hm hp, ?_⟩
  split
  · exact State.restoreFault_answers hr _ rfl
  · next e => exact absurd e hf
  · next e => exact absurd e hh
  · exact State.restoreFault_answers hr _ rfl

end

/-! A vat that returns. -/

/-- A warp stands at the restore vector on a core. -/
structure Warp.AtRestore (core rvec : Nat) (x : Warp) : Prop where
  resident : x.resident = true
  core : x.core = core
  evict : x.evict = .restore
  rmode : x.trap.rmode = true
  mpc : ∀ n < 32, x.mpc.get n = BitVec.ofNat 32 rvec

/-- Warps that are placed anew leave the vats, the lots and memory, and every warp's vat and masks. -/
structure State.Returns (core rvec : Nat) (s t : State) : Prop where
  mem : t.mem = s.mem
  vats : t.vats = s.vats
  lots : t.lots = s.lots
  vat : ∀ k, (t.warp k).vat = (s.warp k).vat
  masks : ∀ k, (t.warp k).masks = (s.warp k).masks
  stand : ∀ k, (s.warp k).AtRestore core rvec → (t.warp k).AtRestore core rvec

section
variable {s t u : State} {core rvec : Nat}

theorem State.Returns.refl (s : State) : State.Returns core rvec s s := ⟨rfl, rfl, rfl, fun _ => rfl, fun _ => rfl, fun _ => id⟩

theorem State.Returns.trans (h : State.Returns core rvec s t) (g : State.Returns core rvec t u) : State.Returns core rvec s u where
  mem := g.mem.trans h.mem
  vats := g.vats.trans h.vats
  lots := g.lots.trans h.lots
  vat k := (g.vat k).trans (h.vat k)
  masks k := (g.masks k).trans (h.masks k)
  stand k := g.stand k ∘ h.stand k

/-- A warp on the core it returns to, before it enters restore mode. -/
def Warp.comesTo (w : Warp) (core slot placed : Nat) : Warp :=
  { w with
    core := core, slot := slot, placed := placed, resident := true, evict := .restore, regs := [], pending := [], rowp := 0, lkstat := 0,
    poisoned := [] }

theorem Warp.comesTo_keeps (w : Warp) (core slot placed : Nat) : (w.comesTo core slot placed).vat = w.vat ∧
    (w.comesTo core slot placed).masks = w.masks ∧ (w.comesTo core slot placed).resident = true ∧ (w.comesTo core slot placed).core = core ∧
    (w.comesTo core slot placed).evict = .restore := ⟨rfl, rfl, rfl, rfl, rfl⟩

theorem State.enterRestore_eq (s : State) (k core slot placed : Nat) : s.enterRestore k core slot placed = s.modWarp k (fun w =>
    (w.comesTo core slot placed).enterMode true (s.lot (s.vat (s.warp k).vat).lot).code.rvec (s.imageVa (s.warp k).vat)
      (s.vat (s.warp k).vat).imageWhole w.evictReason s.gtime) := rfl

theorem Warp.enterMode_vat (w : Warp) (restore : Bool) (vec : Nat) (image : BitVec 64) (whole : Bool) (reason : BitVec 2) (now : Nat) :
    (w.enterMode restore vec image whole reason now).vat = w.vat := rfl

theorem State.enterRestore_returns {k : Nat} (slot placed : Nat) (hr : (s.lot (s.vat (s.warp k).vat).lot).code.rvec = rvec) :
    State.Returns core rvec s (s.enterRestore k core slot placed) ∧ ((s.enterRestore k core slot placed).warp k).AtRestore core rvec := by
  obtain ⟨hvat, hmasks, hres, hcore, hevict⟩ := (s.warp k).comesTo_keeps core slot placed
  obtain ⟨-, hmode, hmasks', -, hevict', hres', hcore', hmpc⟩ := ((s.warp k).comesTo core slot placed).enterMode_leaves true rvec
    (s.imageVa (s.warp k).vat) (s.vat (s.warp k).vat).imageWhole (s.warp k).evictReason s.gtime
  have hvat' := ((s.warp k).comesTo core slot placed).enterMode_vat true rvec (s.imageVa (s.warp k).vat) (s.vat (s.warp k).vat).imageWhole
    (s.warp k).evictReason s.gtime
  rw [State.enterRestore_eq, hr]
  generalize hx : ((s.warp k).comesTo core slot placed).enterMode true rvec (s.imageVa (s.warp k).vat) (s.vat (s.warp k).vat).imageWhole
    (s.warp k).evictReason s.gtime = x at *
  have hstand : x.AtRestore core rvec := ⟨hres'.trans hres, hcore'.trans hcore, hevict'.trans hevict, hmode, hmpc⟩
  have hset : s.modWarp k (fun w => (w.comesTo core slot placed).enterMode true rvec (s.imageVa (s.warp k).vat)
      (s.vat (s.warp k).vat).imageWhole w.evictReason s.gtime) = s.setWarp k x := congrArg (s.setWarp k) hx
  have hw (j : Nat) : (s.setWarp k x).warp j = if j = k then x else s.warp j := s.warp_setWarp _ _ _
  rw [hset]
  refine ⟨⟨rfl, rfl, rfl, fun j => ?_, fun j => ?_, fun j hj => ?_⟩, ?_⟩
  · rw [hw]
    split
    · next e => rw [e, hvat', hvat]
    · rfl
  · rw [hw]
    split
    · next e => rw [e, hmasks', hmasks]
    · rfl
  · rw [hw]
    split
    · exact hstand
    · exact hj
  · rw [hw, if_pos rfl]
    exact hstand

/-- The warps of a vat that return with it. -/
def State.enterRestores (s : State) (vk core : Nat) (slot placed : Nat → Nat) (ns : List Nat) : State :=
  ns.foldl (fun s i => s.enterRestore (warpKey vk i) core (slot i) (placed i)) s

theorem State.enterRestores_return (vk : Nat) (slot placed : Nat → Nat) (hr : (s.lot (s.vat vk).lot).code.rvec = rvec) (ns : List Nat)
    (hv : ∀ i ∈ ns, (s.warp (warpKey vk i)).vat = vk) : State.Returns core rvec s (s.enterRestores vk core slot placed ns) ∧
    ∀ i ∈ ns, ((s.enterRestores vk core slot placed ns).warp (warpKey vk i)).AtRestore core rvec := by
  induction ns generalizing s with
  | nil => exact ⟨.refl s, fun i hi => absurd hi List.not_mem_nil⟩
  | cons n ns ih =>
    obtain ⟨hn, hns⟩ := List.forall_mem_cons.1 hv
    obtain ⟨h1, h2⟩ := State.enterRestore_returns (core := core) (rvec := rvec) (slot n) (placed n) (by rw [hn, hr])
    have hr' : ((s.enterRestore (warpKey vk n) core (slot n) (placed n)).lot ((s.enterRestore (warpKey vk n) core (slot n) (placed n)).vat vk).lot).code.rvec = rvec := by
      unfold State.lot State.vat
      rw [h1.lots, h1.vats]
      exact hr
    obtain ⟨g1, g2⟩ := ih hr' fun i hi => (h1.vat _).trans (hns i hi)
    refine ⟨h1.trans g1, List.forall_mem_cons.2 ⟨g1.stand _ h2, g2⟩⟩

end

/-! The place of a vat that returns. -/

/-- What the placement of a returning vat leaves, before its warps enter restore mode. -/
theorem State.moveTo_leaves (s : State) (vk core : Nat) : (s.moveTo vk core).mem = s.mem ∧ (s.moveTo vk core).warps = s.warps ∧
    (s.moveTo vk core).vats = s.vats ∧ (s.moveTo vk core).lots = s.lots := by
  unfold State.moveTo
  dsimp only
  split
  · exact ⟨rfl, rfl, rfl, rfl⟩
  · have h := (s.modCore core (fun c => { c with l1 := [] })).deliverInvals_drops (dieOfCore core)
    exact ⟨h.mem, h.sameWarps.1, (congrArg State.vats h.only).trans rfl, (congrArg State.lots h.only).trans rfl⟩

/-- A vat on the core it returns to. -/
def Vat.comesTo (v : Vat) (core slot : Nat) (vvmask : Word) : Vat :=
  { v with place := .resident, core := core, slot := slot, vvmask := vvmask, vbstat := vbMake false v.firstLive 0 }

/-- A lot whose last vat came to a die. -/
def Lot.lastOn (l : Lot) (die : Nat) : Lot := { l with lastDie := some die }

theorem State.code_lastOn (s : State) (k die : Nat) : ((s.modLot k (·.lastOn die)).lot k).code = (s.lot k).code := by
  rw [State.lot_modLot, if_pos rfl]
  rfl

/-- A returning vat at its place, its warps still away. -/
def State.vatBack (s : State) (vk core : Nat) : State :=
  { (((s.moveTo vk core).touch (s.lot (s.vat vk).lot).ctx (dieBit (dieOfCore core))).setVat vk
      ((s.vat vk).comesTo core (s.freeVatSlot core) (s.lot (s.vat vk).lot).code.vvm)).modLot (s.vat vk).lot
      (·.lastOn (dieOfCore core)) with nextPlace := (s.moveTo vk core).nextPlace + (s.vat vk).nwarp }

theorem State.returnVat_eq (s : State) (vk core : Nat) (subs : List Nat) : s.returnVat vk core subs = (s.vatBack vk core).enterRestores vk core
    (fun i => (s.slotsFor core subs []).getD i 0) ((s.moveTo vk core).nextPlace + ·) (List.range (s.vat vk).nwarp) := rfl

theorem State.vatBack_leaves (s : State) (vk core : Nat) : (s.vatBack vk core).mem = s.mem ∧ (s.vatBack vk core).warps = s.warps ∧
    (∃ slot, (s.vatBack vk core).vat vk = (s.vat vk).comesTo core slot (s.lot (s.vat vk).lot).code.vvm) ∧
    ((s.vatBack vk core).lot (s.vat vk).lot).code = (s.lot (s.vat vk).lot).code := by
  obtain ⟨hmem, hwarps, hvats, hlots⟩ := s.moveTo_leaves vk core
  unfold State.vatBack
  generalize s.moveTo vk core = u at hmem hwarps hvats hlots
  refine ⟨hmem, hwarps, ⟨s.freeVatSlot core, (State.vat_setVat _ _ _ _).trans (if_pos rfl)⟩, ?_⟩
  have hlot : u.lot (s.vat vk).lot = s.lot (s.vat vk).lot := by
    unfold State.lot
    rw [hlots]
  exact (State.code_lastOn _ (s.vat vk).lot _).trans (congrArg Lot.code hlot)

/-- A whole vat returns: it stands on its core, its warps in restore mode. -/
theorem State.returnVat_returns (s : State) (vk core : Nat) (subs : List Nat) (hv : ∀ i ∈ warpKeys vk (s.vat vk), (s.warp i).vat = vk) :
    let t := s.returnVat vk core subs
    t.mem = s.mem ∧ (t.vat vk).place = .resident ∧ (t.vat vk).core = core ∧ (t.vat vk).vvmask = (s.lot (s.vat vk).lot).code.vvm ∧
      ∀ i ∈ warpKeys vk (s.vat vk), (t.warp i).AtRestore core (s.lot (s.vat vk).lot).code.rvec ∧ (t.warp i).masks = (s.warp i).masks := by
  obtain ⟨hmem, hwarps, ⟨slot, hvat⟩, hcode⟩ := s.vatBack_leaves vk core
  have hw (k : Nat) : (s.vatBack vk core).warp k = s.warp k := by
    unfold State.warp
    rw [hwarps]
  have hlot : ((s.vatBack vk core).vat vk).lot = (s.vat vk).lot := (congrArg Vat.lot hvat).trans rfl
  obtain ⟨hret, hstand⟩ := (s.vatBack vk core).enterRestores_return (core := core) (rvec := (s.lot (s.vat vk).lot).code.rvec) vk
    (fun i => (s.slotsFor core subs []).getD i 0) ((s.moveTo vk core).nextPlace + ·) (by rw [hlot, hcode]) (List.range (s.vat vk).nwarp)
    (fun i hi => (congrArg Warp.vat (hw _)).trans (hv _ (List.mem_map_of_mem hi)))
  dsimp only
  rw [State.returnVat_eq]
  generalize (s.vatBack vk core).enterRestores vk core (fun i => (s.slotsFor core subs []).getD i 0) ((s.moveTo vk core).nextPlace + ·)
    (List.range (s.vat vk).nwarp) = t at hret hstand
  have htv : t.vat vk = (s.vat vk).comesTo core slot (s.lot (s.vat vk).lot).code.vvm := by
    rw [← hvat]
    unfold State.vat
    rw [hret.vats]
  rw [htv]
  refine ⟨hret.mem.trans hmem, rfl, rfl, rfl, fun k hk => ⟨?_, (hret.masks k).trans (congrArg Warp.masks (hw k))⟩⟩
  obtain ⟨i, hi, rfl⟩ := List.mem_map.1 hk
  exact hstand i hi

theorem State.vatRestorePlace_returns {s : State} {vk : Nat} (hv : (s.vats.get vk).isSome = true) (hw : s.returnWaits vk = false)
    (hm : s.mayReturn vk = true) {core : Nat} {subs : List Nat} (hp : s.placeFor (s.vat vk).lot (s.vat vk).need = some (core, subs))
    (hf : (s.restoreFault vk).2 = .ok none) (hk : ∀ i ∈ warpKeys vk (s.vat vk), (s.warp i).vat = vk) :
    ∃ t, execVatRestorePlace vk s = .next t ∧ t.mem = s.mem ∧ (t.vat vk).place = .resident ∧ (t.vat vk).core = core ∧
      (t.vat vk).vvmask = (s.lot (s.vat vk).lot).code.vvm ∧
      ∀ i ∈ warpKeys vk (s.vat vk), (t.warp i).AtRestore core (s.lot (s.vat vk).lot).code.rvec ∧ (t.warp i).masks = (s.warp i).masks := by
  have ht := State.vatRestorePlace_reads hv hw hm hp
  rw [hf] at ht
  refine ⟨_, ht, ?_⟩
  obtain ⟨hacts, hsame, hmem⟩ := State.restoreFault_passes hf
  generalize (s.restoreFault vk).1 = u at hacts hsame hmem
  have hvat := hacts.vat vk
  have hlot (j : Nat) : u.lot j = s.lot j := by
    unfold State.lot
    rw [hacts.lots]
  have h := u.returnVat_returns vk core subs (by
    rw [hvat]
    exact fun i hi => (congrArg Warp.vat (hsame.warp i)).trans (hk i hi))
  dsimp only at h ⊢
  rw [hvat, hlot] at h
  obtain ⟨h1, h2, h3, h4, h5⟩ := h
  exact ⟨h1.trans hmem, h2, h3, h4, fun i hi => ⟨(h5 i hi).1, (h5 i hi).2.trans (congrArg Warp.masks (hsame.warp i))⟩⟩

/-- Settles O45. A block's words are those the load reads, field by field; SAVEW, SAVEW.DONE, RESTW and the two events of an eviction are taken in
their cases, with what the accesses of the firmware leave alone. -/
theorem saveRestore : Obligations.SaveRestore := by
  unfold Obligations.SaveRestore
  intro s st a k vat va savew done restw kept w x v ks
  refine ⟨fun w0 => ?_, fun hc => ⟨State.savew_misaligned hc, fun ha hf hq hs => ⟨State.savew_window hc ha hf hq hs, fun ps hw hps =>
      State.savew_memory hc ha hf hq hs hw hps⟩⟩,
    fun hc => ⟨State.savewDone_waits hc, State.savewDone_stops hc, State.savewDone_saves hc⟩,
    fun hc => ⟨State.restw_misaligned hc, fun bs ha hi hp hr => ⟨fun hbad => ?_, State.restw_loads hc ha hi hp hr⟩⟩,
    fun hreq h => ?_, fun he hld hst hat hp hi => ⟨fun o hn ho => ?_, fun u hu hh hw => ?_⟩,
    fun hm hp => State.vatRestorePlace_passes (.inl ⟨hm, hp⟩), fun hw => State.vatRestorePlace_passes (.inr hw),
    fun hv hw hm core subs hp => ⟨State.vatRestorePlace_fails hv hw hm hp, fun hf hk => ?_⟩⟩
  case refine_1 =>
    obtain ⟨hdep, sgact, wpark, vwb⟩ := s.loadBlock_mode k w0
    obtain ⟨amask, lmask, ham1, ham2, wset, arrl, sggrp, blmask, joins⟩ := s.loadBlock_masks k w0
    obtain ⟨ev1, ev2⟩ := s.loadBlock_events k w0
    obtain ⟨dhv, sgcfg, dcerr, fstat, sg⟩ := s.loadBlock_status k w0
    obtain ⟨tmode, tmsk, trpc, trmask, tvmask, frec⟩ := s.loadBlock_trap k w0
    exact ⟨s.controlBlock_length k, hdep, sgact, wpark, vwb, amask, lmask, ham1, ham2, wset, arrl, sggrp, blmask, joins, ev1, ev2, dhv, sgcfg, dcerr,
      fstat, sg, tmode, tmsk, trpc, trmask, tvmask, frec, fun l hl => s.loadBlock_lanes k w0 hl,
      fun i hi => ⟨s.loadBlock_bank k w0 (b := 0) (by decide) hi, fun b hb hb' => by
        have h := s.loadBlock_bank k w0 (b := b) (by omega) hi
        rwa [if_neg (by omega)] at h⟩,
      fun l hl i hi d hd => s.loadBlock_hv k w0 hd hi hl⟩
  case refine_2 => exact (State.restw_reads hc ha hi hp hr).trans (congrArg _ (if_pos (by rw [hbad]; rfl)))
  case refine_3 =>
    refine State.warpDrainDone_passes hreq (Bool.eq_false_iff.2 fun hd => ?_)
    obtain ⟨he, hld, hst, hat, hp⟩ := State.drained_iff.1 hd
    rcases h with h | h | h | h | h
    · exact h he
    · exact h hld
    · exact h hst
    · exact h hat
    · exact h hp
  case refine_4 => exact State.warpDrainDone_callsOff (State.drained_iff.2 ⟨he, hld, hst, hat, hp⟩) hi hn ho
  case refine_5 =>
    obtain ⟨t, now, ht, hw⟩ := State.warpDrainDone_saves (State.drained_iff.2 ⟨he, hld, hst, hat, hp⟩) hi hu rfl hh hw
    let y := (s.warp k).toSave s.gtime
    obtain ⟨hs, hr, hmasks, hlpc, hevict, -, -, hmpc⟩ := y.enterMode_leaves false (s.lot (s.vat (s.warp k).vat).lot).code.svec
      (u.imageVa (s.warp k).vat) false (s.warp k).evictReason now
    obtain ⟨h0, h1, h2, h3⟩ := y.enterMode_bank false (s.lot (s.vat (s.warp k).vat).lot).code.svec
      (u.imageVa (s.warp k).vat) false (s.warp k).evictReason now
    refine ⟨t, ht, ?_⟩
    rw [hw]
    exact ⟨hevict, hs, hr, hmpc, hmasks, hlpc, h0.trans (BitVec.setWidth_eq_extractLsb' (by decide)), h1, h2, h3⟩
  case refine_6 =>
    obtain ⟨t, ht, hmem, hplace, hcore, hvv, hks⟩ := State.vatRestorePlace_returns hv hw hm hp hf hk
    exact ⟨t, ht, hmem, hplace, hcore, hvv, fun i hi =>
      have h := (hks i hi).1
      ⟨h.resident, h.core, h.evict, h.rmode, (hks i hi).2, h.mpc⟩⟩

end Sys2Proof.Machine
end
